-- ==== Sys2Proof/Word.lean ====
section
/-!
DEFINITION. The word types of the Terevo model and their plainest arithmetic.
The part is little-endian in every structure of its own (R5); the byte-order helpers stand in `Machine/Bytes.lean`.
-/

namespace Sys2Proof

/-- One byte of memory. -/
abbrev Byte := BitVec 8
/-- A 32-bit word: an instruction word (R244), a register half, a KDP argument. -/
abbrev W32 := BitVec 32
/-- A 64-bit word: a Forager general register, a device register, a scalar object. -/
abbrev W64 := BitVec 64
/-- A 128-bit word: W0 to W31 (R209). -/
abbrev W128 := BitVec 128
/-- A vector register V0 to V31 (R209). -/
abbrev W1024 := BitVec 1024
/-- A scalar accumulator A0 to A3 (R209). -/
abbrev W144 := BitVec 144
/-- A vector accumulator store VA0 to VA3 (R256). -/
abbrev WVA := BitVec 4096

/-- Ceiling division, as the spec writes ⌈a / b⌉. -/
def ceilDiv (a b : Nat) : Nat := (a + b - 1) / b

/-- Round up to a multiple of `k` (align64, align8 of the spec). -/
def alignUp (k a : Nat) : Nat := ceilDiv a k * k

/-- A counter of `w` bits that saturates. -/
def satAdd (w a b : Nat) : Nat := min (a + b) (2 ^ w - 1)

end Sys2Proof
end

