-- ==== Sys2Proof/Syntax.lean ====
section
/-!
DEFINITION. The commands of the Terevo, one constructor for each row of the command table.
A Forager instruction is a command to one physical Forager and carries every field of its format
(R244) that its mnemonic does not fix; the reserved fields are operands too, so that a nonzero reserved field
can be commanded and trapped (R276, R277). A command that a time bears on carries that time as an operand.
-/

namespace Sys2Proof

/-- A physical Forager: its Comb die and its number 0 to 67 on that die (R190). -/
structure FId where
  die : Nat
  fgr : Nat
  deriving DecidableEq, Repr

/-- A fixed unit that completes the morsel it holds: its die, its index in the order of R203 (0 to 3 Column
Streamers, 4 to 11 Hash Probe Engine lanes, 12 Merge Network, 13 Associative Match Unit, 14 to 29 digest engines)
and the fixed-unit cycles the morsel used, which the clock supplies. -/
structure UId where
  die  : Nat
  unit : Nat
  used : Nat
  deriving DecidableEq, Repr

/-- Format REG without its FN (R244). -/
structure RegF where
  rs : BitVec 2
  ss : BitVec 2
  rb : BitVec 5
  ra : BitVec 5
  rd : BitVec 5
  deriving DecidableEq, Repr

/-- Format REG with its FN as an operand: the string instructions (R246). -/
structure StrF where
  fn : BitVec 6
  rs : BitVec 2
  ss : BitVec 2
  rb : BitVec 5
  ra : BitVec 5
  rd : BitVec 5
  deriving DecidableEq, Repr

/-- Format SHF (R244). -/
structure ShfF where
  sh6 : BitVec 6
  rs  : BitVec 2
  ss  : BitVec 2
  rb  : BitVec 5
  ra  : BitVec 5
  rd  : BitVec 5
  deriving DecidableEq, Repr

/-- Format IMM without its FN3 (R244). -/
structure ImmF where
  imm : BitVec 12
  ra  : BitVec 5
  rd  : BitVec 5
  deriving DecidableEq, Repr

/-- Format BRA without its CND (R244). -/
structure BraF where
  off : BitVec 12
  rb  : BitVec 5
  ra  : BitVec 5
  deriving DecidableEq, Repr

/-- Format JMP (R244). -/
structure JmpF where
  imm : BitVec 20
  rd  : BitVec 5
  deriving DecidableEq, Repr

/-- Format ACR without its FN2 (R244); `rsv` is the reserved field [16:12]. -/
structure AcrF where
  sh7 : BitVec 7
  rs  : BitVec 2
  ss  : BitVec 2
  an  : BitVec 2
  rsv : BitVec 5
  rd  : BitVec 5
  deriving DecidableEq, Repr

/-- The origin of a dictionary access (R425). -/
inductive Origin where
  | loc
  | hostPf
  | hostVf (n : Nat)
  | oobMctp (eid binding : Nat)
  | oobEth (peer : Nat)
  deriving DecidableEq, Repr

/-- The unit kinds of R70. -/
inductive UnitKind where
  | streamer | forager | hash | merge | amu | digest | exchange
  deriving DecidableEq, Repr

/-- The Ridge links of R15. -/
inductive Ridge where
  | crest (die : Nat)
  | ring (i : Nat)
  | saddle
  deriving DecidableEq, Repr

/-- A KDP message (R432) without its OP, which the command names. -/
structure KdpMsg where
  version : Byte
  tag     : Byte
  status  : Byte
  index   : BitVec 16
  sub     : Byte
  rsv     : Byte
  arg     : W32
  body    : List Byte
  deriving DecidableEq, Repr

/-- A received Range Transport packet (R400). `macOk` says that check 1 of R402 passes: IPv6, UDP, the checksum and the
port. -/
structure RtPkt where
  macOk   : Bool
  version : Byte
  flags   : Byte
  plane   : Byte
  srcDev  : BitVec 16
  dstDev  : BitVec 16
  frame   : W64
  job     : W64
  dstInst : Byte
  srcInst : Byte
  dstGen  : BitVec 16
  flow    : BitVec 16
  seq     : BitVec 16
  morsel  : W32
  offset  : W32
  bytes   : W32
  crc     : W32
  payload : List Byte
  deriving DecidableEq, Repr

/-- What a HOST_COMPLETION answers (R24, R329). -/
inductive HostCpl where
  | readData
  | translation (iova : Nat)
  | refused
  deriving DecidableEq, Repr

/-- Which outstanding access of an instance a HOST_COMPLETION answers. -/
inductive HostAccess where
  | job (jid : Nat)
  | sq (q : Nat)
  | cq (q : Nat)
  deriving DecidableEq, Repr

/-- The channel of an event acknowledge or mask write (R475). -/
inductive EvtCh where
  | dict (o : Origin) (data : List Byte)
  | reg (n : Nat) (value : W64)
  deriving DecidableEq, Repr

/-- What a patrol read finds in its granule (R299, R301). -/
inductive ScrubFind where
  | clean | corrected | uncorrectable
  deriving DecidableEq, Repr

/-- Who holds the segmented transfer that has been idle for KDW_IDLE_MS (R431, R434). -/
inductive SegHolder where
  | window (fn : Nat)
  | session (i : Nat)
  deriving DecidableEq, Repr

/-- Where main power leaves a running MRAM commit (R437, R438). -/
inductive CommitCut where
  | untouched | inA | inB
  deriving DecidableEq, Repr

/-- What the bring-up tests of a step find (R492, R493), and the time the step took. -/
structure BringupEnv where
  /-- the dies whose Ridge link or stacks fail training, or that have no healthy Forager -/
  failedDies : List Nat
  /-- the Foragers that fail their test: die and physical number -/
  failedFgrs : List FId
  /-- the customer die's identity report, on a -G part; `none` when training or the report fails -/
  saddleReport : Option (List Byte)
  /-- milliseconds since the previous step -/
  ms : Nat
  deriving DecidableEq, Repr

/-- The commands. -/
inductive Instr where
  -- frames and clocks
  | frameTick
  | morselSave (f : FId)
  | morselResume (f : FId)
  | evictedRestore (f : FId)
  | overrunLimitReached (die jid stage : Nat)
  | framePeriod (o : Origin) (data : List Byte)
  | frameNumberRead (fn t : Nat)
  | syncModeSet (o : Origin)
  | syncModeClear (o : Origin)
  | t0TaiNs (o : Origin) (data : List Byte)
  | ptpMessage (offsetNs : Int)
  | lockingComplete (taiNs : Nat)
  | enterHoldover
  | relock
  | calDiscipline (taiSec : Nat) (utcOffset : Option Nat)
  -- the Brood scheduler
  | morselDispatch (die : Nat) (kind : UnitKind) (t : Nat)
  | readyLimit (n : Nat) (o : Origin) (data : List Byte)
  | statHold (fn : Nat) (value : W64)
  | statHoldExpired (fn : Nat)
  | retire (die : Nat) (o : Origin) (data : List Byte)
  | foragerErrThresh (f : FId)
  -- fixed-unit morsels
  | columnStreamerMorsel (u : UId)
  | clearMorsel (u : UId)
  | build (u : UId)
  | probeInner (u : UId)
  | probeLeft (u : UId)
  | probeSemi (u : UId)
  | probeAnti (u : UId)
  | group (u : UId)
  | drainMorsel (u : UId)
  | sortIngest (u : UId)
  | sortMerge (u : UId)
  | sortFinal (u : UId)
  | topnIngest (u : UId)
  | topnFinal (u : UId)
  | lookup (u : UId)
  | load (u : UId)
  | row (u : UId)
  | stream (u : UId)
  | amuBlockClear (die block : Nat)
  | amuSweepStep (die : Nat)
  | shadowFault (die index : Nat)
  -- queues
  | sqTailDoorbell (fn q size : Nat) (value : W64)
  | cqHeadDoorbell (fn q size : Nat) (value : W64)
  | aqCfg (fn size : Nat) (value : W64)
  | adminDisableDone (fn : Nat)
  | cqStall (n q : Nat)
  | chainFetch
  | jobAdmit (n : Nat)
  | createSq (n : Nat)
  | deleteSq (n : Nat)
  | sqDeleteComplete (n q : Nat)
  | createCq (n : Nat)
  | deleteCq (n : Nat)
  | loadImage (n : Nat)
  | loadImageChecksDone (n : Nat)
  | unloadImage (n : Nat)
  | imageUnloadComplete (n slot : Nat)
  | abortJob (n : Nat)
  | getStatusPage (n : Nat)
  | job (n : Nat)
  | controlPacketsMissing (djid : W64) (dev : Nat)
  -- the host port
  | flr (fn t : Nat)
  | d3hotToD0 (fn t : Nat)
  | vfEnable (on : Bool) (numVfs t : Nat)
  | atsInvalidation (n iova len : Nat)
  | linkDown
  | linkUp (width speed ms : Nat)
  | registerWrite (fn off size : Nat) (value : W64)
  -- instances
  | enable (n : Nat) (o : Origin) (t : Nat)
  | disable (n : Nat) (o : Origin) (t : Nat)
  | reset (n : Nat) (o : Origin) (t : Nat)
  | instResetDone (n : Nat)
  | freezeDrain (n : Nat) (o : Origin) (t : Nat)
  | freezeAbort (n : Nat) (o : Origin) (t : Nat)
  | freezeTimeout (n : Nat)
  | thaw (n : Nat) (o : Origin) (t : Nat)
  | coreFrames (n : Nat) (o : Origin) (data : List Byte)
  | share (n kind : Nat) (o : Origin) (data : List Byte)
  | fabricShare (n : Nat) (o : Origin) (data : List Byte)
  | imgStore (n : Nat) (o : Origin) (data : List Byte)
  | sqQuota (n : Nat) (o : Origin) (data : List Byte)
  | cqQuota (n : Nat) (o : Origin) (data : List Byte)
  | pasid (n : Nat) (o : Origin) (data : List Byte)
  -- memory and cache
  | ptPages (n : Nat) (o : Origin) (data : List Byte)
  | ptWrite (n : Nat) (o : Origin) (data : List Byte)
  | regions (n : Nat) (o : Origin) (data : List Byte)
  | ccWays (n : Nat) (hi : Bool) (o : Origin) (data : List Byte)
  | wayCleanDone (die way : Nat)
  | waySweepDone (die n : Nat)
  | pageReleaseCleanDone (page : Nat)
  | zeroFillDone (page : Nat)
  | ccLock (n : Nat) (hi : Bool) (o : Origin) (data : List Byte)
  | clean (n : Nat) (o : Origin)
  | cleanInval (n : Nat) (o : Origin)
  | invalDone (n : Nat)
  | dirtyCtl (n : Nat) (o : Origin) (data : List Byte)
  | powerDown (die way : Nat)
  | powerDownDone (die way : Nat)
  | powerUp (die way : Nat)
  | powerUpDone (die way : Nat)
  | wayEnable (die way : Nat)
  | ccWayDisable (die way : Nat)
  | ccWayDisabled (die way : Nat)
  | wayErrWindowEnd (die way : Nat)
  | ccCtl (die size : Nat) (value : W64)
  | ccDrainDone (die : Nat)
  | patrolScrub (stack : Nat) (found : ScrubFind)
  | bankSpare (stack channel bank : Nat)
  | bankSpareCopyDone (stack channel : Nat)
  -- migration and mailboxes
  | pageOut (n : Nat)
  | pageIn (n : Nat)
  | imageOut (n : Nat)
  | imageIn (n : Nat)
  | migCopyDone (n : Nat)
  | stateImage (n : Nat) (o : Origin) (data : List Byte)
  | restoreChecksDone (n : Nat)
  | mbxPost (fn n size : Nat) (value : W64)
  | mbxAck (fn n size : Nat) (value : W64)
  -- the Saddle site, links and errors
  | saddleEnable (o : Origin)
  | saddleEnableDone (report : Option (List Byte))
  | saddleDisable (o : Origin)
  | saddleDisableDone
  | saddlePortDown
  | saddleTimeout
  | saddleResponse (f : FId) (gen : BitVec 16) (value : W64) (err : Bool)
  | ridgeCrcError (l : Ridge)
  | ridgeLaneFail (l : Ridge)
  | crestLinkDown (die t : Nat)
  | ringLinkDown (i t : Nat)
  | ringRequestTimeout (jid die : Nat)
  | combUe (die t : Nat)
  | crestUe
  | foragerUe (f : FId)
  | dieFence (o : Origin) (data : List Byte) (t : Nat)
  | dieFenceComplete (die : Nat)
  -- the Range fabric
  | data (port : Nat) (p : RtPkt)
  | control (port : Nat) (p : RtPkt) (t : Nat)
  | fabricLoss (jid : Nat)
  | joinTimeout (jid : Nat)
  | portDown (port : Nat)
  | portUp (port : Nat)
  | portDisable (port : Nat) (o : Origin)
  | portEnable (port : Nat) (o : Origin)
  | neighborSolicitation (port : Option Nat) (target : BitVec 128)
  | echoRequest (port : Option Nat) (target : BitVec 128) (body : List Byte)
  | deviceId (o : Origin) (data : List Byte)
  | portMode (o : Origin) (data : List Byte)
  | vfVectors (o : Origin) (data : List Byte)
  -- Keeper, the dictionary and the audit log
  | read (fn : Nat) (arg : W32)
  | write (fn : Nat) (arg : W32)
  | segRead (fn : Nat) (arg : W32)
  | segWrite (fn : Nat) (arg : W32)
  | endXfer (fn : Nat) (arg : W32)
  | abort (fn : Nat) (arg : W32)
  | kdwDataWrite (fn size : Nat) (value : W64)
  | kdwDataRead (fn size : Nat)
  | kdpRead (o : Origin) (m : KdpMsg)
  | kdpWrite (o : Origin) (m : KdpMsg)
  | segReadStart (o : Origin) (m : KdpMsg)
  | segWriteStart (o : Origin) (m : KdpMsg)
  | segData (o : Origin) (m : KdpMsg)
  | segEnd (o : Origin) (m : KdpMsg)
  | segAbort (o : Origin) (m : KdpMsg)
  | segTimeout (h : SegHolder)
  | setEndpointId (eid binding newEid : Nat)
  | getEndpointId (eid binding : Nat)
  | getMctpVersionSupport (eid binding msgType : Nat)
  | getMessageTypeSupport (eid binding : Nat)
  | getVendorDefinedMessageSupport (eid binding selector : Nat)
  | dictWrite (o : Origin) (index sub : Nat) (data : List Byte) (t : Nat)
  | persistCommit (verified : Bool)
  | logAck (o : Origin) (data : List Byte)
  | logMode (o : Origin) (data : List Byte)
  | logRead (o : Origin)
  | calTime (o : Origin) (data : List Byte)
  | calState (o : Origin) (data : List Byte)
  | quoteReq (n : Nat) (o : Origin) (data : List Byte)
  | quoteSigned
  | measExtend (o : Origin) (data : List Byte)
  | imeasExtend (n : Nat) (o : Origin) (data : List Byte)
  | svnRaise (o : Origin) (data : List Byte)
  | fwStage (o : Origin) (data : List Byte)
  | fwSwitch (o : Origin) (data : List Byte)
  | fwSwitchFail
  | evtAck (c : EvtCh)
  | evtMask (c : EvtCh)
  | eventHoldoffEnd (g : Nat)
  | keeperWatchdog
  | keeperRestart
  | warmReset (o : Origin) (data : List Byte)
  | deviceClassError
  | perstAssert
  | perstDeassert
  | bringupTimeout
  | railFault (rail : Nat)
  | thermalSample (temps : List Int)
  | throttleStepUp
  | arithTrapDelivery (f : FId)
  -- Forager instructions: integer
  | add (f : FId) (x : RegF)
  | sub (f : FId) (x : RegF)
  | neg (f : FId) (x : RegF)
  | abs (f : FId) (x : RegF)
  | and (f : FId) (x : RegF)
  | or (f : FId) (x : RegF)
  | xor (f : FId) (x : RegF)
  | andn (f : FId) (x : RegF)
  | sll (f : FId) (x : RegF)
  | srl (f : FId) (x : RegF)
  | sra (f : FId) (x : RegF)
  | ror (f : FId) (x : RegF)
  | min (f : FId) (x : RegF)
  | max (f : FId) (x : RegF)
  | minu (f : FId) (x : RegF)
  | maxu (f : FId) (x : RegF)
  | seq (f : FId) (x : RegF)
  | slt (f : FId) (x : RegF)
  | sltu (f : FId) (x : RegF)
  | clz (f : FId) (x : RegF)
  | ctz (f : FId) (x : RegF)
  | popc (f : FId) (x : RegF)
  | bswap (f : FId) (x : RegF)
  | addcy (f : FId) (x : RegF)
  | addc (f : FId) (x : RegF)
  | subby (f : FId) (x : RegF)
  | subb (f : FId) (x : RegF)
  | addi (f : FId) (x : ImmF)
  | andi (f : FId) (x : ImmF)
  | ori (f : FId) (x : ImmF)
  | xori (f : FId) (x : ImmF)
  | slli (f : FId) (x : ImmF)
  | srli (f : FId) (x : ImmF)
  | srai (f : FId) (x : ImmF)
  | slti (f : FId) (x : ImmF)
  | lui (f : FId) (x : JmpF)
  | auipc (f : FId) (x : JmpF)
  | srar (f : FId) (x : ShfF)
  | mul (f : FId) (x : RegF)
  | mulh (f : FId) (x : RegF)
  | mulhu (f : FId) (x : RegF)
  | mulw (f : FId) (x : RegF)
  | mulwu (f : FId) (x : RegF)
  | mulq (f : FId) (x : ShfF)
  | div (f : FId) (x : RegF)
  | divu (f : FId) (x : RegF)
  | rem (f : FId) (x : RegF)
  | remu (f : FId) (x : RegF)
  | divw (f : FId) (x : RegF)
  | divwu (f : FId) (x : RegF)
  | accclr (f : FId) (x : RegF)
  | accadd (f : FId) (x : RegF)
  | accaddw (f : FId) (x : RegF)
  | accmac (f : FId) (x : RegF)
  | accmsu (f : FId) (x : RegF)
  | accwr (f : FId) (x : RegF)
  | accrd (f : FId) (x : AcrF)
  | accrdw (f : FId) (x : AcrF)
  | accrdx (f : FId) (x : AcrF)
  | bina (f : FId) (x : RegF)
  | binb (f : FId) (x : RegF)
  -- Forager instructions: memory
  | lb (f : FId) (x : ImmF)
  | lh (f : FId) (x : ImmF)
  | lw (f : FId) (x : ImmF)
  | ld (f : FId) (x : ImmF)
  | lbu (f : FId) (x : ImmF)
  | lhu (f : FId) (x : ImmF)
  | lwu (f : FId) (x : ImmF)
  | lq (f : FId) (x : ImmF)
  | sb (f : FId) (x : ImmF)
  | sh (f : FId) (x : ImmF)
  | sw (f : FId) (x : ImmF)
  | sd (f : FId) (x : ImmF)
  | sq (f : FId) (x : ImmF)
  | lbL (f : FId) (x : ImmF)
  | lhL (f : FId) (x : ImmF)
  | lwL (f : FId) (x : ImmF)
  | ldL (f : FId) (x : ImmF)
  | lbuL (f : FId) (x : ImmF)
  | lhuL (f : FId) (x : ImmF)
  | lwuL (f : FId) (x : ImmF)
  | lqL (f : FId) (x : ImmF)
  | sbL (f : FId) (x : ImmF)
  | shL (f : FId) (x : ImmF)
  | swL (f : FId) (x : ImmF)
  | sdL (f : FId) (x : ImmF)
  | sqL (f : FId) (x : ImmF)
  | amoadd (f : FId) (x : RegF)
  | amoswap (f : FId) (x : RegF)
  | amocas (f : FId) (x : RegF)
  | fence (f : FId) (x : RegF)
  | fenceRel (f : FId) (x : RegF)
  | fenceAcq (f : FId) (x : RegF)
  -- Forager instructions: control
  | beq (f : FId) (x : BraF)
  | bne (f : FId) (x : BraF)
  | blt (f : FId) (x : BraF)
  | bge (f : FId) (x : BraF)
  | bltu (f : FId) (x : BraF)
  | bgeu (f : FId) (x : BraF)
  | jal (f : FId) (x : JmpF)
  | jalr (f : FId) (x : ImmF)
  | loop (f : FId) (x : ImmF)
  | abar (f : FId) (x : RegF)
  | mdone (f : FId) (x : RegF)
  | memit (f : FId) (x : RegF)
  | brk (f : FId) (x : RegF)
  | rtp (f : FId) (x : RegF)
  | rdcr (f : FId) (x : ImmF)
  | wrcr (f : FId) (x : ImmF)
  | setcr (f : FId) (x : ImmF)
  | clrcr (f : FId) (x : ImmF)
  -- Forager instructions: vector
  | vsetvl (f : FId) (x : ImmF)
  | vadd (f : FId) (x : RegF)
  | vsub (f : FId) (x : RegF)
  | vneg (f : FId) (x : RegF)
  | vabs (f : FId) (x : RegF)
  | vand (f : FId) (x : RegF)
  | vor (f : FId) (x : RegF)
  | vxor (f : FId) (x : RegF)
  | vandn (f : FId) (x : RegF)
  | vsll (f : FId) (x : RegF)
  | vsrl (f : FId) (x : RegF)
  | vsra (f : FId) (x : RegF)
  | vmin (f : FId) (x : RegF)
  | vmax (f : FId) (x : RegF)
  | vminu (f : FId) (x : RegF)
  | vmaxu (f : FId) (x : RegF)
  | vmul (f : FId) (x : RegF)
  | vmulh (f : FId) (x : RegF)
  | vmulhu (f : FId) (x : RegF)
  | vaddVx (f : FId) (x : RegF)
  | vsubVx (f : FId) (x : RegF)
  | vandVx (f : FId) (x : RegF)
  | vorVx (f : FId) (x : RegF)
  | vxorVx (f : FId) (x : RegF)
  | vandnVx (f : FId) (x : RegF)
  | vsllVx (f : FId) (x : RegF)
  | vsrlVx (f : FId) (x : RegF)
  | vsraVx (f : FId) (x : RegF)
  | vminVx (f : FId) (x : RegF)
  | vmaxVx (f : FId) (x : RegF)
  | vminuVx (f : FId) (x : RegF)
  | vmaxuVx (f : FId) (x : RegF)
  | vmulVx (f : FId) (x : RegF)
  | vmulhVx (f : FId) (x : RegF)
  | vmulhuVx (f : FId) (x : RegF)
  | vmulq (f : FId) (x : ShfF)
  | vsrar (f : FId) (x : ShfF)
  | vcmpeq (f : FId) (x : RegF)
  | vcmpne (f : FId) (x : RegF)
  | vcmplt (f : FId) (x : RegF)
  | vcmple (f : FId) (x : RegF)
  | vcmpltu (f : FId) (x : RegF)
  | vcmpleu (f : FId) (x : RegF)
  | vmand (f : FId) (x : RegF)
  | vmor (f : FId) (x : RegF)
  | vmxor (f : FId) (x : RegF)
  | vmandn (f : FId) (x : RegF)
  | vcompress (f : FId) (x : RegF)
  | vexpand (f : FId) (x : RegF)
  | vmerge (f : FId) (x : RegF)
  | vpopc (f : FId) (x : RegF)
  | vfirst (f : FId) (x : RegF)
  | viota (f : FId) (x : RegF)
  | vacclr (f : FId) (x : RegF)
  | vacadd (f : FId) (x : RegF)
  | vacaddu (f : FId) (x : RegF)
  | vacmac (f : FId) (x : RegF)
  | vacmsu (f : FId) (x : RegF)
  | vacsum (f : FId) (x : RegF)
  | vacrd (f : FId) (x : AcrF)
  | vbina (f : FId) (x : RegF)
  | vbinb (f : FId) (x : RegF)
  | vsort (f : FId) (x : RegF)
  | vsortp (f : FId) (x : RegF)
  | vmrglo (f : FId) (x : RegF)
  | vmrghi (f : FId) (x : RegF)
  | vmv (f : FId) (x : RegF)
  | vget (f : FId) (x : RegF)
  | vput (f : FId) (x : RegF)
  | vsplat (f : FId) (x : RegF)
  | vld (f : FId) (x : ImmF)
  | vldL (f : FId) (x : ImmF)
  | vldff (f : FId) (x : ImmF)
  | vst (f : FId) (x : ImmF)
  | vstL (f : FId) (x : ImmF)
  | vlds (f : FId) (x : RegF)
  | vldsL (f : FId) (x : RegF)
  | vsts (f : FId) (x : RegF)
  | vstsL (f : FId) (x : RegF)
  | vgath (f : FId) (x : RegF)
  | vgathL (f : FId) (x : RegF)
  | vgathff (f : FId) (x : RegF)
  | vscat (f : FId) (x : RegF)
  | vscatL (f : FId) (x : RegF)
  -- Forager instructions: strings and attached units
  | movs (f : FId) (x : StrF)
  | fills (f : FId) (x : StrF)
  | cmps (f : FId) (x : StrF)
  | scans (f : FId) (x : StrF)
  | matchs (f : FId) (x : StrF)
  | amlk (f : FId) (x : RegF)
  | amwr (f : FId) (x : RegF)
  | amrd (f : FId) (x : RegF)
  | dginit (f : FId) (x : RegF)
  | dgupd (f : FId) (x : RegF)
  | dgfin (f : FId) (x : RegF)
  | dgabt (f : FId) (x : RegF)
  | dgcmp (f : FId) (x : RegF)
  | saddleOp (f : FId) (word : W32)
  | illegalInstruction (f : FId) (word : W32)
  | fetchFault (f : FId)
  -- power, reset and the rest
  | d0ToD3hot (fn : Nat)
  | pcieHotReset (t : Nat)
  | hostCompletion (n : Nat) (gen : BitVec 16) (a : HostAccess) (c : HostCpl)
  | mainPowerOn
  | mainPowerOff (cut : CommitCut)
  | calendarStop
  | bringupStepComplete (e : BringupEnv)
  | resultDigestChunk (u : UId) (jid buffer : Nat)
  | kdpResponseExpiry (o : Origin) (tag : Nat)
  deriving DecidableEq, Repr

end Sys2Proof
end

