-- ==== Sys2Proof/Decode.lean ====
section
/-!
DEFINITION. The command that a word spells. No row of the command table gives bits, so no word spells a command: a command comes to
the block from outside as itself (notes/assumptions/1.md).
-/

namespace Sys2Proof

/-- The command whose bits are `w`, numbered as the command table numbers them: none, for no row gives bits. -/
def decodeTableWord (_nbits _w : Nat) : Option Instr := none

end Sys2Proof
end

