-- ==== Sys2Proof/Machine/Bytes.lean ====
section
/-!
DEFINITION. Byte strings: little-endian numbers (R5), fields of a block of bytes, bit maps, CRC-32C (R431), and the sparse
byte memories in their one canonical form.
-/

namespace Sys2Proof.Machine

-- NUMBERS AND BYTES -------------------------------------------------------------------------------------------------

/-- The number that bytes spell, least significant first (R5). -/
def leNat : List Byte → Nat
  | [] => 0
  | b :: bs => b.toNat + 256 * leNat bs

/-- The `k` low bytes of a number, least significant first (R5). -/
def leBytes : Nat → Nat → List Byte
  | 0, _ => []
  | k + 1, n => BitVec.ofNat 8 n :: leBytes k (n / 256)

/-- The number that bytes spell, most significant first. -/
def beNat (bs : List Byte) : Nat := leNat bs.reverse

/-- The `k` low bytes of a number, most significant first. -/
def beBytes (k n : Nat) : List Byte := (leBytes k n).reverse

/-- `n` bytes from offset `off`; bytes past the end are absent. -/
def slice (bs : List Byte) (off n : Nat) : List Byte := (bs.drop off).take n

/-- The little-endian field of `n` bytes at offset `off`. -/
def field (bs : List Byte) (off n : Nat) : Nat := leNat (slice bs off n)

/-- The byte at an offset; 0 past the end. -/
def byteAt (bs : List Byte) (off : Nat) : Nat := (bs.getD off 0).toNat

/-- Every byte of a block is zero: the check of a reserved field. -/
def allZero (bs : List Byte) : Bool := bs.all (· == 0)

def zeros (n : Nat) : List Byte := List.replicate n 0

/-- `bs` cut or padded with zeros to `n` bytes. -/
def fit (n : Nat) (bs : List Byte) : List Byte := bs.take n ++ zeros (n - bs.length)

/-- Bytes of a text in ASCII. -/
def ascii (t : String) : List Byte := t.toList.map fun c => BitVec.ofNat 8 c.toNat

/-- Overwrite the bytes of `bs` at offset `off` by `new`. -/
def patch (bs : List Byte) (off : Nat) (new : List Byte) : List Byte :=
  bs.take off ++ new ++ bs.drop (off + new.length)

/-- Bit `i` of a number. -/
def bit (n i : Nat) : Bool := n / 2 ^ i % 2 == 1

/-- Bits [hi:lo] of a number. -/
def bits (n hi lo : Nat) : Nat := n / 2 ^ lo % 2 ^ (hi + 1 - lo)

/-- The number whose bits `is` are 1. -/
def bitmap (is : List Nat) : Nat := is.eraseDups.foldl (fun n i => n + 2 ^ i) 0

/-- Byte `d` of a per-die word (R369). -/
def dieByte (w : W64) (d : Nat) : Nat := w.toNat / 256 ^ d % 256

/-- The two's-complement value of the low `w` bits of a number. -/
def sint (w n : Nat) : Int :=
  let m := n % 2 ^ w
  if 2 * m < 2 ^ w then (m : Int) else (m : Int) - (2 ^ w : Nat)

/-- The `w`-bit two's-complement code of an integer. -/
def ucode (w : Nat) (i : Int) : Nat := (i % (2 ^ w : Nat)).toNat

/-- Sign-extension of a scalar value from `k` bytes to 64 bits (R430, R439). -/
def extend64 (signed : Bool) (bs : List Byte) : W64 :=
  if signed then BitVec.ofInt 64 (sint (8 * bs.length) (leNat bs)) else BitVec.ofNat 64 (leNat bs)

-- CRC-32C --------------------------------------------------------------------------------------------------------------

/-- Eight steps of the reflected Castagnoli polynomial. -/
def crcByte (c : W32) : Nat → W32
  | 0 => c
  | k + 1 => crcByte (if c.getLsbD 0 then (c >>> 1) ^^^ 0x82F63B78 else c >>> 1) k

/-- CRC-32C: reflected, initial value and final XOR 0xFFFF_FFFF (R431). -/
def crc32c (bs : List Byte) : W32 :=
  bs.foldl (fun c b => crcByte (c ^^^ b.setWidth 32) 8) 0xFFFFFFFF ^^^ 0xFFFFFFFF

-- SPARSE BYTE MEMORIES --------------------------------------------------------------------------------------------------

/-- The byte at an address: an unlisted address reads 0 (DESIGN CHOICE, notes/assumptions/3.md). -/
def memGet : List Host.Cell → Nat → Byte
  | [], _ => 0
  | (k, v) :: t, a => if a < k then 0 else if a = k then v else memGet t a

/-- Write one byte; the list keeps its canonical form. -/
def memSet : List Host.Cell → Nat → Byte → List Host.Cell
  | [], a, b => if b = 0 then [] else [(a, b)]
  | (k, v) :: t, a, b =>
    if a < k then (if b = 0 then (k, v) :: t else (a, b) :: (k, v) :: t)
    else if a = k then (if b = 0 then t else (k, b) :: t)
    else (k, v) :: memSet t a b

/-- The canonical form above a floor: addresses strictly rising, no byte equal to what an unlisted address reads as. -/
def Memory.wfFrom : Nat → List Host.Cell → Bool
  | _, [] => true
  | lo, (k, v) :: t => decide (lo ≤ k) && decide (v ≠ 0) && Memory.wfFrom (k + 1) t

/-- The canonical form of a sparse byte memory. -/
def Memory.wf (m : List Host.Cell) : Bool := Memory.wfFrom 0 m

/-- `n` bytes from an address. -/
def memRead (m : List Host.Cell) (a : Nat) : Nat → List Byte
  | 0 => []
  | n + 1 => memGet m a :: memRead m (a + 1) n

/-- Write bytes at consecutive addresses. -/
def memWrite (m : List Host.Cell) (a : Nat) : List Byte → List Host.Cell
  | [] => m
  | b :: bs => memWrite (memSet m a b) (a + 1) bs

/-- Zero a range. -/
def memZero (m : List Host.Cell) (a n : Nat) : List Host.Cell := m.filter fun c => c.1 < a || a + n ≤ c.1

-- SORTED LISTS OF NUMBERS -----------------------------------------------------------------------------------------------

/-- Insert into an ascending list without repeats. -/
def insAsc (n : Nat) : List Nat → List Nat
  | [] => [n]
  | k :: t => if n < k then n :: k :: t else if n = k then k :: t else k :: insAsc n t

/-- Set the entry for a key in an ascending association list. -/
def assocSet {α : Type} (n : Nat) (v : α) : List (Nat × α) → List (Nat × α)
  | [] => [(n, v)]
  | (k, w) :: t => if n < k then (n, v) :: (k, w) :: t else if n = k then (n, v) :: t else (k, w) :: assocSet n v t

/-- The entry for a key. -/
def assocGet {α : Type} (n : Nat) : List (Nat × α) → Option α
  | [] => none
  | (k, w) :: t => if n = k then some w else assocGet n t

/-- The least number below `n` that satisfies a test. -/
def firstBelow (n : Nat) (p : Nat → Bool) : Option Nat := (List.range n).find? p

/-- Stable insertion into a list ordered by `le`. -/
def insertBy {α : Type} (le : α → α → Bool) (x : α) : List α → List α
  | [] => [x]
  | y :: t => if le y x then y :: insertBy le x t else x :: y :: t

/-- Stable insertion sort. -/
def sortBy {α : Type} (le : α → α → Bool) (l : List α) : List α := l.foldl (fun acc x => insertBy le x acc) []

end Sys2Proof.Machine
end

