-- ==== Sys2Proof/Config.lean ====
section
/-!
DEFINITION. What an implementation fixes, the constants the spec gives, and the FREE VALUES: opaque
constants without a body, so that nothing can be proved of the value they take. Each is named in `notes/assumptions/`.
-/

namespace Sys2Proof.Config

-- FREE VALUES -------------------------------------------------------------------------------------------------------

/-- Forager cycles that one instruction takes to retire, drawn with the state's counter (R212, R224: CYCLE counts
cycles; dual issue, cache and ring timing are outside the model). DESIGN CHOICE, notes/assumptions/9.md. -/
opaque instrCycles : Nat → Nat

/-- Whether a Forager's data cache still holds a line that differs from its home (R270 leaves it open), drawn with
the counter. DESIGN CHOICE, notes/assumptions/10.md. -/
opaque dcacheKept : Nat → Bool

/-- Where in a morsel arena an output buffer is put (R115: only the arena is named), drawn with the counter. DESIGN CHOICE, notes/assumptions/11.md. -/
opaque arenaPlace : Nat → Nat

/-- The rank of a match among the several matches of one probe row (R147: that order is not defined). DESIGN CHOICE, notes/assumptions/12.md. -/
opaque matchRank : Nat → Nat → Nat

/-- LOGICAL_TYPE, FORM and SCALE of a payload column that a probe emits (R147 does not give them): field index, and 0 to 2 for
the three. DESIGN CHOICE, notes/assumptions/12.md. -/
opaque payloadMeta : Nat → Nat → Nat

/-- Whether a loss of main power during step 3 of a commit finds the write of copy B begun (R438: case 1) or not yet (case 3), drawn with the
counter. DESIGN CHOICE, notes/assumptions/13.md. -/
opaque cutInCopyB : Nat → Bool

/-- SLH-DSA-SHA2-128s verification of firmware headers (R462, FIPS 205): message, signature. DESIGN CHOICE, notes/assumptions/14.md. -/
opaque slhVerify : List Byte → List Byte → Bool

/-- SLH-DSA-SHA2-128f signing with the identity key (R468, R469): message to 17,088 bytes. DESIGN CHOICE, notes/assumptions/14.md. -/
opaque slhSign : List Byte → List Byte

/-- Where the code, constants and parameters of an image stand in the instance address space (R75 gives no address): the
image handle, and 0 to 127 a section, 128 + k the parameter block of stage k. DESIGN CHOICE, notes/assumptions/15.md. -/
opaque sectionBase : Nat → Nat → Nat

/-- Where in LDM the Runtime copies the input descriptor, and where it puts the output descriptor (R75 gives no address), drawn with
the counter: numbers of 64-byte blocks. DESIGN CHOICE, notes/assumptions/15.md. -/
opaque descriptorIn : Nat → Nat
opaque descriptorOut : Nat → Nat

/-- What the output descriptor at G2 holds when a Forager morsel starts (R75 and R514 do not say), drawn with the counter. DESIGN CHOICE, notes/assumptions/15.md. -/
opaque outputDescriptor : Nat → List Byte

/-- What the descriptor of a source morsel holds for a unit other than a Column Streamer (no rule says), drawn with the counter. DESIGN CHOICE, notes/assumptions/16.md. -/
opaque sourceDescriptor : Nat → List Byte

/-- The bytes by which the rows of a sink morsel stand in the result buffer (R175 gives no layout): its descriptor, then for each
column its lanes, validity bits and heap. DESIGN CHOICE, notes/assumptions/17.md. -/
opaque resultRows : List Byte → List (List Byte) → List Byte

/-- Cycles of the closing frame in which a logical Forager held a running morsel of an instance (R196; timing is outside the model),
drawn with the counter: draw, Forager, instance. DESIGN CHOICE, notes/assumptions/18.md. -/
opaque foragerBusy : Nat → Nat → Nat → Nat

/-- Where the Service trap handler stands that Keeper installed (R233). DESIGN CHOICE, notes/assumptions/19.md. -/
opaque serviceHandler : BitVec 48

/-- The group states that the Runtime finalises in one final-aggregation morsel (R91 to R94: where they stand is not given), as bytes
of R91, drawn with the counter. DESIGN CHOICE, notes/assumptions/20.md. -/
opaque groupStates : Nat → List (List Byte)

/-- The part's identity data that no rule gives: 0 SERIAL, 1 IDENTITY_PUB, 2 IDENTITY_CERT, 3 + p the MAC of port p (R421, R450, R470). DESIGN CHOICE, notes/assumptions/21.md. -/
opaque identity : Nat → List Byte

/-- INDEX, SUB and VALUE of an audit record of KIND DEVICE (R439 and R440 do not give them): event source, draw; 35 bytes. DESIGN CHOICE, notes/assumptions/21.md. -/
opaque deviceRecord : Nat → Nat → List Byte

/-- Which of the free image slots a LOAD_IMAGE takes (R78 does not say), drawn with the counter. DESIGN CHOICE, notes/assumptions/61.md. -/
opaque imageSlot : Nat → Nat

/-- A byte of a result buffer or merge area whose contents are undefined after a failure (R87, R169), drawn with the counter: draw, address.
DESIGN CHOICE, notes/assumptions/45.md. -/
opaque undefinedByte : Nat → Nat → Byte

/-- What the firmware flash holds when the model begins (R462 gives the layout of an image and no image): slot; 0 the Keeper image, 1 the
Runtime image. DESIGN CHOICE, notes/assumptions/22.md. -/
opaque flashImage : Nat → Nat → List Byte

/-- MCTP version entries for a message type, after their count, and the two bytes of the vendor-defined command set (R435 names the messages
only). DESIGN CHOICE, notes/assumptions/23.md. -/
opaque mctpVersions : Nat → List Byte
opaque vendorSet : List Byte

-- CONSTANTS ---------------------------------------------------------------------------------------------------------

/-- Fixed-unit clock, MHz (R3). -/
def unitMHz : Nat := 1600
/-- Allocatable pages of one die's window (R21). -/
def pagesPerDie : Nat := 24320
/-- A page of 2 MiB. -/
def pageBytes : Nat := 0x200000
/-- One die's RLM window (R20). -/
def windowBytes : Nat := 0x1000000000
/-- Physical Foragers on a die (R190). -/
def physForagers : Nat := 68
/-- Saved-morsel area, morsels per die (R52). -/
def savedMorsels : Nat := 128
/-- Ready morsels per die (R182). -/
def readyCapacity : Nat := 65536
/-- Ready excess area per instance and die (R183). -/
def excessPerInstance : Nat := 1024
/-- Ordered-flow contexts per die (R80). -/
def orderedContexts : Nat := 1024
/-- The reorder window (R173). -/
def window : Nat := 4096
/-- Overflow list per die (R173). -/
def overflowEntries : Nat := 16384
/-- Tables in use (R156). -/
def tablesInUse : Nat := 1024
/-- Admission table (R348). -/
def admissionEntries : Nat := 16384
/-- Completions at one boundary (R344). -/
def completionsPerBoundary : Nat := 2048
/-- Page-table store (R303). -/
def ptStore : Nat := 524288
/-- Audit log records (R441). -/
def logRecords : Nat := 65536

-- JOB AND COMMAND STATUS (R357) ----------------------------------------------------------------------------------

def stSuccess : Nat := 0x00
def stInvalidField : Nat := 0x01
def stInvalidOpcode : Nat := 0x02
def stChainBroken : Nat := 0x03
def stInvalidQueue : Nat := 0x04
def stQueueQuota : Nat := 0x05
def stQueueBusy : Nat := 0x06
def stAborted : Nat := 0x07
def stJobDone : Nat := 0x08
def stJobUnknown : Nat := 0x09
def stMemFault : Nat := 0x10
def stBoundExceeded : Nat := 0x11
def stArithOverflow : Nat := 0x12
def stDieFenced : Nat := 0x13
def stFabricLoss : Nat := 0x14
def stSyncLost : Nat := 0x15
def stRuntimeFault : Nat := 0x16
def stImgDigest : Nat := 0x40
def stImgNoSpace : Nat := 0x41
def stImgFormat : Nat := 0x42
def stImgVersion : Nat := 0x43
def stImgGraph : Nat := 0x44
def stImgBound : Nat := 0x45
def stImgUnsupported : Nat := 0x46
def stImgHandle : Nat := 0x47
def stCcfFormat : Nat := 0x50
def stLenShort : Nat := 0x51
def stLenLong : Nat := 0x52
def stDecodeRange : Nat := 0x53
def stHashFull : Nat := 0x58
def stHashTableState : Nat := 0x59
def stHashDupKey : Nat := 0x5A
def stHashSpillFull : Nat := 0x5B
def stHashFanout : Nat := 0x5C
def stSortAreaFull : Nat := 0x60
def stSortOrder : Nat := 0x61
def stFlowOverflow : Nat := 0x62
def stAmuIndex : Nat := 0x64
def stAmuState : Nat := 0x65
def stReadyOverflow : Nat := 0x68
def stForagerTrap : Nat := 0x70
def stArithDivZero : Nat := 0x71

-- DICTIONARY ABORT CODES (R427) --------------------------------------------------------------------------------------

def abOk : Nat := 0x00
def abNoObject : Nat := 0x01
def abAccess : Nat := 0x02
def abReadOnly : Nat := 0x03
def abWriteOnly : Nat := 0x04
def abTypeLength : Nat := 0x05
def abValueRange : Nat := 0x06
def abWrongState : Nat := 0x07
def abBusy : Nat := 0x08
def abLogFull : Nat := 0x09
def abCrc : Nat := 0x0A
def abLength : Nat := 0x0B
def abSequence : Nat := 0x0C
def abTimeout : Nat := 0x0D
def abAborted : Nat := 0x0E
def abPersist : Nat := 0x0F
def abNotReady : Nat := 0x10
def abBadRequest : Nat := 0x11

-- EVENT SOURCES (R471) --------------------------------------------------------------------------------------------------

def evRsvdWrite : Nat := 0
def evQueueError : Nat := 1
def evCqStall : Nat := 2
def evLinkDown : Nat := 3
def evLinkUp : Nat := 4
def evInstResetDone : Nat := 32
def evFreezeDone : Nat := 33
def evFreezeTimeout : Nat := 34
def evRestoreDone : Nat := 35
def evMigCopyDone : Nat := 36
def evStaleDiscard : Nat := 37
def evRlmSpare : Nat := 64
def evRlmSpareExhausted : Nat := 65
def evPatrolPass : Nat := 66
def evCcDrainDone : Nat := 67
def evSyncLocked : Nat := 96
def evSyncHoldover : Nat := 97
def evAlignLost : Nat := 98
def evReadyOverflow : Nat := 99
def evBoundExceeded : Nat := 100
def evStatHoldExpired : Nat := 101
def evFabricExchangeIn : Nat := 128
def evFabricExchangeOut : Nat := 129
def evFabricConfig : Nat := 130
def evFabricCtrlHeavy : Nat := 131
def evFabricSplit : Nat := 132
def evFabricLoss : Nat := 133
def evPortDown : Nat := 134
def evPortUp : Nat := 135
def evDigestCmpFault : Nat := 160
def evBootFallback : Nat := 161
def evFwStageReject : Nat := 162
def evSvnRaised : Nat := 163
def evPersistFault : Nat := 192
def evPersistRecovered : Nat := 193
def evLogHoldFull : Nat := 194
def evCalInvalid : Nat := 195
def evFwSwitchDone : Nat := 196
def evFwSwitchFail : Nat := 197
def evKeeperRestart : Nat := 198
def evThermalThrottle : Nat := 199
def evThermalCrit : Nat := 200
def evRailFault : Nat := 201
def evDieError (d : Nat) : Nat := 224 + 4 * d
def evDieRepair (d : Nat) : Nat := 225 + 4 * d
def evFrameOverrun (d : Nat) : Nat := 226 + 4 * d
def evDieFence (d : Nat) : Nat := 227 + 4 * d

end Sys2Proof.Config
end

