-- ==== Sys2Proof/Machine/State.lean ====
section
/-!
DEFINITION. The state of the Terevo: every register, table, buffer and counter the spec names, as plain data,
the queue of waiting commands, the faults and refusals, and the state right after reset.
Each field's docstring names the rule that gives it.
-/

namespace Sys2Proof.Machine

-- FAULTS AND REFUSALS ------------------------------------------------------------------------------------------------

/-- Why the machine stops. No rule of the spec stops the block: no meaning raises a fault. -/
inductive Fault where
  /-- Raised by no command. Safe: it never ends a run. -/
  | none
  deriving DecidableEq, Repr

/-- Why a command has no effect in the model. -/
inductive Refusal where
  /-- A command whose meaning is not written, by its mnemonic. Safe: the model stops where the hardware goes on. -/
  | notModelled (mnemonic : String)
  deriving DecidableEq, Repr

-- THE PART -----------------------------------------------------------------------------------------------------------

/-- What is fixed at manufacture (R2, R3, R4, R450). -/
structure Part where
  /-- Comb dies, 2, 4 or 8 (R2, R13) -/
  dies : Nat
  /-- nominal Forager clock in MHz, 2400 or 2000 (R2, R32) -/
  fclkMHz : Nat
  /-- the -G suffix: a populated Saddle site (R4) -/
  g : Bool
  /-- SILICON_REV (R450) -/
  siliconRev : BitVec 16
  /-- VENDOR_PCI_ID (R450) -/
  vendorPci : BitVec 16
  deriving DecidableEq, Repr

-- FORAGERS -----------------------------------------------------------------------------------------------------------

/-- A pending imprecise arithmetic trap (R235): its cause, 0x09 or 0x0A, and how many later instructions have completed. -/
structure Pend where
  cause : Nat
  after : Nat
  deriving DecidableEq, Repr

/-- The registers of a Forager (R209, R211, R212). -/
structure FRegs where
  /-- G0 to G31 -/
  g : Vector W64 32
  /-- V0 to V31; Wn is the low 128 bits (R210) -/
  v : Vector W1024 32
  /-- A0 to A3 -/
  a : Vector W144 4
  /-- VA0 to VA3, each a 4,096-bit store (R256) -/
  va : Vector WVA 4
  pc : BitVec 48
  /-- FXCSR (R215) -/
  fxcsr : W64
  /-- FXEPC (R216) -/
  fxepc : W64
  /-- CORE_CTL (R214), MODE in [15:14] -/
  coreCtl : W64
  /-- VL, VTYPE, VSTART (R250) -/
  vl : W64
  vtype : W64
  vstart : W64
  /-- LC, LS, LE (R264) -/
  lc : W64
  ls : W64
  le : W64
  /-- TEPC, TCAUSE, TVAL (R217) -/
  tepc : W64
  tcause : W64
  tval : W64
  /-- CYCLE and INSTRET (R217) -/
  cycle : W64
  instret : W64
  /-- the pending arithmetic trap (R235) -/
  pend : Option Pend
  deriving DecidableEq, Repr

/-- The kinds of morsel work. -/
inductive MKind where
  /-- a morsel of a stage's flow, or of a source -/
  | normal
  /-- a clear morsel of table `t`, copy on die `d`, chunk `c` of 2 MiB (R144) -/
  | clear (t d c : Nat)
  /-- drain morsel `j` of a GROUP stage (R150) -/
  | drain (j : Nat)
  /-- a merge step of a Merge Network stage (R165) -/
  | merge
  /-- a step of the final merge, or of the TOPN final (R165, R168) -/
  | final
  deriving DecidableEq, Repr

/-- Where a source morsel starts (R81, R113). -/
structure SrcPos where
  group : Nat
  row   : Nat
  rows  : Nat
  last  : Bool
  deriving DecidableEq, Repr

/-- A morsel: a batch of rows of one stage of one job (R122, R170, R178). -/
structure Morsel where
  /-- the model's own name for it -/
  mid : Nat
  jid : Nat
  inst : Nat
  gen : BitVec 16
  stage : Nat
  kind : MKind
  /-- origin and fragment (R170) -/
  origin : Nat
  frag : Nat
  last : Bool
  /-- dense sequence number in its flow (R170) -/
  seq : Nat
  rows : Nat
  heap : Nat
  /-- its descriptor (R122) -/
  desc : List Byte
  /-- the flow that brought it, none for a source -/
  flow : Option Nat
  src : Option SrcPos
  /-- when it became ready, in ns of uptime (R178) -/
  entry : Nat
  level : Nat
  /-- the bound of R74 at dispatch -/
  bound : Nat
  /-- when it was dispatched, in ns of uptime (R52), and the boundaries that it has overrun in a row (R54) -/
  start : Nat
  overruns : Nat
  /-- fragments placed so far by this producer morsel (R170, R272) -/
  placed : Nat
  /-- the output buffer that it holds in the arena of its die: offset and bytes, 0 bytes for none (R115, R272) -/
  outAt : Nat
  outBytes : Nat
  /-- arena buffers that its descriptor points into: die and offset (R115) -/
  bufs : List (Nat × Nat)
  /-- whether this morsel stands in the ready excess area (R183) -/
  excess : Bool
  deriving DecidableEq, Repr

/-- What a physical Forager is doing. -/
inductive FgrRun where
  /-- idle in Runtime mode (R207) -/
  | idle
  /-- executing its morsel -/
  | running
  /-- stopped by a frame boundary and draining before its save (R51) -/
  | preempted
  /-- its morsel is parked (R51) -/
  | parked
  /-- waiting for a Saddle response that goes to G[rd] (R275) -/
  | saddle (rd : BitVec 5)
  /-- the same, met by a frame boundary: it is saved once the response has arrived (R275) -/
  | saddleHeld (rd : BitVec 5)
  /-- in Service mode, by Keeper command (R206) -/
  | service
  /-- stopped by a Runtime fault (R233) -/
  | stopped
  deriving DecidableEq, Repr

/-- One physical Forager (R190). -/
structure Fgr where
  regs : FRegs
  /-- the private save buffer (R51) -/
  save : FRegs
  /-- where RTP enters: the entry, or the saved PC (R206) -/
  entryPc : BitVec 48
  /-- local data memory, 256 KiB, unlisted bytes read 0 (R248, R249) -/
  ldm : List Host.Cell
  /-- data-cache lines: device address of the line and its 64 bytes (R224, R270) -/
  dcache : List (Nat × BitVec 512)
  run : FgrRun
  morsel : Option Morsel
  /-- whether the boundary preempted the morsel after throttling (R498) or for a retirement or freeze (R53) -/
  evictNext : Bool
  /-- corrected errors in the current frame-hour (R476) -/
  cerr : Nat
  /-- cycles the divide in the divider takes (R229 to R231) -/
  divCycles : Nat
  deriving DecidableEq, Repr

/-- An evicted morsel in the saved-morsel area of a die reserve (R52). -/
structure Saved where
  morsel : Morsel
  regs : FRegs
  ldm : List Host.Cell
  deriving DecidableEq, Repr

-- FIXED UNITS --------------------------------------------------------------------------------------------------------

/-- Who holds a digest context (R452). -/
inductive Holder where
  | free
  | morsel (mid : Nat)
  | stage (jid stage : Nat)
  | result (jid : Nat)
  | keeper
  deriving DecidableEq, Repr

/-- A SHA-256 message in progress: chaining value, bytes taken so far, buffered bytes (R452). -/
structure ShaState where
  h : List W32
  len : Nat
  buf : List Byte
  deriving DecidableEq, Repr

/-- One of the 64 digest contexts of a die (R452). -/
structure Ctx where
  holder : Holder
  inst : Nat
  sha : ShaState
  deriving DecidableEq, Repr

/-- One entry of the Associative Match Unit's array (R278). -/
structure AmuEntry where
  valid : Bool
  value : BitVec 160
  care : BitVec 160
  data : W32
  /-- the stored priority (R290, R291) -/
  prio : Nat
  deriving DecidableEq, Repr

/-- One physical block of 512 entries (R280, R281). -/
structure AmuBlock where
  owner : Option Nat
  /-- its rank among the owner's blocks: the logical block number -/
  logical : Nat
  /-- reassigned and not yet cleared (R281) -/
  clearing : Bool
  deriving DecidableEq, Repr

/-- The Associative Match Unit of one die (R278 to R296). -/
structure Amu where
  /-- the array, ascending physical index; an unlisted entry is invalid and all zero -/
  array : List (Nat × AmuEntry)
  /-- 64 blocks -/
  blocks : List AmuBlock
  /-- next physical index of the sweep (R291) -/
  sweep : Nat
  sweepPasses : Nat
  sweepFix : Nat
  parityFix : Nat
  shadowFaults : Nat
  /-- entries whose parity is bad (R292) -/
  badParity : List Nat
  deriving DecidableEq, Repr

/-- One fixed unit of a die in the order of R203. -/
structure UnitSt where
  morsel : Option Morsel
  /-- fixed-unit cycles each instance has left to it: the charge so far this frame, by instance (R46) -/
  charged : List (Nat × Nat)
  /-- cycles the unit ran this frame (R196) -/
  busy : Nat
  deriving DecidableEq, Repr

-- MEMORY AND CACHE ---------------------------------------------------------------------------------------------------

/-- CC_WAY.STATE (R323). -/
inductive WayState where
  | free | owned | cleaning | sweep | disabling | disabled | poweringDown | off | poweringUp
  deriving DecidableEq, Repr

/-- One way of a Comb cache (R310, R317, R318, R323). -/
structure Way where
  state : WayState
  owner : Option Nat
  locked : Bool
  cerr : Nat
  enablePending : Bool
  /-- the new owner that waits for a cleaning (R312) -/
  nextOwner : Option Nat
  /-- disabled, and still to leave its owner at the boundary (R317) -/
  leave : Bool
  /-- reached its threshold while CLEANING (R320) -/
  disableAfter : Bool
  deriving DecidableEq, Repr

/-- A valid line of a Comb cache (R310): its way, index, device line address, dirty bit and the instance whose
placement put it there. The data is the coherent data of `State.mem`: the home die serves every access (R25). -/
structure Line where
  way : Nat
  index : Nat
  addr : Nat
  dirty : Bool
  inst : Nat
  deriving DecidableEq, Repr

/-- The Comb cache of one die (R310 to R323). -/
structure CombCache where
  /-- CC_CTL.EN as last written -/
  en : Bool
  /-- CC_STAT.ENABLED, DRAINING and ENABLE_PENDING -/
  enabled : Bool
  draining : Bool
  enablePending : Bool
  ways : List Way
  lines : List Line
  /-- instances whose kept ways sweep, each with its old ascending ways (R312) -/
  sweeping : List (Nat × List Nat)
  /-- WAY_CMD_REJECT (R318) -/
  cmdReject : Nat
  deriving DecidableEq, Repr

/-- A spare copy in progress (R302). -/
structure Sparing where
  channel : Nat
  bank : Nat
  copied : Bool
  deriving DecidableEq, Repr

/-- One RLM stack (R297 to R302, R324). -/
structure Stack where
  sparesLeft : Nat
  ueCount : Nat
  ceCount : Nat
  sparing : List Sparing
  /-- a granule was found uncorrectable in the running frame (R476) -/
  ueNow : Bool
  /-- banks remapped to the spare of their channel: channel, bank (R302; kept in MRAM) -/
  remapped : List (Nat × Nat)
  /-- device address of the next patrol granule, as an index of the stack's granules (R301) -/
  patrol : Nat
  deriving DecidableEq, Repr

-- STATISTICS ---------------------------------------------------------------------------------------------------------

/-- The instance block of R202, for one instance and die. -/
structure InstStat where
  inst : Nat
  readyNow : Nat
  readyMax : Nat
  dispatchF : Nat
  dispatchU : Nat
  resumed : Nat
  overrun : Nat
  evicted : Nat
  boundExcess : Nat
  deferred : Nat
  foragerBusy : Nat
  slots : Nat
  gen : BitVec 16
  excessNow : Nat
  unitCycles : List Nat
  waitHist : List Nat
  deriving DecidableEq, Repr

/-- The die block of R203. -/
structure DieStat where
  /-- DEPTH_NOW, DEPTH_MAX, DISPATCHED of each level -/
  levels : List (Nat × Nat × Nat)
  waitHist : List Nat
  readyNow : Nat
  readyMax : Nat
  excessNow : Nat
  active : Nat
  overrun : Nat
  boundExcess : Nat
  readyOverflow : Nat
  foragerBusy : List Nat
  unitBusy : List Nat
  /-- logical Foragers that held a running morsel in the frame, with its instance -/
  ran : List (Nat × Nat)
  insts : List InstStat
  deriving DecidableEq, Repr

/-- The statistics window of one function (R198 to R200). -/
structure StatWin where
  frame : W64
  seq : W32
  hold : Bool
  holdActive : Bool
  holdLeft : Nat
  holdExpired : Bool
  /-- the snapshot shown, one block per die -/
  shown : List DieStat
  deriving DecidableEq, Repr

-- DIES ---------------------------------------------------------------------------------------------------------------

/-- Where a die stands in a fence (R478). -/
inductive FenceSt where
  | none
  /-- accepted, applies when the count of boundaries reaches 0 (R57) -/
  | staged (boundaries : Nat)
  /-- the fence boundary has passed; instances still to be reset at the next boundary -/
  | running (resets : List Nat)
  /-- no traffic remains: DIE_ACTIVE clears at the next boundary -/
  | complete (resets : List Nat)
  | fenced
  deriving DecidableEq, Repr

/-- One Comb die (R13, R19). -/
structure Die where
  present : Bool
  active : Bool
  fence : FenceSt
  /-- physical Foragers 0 to 67 -/
  fgrs : List Fgr
  /-- logical to physical Forager (R190) -/
  map : List (Option Nat)
  /-- physical Foragers that are retired or failed test (R194) -/
  failed : List Nat
  /-- physical Foragers named for retirement at the next boundary, with the reason's status if the morsel's part fails
  (R191, R477) -/
  retiring : List (Nat × Option Nat)
  /-- ready list in order of arrival (R178, R182) -/
  ready : List Morsel
  /-- evicted morsels, earliest first (R52, R180) -/
  saved : List Saved
  /-- the 30 fixed units of R203 -/
  units : List UnitSt
  /-- digest contexts 0 to 63 (R452) -/
  ctxs : List Ctx
  busyTotal : Nat
  amu : Amu
  cc : CombCache
  /-- stacks 2d and 2d + 1 -/
  rlm : List Stack
  /-- DIE_CAUSE (R472) -/
  cause : W64
  /-- spare lanes left on the Crest link and on the ring link that leaves the die upward, and lanes marked failing (R15, R17) -/
  crestSpares : Nat
  ringSpares : Nat
  crestFailing : Nat
  ringFailing : Nat
  crestDown : Bool
  ringDown : Bool
  /-- stages deferred for the rest of the frame: instance, job, stage (R185) -/
  deferred : List (Nat × Nat × Nat)
  /-- statistics of the running frame, and the latest snapshot -/
  stat : DieStat
  snap : DieStat
  deriving DecidableEq, Repr

-- PIPELINE IMAGES ----------------------------------------------------------------------------------------------------

/-- A stage: its stage, binding and bound entries (R69, R72, R73). -/
structure Stage where
  kind : UnitKind
  prio : Nat
  source : Bool
  sink : Bool
  aggFinal : Bool
  ins : List Nat
  outs : List Nat
  morselRows : Nat
  codeSec : Option Nat
  constSec : Option Nat
  entryOff : Nat
  param : List Byte
  placement : Nat
  maxHops : Nat
  partFn : Nat
  base : Nat
  perRow : Nat
  perVar : Nat
  maxRows : Nat
  maxVar : Nat
  deriving DecidableEq, Repr

/-- A flow (R71). -/
structure Flow where
  ordered : Bool
  producer : Nat
  consumer : Nat
  depth : Nat
  deriving DecidableEq, Repr

/-- A loaded or loading image (R66 to R79). -/
structure Image where
  bytes : List Byte
  digest : List Byte
  stages : List Stage
  flows : List Flow
  /-- offsets and sizes of the sections, by section index: type, offset, size -/
  sections : List (Nat × Nat × Nat)
  minComb : Nat
  framePeriod : Nat
  requires : Nat
  formatMinor : Nat
  runtimeMin : Nat
  deriving DecidableEq, Repr

/-- An image slot of an instance (R78, R79). -/
structure Slot where
  slot : Nat
  handle : W32
  image : Image
  /-- the LOAD_IMAGE entry whose checks 3 to 11 run; empty once they have passed (R77) -/
  req : List Byte
  /-- still being loaded: no job can name it before its completion is posted (R78) -/
  loading : Bool
  unloading : Bool
  /-- completions that wait for the unload: CID, SQ head (R79) -/
  waiters : List (Nat × Nat)
  deriving DecidableEq, Repr

-- QUEUES -------------------------------------------------------------------------------------------------------------

/-- Queue states (R337); an absent queue has no record. -/
inductive QState where
  | active | error | deleting
  deriving DecidableEq, Repr

/-- A submission queue (R334 to R338, R350). -/
structure Sq where
  qid : Nat
  cqid : Nat
  depthLog2 : Nat
  cls : Nat
  base : Nat
  state : QState
  head : Nat
  tail : Nat
  /-- held at its head under R348 -/
  held : Bool
  /-- CIDs of DELETE_SQ commands that wait for it, with the SQ head of each (R350) -/
  deleters : List (Nat × Nat)
  deriving DecidableEq, Repr

/-- A completion queue (R339, R341, R345). -/
structure Cq where
  qid : Nat
  depthLog2 : Nat
  base : Nat
  vector : Nat
  intEn : Bool
  shadowEn : Bool
  shadow : Nat
  state : QState
  head : Nat
  tail : Nat
  reserved : Nat
  stall : Nat
  stallRaised : Bool
  deleters : List (Nat × Nat)
  deriving DecidableEq, Repr

/-- The admin queue registers (R336). -/
structure AdminRegs where
  sqBase : W64
  cqBase : W64
  shadow : W64
  en : Bool
  enablePending : Bool
  disabling : Bool
  vector : Nat
  shadowEn : Bool
  intEn : Bool
  cqLog2 : Nat
  sqLog2 : Nat
  deriving DecidableEq, Repr

/-- A fetched chain (R346 to R351). -/
structure Chain where
  sqid : Nat
  sqHead : Nat
  cid : Nat
  opcode : Nat
  /-- the entries, 128 bytes each -/
  entries : List (List Byte)
  deriving DecidableEq, Repr

/-- A completion that waits for step 1 of the boundary (R343, R356). -/
structure Cpl where
  inst : Nat
  gen : BitVec 16
  sqid : Nat
  sqHead : Nat
  cqid : Nat
  cid : Nat
  status : Nat
  result : W64
  detail : Nat
  flags : Nat
  /-- a queue this completion makes ACTIVE: SQ or CQ (R350) -/
  newSq : Option Sq
  newCq : Option Cq
  /-- extended status record: address and bytes (R358) -/
  esr : Option (Nat × List Byte)
  deriving DecidableEq, Repr

-- JOBS ---------------------------------------------------------------------------------------------------------------

/-- The first failure of a job (R85, R358). -/
structure Failure where
  frame : Nat
  die : Nat
  stage : Nat
  status : Nat
  device : Nat
  /-- TEPC, TCAUSE, TVAL, FXEPC of a trap (R233) -/
  trap : List W64
  deriving DecidableEq, Repr

/-- A job's part on one die (R83, R359). -/
structure DiePart where
  die : Nat
  failed : Option (Nat × Nat × Nat)
  stopped : Bool
  morsels : Nat
  flags : Nat
  deriving DecidableEq, Repr

/-- The state of an ordered-flow context (R174). -/
inductive OfState where
  | opened | stalled | closing | closed | failed
  deriving DecidableEq, Repr

/-- A flow of a job in progress: an ordered-flow context (R171, R174) or the numbering of an unordered flow (R170). -/
structure FlowSt where
  state : OfState
  nextOrigin : Nat
  nextFrag : Nat
  /-- morsels placed and not released -/
  held : List Morsel
  done : Bool
  /-- next dense sequence number -/
  seq : Nat
  deriving DecidableEq, Repr

/-- The progress of a stage of a job. -/
structure StageSt where
  /-- source position: row group, row, next sequence number, all cut (R81, R181) -/
  group : Nat
  row : Nat
  nextSeq : Nat
  cutDone : Bool
  /-- the stage has finished -/
  done : Bool
  /-- the streamer on which a row group with a DELTA_BITPACK or RLE chunk is decoded, by row group (R114) -/
  serial : List (Nat × Nat)
  /-- next sequence number of a LOAD stage, by die (R287) -/
  nextLoad : List (Nat × Nat)
  deriving DecidableEq, Repr

/-- An input list item (R353). -/
structure InputList where
  addr : Nat
  groups : Nat
  cols : Nat
  deriving DecidableEq, Repr

/-- A result buffer item and its progress (R353, R359). -/
structure ResultBuf where
  addr : Nat
  bytes : Nat
  stage : Nat
  /-- final write offset (R175) -/
  off : Nat
  /-- rows kept until their predecessors are placed: flow, sequence number and bytes (R175) -/
  held : List (Nat × Nat × List Byte)
  /-- sink morsels that have completed before a predecessor: flow and sequence number -/
  complete : List (Nat × Nat)
  /-- next sequence number to place, by flow -/
  next : List (Nat × Nat)
  /-- leaves hashed so far (R461) -/
  nodes : List (List Byte)
  hashed : Nat
  root : Option (List Byte)
  deriving DecidableEq, Repr

/-- A column of decoded rows: logical type, form, lane bytes and scale of R122, the dictionary of a CODES column as address and
size, and the rows, a null one as none. -/
structure Column where
  ltype : Nat
  form : Nat
  lane : Nat
  scale : Nat
  dict : Nat × Nat
  cells : List (Option (List Byte))
  deriving DecidableEq, Repr

/-- A table descriptor as read at admission (R132), and its state. -/
structure Table where
  addr : Nat
  mode : Nat
  bucketBits : Nat
  partBits : Nat
  keyBytes : Nat
  linkMax : Nat
  recordQ8 : Nat
  flags : Nat
  seed : W64
  poolBytes : Nat
  spillBase : Nat
  spillBytes : Nat
  bases : List Nat
  /-- the job builds it -/
  builds : Bool
  sealed : Bool
  /-- ROWS and NULL_KEYS of the descriptor of a table built earlier; NULL_KEYS counts on while the job builds (R132) -/
  rows : Nat
  nullKeys : Nat
  /-- spilled partitions (R155) -/
  spilled : List Nat
  /-- bytes and rows in each spill buffer (R153) -/
  spillUse : List (Nat × Nat × Nat)
  /-- pool chunks in use: copy, chunk, partition, links (or records), bytes used (R142) -/
  chunks : List (Nat × Nat × Nat × Bool × Nat)
  /-- rows held, by partition -/
  partRows : List (Nat × Nat)
  /-- the columns of the first morsel that a GROUP stage took, without rows: what its drain morsels emit (R150) -/
  layout : Option (List Column)
  /-- its drain morsels are on the ready lists (R150) -/
  drained : Bool
  deriving DecidableEq, Repr

/-- A run of the Merge Network: level, first origin and its entries' area chunks in order (R164, R165). -/
structure Run where
  level : Nat
  origin : Nat
  /-- byte offsets of its entries in the area, in order -/
  entries : List Nat
  deriving DecidableEq, Repr

/-- A merge in progress, to a run of the area or to the output flow (R165, R166). -/
structure Merging where
  /-- the runs with what is left of each -/
  ins : List Run
  /-- the run it writes, none for the output flow -/
  out : Option Run
  deriving DecidableEq, Repr

/-- A merge area (R163, R164). -/
structure Area where
  addr : Nat
  bytes : Nat
  runs : List Run
  merging : Option Merging
  /-- the last output morsel has been emitted -/
  finished : Bool
  /-- the record columns of the first morsel, without rows (R160) -/
  layout : Option (List Column)
  /-- output morsels emitted -/
  emitted : Nat
  deriving DecidableEq, Repr

/-- A morsel arena of a die (R115): live buffers as offset and length. -/
structure Arena where
  die : Nat
  addr : Nat
  bytes : Nat
  live : List (Nat × Nat)
  deriving DecidableEq, Repr

/-- States of a distributed part (R401, R412). -/
inductive PartSt where
  | joining | running | done | failed
  deriving DecidableEq, Repr

/-- What a device knows of one participant (R412). -/
structure Peer where
  dev : Nat
  inst : Nat
  gen : BitVec 16
  joined : Bool
  state : PartSt
  status : Nat
  failFrame : Nat
  /-- frames in a row without its control packets (R88) -/
  missing : Nat
  /-- its latest report arrived in the closing frame (R413) -/
  reported : Bool
  /-- stages for which SOURCE_DONE has arrived (R418), with every wire morsel before it; by stage, the wire morsels placed, and their number
  once the one with SOURCE_DONE has been placed -/
  sourceDone : List Nat
  placed : List (Nat × Nat)
  total : List (Nat × Nat)
  deriving DecidableEq, Repr

/-- A wire morsel on its way out (R418): exchange stage, destination index, MORSEL_ID, its rows while it is open and its bytes once
closed. -/
structure WireOut where
  stage : Nat
  dest : Nat
  id : Nat
  cols : List Column
  bytes : List Byte
  closed : Bool
  rows : Nat
  /-- quanta granted and sent so far -/
  sent : Nat
  deriving DecidableEq, Repr

/-- A wire morsel in landing (R408): source device, stage, MORSEL_ID, length, and the payloads that have arrived: offset, whether it
lies in the spill of the target die, bytes. -/
structure WireIn where
  dev : Nat
  stage : Nat
  id : Nat
  len : Nat
  pieces : List (Nat × Bool × List Byte)
  deriving DecidableEq, Repr

/-- A grant issued or received (R406, R407): peer device, stage, data frame, quanta, and the quanta that have arrived. -/
structure Grant where
  dev : Nat
  stage : Nat
  frame : Nat
  quanta : Nat
  got : Nat
  deriving DecidableEq, Repr

/-- What a receiver knows of one source and data frame (R409): the packets of its own grants; the parts of the source's control packet of that
frame, and by part index that has arrived the packets that its ECHO entries promise; the SEQ numbers that have arrived. -/
structure RxFrame where
  dev : Nat
  frame : Nat
  granted : Nat
  parts : Nat
  echo : List (Nat × Nat)
  seqs : List Nat
  deriving DecidableEq, Repr

/-- A packet sent and kept for resends (R409). -/
structure SentPkt where
  dev : Nat
  frame : Nat
  seq : Nat
  pkt : RtPkt
  deriving DecidableEq, Repr

/-- The distributed side of a job (R88, R412). -/
structure Dist where
  djid : W64
  devs : List Nat
  state : PartSt
  status : Nat
  peers : List Peer
  /-- requests received for the frame two ahead: device, stage, quanta -/
  reqIn : List (Nat × Nat × Nat)
  grantsOut : List Grant
  grantsIn : List Grant
  wireOut : List WireOut
  wireIn : List WireIn
  nextId : List (Nat × Nat × Nat)
  /-- exchange stages whose input has ended, each with its last wire morsels closed (R418) -/
  ended : List Nat
  /-- when it was admitted, in ns of uptime (R412) -/
  admittedNs : Nat
  /-- boundaries until the decision of R88 once known -/
  decideIn : Option Nat
  deriving DecidableEq, Repr

/-- Where a job stands (R361). -/
inductive JobSt where
  | waiting | running | ending
  deriving DecidableEq, Repr

/-- A job (R80 to R96, R352, R353). -/
structure Job where
  jid : Nat
  inst : Nat
  gen : BitVec 16
  sqid : Nat
  sqHead : Nat
  cqid : Nat
  cid : Nat
  handle : W32
  image : Image
  state : JobSt
  strictLen : Bool
  resultDigest : Bool
  inputs : List InputList
  tables : List Table
  areas : List Area
  results : List ResultBuf
  arenas : List Arena
  statusAddr : Nat
  admitFrame : W64
  /-- order of admission (R343) -/
  order : Nat
  dieSet : List Nat
  parts : List DiePart
  stages : List StageSt
  flows : List FlowSt
  failure : Option Failure
  abort : Bool
  flags : Nat
  dist : Option Dist
  chain : List (List Byte)
  deriving DecidableEq, Repr

-- INSTANCES ----------------------------------------------------------------------------------------------------------

/-- INST_STATE (R366). -/
inductive InstSt where
  | absent | disabled | enabled | disabling | resetting | freezing | frozen
  deriving DecidableEq, Repr

/-- INST_CMD (R367), and the removal and restore that apply like it (R375, R389). -/
inductive InstCmd where
  | enable | disable | reset | freezeDrain | freezeAbort | thaw | remove | restore
  deriving DecidableEq, Repr

/-- The allocations of R369, as written through the dictionary. -/
structure Alloc where
  coreFrames : W64
  shareCs : W64
  shareHpe : W64
  shareMn : W64
  shareAmu : W64
  shareDg : W64
  fabricShare : Nat
  imgStore : Nat
  readyLimit : Nat
  ptPages : Nat
  ccWaysLo : W64
  ccWaysHi : W64
  sqQuota : Nat
  cqQuota : Nat
  pasid : W32
  /-- 64 region attribute bytes, region r at bits [8r+7:8r] (R307) -/
  regions : BitVec 512
  deriving DecidableEq, Repr

/-- Resource changes (R58). -/
inductive Change where
  | coreFrames (v : W64)
  | share (kind : Nat) (v : W64)
  | fabricShare (v : Nat)
  | imgStore (v : Nat)
  | readyLimit (v : Nat)
  | ptPages (v : Nat)
  | ptWrite (recs : List (Nat × W64))
  | regions (v : BitVec 512)
  | ccWays (hi : Bool) (v : W64)
  | sqQuota (v : Nat)
  | cqQuota (v : Nat)
  | pasid (v : W32)
  deriving DecidableEq, Repr

/-- A resource change accepted and not yet applied: boundaries left, instance (R58). -/
structure Pending where
  left : Nat
  inst : Nat
  change : Change
  deriving DecidableEq, Repr

/-- A staged instance command: boundaries left (R57). -/
structure Staged where
  left : Nat
  cmd : InstCmd
  deriving DecidableEq, Repr

/-- One side of a mailbox (R390 to R393). -/
structure MbxSide where
  /-- send slots, 8 of 64 bytes -/
  slots : List (BitVec 512)
  txFull : BitVec 8
  intEn : Bool
  vector : Nat
  drop : Nat
  deriving DecidableEq, Repr

/-- The state of a segmented transfer in a window (R430, R431). -/
inductive KdwState where
  | idle | busy | done | aborted | segRead | segWrite
  deriving DecidableEq, Repr

/-- A dictionary window (R429). -/
structure Kdw where
  index : BitVec 16
  sub : BitVec 8
  arg : W32
  data : W64
  crc : W32
  abort : Nat
  overrun : Bool
  state : KdwState
  /-- bytes of the transfer, words moved so far, announced length -/
  bytes : List Byte
  words : Nat
  len : Nat
  deriving DecidableEq, Repr

/-- A migration copy record (R380). -/
structure MigRec where
  kind : Nat
  page : Nat
  host : Nat
  bytes : Nat
  digest : List Byte
  deriving DecidableEq, Repr

/-- MIG_COPY and MIG_STATUS (R380 to R383). -/
structure Mig where
  recs : List MigRec
  next : Nat
  done : Nat
  failIndex : Nat
  error : Nat
  busy : Bool
  deriving DecidableEq, Repr

/-- A restore in progress (R388, R389). -/
structure Restore where
  image : List Byte
  /-- accepted, applies at the boundary -/
  accepted : Bool
  deriving DecidableEq, Repr

/-- The MSI-X table of a function: masked and pending vectors, and the address and data bytes of its entries (R363). -/
structure Msix where
  masked : List Nat
  pba : List Nat
  table : List Host.Cell
  deriving DecidableEq, Repr

/-- One instance and its function: instance 0 on the PF, instance n on VF n (R365). -/
structure Inst where
  state : InstSt
  enablePending : Bool
  staged : List Staged
  gen : BitVec 16
  alloc : Alloc
  /-- page-table entries in force, ascending instance page, VALID or not (R304) -/
  pt : List (Nat × W64)
  /-- way changes that wait for a clean or sweep, in order of acceptance: die and ways bitmap (R313) -/
  waysPending : List (Nat × Nat)
  invalBase : Nat
  invalPages : Nat
  /-- the range operation that runs: CLEAN_INVAL or CLEAN, first page, pages (R315) -/
  inval : Option (Bool × Nat × Nat)
  /-- live and snapshot dirty pages, ascending (R321) -/
  dirtyLive : List Nat
  dirtySnap : List Nat
  dirtySeq : BitVec 8
  dirtyReq : Bool
  images : List Slot
  loadCtr : Nat
  aq : AdminRegs
  sqs : List Sq
  cqs : List Cq
  /-- SQ last served in each class (R346) -/
  served : List Nat
  /-- fetched admin commands and job chains not yet executed (R346) -/
  fetched : List Chain
  cqDiscard : Nat
  rsvdWr : Nat
  dbDrop : Nat
  d3hot : Bool
  /-- state before a freeze, its mode, frames since FREEZING (R376) -/
  prior : InstSt
  freezeAborts : Bool
  /-- the state in which the running reset leaves the instance (R374, R375) -/
  resetTo : InstSt
  freezingNs : Nat
  freezeTimeout : Nat
  /-- boundaries since the last reset completed (R388) -/
  sinceReset : Nat
  /-- jobs that have ended since the last reset: SQ, CID and DIST_JOB_ID (R360) -/
  ended : List (Nat × Nat × Nat)
  staleJob : Nat
  staleDma : Nat
  staleCpl : Nat
  staleFabric : Nat
  mig : Mig
  /-- COPIED and VERIFIED pages with their digests (R381) -/
  copied : List (Nat × List Byte)
  verified : List (Nat × List Byte)
  /-- poisoned granules found by PAGE_OUT: page, granule (R382) -/
  poisoned : List (Nat × Nat)
  dieMap : W32
  restoreStatus : Nat
  restore : Option Restore
  /-- the state image, taken when first read (R384) -/
  image : Option (List Byte)
  freezeFrame : W64
  mbxVf : MbxSide
  mbxPf : MbxSide
  peerReset : Bool
  kdw : Kdw
  stat : StatWin
  /-- FRAME_NOW latched by a read of FRAME_NUMBER (R62, R64) -/
  frameNow : Option (BitVec 20)
  /-- FRAME_STAT.OVERRUN_LAST of the function (R63) -/
  overrunLast : Nat
  /-- region state of the Associative Match Unit by die: 0 READY, 1 LOADING, 2 STALE (R289) -/
  amuState : List Nat
  /-- IMEAS0 to IMEAS7 (R466) -/
  imeas : List (List Byte)
  quoteState : Nat
  quote : List Byte
  msix : Msix
  deriving DecidableEq, Repr

-- KEEPER -------------------------------------------------------------------------------------------------------------

/-- Every RWP object of the dictionary: what an MRAM copy holds (R424, R437). -/
structure Rwp where
  framePeriod : Nat
  syncMode : Nat
  t0TaiNs : W64
  patrolHours : Nat
  bankErrThresh : Nat
  wayErrThresh : Nat
  wayErrWindow : Nat
  vfVectors : Nat
  deviceId : Nat
  /-- DEVICE_ID has been written: until then no device ID comes into force (R399, R419, R420) -/
  deviceIdSet : Bool
  portMode : Nat
  rtUdpPort : Nat
  iidBase : W64
  planePrefix : List Byte
  nexthopMac : List Byte
  vlan : List Byte
  dscpData : Nat
  dscpCtrl : Nat
  ptpTransport : Nat
  ptpDomain : Nat
  ptpPlane : Nat
  portMedia : List Nat
  assetTag : List Byte
  oobRights : Nat
  oobAddr : List Byte
  oobPeers : List Byte
  bootPref : Nat
  fgrErrThresh : Nat
  throttleC : Nat
  critC : Nat
  logMode : Nat
  utcOffset : Int
  utcSrc : Nat
  deriving DecidableEq, Repr

/-- One MRAM copy (R437). -/
structure MramCopy where
  valid : Bool
  seq : W32
  content : Rwp
  deriving DecidableEq, Repr

/-- An audit record (R439). -/
structure AuditRec where
  seq : W32
  index : BitVec 16
  sub : Byte
  kind : Nat
  cls : Nat
  time : W64
  frame : BitVec 48
  originId : BitVec 16
  value : List Byte
  chain : W64
  deriving DecidableEq, Repr

/-- The audit log (R439 to R444). -/
structure AuditLog where
  recs : List AuditRec
  head : W32
  cursor : W32
  acked : W32
  lost : Nat
  tip : W64
  /-- LOG_HOLD_FULL already raised for this fall (R442) -/
  holdFull : Bool
  deriving DecidableEq, Repr

/-- A KDP segmented session (R434). -/
structure Session where
  who : Origin
  index : BitVec 16
  sub : BitVec 8
  isWrite : Bool
  len : Nat
  bytes : List Byte
  lastOff : Nat
  deriving DecidableEq, Repr

/-- A kept KDP response (R434): peer, TAG, the request and the response. -/
structure Kept where
  who : Origin
  op : Nat
  msg : KdpMsg
  resp : List Byte
  deriving DecidableEq, Repr

/-- Who asks Keeper, and so who is answered: a plain access of an origin, the window of a function, or a KDP request. -/
inductive Asker where
  | plain (o : Origin)
  | window (fn : Nat)
  | kdp (o : Origin) (op : Nat) (m : KdpMsg)
  deriving DecidableEq, Repr

/-- A request to Keeper: a read or a write of an object, an operation of a window (R430), a KDP request (R433). -/
inductive Req where
  | read (o : Origin) (index sub : Nat)
  | write (o : Origin) (index sub : Nat) (data : List Byte)
  | window (fn op : Nat) (arg : W32)
  | kdp (o : Origin) (op : Nat) (m : KdpMsg)
  deriving DecidableEq, Repr

/-- An accepted RWP write that waits for its commit (R437). -/
structure Waiter where
  who : Asker
  index : Nat
  sub : Nat
  data : List Byte
  /-- it is part of the commit that runs -/
  running : Bool
  deriving DecidableEq, Repr

/-- A firmware image in flash (R462): the bytes, and whether the slot is marked invalid. -/
structure FlashSlot where
  keeper : List Byte
  runtime : List Byte
  valid : Bool
  deriving DecidableEq, Repr

/-- Where an in-service switch stands (R483). -/
inductive SwitchSt where
  | none | accepted | newKeeper
  deriving DecidableEq, Repr

/-- Keeper, the log, the calendar, Propolis (R422 to R470). -/
structure Keeper where
  rwp : Rwp
  copyA : MramCopy
  copyB : MramCopy
  /-- accepted RWP writes that are not yet answered, in order of acceptance; those of the running commit come first (R437) -/
  waiting : List Waiter
  /-- requests held while Keeper restarts or switches (R448) -/
  held : List Req
  persistCase : Nat
  persistCommits : Nat
  log : AuditLog
  /-- CAL_TIME (R423, R445), and nanoseconds below its unit -/
  calTime : W64
  calFrac : Nat
  calValid : Bool
  disciplined : Bool
  vbatLost : Bool
  calRunning : Bool
  kdwIdleMs : Nat
  abortTotal : Nat
  oobDrop : Nat
  mctpEid : Nat
  sessions : List Session
  kept : List Kept
  keeperFamily : BitVec 16
  runtimeFamily : BitVec 16
  /-- KEEPER_RESTARTS (R481) and the times of the restarts in ns of uptime -/
  restarts : Nat
  restartTimes : List Nat
  restarting : Bool
  deriving DecidableEq, Repr

/-- Propolis (R451 to R470). -/
structure Propolis where
  /-- MEAS0 to MEAS31 -/
  meas : List (List Byte)
  minSvn : Nat
  bootSlot : Nat
  /-- the slot that runs: BOOT_SLOT until a firmware switch (R482, R483) -/
  runSlot : Nat
  cmpFault : Nat
  /-- what a fault of the comparators flips in the next compare: bit 0 EQ, bit 1 EQ_N (R458) -/
  cmpFlip : BitVec 2
  flashA : FlashSlot
  flashB : FlashSlot
  /-- instance whose quote is signing, with the snapshot (R469) -/
  signing : Option (Nat × List Byte)
  fwState : Nat
  switch : SwitchSt
  deriving DecidableEq, Repr

-- EVENTS, POWER, FABRIC ----------------------------------------------------------------------------------------------

/-- The event state (R471 to R475). -/
structure Events where
  pend : BitVec 256
  mask : BitVec 256
  /-- EVT_VEC (R473) -/
  vec : W64
  /-- EVT_COUNT: 256 saturating counters -/
  count : List Nat
  /-- groups within 1 µs of their last message, and groups with a merged message waiting (R474) -/
  holdoff : BitVec 8
  merged : BitVec 8
  /-- a stale item has been discarded in this frame (R372) -/
  staleSeen : Bool
  deriving DecidableEq, Repr

/-- DEVICE_STATE (R450). -/
inductive DevSt where
  | booting | ready | failed
  deriving DecidableEq, Repr

/-- Power, reset and thermal state (R486 to R500). -/
structure Power where
  mainPower : Bool
  perst : Bool
  devState : DevSt
  /-- next bring-up step, 1 to 9; 0 when none runs (R492) -/
  step : Nat
  /-- boot ROM recovery (R495) -/
  recovery : Bool
  bootCause : Nat
  nextCause : Nat
  failCause : Nat
  bootTime : W64
  /-- a warm reset waits for the boundary: BOOT_CAUSE (R490, R491) -/
  warmPending : Option Nat
  warmResets : Nat
  railStatus : BitVec 16
  thermTrip : Bool
  combClocks : Bool
  fclkNow : Nat
  tempMax : Int
  /-- samples of this frame: the greatest so far -/
  frameMax : Int
  temps : List Int
  crit : Bool
  critDrop : Bool
  sinceStep : Nat
  coolFrames : Nat
  throttleFrames : Nat
  throttleOverrun : Nat
  /-- times of DEVICE-class errors in ns of uptime (R491) -/
  devErrors : List Nat
  /-- UNAVAIL_MS, in ns (R484) -/
  unavailNs : Nat
  linkUp : Bool
  linkWasUp : Bool
  width : Nat
  speed : Nat
  /-- VF Enable and NumVFs of configuration space (R365) -/
  vfEnable : Bool
  numVfs : Nat
  /-- VF_VECTORS in force (R363) -/
  vfVectors : Nat
  /-- ns since the model began, advanced by frames and by operands -/
  uptimeNs : Nat
  deriving DecidableEq, Repr

/-- SYNC_STATE (R63). -/
inductive SyncSt where
  | free | locking | locked | holdover | alignLost
  deriving DecidableEq, Repr

/-- The frame generator and the time unit (R37 to R65, R398). -/
structure FrameGen where
  number : W64
  /-- FRAME_NUMBER of the last completed frame -/
  closed : W64
  periodActive : Nat
  sync : SyncSt
  /-- SYNC_STATE becomes LOCKED at the next boundary (R43) -/
  lockNext : Bool
  /-- the running frame is stretched: FRAME_NUMBER at its end, and the uptime of that boundary in ns (R43) -/
  stretchTo : Option (W64 × Nat)
  /-- estimated boundary offset in ns, and consecutive sync intervals within ±100 ns -/
  offsetNs : Int
  good : Nat
  /-- OFFSET_NS of the last boundary (R63) -/
  offsetLast : Int
  overrunLimit : Nat
  overrunTotal : Nat
  stretchCount : Nat
  boundExcessTotal : Nat
  /-- OVERRUN_LAST over all instances (R63) -/
  overrunLast : Nat
  /-- boundaries so far, however FRAME_NUMBER jumps -/
  boundaries : Nat
  /-- uptime at the last boundary -/
  startNs : Nat
  deriving DecidableEq, Repr

/-- PORT_STATE (R421). -/
inductive PortSt where
  | down | training | up | disabling | disabled
  deriving DecidableEq, Repr

/-- A fabric port (R421). -/
structure Port where
  state : PortSt
  enablePending : Bool
  tx : Nat
  rx : Nat
  resent : Nat
  /-- MAC_ERR, RX_FORMAT, RX_CRC, RX_UNEXPECTED, RX_DUP, RX_LATE, RX_OUT, reserved -/
  drop : List Nat
  fecCorrected : Nat
  fecUncorrected : Nat
  deriving DecidableEq, Repr

/-- The Range fabric of the device (R395 to R420). -/
structure Fabric where
  deviceIdActive : Option Nat
  portModeActive : Nat
  exchange : Bool
  joinTimeout : Nat
  ports : List Port
  /-- control excess of the last 16 frames (R410) -/
  excess : List Nat
  lossTotal : Nat
  splitTotal : Nat
  /-- PLANES_UP as the latest control packet of each device gave it (R401) -/
  peerPlanes : List (Nat × Nat)
  /-- packets sent and kept for resends, and those that LOSS entries ask for: device, data frame, SEQ (R409) -/
  kept : List SentPkt
  resends : List (Nat × Nat × Nat)
  /-- bytes of each port's slack that are left for resends in the running frame (R410) -/
  room : List Nat
  /-- data frames that are not yet complete, by source (R409) -/
  rx : List RxFrame
  /-- REPORT entries of parts that are gone, to go in this boundary's control packets: devices, entry (R419) -/
  byes : List (List Nat × List Byte)
  /-- sources already reported in FABRIC_CONFIG: device and cause (R402) -/
  configSeen : List (Nat × Nat)
  deriving DecidableEq, Repr

/-- An operation that the customer die has not answered (R275): the Forager that waits, the instance and its generation. -/
structure SaddleReq where
  who : FId
  inst : Nat
  gen : BitVec 16
  deriving DecidableEq, Repr

/-- The Saddle site (R31, R33 to R36). -/
structure Saddle where
  /-- 0b00 empty, 0b01 disabled, 0b10 enabled, 0b11 failed -/
  state : BitVec 2
  disabling : Bool
  enablePending : Bool
  training : Bool
  /-- training and report have succeeded: enabled at the next boundary; or powered down there -/
  enableNext : Bool
  disableNext : Bool
  /-- operations in flight, oldest first -/
  inflight : List SaddleReq
  fails : Nat
  spares : Nat
  failing : Nat
  deriving DecidableEq, Repr

/-- A memory page still being cleaned for a hand-over, or zero-filled (R305, R306): device page number, releasing instance
or none for a fill, the mapping instance that waits. -/
structure PageWait where
  page : Nat
  fill : Bool
  inst : Nat
  deriving DecidableEq, Repr

/-- How a Range Transport packet is addressed (R395, R397). -/
structure RtAddr where
  /-- destination MAC and VLAN word, 0 for an untagged frame -/
  mac : Nat
  vlan : Nat
  dscp : Nat
  flowLabel : Nat
  hopLimit : Nat
  src : BitVec 128
  dst : BitVec 128
  srcPort : Nat
  dstPort : Nat
  deriving DecidableEq, Repr

/-- What leaves the block: messages an observer sees. -/
inductive Out where
  /-- an MSI-X message of a function's vector (R343, R363) -/
  | msix (fn vec : Nat)
  /-- data returned to a reader of a register or window -/
  | readData (fn : Nat) (v : W64)
  /-- a KDP response (R432) -/
  | kdp (o : Origin) (bytes : List Byte)
  /-- an MCTP control response: code and data -/
  | mctp (eid binding cmd : Nat) (bytes : List Byte)
  /-- a Range Transport packet, its type, DATA or CONTROL, and how it is addressed (R397, R400) -/
  | rt (port : Nat) (control : Bool) (a : RtAddr) (p : RtPkt)
  /-- an ICMPv6 answer (R395, R436): port, or none for the out-of-band port -/
  | icmp (port : Option Nat) (kind : Nat) (target : BitVec 128) (body : List Byte)
  /-- the word and operands sent to the customer die (R275) -/
  | saddle (word : W32) (a b : W64) (inst : Nat) (gen : BitVec 16)
  /-- a LOG_READ, STAT or other segmented value handed to an origin outside a window -/
  | value (o : Origin) (bytes : List Byte)
  /-- the abort code, or 0, that answers a dictionary write -/
  | answer (o : Origin) (code : Nat)
  /-- an ATS invalidation completes (R329) -/
  | atsDone (n iova len : Nat)
  deriving DecidableEq, Repr

/-- The device-wide RW settings of the dictionary that no other record holds. -/
structure Settings where
  /-- STAT_HOLD_MAX, SOURCE_AHEAD (R205) -/
  statHoldMax : Nat
  sourceAhead : Nat
  /-- CQ_STALL_FRAMES (R364) -/
  cqStallFrames : Nat
  /-- counters of R205, R364 and R325 -/
  readyOverflowTotal : Nat
  deferredTotal : Nat
  commitDeferTotal : Nat
  rlmUeTotal : Nat
  deriving DecidableEq, Repr

-- THE STATE ----------------------------------------------------------------------------------------------------------

/-- The state of the block. -/
structure State where
  /-- commands that wait, first in, first out -/
  pending : List Instr
  part : Part
  frame : FrameGen
  dies : List Die
  /-- instances 0 to 255 -/
  insts : List Inst
  jobs : List Job
  /-- completions for the next boundary, in order (R343) -/
  cpls : List Cpl
  /-- resource changes accepted, in order (R58) -/
  changes : List Pending
  /-- pages being cleaned or filled -/
  pages : List PageWait
  /-- RLM bytes by device address, host bytes by 2^48 × (1 + instance) + I/O virtual address; canonical -/
  mem : List Host.Cell
  /-- poisoned granules: device address divided by 64, ascending (R299) -/
  poison : List Nat
  /-- ATS translations cached: instance, I/O virtual page (R329) -/
  ats : List (Nat × Nat)
  settings : Settings
  keeper : Keeper
  propolis : Propolis
  events : Events
  power : Power
  fabric : Fabric
  saddle : Saddle
  out : List Out
  /-- the instances that the running fetch round has still to serve, in order (R346) -/
  fetchRound : List Nat
  /-- the model's own counters: next job, next morsel, and the draw of free values -/
  nextJid : Nat
  nextMid : Nat
  draw : Nat
  deriving DecidableEq, Repr

-- RESET ---------------------------------------------------------------------------------------------------------------

/-- The registers of a Forager after a reset (R214 to R217, R250, R264): CORE_CTL.MODE is Runtime, everything else 0. -/
def FRegs.reset : FRegs where
  g := Vector.replicate 32 0
  v := Vector.replicate 32 0
  a := Vector.replicate 4 0
  va := Vector.replicate 4 0
  pc := 0
  fxcsr := 0
  fxepc := 0
  coreCtl := 0x4000
  vl := 0
  vtype := 0
  vstart := 0
  lc := 0
  ls := 0
  le := 0
  tepc := 0
  tcause := 0
  tval := 0
  cycle := 0
  instret := 0
  pend := none

/-- A Forager after a reset: idle in Runtime mode, cleared (R207, R249). -/
def Fgr.reset : Fgr where
  regs := FRegs.reset
  save := FRegs.reset
  entryPc := 0
  ldm := []
  dcache := []
  run := .idle
  morsel := none
  evictNext := false
  cerr := 0
  divCycles := 0

/-- A free digest context: a release writes zero to every bit (R452). -/
def Ctx.reset : Ctx := { holder := .free, inst := 0, sha := { h := [], len := 0, buf := [] } }

/-- A block of the Associative Match Unit without an owner (R280). -/
def AmuBlock.reset : AmuBlock := { owner := none, logical := 0, clearing := false }

/-- The Associative Match Unit after cold reset (R289, R295). -/
def Amu.reset : Amu where
  array := []
  blocks := List.replicate 64 AmuBlock.reset
  sweep := 0
  sweepPasses := 0
  sweepFix := 0
  parityFix := 0
  shadowFaults := 0
  badParity := []

def UnitSt.reset : UnitSt := { morsel := none, charged := [], busy := 0 }

/-- A way after cold reset (R323): FREE. -/
def Way.reset : Way where
  state := .free
  owner := none
  locked := false
  cerr := 0
  enablePending := false
  nextOwner := none
  leave := false
  disableAfter := false

/-- A Comb cache after cold reset (R322): enabled and empty. -/
def CombCache.reset : CombCache where
  en := true
  enabled := true
  draining := false
  enablePending := false
  ways := List.replicate 16 Way.reset
  lines := []
  sweeping := []
  cmdReject := 0

/-- An RLM stack after cold reset (R324): 16 spare banks, one to a channel. -/
def Stack.reset : Stack where
  sparesLeft := 16
  ueCount := 0
  ceCount := 0
  sparing := []
  ueNow := false
  remapped := []
  patrol := 0

/-- The empty die block of R203. -/
def DieStat.reset : DieStat where
  levels := List.replicate 8 (0, 0, 0)
  waitHist := List.replicate 16 0
  readyNow := 0
  readyMax := 0
  excessNow := 0
  active := 0
  overrun := 0
  boundExcess := 0
  readyOverflow := 0
  foragerBusy := List.replicate 64 0
  unitBusy := List.replicate 32 0
  ran := []
  insts := []

def StatWin.reset : StatWin where
  frame := 0
  seq := 0
  hold := false
  holdActive := false
  holdLeft := 0
  holdExpired := false
  shown := []

/-- Die `d` of part `p` after a reset: DIE_ACTIVE reads as DIE_PRESENT (R31); no Forager is mapped before step 6 of
bring-up (R190, R492); 8, 6 and 4 spare lanes (R17). -/
def Die.reset (p : Part) (d : Nat) : Die where
  present := d < p.dies
  active := d < p.dies
  fence := .none
  fgrs := List.replicate 68 Fgr.reset
  map := List.replicate 64 none
  failed := []
  retiring := []
  ready := []
  saved := []
  units := List.replicate 30 UnitSt.reset
  ctxs := List.replicate 64 Ctx.reset
  busyTotal := 0
  amu := Amu.reset
  cc := CombCache.reset
  rlm := List.replicate 2 Stack.reset
  cause := 0
  crestSpares := 8
  ringSpares := 6
  crestFailing := 0
  ringFailing := 0
  crestDown := false
  ringDown := false
  deferred := []
  stat := DieStat.reset
  snap := DieStat.reset

/-- 64 in the byte of each present die: CORE_FRAMES and the shares of instance 0 (R394). -/
def allDies64 (p : Part) : W64 := BitVec.ofNat 64 (64 * ((2 ^ (8 * p.dies) - 1) / 255))

/-- The allocations of instance `n` after a reset (R205, R326, R364, R394). -/
def Alloc.reset (p : Part) (n : Nat) : Alloc where
  coreFrames := if n = 0 then allDies64 p else 0
  shareCs := if n = 0 then allDies64 p else 0
  shareHpe := if n = 0 then allDies64 p else 0
  shareMn := if n = 0 then allDies64 p else 0
  shareAmu := if n = 0 then allDies64 p else 0
  shareDg := if n = 0 then allDies64 p else 0
  fabricShare := if n = 0 then 64 else 0
  imgStore := if n = 0 then 64 else 0
  readyLimit := if n = 0 then 65536 else 0
  ptPages := 0
  ccWaysLo := 0
  ccWaysHi := 0
  sqQuota := if n = 0 then 64 else 0
  cqQuota := if n = 0 then 64 else 0
  pasid := 0
  regions := 0

def AdminRegs.reset : AdminRegs where
  sqBase := 0
  cqBase := 0
  shadow := 0
  en := false
  enablePending := false
  disabling := false
  vector := 0
  shadowEn := false
  intEn := false
  cqLog2 := 1
  sqLog2 := 1

def MbxSide.reset : MbxSide where
  slots := List.replicate 8 0
  txFull := 0
  intEn := false
  vector := 0
  drop := 0

def Kdw.reset : Kdw where
  index := 0
  sub := 0
  arg := 0
  data := 0
  crc := 0
  abort := 0
  overrun := false
  state := .idle
  bytes := []
  words := 0
  len := 0

def Mig.reset : Mig where
  recs := []
  next := 0
  done := 0
  failIndex := 0
  error := 0
  busy := false

/-- Instance `n` after a reset: ABSENT until Keeper reports READY or its VF appears (R366, R394). -/
def Inst.reset (p : Part) (n : Nat) : Inst where
  state := .absent
  enablePending := false
  staged := []
  gen := 0
  alloc := Alloc.reset p n
  pt := []
  waysPending := []
  invalBase := 0
  invalPages := 0
  inval := none
  dirtyLive := []
  dirtySnap := []
  dirtySeq := 0
  dirtyReq := false
  images := []
  loadCtr := 1
  aq := AdminRegs.reset
  sqs := []
  cqs := []
  served := List.replicate 4 0
  fetched := []
  cqDiscard := 0
  rsvdWr := 0
  dbDrop := 0
  d3hot := false
  prior := .disabled
  freezeAborts := false
  resetTo := .disabled
  freezingNs := 0
  freezeTimeout := 2000
  sinceReset := 0
  ended := []
  staleJob := 0
  staleDma := 0
  staleCpl := 0
  staleFabric := 0
  mig := Mig.reset
  copied := []
  verified := []
  poisoned := []
  dieMap := 0x76543210
  restoreStatus := 0
  restore := none
  image := none
  freezeFrame := 0
  mbxVf := MbxSide.reset
  mbxPf := MbxSide.reset
  peerReset := false
  kdw := Kdw.reset
  stat := StatWin.reset
  frameNow := none
  overrunLast := 0
  amuState := List.replicate 8 0
  imeas := List.replicate 8 (List.replicate 32 0)
  quoteState := 0
  quote := []
  msix := { masked := List.range 64, pba := [], table := [] }

/-- The RWP defaults (R65, R325, R364, R420, R421, R444, R447, R450, R470, R485, R500). -/
def Rwp.default : Rwp where
  framePeriod := 16
  syncMode := 0
  t0TaiNs := 0
  patrolHours := 24
  bankErrThresh := 64
  wayErrThresh := 16
  wayErrWindow := 24
  vfVectors := 7
  deviceId := 0
  deviceIdSet := false
  portMode := 0
  rtUdpPort := 7320
  iidBase := 0x0200000000000000
  planePrefix := List.replicate 128 0
  nexthopMac := List.replicate 128 0
  vlan := List.replicate 32 0
  dscpData := 10
  dscpCtrl := 46
  ptpTransport := 0
  ptpDomain := 0
  ptpPlane := 0
  portMedia := List.replicate 16 0
  assetTag := []
  oobRights := 0x0F
  oobAddr := List.replicate 16 0
  oobPeers := List.replicate 128 0
  bootPref := 0
  fgrErrThresh := 32
  throttleC := 100
  critC := 115
  logMode := 0
  utcOffset := 37
  utcSrc := 1

def MramCopy.initial : MramCopy := { valid := true, seq := 0, content := Rwp.default }

/-- The empty audit log (R439, R444). -/
def AuditLog.empty : AuditLog where
  recs := []
  head := 0
  cursor := 0
  acked := 0
  lost := 0
  tip := 0
  holdFull := false

/-- Keeper at the first reset: RWP defaults in both MRAM copies, an empty log, and the calendar stopped at 0, as it leaves manufacture
(R438, R444, R447, R516). -/
def Keeper.reset : Keeper where
  rwp := Rwp.default
  copyA := MramCopy.initial
  copyB := MramCopy.initial
  waiting := []
  held := []
  persistCase := 0
  persistCommits := 0
  log := AuditLog.empty
  calTime := 0
  calFrac := 0
  calValid := false
  disciplined := false
  vbatLost := false
  calRunning := false
  kdwIdleMs := 1000
  abortTotal := 0
  oobDrop := 0
  mctpEid := 0
  sessions := []
  kept := []
  keeperFamily := 1
  runtimeFamily := 1
  restarts := 0
  restartTimes := []
  restarting := false

def Propolis.reset : Propolis where
  meas := List.replicate 32 (List.replicate 32 0)
  minSvn := 0
  bootSlot := 0
  runSlot := 0
  cmpFault := 0
  cmpFlip := 0
  flashA := { keeper := Config.flashImage 0 0, runtime := Config.flashImage 0 1, valid := true }
  flashB := { keeper := Config.flashImage 1 0, runtime := Config.flashImage 1 1, valid := true }
  signing := none
  fwState := 0
  switch := .none

/-- The event state after cold reset: nothing pending, all masked (R473, R485). -/
def Events.reset : Events where
  pend := 0
  mask := BitVec.allOnes 256
  vec := 0
  count := List.replicate 256 0
  holdoff := 0
  merged := 0
  staleSeen := false

/-- Power and reset state at the deassertion of PERST# (R492, R500): step 1 of bring-up runs. -/
def Power.reset (p : Part) : Power where
  mainPower := true
  perst := false
  devState := .booting
  step := 1
  recovery := false
  bootCause := 0
  nextCause := 0
  failCause := 0
  bootTime := 0
  warmPending := none
  warmResets := 0
  railStatus := 0
  thermTrip := false
  combClocks := true
  fclkNow := p.fclkMHz
  tempMax := -32768
  frameMax := -32768
  temps := List.replicate 9 (-32768)
  crit := false
  critDrop := false
  sinceStep := 64
  coolFrames := 0
  throttleFrames := 0
  throttleOverrun := 0
  devErrors := []
  unavailNs := 0
  linkUp := false
  linkWasUp := false
  width := 0
  speed := 0
  vfEnable := false
  numVfs := 0
  vfVectors := 7
  uptimeNs := 0

/-- The frame generator before step 8 of bring-up starts it (R63, R65). -/
def FrameGen.reset : FrameGen where
  number := 0
  closed := 0
  periodActive := 16
  sync := .free
  lockNext := false
  stretchTo := none
  offsetNs := 0
  good := 0
  offsetLast := 0
  overrunLimit := 8
  overrunTotal := 0
  stretchCount := 0
  boundExcessTotal := 0
  overrunLast := 0
  boundaries := 0
  startNs := 0

def Port.reset : Port where
  state := .down
  enablePending := false
  tx := 0
  rx := 0
  resent := 0
  drop := List.replicate 8 0
  fecCorrected := 0
  fecUncorrected := 0

/-- The fabric after cold reset (R420, R421). -/
def Fabric.reset : Fabric where
  deviceIdActive := none
  portModeActive := 0
  exchange := false
  joinTimeout := 1000
  ports := List.replicate 16 Port.reset
  excess := List.replicate 16 0
  lossTotal := 0
  splitTotal := 0
  peerPlanes := []
  kept := []
  resends := []
  room := List.replicate 16 0
  rx := []
  byes := []
  configSeen := []

/-- The Saddle site after cold reset (R31, R36): 0b00 without -G, else disabled. -/
def Saddle.reset (p : Part) : Saddle where
  state := if p.g then 0b01 else 0b00
  disabling := false
  enablePending := false
  training := false
  enableNext := false
  disableNext := false
  inflight := []
  fails := 0
  spares := 4
  failing := 0

def Settings.reset : Settings where
  statHoldMax := 256
  sourceAhead := 64
  cqStallFrames := 64
  readyOverflowTotal := 0
  deferredTotal := 0
  commitDeferTotal := 0
  rlmUeTotal := 0

/-- The part that the reset state stands for: a TRV-8H-A (R2). -/
def Part.trv8hA : Part where
  dies := 8
  fclkMHz := 2400
  g := false
  siliconRev := 0
  vendorPci := 0

/-- Part `p` right after a cold reset. -/
def State.cold (p : Part) : State where
  pending := []
  part := p
  frame := FrameGen.reset
  dies := (List.range 8).map (Die.reset p)
  insts := (List.range 256).map (Inst.reset p)
  jobs := []
  cpls := []
  changes := []
  pages := []
  mem := []
  poison := []
  ats := []
  settings := Settings.reset
  keeper := Keeper.reset
  propolis := Propolis.reset
  events := Events.reset
  power := Power.reset p
  fabric := Fabric.reset
  saddle := Saddle.reset p
  out := []
  fetchRound := []
  nextJid := 1
  nextMid := 1
  draw := 0

/-- The machine right after reset: a TRV-8H-A whose PERST# has just been deasserted (R489, R492). -/
def State.reset : State := State.cold Part.trv8hA

end Sys2Proof.Machine
end

