-- ==== Sys2Proof/Machine/Ops.lean ====
section
/-!
DEFINITION. The named operations over the state: reading and changing one die, Forager, instance or job; events (R471 to
R476); the failure of a part (R85); instance memory with its page tables, poison, dirty pages and Comb cache (R20 to R25,
R299 to R321); and taking a trap (R233, R235), the one shared operation of every Forager command.
-/

namespace Sys2Proof.Machine

-- PLACES IN THE STATE ---------------------------------------------------------------------------------------------------

def State.modDie (s : State) (d : Nat) (f : Die → Die) : State := { s with dies := s.dies.modify d f }

def State.inst? (s : State) (n : Nat) : Option Inst := s.insts[n]?

def State.modInst (s : State) (n : Nat) (f : Inst → Inst) : State := { s with insts := s.insts.modify n f }

/-- The instance with a number; an instance that does not exist reads as one right after reset. -/
def State.instD (s : State) (n : Nat) : Inst := s.insts.getD n (Inst.reset s.part n)

/-- The die with a number; a die that does not exist reads as an absent one. -/
def State.dieD (s : State) (d : Nat) : Die := s.dies.getD d (Die.reset { s.part with dies := 0 } d)

def State.job? (s : State) (jid : Nat) : Option Job := s.jobs.find? (·.jid == jid)

def State.modJob (s : State) (jid : Nat) (f : Job → Job) : State :=
  { s with jobs := s.jobs.map fun j => if j.jid = jid then f j else j }

/-- Physical Forager `f` (R190). -/
def State.fgr? (s : State) (f : FId) : Option Fgr := (s.dies[f.die]?).bind (·.fgrs[f.fgr]?)

def State.modFgr (s : State) (f : FId) (h : Fgr → Fgr) : State :=
  s.modDie f.die fun d => { d with fgrs := d.fgrs.modify f.fgr h }

/-- Take the next free value: the draw counter advances. -/
def State.drawn (s : State) : State := { s with draw := s.draw + 1 }

def State.emit (s : State) (o : Out) : State := { s with out := s.out ++ [o] }

/-- The fence boundary of the die has passed (R478, R479). -/
def FenceSt.on : FenceSt → Bool
  | .none | .staged _ => false
  | _ => true

/-- Active dies, ascending (R31); a die past its fence boundary takes no new work (R478). -/
def State.activeDies (s : State) : List Nat := (List.range 8).filter fun d => (s.dieD d).active && !(s.dieD d).fence.on

/-- CYCLES_PER_FRAME (R39): Forager cycles at the present clock. -/
def State.cyclesPerFrame (s : State) : Nat := s.frame.periodActive * s.power.fclkNow

/-- UNIT_CYCLES_PER_FRAME (R39). -/
def State.unitCycles (s : State) : Nat := s.frame.periodActive * Config.unitMHz

/-- FRAME_PERIOD in force, in nanoseconds. -/
def State.periodNs (s : State) : Nat := s.frame.periodActive * 1000

/-- TB_PTR always equals FRAME_NUMBER[7:0] (R60). -/
def State.tbPtr (s : State) : Nat := s.frame.number.toNat % 256

/-- The distance of an instance from the rotating pointer: the smallest wins a tie (R60). -/
def State.tieDist (s : State) (i : Nat) : Nat := (i + 256 - s.tbPtr) % 256

/-- Time passes: the calendar (R445), the uptime, and the time in which the device is unavailable (R484) advance by `ns`. -/
def State.elapse (s : State) (ns : Nat) : State :=
  let units := s.keeper.calFrac + ns * 32768
  let away := s.power.devState != .ready || (s.power.linkWasUp && !s.power.linkUp)
  { s with
    power := { s.power with
      uptimeNs := s.power.uptimeNs + ns
      unavailNs := if away then s.power.unavailNs + ns else s.power.unavailNs }
    keeper :=
      if s.keeper.calRunning then
        { s.keeper with calTime := s.keeper.calTime + BitVec.ofNat 64 (units / 1000000000), calFrac := units % 1000000000 }
      else s.keeper }

-- EVENTS ------------------------------------------------------------------------------------------------------------------

/-- The sources that R471 assigns. -/
def eventAssigned (e : Nat) : Bool :=
  e ≤ 4 || (32 ≤ e && e ≤ 37) || (64 ≤ e && e ≤ 67) || (96 ≤ e && e ≤ 101) || (128 ≤ e && e ≤ 135) ||
  (160 ≤ e && e ≤ 163) || (192 ≤ e && e ≤ 201) || (224 ≤ e && e ≤ 255)

/-- The die of a per-die source. -/
def eventDie (e : Nat) : Option Nat := if 224 ≤ e ∧ e ≤ 255 then some ((e - 224) / 4) else none

/-- Whether a source can assert: it is assigned, its die is present, and a source of a fenced die other than DIE_FENCE does
not (R471, R473, R480). -/
def State.eventLive (s : State) (e : Nat) : Bool :=
  eventAssigned e &&
  match eventDie e with
  | none => true
  | some d => decide (d < s.part.dies) && (!(s.dieD d).fence.on || e % 4 == 3)

/-- Mask bits that read 1 and ignore writes: reserved sources and sources of absent dies (R473). -/
def State.maskFixed (s : State) : BitVec 256 :=
  BitVec.ofNat 256 (bitmap ((List.range 256).filter fun e =>
    !(eventAssigned e && match eventDie e with | none => true | some d => decide (d < s.part.dies))))

/-- Send an MSI-X message of a function; a masked vector sets its pending bit instead (R363). -/
def State.sendMsix (s : State) (fn vec : Nat) : State :=
  if (s.instD fn).msix.masked.contains vec then
    s.modInst fn fun i => { i with msix := { i.msix with pba := insAsc vec i.msix.pba } }
  else s.emit (.msix fn vec)

/-- EN_g and VECTOR_g of group `g` (R473). -/
def evtEn (vec : W64) (g : Nat) : Bool := vec.getLsbD (8 * g + 7)
def evtVector (vec : W64) (g : Nat) : Nat := bits vec.toNat (8 * g + 5) (8 * g)

/-- Group `g` has a transition to pending and unmasked: one message, merged within 1 µs of the last (R474). -/
def State.signalGroup (s : State) (g : Nat) : State :=
  if !evtEn s.events.vec g then s
  else if s.events.holdoff.getLsbD g then
    { s with events := { s.events with merged := s.events.merged ||| (1#8 <<< g) } }
  else
    { s with events := { s.events with holdoff := s.events.holdoff ||| (1#8 <<< g) } }.sendMsix 0 (evtVector s.events.vec g)

/-- Source `e` asserts: PEND is set, EVT_COUNT counts, and its group may signal (R473, R474). -/
def State.raise (s : State) (e : Nat) : State :=
  if !s.eventLive e then s
  else
    let fresh := !s.events.pend.getLsbD e && !s.events.mask.getLsbD e
    let s1 := { s with events := { s.events with
      pend := s.events.pend ||| (1#256 <<< e)
      count := s.events.count.modify e (satAdd 32 · 1) } }
    if fresh then s1.signalGroup (e / 32) else s1

/-- The bits of DIE_CAUSE (R472). -/
def dcRlmUe : Nat := 0
def dcAmuShadow : Nat := 1
def dcRuntimeFault : Nat := 2
def dcForagerUe : Nat := 3
def dcRidgeDown : Nat := 4
def dcCombUe : Nat := 5
def dcForagerRetired : Nat := 8
def dcAmuRepair : Nat := 9
def dcWayDisabled : Nat := 10
def dcLaneSpared : Nat := 11
def dcSparesExhausted : Nat := 12

/-- An event raised "for the die": its DIE_CAUSE bit, and DIE_ERROR for bits 0 to 5 or DIE_REPAIR (R472). -/
def State.raiseDie (s : State) (d bitNo : Nat) : State :=
  let e := if bitNo < 8 then Config.evDieError d else Config.evDieRepair d
  if !s.eventLive e then s
  else (s.modDie d fun x => { x with cause := x.cause ||| (1#64 <<< bitNo) }).raise e

/-- A stale item of instance `n` is discarded: it is counted where `f` says, and the first of a frame raises STALE_DISCARD (R372). -/
def State.countStale (s : State) (n : Nat) (f : Inst → Inst) : State :=
  let s1 := s.modInst n f
  if s.events.staleSeen then s1 else ({ s1 with events := { s1.events with staleSeen := true } }).raise Config.evStaleDiscard

/-- A stale morsel or result (R372). -/
def State.staleJob (s : State) (n : Nat) : State := s.countStale n fun i => { i with staleJob := satAdd 32 i.staleJob 1 }

/-- A DEVICE-class error (R476, R491): a warm reset at the next boundary with BOOT_CAUSE 3; the third within an hour, FAILED with
FAIL_CAUSE 6. -/
def State.deviceError (s : State) : State :=
  let hour := 3600000000000
  let recent := s.power.devErrors.filter fun t => s.power.uptimeNs < t + hour
  let s1 := { s with power := { s.power with devErrors := recent ++ [s.power.uptimeNs] } }
  if s.power.devState = .failed then s1
  else if 2 ≤ recent.length then
    { s1 with power := { s1.power with devState := .failed, failCause := 6, warmPending := none } }
  else { s1 with power := { s1.power with warmPending := some 3 } }

-- FAILING A PART ----------------------------------------------------------------------------------------------------------

/-- The order of first failures: earliest frame, lowest die, lowest stage (R85). -/
def Failure.before (a b : Failure) : Bool :=
  a.frame < b.frame || (a.frame == b.frame && (a.die < b.die || (a.die == b.die && a.stage < b.stage)))

/-- Record a failure in a job: the first by the order of R85 stands, and its part carries its own outcome (R86). A job that has its outcome
and waits for room at a boundary keeps it (R344). -/
def Job.recordFailure (j : Job) (x : Failure) : Job :=
  if j.state == .ending then j else
  { j with
    failure := match j.failure with
      | none => some x
      | some y => if x.before y then some x else some y
    parts := j.parts.map fun p =>
      if p.die = x.die ∧ p.failed = none then { p with failed := some (x.status, x.stage, x.frame) } else p }

/-- The part of job `jid` on die `d` fails in the running frame with a status, at a stage (R85); `trap` is what the extended status
record keeps (R233). -/
def State.failPart (s : State) (jid d stage status : Nat) (trap : List W64) : State :=
  s.modJob jid fun j => j.recordFailure
    { frame := s.frame.number.toNat, die := d, stage := stage, status := status,
      device := s.fabric.deviceIdActive.getD 0xFFFF, trap := trap }

/-- A job that may still run work: no failure, not aborted (R85). -/
def Job.alive (j : Job) : Bool := j.failure.isNone && !j.abort

-- ADDRESSES -----------------------------------------------------------------------------------------------------------------

/-- Where a device address leads (R20, R21, R24). -/
inductive Loc where
  /-- a byte of RLM, by device address -/
  | rlm (dev : Nat)
  /-- a byte of host memory, by I/O virtual address -/
  | host (iova : Nat)
  deriving DecidableEq, Repr

/-- Bits [38:36]: the die of an RLM address (R21). -/
def devDie (dev : Nat) : Nat := dev / Config.windowBytes

/-- The place of a device address, if it exists (R20 to R22): not the reserved range, a window hole, an absent or a fenced die.
`reserve` admits the die reserve. -/
def State.locate (s : State) (reserve : Bool) (dev : Nat) : Option Loc :=
  if dev < 0x8000000000 then
    let d := devDie dev
    let off := dev % Config.windowBytes
    if d < s.part.dies ∧ (s.dieD d).fence.on = false ∧ off < (if reserve then 0xC00000000 else 0xBE0000000) then
      some (.rlm dev)
    else none
  else if 0x800000000000 ≤ dev ∧ dev < 0x1000000000000 then some (.host (dev - 0x800000000000))
  else none

/-- The number under which a place is kept in `State.mem`. -/
def Loc.key (n : Nat) : Loc → Nat
  | .rlm dev => dev
  | .host iova => 0x1000000000000 * (1 + n) + iova

/-- The fields of a page-table entry (R304). -/
def pteValid (e : W64) : Bool := e.getLsbD 63
def pteWrite (e : W64) : Bool := e.getLsbD 62
def pteZero (e : W64) : Bool := e.getLsbD 61
def pteRegion (e : W64) : Nat := bits e.toNat 60 55
def ptePage (e : W64) : Nat := bits e.toNat 47 21

/-- The page-table entry in force that translates an instance address (R303, R304). -/
def Inst.entry (i : Inst) (a : Nat) : Option W64 :=
  let p := a / Config.pageBytes
  if p < i.alloc.ptPages then
    match assocGet p i.pt with
    | some e => if pteValid e then some e else none
    | none => none
  else none

/-- Translate an instance address: the entry and the place (R303 to R306). -/
def State.translate (s : State) (n a : Nat) : Option (W64 × Loc) :=
  match (s.instD n).entry a with
  | none => none
  | some e =>
    match s.locate false (ptePage e * Config.pageBytes + a % Config.pageBytes) with
    | none => none
    | some l => some (e, l)

/-- The write policy of an entry's region: 0 WB, 1 WT, 2 WNA, 3 UC (R307). -/
def Inst.policy (i : Inst) (e : W64) : Nat := bits i.alloc.regions.toNat (8 * pteRegion e + 1) (8 * pteRegion e)

/-- A page of RLM is not yet usable by instance `n`: its zero-fill runs, or another instance's release clean (R305, R306). -/
def State.pageBusy (s : State) (n : Nat) (l : Loc) : Bool :=
  match l with
  | .rlm dev => s.pages.any fun w => w.page == dev / Config.pageBytes && (w.fill || w.inst != n)
  | .host _ => false

/-- The granule of a place is poisoned (R299). -/
def State.poisoned (s : State) (l : Loc) : Bool :=
  match l with
  | .rlm dev => s.poison.contains (dev / 64)
  | .host _ => false

-- THE COMB CACHE -------------------------------------------------------------------------------------------------------------

/-- H of R310. -/
def wayHash (a : Nat) : Nat :=
  let x := a / 0x400000 % 0x20000
  (x ^^^ (x / 0x200)) * 0x5BD1 % 0x100000000 / 0x100 % 0x10000

/-- The ways that instance `n` holds under the assignment in force, ascending; a way still cleaning counts for its new
owner (R310, R312). -/
def CombCache.assigned (c : CombCache) (n : Nat) : List Nat :=
  (List.range 16).filter fun w =>
    match c.ways[w]? with
    | none => false
    | some x => if x.state = .cleaning then x.nextOwner == some n else x.owner == some n

/-- The way of a line among an ascending list of ways (R310). -/
def wayOf (ws : List Nat) (a : Nat) : Option Nat := if ws = [] then none else ws[wayHash a % ws.length]?

/-- The index of a line in its way (R310). -/
def lineIndex (a : Nat) : Nat := a / 64 % 65536

/-- The resident line at the location that a list of ways gives; a way that is being cleaned for a new owner is skipped, and with `sweep` only
a way that still sweeps is looked at (R312). -/
def CombCache.lineAt (c : CombCache) (ws : List Nat) (a : Nat) (sweep : Bool) : Option Line :=
  match wayOf ws a with
  | none => none
  | some w =>
    let st := (c.ways.getD w Way.reset).state
    if st == .cleaning || (sweep && st != .sweep) then none
    else c.lines.find? fun l => l.way == w && l.addr == a

/-- The resident line that serves an access of instance `n` to a line address, at the new location or at the old one while its
way sweeps (R310, R312). -/
def CombCache.hit (c : CombCache) (n a : Nat) : Option Line :=
  match c.lineAt (c.assigned n) a false with
  | some l => some l
  | none => match c.sweeping.find? (·.1 == n) with
    | none => none
    | some p => c.lineAt p.2 a true

/-- The cache takes an access of instance `n` to a line with a policy: what becomes resident and what becomes dirty
(R308, R310, R312, R314, R317, R319). -/
def CombCache.access (c : CombCache) (n a policy : Nat) (write : Bool) : CombCache :=
  let wb := policy == 0 && c.en && !c.draining
  match c.hit n a with
  | some l =>
    if write then { c with lines := c.lines.map fun x => if x.way = l.way ∧ x.index = l.index then { x with dirty := wb } else x }
    else c
  | none =>
    if 2 ≤ policy || !c.enabled || c.draining || !c.en then c
    else match wayOf (c.assigned n) a with
      | none => c
      | some w => match c.ways[w]? with
        | none => c
        | some x =>
          let full := c.lines.any fun l => l.way == w && l.index == lineIndex a
          if !(x.state = .owned || x.state = .sweep) || (x.locked && full) then c
          else { c with lines := (c.lines.filter fun l => !(l.way == w && l.index == lineIndex a)) ++
                  [{ way := w, index := lineIndex a, addr := a, dirty := write && wb, inst := n }] }

/-- An access of instance `n` reaches the home die of a place: its Comb cache, and for a write the dirty bitmap (R25, R309,
R321). -/
def State.reach (s : State) (n page policy : Nat) (l : Loc) (write : Bool) : State :=
  match l with
  | .host _ => s
  | .rlm dev =>
    let s1 := s.modDie (devDie dev) fun d => { d with cc := d.cc.access n (dev / 64 * 64) policy write }
    if write then s1.modInst n fun i =>
      { i with dirtyLive := insAsc page i.dirtyLive, copied := i.copied.filter (·.1 != page), verified := i.verified.filter (·.1 != page) }
    else s1

-- INSTANCE MEMORY FOR UNITS ----------------------------------------------------------------------------------------------------

/-- One byte of instance memory; `none` where the access fails its job with MEM_FAULT: unmapped, or poisoned (R300, R303, R304). -/
def State.instByte (s : State) (n a : Nat) : Option Byte :=
  match s.translate n a with
  | none => none
  | some (_, l) => if s.poisoned l then none else some (memGet s.mem (l.key n))

/-- Bytes of instance memory. -/
def State.readInst (s : State) (n a : Nat) : Nat → Option (List Byte)
  | 0 => some []
  | k + 1 =>
    match s.instByte n a, s.readInst n (a + 1) k with
    | some b, some bs => some (b :: bs)
    | _, _ => none

/-- The first offset below `k` at which instance memory from `a` cannot be read (R77). -/
def State.firstUnreadable (s : State) (n a k : Nat) : Option Nat :=
  (List.range k).find? fun j => (s.instByte n (a + j)).isNone

/-- Whether every byte from `a` may be written: mapped with WRITE = 1 (R304), and no poisoned granule is covered only in part
(R300). -/
def State.canWrite (s : State) (n a k : Nat) : Bool :=
  (List.range k).all fun j =>
    match s.translate n (a + j) with
    | none => false
    | some (e, l) =>
      pteWrite e &&
      (!s.poisoned l ||
        match l with
        | .rlm dev => decide (dev % 64 ≤ j) && decide (dev / 64 * 64 + 64 ≤ dev + (k - j))
        | .host _ => true)

/-- Write bytes that `canWrite` admits: memory, poison, cache and dirty pages (R300, R308, R321). -/
def State.putInst (s : State) (n a : Nat) : List Byte → State
  | [] => s
  | b :: bs =>
    let s1 := match s.translate n a with
      | none => s
      | some (e, l) =>
        let s0 := { s with
          mem := memSet s.mem (l.key n) b
          poison := match l with
            | .rlm dev => s.poison.filter (· != dev / 64)
            | .host _ => s.poison }
        s0.reach n (a / Config.pageBytes) ((s.instD n).policy e) l true
    s1.putInst n (a + 1) bs

/-- A unit write to instance memory: `none` is MEM_FAULT. -/
def State.writeInst (s : State) (n a : Nat) (bs : List Byte) : Option State :=
  if s.canWrite n a bs.length then some (s.putInst n a bs) else none

-- THE FORAGER -------------------------------------------------------------------------------------------------------------------

/-- CORE_CTL.MODE (R214): 0 Pipeline, 1 Runtime, 2 Service. -/
def FRegs.mode (r : FRegs) : Nat := bits r.coreCtl.toNat 15 14

/-- Put a Forager into a mode. -/
def FRegs.setMode (r : FRegs) (m : Nat) : FRegs :=
  { r with coreCtl := (r.coreCtl &&& ~~~(0xC000#64)) ||| BitVec.ofNat 64 (m * 0x4000) }

/-- The clear of R249: LDM, every V, W, A and VA register, and the data cache. -/
def Fgr.clear (g : Fgr) : Fgr :=
  { g with
    ldm := []
    dcache := []
    regs := { g.regs with v := Vector.replicate 32 0, a := Vector.replicate 4 0, va := Vector.replicate 4 0 } }

/-- The Runtime discards the morsel that a Forager holds: the clear of R249, then idle in Runtime mode. -/
def Fgr.discard (g : Fgr) : Fgr :=
  let c := g.clear
  { c with morsel := none, run := .idle, evictNext := false, regs := { c.regs.setMode 1 with pend := none } }

/-- The job status of a trap cause in Pipeline mode (R232). -/
def trapStatus (cause : Nat) : Nat :=
  if cause = 0x01 ∨ cause = 0x05 ∨ cause = 0x06 ∨ cause = 0x07 then Config.stMemFault
  else if cause = 0x09 then Config.stArithOverflow
  else if cause = 0x0A then Config.stArithDivZero
  else Config.stForagerTrap

/-- The trap registers after a trap (R217): TEPC, TCAUSE with ARITH for causes 0x09 and 0x0A, TVAL; no trap stays pending. -/
def FRegs.trapped (r : FRegs) (cause : Nat) (tval : W64) : FRegs :=
  { r with
    tepc := r.pc.setWidth 64
    tcause := BitVec.ofNat 64 (if cause = 0x09 ∨ cause = 0x0A then 0x80 + cause else cause)
    tval := tval
    pend := none }

/-- TAKING A TRAP (R233): Pipeline enters Runtime mode, the part fails and the morsel is discarded; Runtime stops the Forager with
a Runtime fault, which retires it (R476, R477); Service enters the handler that Keeper installed. `regs` are the registers at the
trap, partial progress included. -/
def State.takeTrap (s : State) (f : FId) (regs : FRegs) (cause : Nat) (tval : W64) : State :=
  let t := regs.trapped cause tval
  let morsel := (s.fgr? f).bind (·.morsel)
  match regs.mode with
  | 0 =>
    let s1 := s.modFgr f fun g => { g with regs := t }.discard
    match morsel with
    | none => s1
    | some m => s1.failPart m.jid f.die m.stage (trapStatus cause) [t.tepc, t.tcause, t.tval, t.fxepc]
  | 2 => s.modFgr f fun g => { g with regs := { t with pc := Config.serviceHandler } }
  | _ =>
    let s1 := s.modFgr f fun g => { g with regs := t, run := .stopped }
    let s2 := (s1.raiseDie f.die dcRuntimeFault).modDie f.die fun d =>
      { d with retiring := d.retiring ++ [(f.fgr, some Config.stRuntimeFault)] }
    match morsel with
    | none => s2
    | some m => s2.failPart m.jid f.die m.stage Config.stRuntimeFault []

/-- Deliver the pending arithmetic trap (R235): TEPC is the PC of the first instruction not executed, TVAL 0. -/
def State.takeArith (s : State) (f : FId) (regs : FRegs) : State :=
  match regs.pend with
  | none => s
  | some p => s.takeTrap f regs p.cause 0

/-- A precise trap: a pending arithmetic trap is delivered in its place (R237). -/
def State.preciseTrap (s : State) (f : FId) (regs : FRegs) (cause : Nat) (tval : W64) : State :=
  if regs.pend.isSome then s.takeArith f regs else s.takeTrap f regs cause tval

/-- What one instruction comes to. -/
inductive FRes where
  /-- it retires with these registers -/
  | done (r : FRegs)
  /-- it retires and redirects the PC -/
  | jump (r : FRegs) (target : BitVec 48)
  /-- it retires, and the pending arithmetic trap is delivered after it (R237) -/
  | deliver (r : FRegs)
  /-- the pending arithmetic trap is delivered before it completes (R235) -/
  | arith
  /-- it raises a precise trap, with the progress that `r` keeps (R233) -/
  | trap (r : FRegs) (cause : Nat) (tval : W64)
  /-- it waits and has done nothing yet -/
  | wait

/-- Retire an instruction that ran on `old` and left `r`: the PC, the loop end of R265, INSTRET and CYCLE (R217), and the count
of later instructions of a pending trap (R235). -/
def FRegs.retire (old r : FRegs) (target : Option (BitVec 48)) (cycles : Nat) : FRegs :=
  let atEnd := target.isNone && old.lc != 0 && old.pc == old.le.setWidth 48
  let next := match target with
    | some t => t
    | none => if atEnd && old.lc != 1 then old.ls.setWidth 48 else old.pc + 4
  { r with
    pc := next
    lc := if atEnd && r.lc == old.lc then old.lc - 1 else r.lc
    instret := r.instret + 1
    cycle := r.cycle + BitVec.ofNat 64 cycles
    pend := match old.pend, r.pend with
      | some _, some p => some { p with after := p.after + 1 }
      | _, p => p }

/-- CORE_CTL.FXPRECISE (R214). -/
def FRegs.fxprecise (r : FRegs) : Bool := r.coreCtl.getLsbD 2

/-- Put retired registers into the Forager; when asked, or with FXPRECISE right after the instruction that raised it, deliver a pending arithmetic
trap at once (R214, R235, R237). -/
def State.retireFgr (s : State) (f : FId) (old r : FRegs) (target : Option (BitVec 48)) (deliver : Bool) : State :=
  let r1 := old.retire r target (Config.instrCycles s.draw)
  let s1 := s.drawn.modFgr f fun g => { g with regs := r1 }
  if r1.pend.isSome && (deliver || (old.pend.isNone && r.fxprecise)) then s1.takeArith f r1 else s1

/-- Finish an instruction that ran on registers `old`. -/
def State.finish (s : State) (f : FId) (old : FRegs) : FRes → State
  | .done r => s.retireFgr f old r none false
  | .jump r t => s.retireFgr f old r (some t) false
  | .deliver r => s.retireFgr f old r none true
  | .arith => s.takeArith f old
  | .trap r c v => s.preciseTrap f r c v
  | .wait => s

/-- A Forager executes commands: the part is powered with its Comb clocks, the die is active (or the Forager in Service mode), and
the Forager is idle in Runtime mode, runs a morsel, or serves Keeper (R206, R207, R499). -/
def State.fgrLive (s : State) (f : FId) (g : Fgr) : Bool :=
  s.power.mainPower && !s.power.perst && s.power.combClocks &&
  ((g.run == .service && (s.dieD f.die).present) ||
   ((g.run == .idle || g.run == .running) && (s.dieD f.die).active && !(s.dieD f.die).fence.on))

/-- 64 later instructions have completed: the pending arithmetic trap is delivered before any other (R235). -/
def FRegs.due (r : FRegs) : Bool :=
  match r.pend with
  | some p => 64 ≤ p.after
  | none => false

/-- EXECUTE ONE INSTRUCTION on Forager `f`: `word` is the instruction, `chk` the checks 5 and 6 of R276 and `body` what it does
when they pass. A Forager that does not execute leaves the state as it is. -/
def runFgr (f : FId) (word : W32) (chk : FRegs → Option Nat) (body : State → Fgr → State × FRes) (s : State) :
    Host.Outcome State Fault Refusal :=
  match s.fgr? f with
  | none => .next s
  | some g =>
    if !s.fgrLive f g then .next s
    else if g.regs.due then .next (s.takeArith f g.regs)
    else match chk g.regs with
      | some c => .next (s.preciseTrap f g.regs c (word.setWidth 64))
      | none =>
        let p := body s g
        .next (p.1.finish f g.regs p.2)

/-- An instruction that touches registers only. -/
def runRegs (f : FId) (word : W32) (chk : FRegs → Option Nat) (body : FRegs → FRes) (s : State) :
    Host.Outcome State Fault Refusal :=
  runFgr f word chk (fun s g => (s, body g.regs)) s

end Sys2Proof.Machine
end

