-- ==== Sys2Proof/Machine/Sha.lean ====
section
/-!
DEFINITION. SHA-256 (FIPS 180-4), the digest of the engines (R451) and of every check of Propolis.
-/

namespace Sys2Proof.Machine

/-- The round constants of FIPS 180-4, first half. -/
def shaK0 : List Nat :=
  [0x428a2f98, 0x71374491, 0xb5c0fbcf, 0xe9b5dba5, 0x3956c25b, 0x59f111f1, 0x923f82a4, 0xab1c5ed5,
   0xd807aa98, 0x12835b01, 0x243185be, 0x550c7dc3, 0x72be5d74, 0x80deb1fe, 0x9bdc06a7, 0xc19bf174,
   0xe49b69c1, 0xefbe4786, 0x0fc19dc6, 0x240ca1cc, 0x2de92c6f, 0x4a7484aa, 0x5cb0a9dc, 0x76f988da,
   0x983e5152, 0xa831c66d, 0xb00327c8, 0xbf597fc7, 0xc6e00bf3, 0xd5a79147, 0x06ca6351, 0x14292967]

/-- The round constants, second half. -/
def shaK1 : List Nat :=
  [0x27b70a85, 0x2e1b2138, 0x4d2c6dfc, 0x53380d13, 0x650a7354, 0x766a0abb, 0x81c2c92e, 0x92722c85,
   0xa2bfe8a1, 0xa81a664b, 0xc24b8b70, 0xc76c51a3, 0xd192e819, 0xd6990624, 0xf40e3585, 0x106aa070,
   0x19a4c116, 0x1e376c08, 0x2748774c, 0x34b0bcb5, 0x391c0cb3, 0x4ed8aa4a, 0x5b9cca4f, 0x682e6ff3,
   0x748f82ee, 0x78a5636f, 0x84c87814, 0x8cc70208, 0x90befffa, 0xa4506ceb, 0xbef9a3f7, 0xc67178f2]

/-- The 64 round constants. -/
def shaK : List W32 := (shaK0 ++ shaK1).map (BitVec.ofNat 32)

/-- The initial chaining value. -/
def shaIV : List W32 :=
  [0x6a09e667, 0xbb67ae85, 0x3c6ef372, 0xa54ff53a, 0x510e527f, 0x9b05688c, 0x1f83d9ab, 0x5be0cd19]

/-- The message schedule: from the 16 latest words, newest first, `n` further words in order. -/
def shaSched : Nat → List W32 → List W32
  | 0, _ => []
  | n + 1, l =>
    let w2 := l.getD 1 0
    let w7 := l.getD 6 0
    let w15 := l.getD 14 0
    let w16 := l.getD 15 0
    let s0 := w15.rotateRight 7 ^^^ w15.rotateRight 18 ^^^ (w15 >>> 3)
    let s1 := w2.rotateRight 17 ^^^ w2.rotateRight 19 ^^^ (w2 >>> 10)
    let w := w16 + s0 + w7 + s1
    w :: shaSched n (w :: l.take 15)

/-- One round on a chaining value a to h. -/
def shaRound (v : List W32) (kw : W32) : List W32 :=
  match v with
  | [a, b, c, d, e, f, g, h] =>
    let t1 := h + (e.rotateRight 6 ^^^ e.rotateRight 11 ^^^ e.rotateRight 25) + ((e &&& f) ^^^ (~~~e &&& g)) + kw
    let t2 := (a.rotateRight 2 ^^^ a.rotateRight 13 ^^^ a.rotateRight 22) + ((a &&& b) ^^^ (a &&& c) ^^^ (b &&& c))
    [t1 + t2, a, b, c, d + t1, e, f, g]
  | _ => v

/-- Compress one block of 64 bytes. -/
def shaBlock (h : List W32) (blk : List Byte) : List W32 :=
  let w0 := (List.range 16).map fun i => BitVec.ofNat 32 (beNat (slice blk (4 * i) 4))
  let ws := w0 ++ shaSched 48 w0.reverse
  List.zipWith (· + ·) h ((List.zipWith (· + ·) shaK ws).foldl shaRound h)

/-- Compress `n` whole blocks from the front of the bytes. -/
def shaBlocks : Nat → List W32 → List Byte → List W32
  | 0, h, _ => h
  | n + 1, h, bs => shaBlocks n (shaBlock h (bs.take 64)) (bs.drop 64)

/-- An opened message. -/
def shaInit : ShaState := { h := shaIV, len := 0, buf := [] }

/-- Take bytes into a message: each block is compressed as it fills (R454). -/
def shaUpdate (st : ShaState) (bs : List Byte) : ShaState :=
  let all := st.buf ++ bs
  let n := all.length / 64
  { h := shaBlocks n st.h all, len := st.len + bs.length, buf := all.drop (64 * n) }

/-- The digest of a message: padding, the last blocks, and the chaining value in bytes (R454, R455). -/
def shaFinal (st : ShaState) : List Byte :=
  let tail := st.buf ++ [0x80] ++ zeros ((119 - st.len % 64) % 64) ++ beBytes 8 (8 * st.len)
  (shaBlocks (tail.length / 64) st.h tail).flatMap fun w => beBytes 4 w.toNat

/-- SHA-256 of a byte string. -/
def sha256 (bs : List Byte) : List Byte := shaFinal (shaUpdate shaInit bs)

end Sys2Proof.Machine
end

