-- ==== Sys2Proof/Machine/AuditOps.lean ====
section
/-!
DEFINITION. The audit log (R439 to R442): its records, their chain, the room in it; and the extension of measurement registers (R465,
R466).
-/

namespace Sys2Proof.Machine

-- ORIGINS (R425) ---------------------------------------------------------------------------------------------------------------------------------

/-- CLASS of an origin. -/
def originClass : Origin → Nat
  | .loc => 0
  | .hostPf => 1
  | .hostVf _ => 2
  | .oobMctp _ _ => 3
  | .oobEth _ => 4

/-- ORIGIN_ID of an origin. -/
def originId : Origin → Nat
  | .loc | .hostPf => 0
  | .hostVf n => n
  | .oobMctp eid binding => eid + 256 * binding
  | .oobEth peer => peer

-- RECORDS (R439) ---------------------------------------------------------------------------------------------------------------------------------

/-- The 64 bytes of a record. -/
def AuditRec.bytes (r : AuditRec) : List Byte :=
  leBytes 4 r.seq.toNat ++ leBytes 2 r.index.toNat ++ [r.sub] ++ leBytes 1 (16 * r.kind + r.cls) ++ leBytes 8 r.time.toNat ++
  leBytes 6 r.frame.toNat ++ leBytes 2 r.originId.toNat ++ fit 32 r.value ++ leBytes 8 r.chain.toNat

/-- VALUE of a scalar: OLD and NEW, each extended to 64 bits. -/
def oldNew (old new : W64) : List Byte := leBytes 8 old.toNat ++ leBytes 8 new.toNat ++ zeros 16

-- ROOM (R442) --------------------------------------------------------------------------------------------------------------------------------------

/-- LOG_OLDEST. -/
def AuditLog.oldest (l : AuditLog) : W32 := l.head - BitVec.ofNat 32 l.recs.length

/-- `a` comes before `b`, modulo 2^32 (R444). -/
def seqBefore (a b : W32) : Bool := decide (0 < (b - a).toNat) && decide ((b - a).toNat < 2 ^ 31)

/-- LOG_ACKED: the later of the last LOG_ACK and LOG_OLDEST. -/
def AuditLog.ackedSeq (l : AuditLog) : W32 := if seqBefore l.acked l.oldest then l.oldest else l.acked

/-- LOG_FREE. -/
def AuditLog.free (l : AuditLog) : Nat := Config.logRecords - (l.head - l.ackedSeq).toNat

/-- A write that needs a record finds no room: HOLD mode with LOG_FREE at 256 or below. -/
def State.logFull (s : State) : Bool := s.keeper.rwp.logMode == 1 && decide (s.keeper.log.free ≤ 256)

def State.modLog (s : State) (f : AuditLog → AuditLog) : State := { s with keeper := { s.keeper with log := f s.keeper.log } }

/-- Append a record: in HOLD mode with no room it is lost, in ring mode it overwrites the oldest of a full log; LOG_HOLD_FULL is raised when
LOG_FREE first falls to 256 in HOLD mode. -/
def State.appendRec (s : State) (r : AuditRec) : State :=
  let l := s.keeper.log
  let hold := s.keeper.rwp.logMode == 1
  if hold && l.free == 0 then s.modLog fun l => { l with lost := satAdd 32 l.lost 1 }
  else
    let r1 := { r with seq := l.head, chain := l.tip }
    let kept := if Config.logRecords ≤ l.recs.length then l.recs.drop 1 else l.recs
    let l1 : AuditLog := { l with
      recs := kept ++ [r1]
      head := l.head + 1
      tip := BitVec.ofNat 64 (leNat ((sha256 r1.bytes).take 8)) }
    let full := hold && decide (l1.free ≤ 256)
    let s1 := s.modLog fun _ => { l1 with holdFull := full }
    if full && !l.holdFull then s1.raise Config.evLogHoldFull else s1

/-- Write a record of a KIND (R440), stamped with the calendar time and the frame. -/
def State.audit (s : State) (kind cls originId index sub : Nat) (value : List Byte) : State :=
  s.appendRec
    { seq := 0
      index := BitVec.ofNat 16 index
      sub := BitVec.ofNat 8 sub
      kind := kind
      cls := cls
      time := s.keeper.calTime
      frame := s.frame.number.setWidth 48
      originId := BitVec.ofNat 16 originId
      value := value
      chain := 0 }

/-- A record of KIND WRITE for a write by an origin. -/
def State.auditWrite (s : State) (o : Origin) (index sub : Nat) (value : List Byte) : State :=
  s.audit 0 (originClass o) (originId o) index sub value

/-- A record of KIND DEVICE for event source `e`; what its INDEX, SUB and VALUE hold is a free value. -/
def State.auditDevice (s : State) (e : Nat) : State :=
  let x := Config.deviceRecord e s.draw
  s.drawn.audit 1 0 e (field x 0 2) (byteAt x 2) (fit 32 (x.drop 3))

/-- The origin of function `n`. -/
def fnOrigin (n : Nat) : Origin := if n = 0 then .hostPf else .hostVf n

/-- A record of KIND COMMAND for an admin command of instance `n`. -/
def State.auditCommand (s : State) (n opcode status : Nat) (value : List Byte) : State :=
  s.audit 2 (originClass (fnOrigin n)) (originId (fnOrigin n)) status opcode value

-- MEASUREMENT (R465, R466) ---------------------------------------------------------------------------------------------------------------------------

/-- Extend a register. -/
def extend (old v : List Byte) : List Byte := sha256 (old ++ v)

def State.extendMeas (s : State) (k : Nat) (v : List Byte) : State :=
  { s with propolis := { s.propolis with meas := s.propolis.meas.modify k (extend · v) } }

def State.extendImeas (s : State) (n k : Nat) (v : List Byte) : State :=
  s.modInst n fun i => { i with imeas := i.imeas.modify k (extend · v) }

/-- The record that Propolis extends into MEAS24 before it clears the IMEAS registers of instance `n`. -/
def Inst.clearRecord (i : Inst) (n : Nat) : List Byte :=
  leBytes 1 n ++ leBytes 2 i.gen.toNat ++ zeros 5 ++ i.imeas.flatMap (fit 32 ·)

/-- Clear IMEAS0 to IMEAS7 of instance `n`, extending MEAS24 first. -/
def State.clearImeas (s : State) (n : Nat) : State :=
  (s.extendMeas 24 ((sha256 ((s.instD n).clearRecord n)))).modInst n fun i => { i with imeas := List.replicate 8 (zeros 32) }

end Sys2Proof.Machine
end

