-- ==== Sys2Proof/Machine/Operands.lean ====
section
/-!
DEFINITION. The operands of the Forager instructions: the register files (R209, R210), the instruction words (R244, R246)
and the checks of the reserved fields (R245, R276, R277).
-/

namespace Sys2Proof.Machine

-- REGISTERS ---------------------------------------------------------------------------------------------------------------

/-- Read G[i]: G0 reads as 0 (R209). -/
def FRegs.rg (r : FRegs) (i : BitVec 5) : W64 := if i = 0 then 0 else r.g[i.toNat]'(i.isLt)

/-- Write G[i]: a write to G0 is discarded (R209). -/
def FRegs.setG (r : FRegs) (i : BitVec 5) (v : W64) : FRegs :=
  if i = 0 then r else { r with g := r.g.set i.toNat v i.isLt }

/-- Read V[i]. -/
def FRegs.rv (r : FRegs) (i : BitVec 5) : W1024 := r.v[i.toNat]'(i.isLt)

/-- Write V[i]. -/
def FRegs.setV (r : FRegs) (i : BitVec 5) (v : W1024) : FRegs := { r with v := r.v.set i.toNat v i.isLt }

/-- Read W[i]: V[i][127:0] (R210). -/
def FRegs.rw (r : FRegs) (i : BitVec 5) : W128 := (r.rv i).setWidth 128

/-- Write W[i]: V[i][1023:128] is unchanged (R210). -/
def FRegs.setW (r : FRegs) (i : BitVec 5) (w : W128) : FRegs :=
  r.setV i (((r.rv i).extractLsb' 128 896 ++ w : BitVec (896 + 128)))

/-- Read A[i]. -/
def FRegs.ra (r : FRegs) (i : BitVec 2) : W144 := r.a[i.toNat]'(i.isLt)

/-- Write A[i]. -/
def FRegs.setA (r : FRegs) (i : BitVec 2) (v : W144) : FRegs := { r with a := r.a.set i.toNat v i.isLt }

/-- Read VA[i]. -/
def FRegs.rva (r : FRegs) (i : BitVec 2) : WVA := r.va[i.toNat]'(i.isLt)

/-- Write VA[i]. -/
def FRegs.setVa (r : FRegs) (i : BitVec 2) (v : WVA) : FRegs := { r with va := r.va.set i.toNat v i.isLt }

/-- The CTM bit of CORE_CTL (R214, R230). -/
def FRegs.ctm (r : FRegs) : Bool := r.coreCtl.getLsbD 0

-- INSTRUCTION WORDS ---------------------------------------------------------------------------------------------------------

/-- Format REG (R244). -/
def regWord (op : BitVec 7) (fn : BitVec 6) (x : RegF) : W32 :=
  fn ++ x.rs ++ x.ss ++ x.rb ++ x.ra ++ x.rd ++ op

/-- Format SHF (R244). -/
def shfWord (op : BitVec 7) (x : ShfF) : W32 :=
  x.sh6 ++ x.rs ++ x.ss ++ x.rb ++ x.ra ++ x.rd ++ op

/-- Format IMM (R244). -/
def immWord (op : BitVec 7) (fn3 : BitVec 3) (x : ImmF) : W32 :=
  x.imm ++ fn3 ++ x.ra ++ x.rd ++ op

/-- Format BRA (R244). -/
def braWord (op : BitVec 7) (cnd : BitVec 3) (x : BraF) : W32 :=
  x.off ++ cnd ++ x.rb ++ x.ra ++ op

/-- Format JMP (R244). -/
def jmpWord (op : BitVec 7) (x : JmpF) : W32 := x.imm ++ x.rd ++ op

/-- Format ACR (R244). -/
def acrWord (op : BitVec 7) (fn2 : BitVec 2) (x : AcrF) : W32 :=
  x.sh7 ++ x.rs ++ x.ss ++ fn2 ++ x.an ++ x.rsv ++ x.rd ++ op

/-- The word of a string instruction, whose FN is an operand (R246). -/
def strWord (op : BitVec 7) (x : StrF) : W32 :=
  x.fn ++ x.rs ++ x.ss ++ x.rb ++ x.ra ++ x.rd ++ op

-- CHECKS ----------------------------------------------------------------------------------------------------------------------

/-- The first check that fails gives its cause (R276). -/
def firstCause (l : List (Bool × Nat)) : Option Nat := (l.find? (·.1)).map (·.2)

/-- Which of the fields of a word an instruction uses: SS, RS, RD, RA, RB. -/
structure Uses where
  ss : Bool := false
  rs : Bool := false
  rd : Bool := true
  ra : Bool := true
  rb : Bool := true

/-- Check 5 on SS, RS and the register fields: an unused field is 0, and SS is not 0b11 (R245, R277). -/
def badFields (u : Uses) (ss rs : BitVec 2) (rd ra rb : BitVec 5) : Bool :=
  (if u.ss then ss == 3 else ss != 0) || (!u.rs && rs != 0) ||
  (!u.rd && rd != 0) || (!u.ra && ra != 0) || (!u.rb && rb != 0)

def badReg (u : Uses) (x : RegF) : Bool := badFields u x.ss x.rs x.rd x.ra x.rb

def badShf (u : Uses) (x : ShfF) : Bool := badFields u x.ss x.rs x.rd x.ra x.rb

/-- Check 5 alone. -/
def chk5 (bad : Bool) (_ : FRegs) : Option Nat := if bad then some 0x03 else none

/-- An accumulator named in RD[8:7]; RD[11:9] is reserved (R246, R277). -/
def accOf (rd : BitVec 5) : BitVec 2 := rd.extractLsb' 0 2
def badAcc (rd : BitVec 5) : Bool := rd.extractLsb' 2 3 != 0

end Sys2Proof.Machine
end

