-- ==== Sys2Proof/Machine/Flags.lean ====
section
/-!
DEFINITION. Rounding (R220, R221), fitting under SS (R219), the sticky flags and the arithmetic traps they raise (R215, R235, R236),
and the carry (R223).
-/

namespace Sys2Proof.Machine

-- FXCSR -----------------------------------------------------------------------------------------------------------------------

def FRegs.rm (r : FRegs) : Nat := bits r.fxcsr.toNat 2 0
def FRegs.satd (r : FRegs) : Bool := r.fxcsr.getLsbD 3
def FRegs.cy (r : FRegs) : Bool := r.fxcsr.getLsbD 12
def FRegs.ove (r : FRegs) : Bool := r.fxcsr.getLsbD 16
def FRegs.dze (r : FRegs) : Bool := r.fxcsr.getLsbD 17

/-- Write CY (R223). -/
def FRegs.setCy (r : FRegs) (c : Bool) : FRegs :=
  { r with fxcsr := (r.fxcsr &&& ~~~(0x1000#64)) ||| (if c then 0x1000#64 else 0#64) }

/-- The flags that one instruction sets. -/
structure FFlags where
  ov : Bool := false
  sat : Bool := false
  dz : Bool := false
  inx : Bool := false
  inv : Bool := false
  deriving DecidableEq, Repr

/-- A flag is set if any element sets it (R254). -/
def FFlags.or (a b : FFlags) : FFlags :=
  { ov := a.ov || b.ov, sat := a.sat || b.sat, dz := a.dz || b.dz, inx := a.inx || b.inx, inv := a.inv || b.inv }

/-- The places of the sticky flags in FXCSR (R215). -/
def FFlags.word (x : FFlags) : W64 :=
  (if x.ov then 0x10#64 else 0#64) ||| (if x.sat then 0x20#64 else 0#64) ||| (if x.dz then 0x40#64 else 0#64) |||
  (if x.inx then 0x80#64 else 0#64) ||| (if x.inv then 0x100#64 else 0#64)

/-- The cause that the flags raise under OVE and DZE as they stand (R236). -/
def FRegs.arithCause (r : FRegs) (x : FFlags) : Option Nat :=
  if x.ov && r.ove then some 0x09 else if x.dz && r.dze then some 0x0A else none

/-- Set sticky flags, and raise an arithmetic trap if none is pending (R235): FXEPC takes the PC while VALID = 0 (R236). -/
def FRegs.flag (r : FRegs) (x : FFlags) : FRegs :=
  let r1 := { r with fxcsr := r.fxcsr ||| x.word }
  match r.arithCause x, r.pend with
  | some c, none =>
    { r1 with
      pend := some { cause := c, after := 0 }
      fxepc := if r.fxepc.getLsbD 63 then r.fxepc else 0x8000000000000000#64 ||| r.pc.setWidth 64 }
  | _, _ => r1

-- ROUNDING -------------------------------------------------------------------------------------------------------------------

/-- The rounding mode that RS selects (R220): 0 RNE, 1 RNA, 2 RTZ, 3 RDN, 4 RUP, 5 RHU. -/
def FRegs.rmOf (r : FRegs) (rs : BitVec 2) : Nat :=
  if rs = 0 then r.rm else if rs = 1 then 0 else if rs = 2 then 3 else 2

/-- Whether the exact value `⌊x⌋ + rem / m` rounds up (R221). -/
def roundsUp (rm : Nat) (neg : Bool) (fl : Int) (rem m : Nat) : Bool :=
  match rm with
  | 0 => m < 2 * rem || (2 * rem == m && fl % 2 == 1)
  | 1 => m < 2 * rem || (2 * rem == m && !neg)
  | 2 => rem != 0 && neg
  | 3 => false
  | 4 => rem != 0
  | _ => rem != 0 && m ≤ 2 * rem

/-- An exact value divided by `2 ^ sh` and rounded: the result, and whether it is inexact (R220, R221). -/
def roundShift (rm : Nat) (x : Int) (sh : Nat) : Int × Bool :=
  let m : Nat := 2 ^ sh
  let fl := x / (m : Int)
  let rem := (x % (m : Int)).toNat
  (if roundsUp rm (decide (x < 0)) fl rem m then fl + 1 else fl, rem != 0)

-- FITTING ----------------------------------------------------------------------------------------------------------------------

/-- SS selects saturation (R219). -/
def FRegs.saturates (r : FRegs) (ss : BitVec 2) : Bool := ss == 2 || (ss == 0 && r.satd)

/-- Fit an exact integer to a range `lo` to `hi` of codes of `w` bits: wrap sets OV, saturation SAT (R219). -/
def fitRange (w : Nat) (lo hi : Int) (sat : Bool) (x : Int) : Int × FFlags :=
  if lo ≤ x ∧ x ≤ hi then (x, {})
  else if sat then (if x < lo then lo else hi, { sat := true })
  else ((ucode w x : Nat), { ov := true })

/-- Fit to `w` bits signed (R219). -/
def fitS (w : Nat) (sat : Bool) (x : Int) : BitVec w × FFlags :=
  let p := fitRange w (-(2 ^ (w - 1) : Nat)) ((2 ^ (w - 1) : Nat) - 1) sat x
  (BitVec.ofInt w p.1, p.2)

/-- Fit to `w` bits unsigned: the quotient of DIVWU (R228). -/
def fitU (w : Nat) (sat : Bool) (x : Int) : BitVec w × FFlags :=
  let p := fitRange w 0 ((2 ^ w : Nat) - 1) sat x
  (BitVec.ofInt w p.1, p.2)

/-- Write an exact signed result to G[d] under SS (R219). -/
def FRegs.putS (r : FRegs) (rd : BitVec 5) (ss : BitVec 2) (x : Int) : FRegs :=
  let p := fitS 64 (r.saturates ss) x
  (r.setG rd p.1).flag p.2

/-- Write a rounded result to G[d] under SS, with INX (R219, R220). -/
def FRegs.putRound (r : FRegs) (rd : BitVec 5) (ss rs : BitVec 2) (x : Int) (sh : Nat) : FRegs :=
  let q := roundShift (r.rmOf rs) x sh
  let p := fitS 64 (r.saturates ss) q.1
  (r.setG rd p.1).flag { p.2 with inx := q.2 }

end Sys2Proof.Machine
end

