-- ==== Sys2Proof/Machine/FgrMem.lean ====
section
/-!
DEFINITION. The scalar memory instructions of the Forager: loads and stores of instance memory and of LDM, the atomics and the
fences: major opcodes 0x20 to 0x25 (R247, R248, R270, R271, R276).
-/

namespace Sys2Proof.Machine

-- LOCAL DATA MEMORY ------------------------------------------------------------------------------------------------------------------

/-- Bytes of LDM (R248). -/
def ldmBytes : Nat := 0x40000

/-- The bytes of an LDM access lie inside LDM. -/
def inLdm (a n : Nat) : Bool := decide (a + n ≤ ldmBytes)

-- INSTANCE MEMORY SEEN BY A FORAGER ----------------------------------------------------------------------------------------------------

/-- The bytes of section `i` of an image. -/
def Image.section (im : Image) (i : Nat) : List Byte :=
  match im.sections[i]? with
  | none => []
  | some (_, off, size) => slice im.bytes off size

/-- The read-only windows of a morsel: code, constant pool and parameter block of its stage (R75). -/
def State.windows (s : State) (m : Morsel) : List (Nat × List Byte) :=
  match s.job? m.jid with
  | none => []
  | some j =>
    match j.image.stages[m.stage]? with
    | none => []
    | some st =>
      let sec := fun o => match o with
        | none => []
        | some i => [(Config.sectionBase j.handle.toNat i, j.image.section i)]
      sec st.codeSec ++ sec st.constSec ++
        (if st.param = [] then [] else [(Config.sectionBase j.handle.toNat (128 + m.stage), st.param)])

/-- A window holds the byte at `a`. -/
def inWindow (ws : List (Nat × List Byte)) (a : Nat) : Bool := ws.any fun w => w.1 ≤ a && a < w.1 + w.2.length

/-- `n` bytes at `a` from the window that holds them. -/
def windowRead (ws : List (Nat × List Byte)) (a n : Nat) : Option (List Byte) :=
  match ws.find? fun w => w.1 ≤ a && a + n ≤ w.1 + w.2.length with
  | none => none
  | some w => some (slice w.2 (a - w.1) n)

/-- What a memory access of a Forager comes to. -/
inductive MRes where
  | ok (bytes : List Byte) (s : State)
  | bad
  | wait

/-- The 64 bytes of a cached line that hold `n` bytes at place key `k`. -/
def lineRead (line : BitVec 512) (k n : Nat) : List Byte := slice (leBytes 64 line.toNat) (k % 64) n

/-- A load of a translated place: from the Forager's data cache while it still holds the line, else from the home die, and then kept
unless the region is UC (R25, R270, R308). -/
def State.cachedRead (s : State) (f : FId) (g : Fgr) (n page policy : Nat) (l : Loc) (len : Nat) : MRes :=
  let k := l.key n
  let fill := fun (t : State) =>
    let t1 := t.reach n page policy l false
    if policy = 3 then t1
    else t1.modFgr f fun h => { h with
      dcache := assocSet (k / 64) (BitVec.ofNat 512 (leNat (memRead s.mem (k / 64 * 64) 64))) h.dcache }
  match assocGet (k / 64) g.dcache with
  | some line =>
    if Config.dcacheKept s.draw then .ok (lineRead line k len) s.drawn
    else .ok (memRead s.mem k len) (fill s.drawn)
  | none => .ok (memRead s.mem k len) (fill s)

/-- A load of `len` bytes by a Forager (R206, R260, R300, R304). -/
def State.fgrRead (s : State) (f : FId) (g : Fgr) (a len : Nat) : MRes :=
  if g.regs.mode = 2 then
    match s.locate true a with
    | none => .bad
    | some l => if s.poisoned l then .bad else .ok (memRead s.mem (l.key 0) len) s
  else match g.morsel with
    | none => .bad
    | some m =>
      match windowRead (s.windows m) a len with
      | some bs => .ok bs s
      | none =>
        match s.translate m.inst a with
        | none => .bad
        | some (e, l) =>
          if s.poisoned l then .bad
          else if s.pageBusy m.inst l then .wait
          else s.cachedRead f g m.inst (a / Config.pageBytes) ((s.instD m.inst).policy e) l len

/-- Bytes written into a cached line at place key `k`. -/
def lineWrite (line : BitVec 512) (k : Nat) (bs : List Byte) : BitVec 512 :=
  BitVec.ofNat 512 (leNat (patch (leBytes 64 line.toNat) (k % 64) bs))

/-- A store performed at its home die; the Forager's own cached line, if any, follows (R270). -/
def State.storeAt (s : State) (f : FId) (n page policy : Nat) (l : Loc) (bs : List Byte) : State :=
  let k := l.key n
  let s1 := { s with mem := memWrite s.mem k bs }.reach n page policy l true
  s1.modFgr f fun h => { h with
    dcache := h.dcache.map fun x => if x.1 = k / 64 then (x.1, lineWrite x.2 k bs) else x }

/-- A store of a Forager, of less than a granule: a poisoned granule, a read-only or unmapped address is bad (R75, R300, R304). -/
def State.fgrWrite (s : State) (f : FId) (g : Fgr) (a : Nat) (bs : List Byte) : MRes :=
  if g.regs.mode = 2 then
    match s.locate true a with
    | none => .bad
    | some l => if s.poisoned l then .bad else .ok [] { s with mem := memWrite s.mem (l.key 0) bs }
  else match g.morsel with
    | none => .bad
    | some m =>
      if inWindow (s.windows m) a then .bad
      else match s.translate m.inst a with
        | none => .bad
        | some (e, l) =>
          if !pteWrite e || s.poisoned l then .bad
          else if s.pageBusy m.inst l then .wait
          else .ok [] (s.storeAt f m.inst (a / Config.pageBytes) ((s.instD m.inst).policy e) l bs)

-- ACCESSES IN EITHER SPACE ---------------------------------------------------------------------------------------------------------------

/-- A load in LDM or in instance memory; cause 0x05 where it cannot be done. -/
def State.load (s : State) (f : FId) (g : Fgr) (ldm : Bool) (a len : Nat) : MRes :=
  if ldm then (if inLdm a len then .ok (memRead g.ldm a len) s else .bad) else s.fgrRead f g a len

/-- A store in LDM or in instance memory; cause 0x06 where it cannot be done. -/
def State.store (s : State) (f : FId) (g : Fgr) (ldm : Bool) (a : Nat) (bs : List Byte) : MRes :=
  if ldm then
    (if inLdm a bs.length then .ok [] (s.modFgr f fun h => { h with ldm := memWrite h.ldm a bs }) else .bad)
  else s.fgrWrite f g a bs

/-- G[RA] + IMM12 (R247). -/
def FRegs.eaImm (r : FRegs) (x : ImmF) : W64 := r.rg x.ra + x.imm.signExtend 64

/-- A scalar load of `len` bytes: alignment first (R276), then the access. -/
def loadWith (f : FId) (ldm : Bool) (fn3 : BitVec 3) (len : Nat) (x : ImmF) (put : FRegs → Nat → FRegs) (s : State) :
    Host.Outcome State Fault Refusal :=
  runFgr f (immWord (if ldm then 0x22 else 0x20) fn3 x) (chk5 false) (fun s g =>
    let a := g.regs.eaImm x
    if a.toNat % len ≠ 0 then (s, .trap g.regs 0x07 a)
    else match s.load f g ldm a.toNat len with
      | .bad => (s, .trap g.regs 0x05 a)
      | .wait => (s, .wait)
      | .ok bs t => (t, .done (put g.regs (leNat bs)))) s

/-- A scalar store of `len` bytes of the data register that RD names (R247). -/
def storeWith (f : FId) (ldm : Bool) (fn3 : BitVec 3) (len : Nat) (x : ImmF) (data : FRegs → Nat) (s : State) :
    Host.Outcome State Fault Refusal :=
  runFgr f (immWord (if ldm then 0x23 else 0x21) fn3 x) (chk5 false) (fun s g =>
    let a := g.regs.eaImm x
    if a.toNat % len ≠ 0 then (s, .trap g.regs 0x07 a)
    else match s.store f g ldm a.toNat (leBytes len (data g.regs)) with
      | .bad => (s, .trap g.regs 0x06 a)
      | .wait => (s, .wait)
      | .ok _ t => (t, .done g.regs)) s

/-- A signed load result: sign-extended from `w` bits. -/
def putSigned (w : Nat) (rd : BitVec 5) (r : FRegs) (v : Nat) : FRegs := r.setG rd (BitVec.ofInt 64 (sint w v))
def putUnsigned (rd : BitVec 5) (r : FRegs) (v : Nat) : FRegs := r.setG rd (BitVec.ofNat 64 v)
def putQuad (rd : BitVec 5) (r : FRegs) (v : Nat) : FRegs := r.setW rd (BitVec.ofNat 128 v)

def execLb (f : FId) (x : ImmF) (s : State) := loadWith f false 0 1 x (putSigned 8 x.rd) s
def execLh (f : FId) (x : ImmF) (s : State) := loadWith f false 1 2 x (putSigned 16 x.rd) s
def execLw (f : FId) (x : ImmF) (s : State) := loadWith f false 2 4 x (putSigned 32 x.rd) s
def execLd (f : FId) (x : ImmF) (s : State) := loadWith f false 3 8 x (putUnsigned x.rd) s
def execLbu (f : FId) (x : ImmF) (s : State) := loadWith f false 4 1 x (putUnsigned x.rd) s
def execLhu (f : FId) (x : ImmF) (s : State) := loadWith f false 5 2 x (putUnsigned x.rd) s
def execLwu (f : FId) (x : ImmF) (s : State) := loadWith f false 6 4 x (putUnsigned x.rd) s
def execLq (f : FId) (x : ImmF) (s : State) := loadWith f false 7 16 x (putQuad x.rd) s
def execSb (f : FId) (x : ImmF) (s : State) := storeWith f false 0 1 x (fun r => (r.rg x.rd).toNat) s
def execSh (f : FId) (x : ImmF) (s : State) := storeWith f false 1 2 x (fun r => (r.rg x.rd).toNat) s
def execSw (f : FId) (x : ImmF) (s : State) := storeWith f false 2 4 x (fun r => (r.rg x.rd).toNat) s
def execSd (f : FId) (x : ImmF) (s : State) := storeWith f false 3 8 x (fun r => (r.rg x.rd).toNat) s
def execSq (f : FId) (x : ImmF) (s : State) := storeWith f false 7 16 x (fun r => (r.rw x.rd).toNat) s
def execLbL (f : FId) (x : ImmF) (s : State) := loadWith f true 0 1 x (putSigned 8 x.rd) s
def execLhL (f : FId) (x : ImmF) (s : State) := loadWith f true 1 2 x (putSigned 16 x.rd) s
def execLwL (f : FId) (x : ImmF) (s : State) := loadWith f true 2 4 x (putSigned 32 x.rd) s
def execLdL (f : FId) (x : ImmF) (s : State) := loadWith f true 3 8 x (putUnsigned x.rd) s
def execLbuL (f : FId) (x : ImmF) (s : State) := loadWith f true 4 1 x (putUnsigned x.rd) s
def execLhuL (f : FId) (x : ImmF) (s : State) := loadWith f true 5 2 x (putUnsigned x.rd) s
def execLwuL (f : FId) (x : ImmF) (s : State) := loadWith f true 6 4 x (putUnsigned x.rd) s
def execLqL (f : FId) (x : ImmF) (s : State) := loadWith f true 7 16 x (putQuad x.rd) s
def execSbL (f : FId) (x : ImmF) (s : State) := storeWith f true 0 1 x (fun r => (r.rg x.rd).toNat) s
def execShL (f : FId) (x : ImmF) (s : State) := storeWith f true 1 2 x (fun r => (r.rg x.rd).toNat) s
def execSwL (f : FId) (x : ImmF) (s : State) := storeWith f true 2 4 x (fun r => (r.rg x.rd).toNat) s
def execSdL (f : FId) (x : ImmF) (s : State) := storeWith f true 3 8 x (fun r => (r.rg x.rd).toNat) s
def execSqL (f : FId) (x : ImmF) (s : State) := storeWith f true 7 16 x (fun r => (r.rw x.rd).toNat) s

-- ATOMICS ----------------------------------------------------------------------------------------------------------------------------

/-- The 8 bytes at the home die that an AMO acts on, read there and not in the data cache (R271). -/
def State.amoOld (s : State) (g : Fgr) (a : Nat) : W64 :=
  if g.regs.mode = 2 then
    match s.locate true a with
    | none => 0
    | some l => BitVec.ofNat 64 (leNat (memRead s.mem (l.key 0) 8))
  else match g.morsel with
    | none => 0
    | some m => match s.translate m.inst a with
      | none => 0
      | some (_, l) => BitVec.ofNat 64 (leNat (memRead s.mem (l.key m.inst) 8))

/-- The place key of an address, for the line that an AMO invalidates. -/
def State.placeKey (s : State) (g : Fgr) (a : Nat) : Nat :=
  match g.morsel with
  | none => a
  | some m => match s.translate m.inst a with
    | none => a
    | some (_, l) => l.key m.inst

/-- An AMO (R271): `upd` gives the new value from the old, or nothing to store: a compare that fails writes nothing. An access that
cannot be done raises 0x06 (R300). -/
def amoWith (f : FId) (fn : BitVec 6) (x : RegF) (upd : FRegs → W64 → Option W64) (s : State) : Host.Outcome State Fault Refusal :=
  runFgr f (regWord 0x24 fn x) (chk5 (badReg {} x)) (fun s g =>
    let a := g.regs.rg x.ra
    if a.toNat % 8 ≠ 0 then (s, .trap g.regs 0x07 a)
    else
      let old := s.amoOld g a.toNat
      match s.fgrWrite f g a.toNat (leBytes 8 ((upd g.regs old).getD old).toNat) with
      | .bad => (s, .trap g.regs 0x06 a)
      | .wait => (s, .wait)
      | .ok _ t =>
        ((if (upd g.regs old).isSome then t else s).modFgr f fun h => { h with dcache := h.dcache.filter (·.1 != s.placeKey g a.toNat / 64) },
          .done (g.regs.setG x.rd old))) s

def execAmoadd (f : FId) (x : RegF) (s : State) := amoWith f 0x00 x (fun r old => some (old + r.rg x.rb)) s
def execAmoswap (f : FId) (x : RegF) (s : State) := amoWith f 0x01 x (fun r _ => some (r.rg x.rb)) s
def execAmocas (f : FId) (x : RegF) (s : State) :=
  amoWith f 0x02 x (fun r old => if old = r.rg x.rd then some (r.rg x.rb) else none) s

-- FENCES -------------------------------------------------------------------------------------------------------------------------------

/-- A fence: no operand (R245); `acq` invalidates the data cache (R270). Every store is performed at its home die by the time it
retires, so FENCE.REL has nothing to wait for. -/
def fenceWith (f : FId) (fn : BitVec 6) (x : RegF) (acq : Bool) (s : State) : Host.Outcome State Fault Refusal :=
  runFgr f (regWord 0x25 fn x) (chk5 (badReg { rd := false, ra := false, rb := false } x)) (fun s g =>
    (if acq then s.modFgr f fun h => { h with dcache := [] } else s, .done g.regs)) s

def execFence (f : FId) (x : RegF) (s : State) := fenceWith f 0x00 x true s
def execFenceRel (f : FId) (x : RegF) (s : State) := fenceWith f 0x01 x false s
def execFenceAcq (f : FId) (x : RegF) (s : State) := fenceWith f 0x02 x true s

end Sys2Proof.Machine
end

