-- ==== Sys2Proof/Machine/Morsels.lean ====
section
/-!
DEFINITION. Morsels: the descriptor (R122), the columns that it points to (R116), the morsel arena (R115), and the limits of a
stage (R74).
-/

namespace Sys2Proof.Machine

-- RESULTS ---------------------------------------------------------------------------------------------------------------------------

/-- Work of a unit: a value, or the status with which it fails its job. -/
abbrev Res (α : Type) := Except Nat α

/-- Bytes of instance memory, or MEM_FAULT. -/
def State.fetch (s : State) (n a k : Nat) : Res (List Byte) :=
  match s.readInst n a k with
  | some bs => .ok bs
  | none => .error Config.stMemFault

/-- Store bytes, or MEM_FAULT. -/
def State.poke (s : State) (n a : Nat) (bs : List Byte) : Res State :=
  match s.writeInst n a bs with
  | some t => .ok t
  | none => .error Config.stMemFault

/-- Fail unless a condition holds. -/
def need (c : Bool) (status : Nat) : Res Unit := if c then .ok () else .error status

-- THE DESCRIPTOR (R122) ---------------------------------------------------------------------------------------------------------------

def descSeq (d : List Byte) : Nat := field d 0 6
def descRows (d : List Byte) : Nat := field d 0x08 4
def descCols (d : List Byte) : Nat := byteAt d 0x0C
def descFlags (d : List Byte) : Nat := byteAt d 0x0D
def descTag (d : List Byte) : Nat := field d 0x0E 2
def descSelAddr (d : List Byte) : Nat := field d 0x10 8
def descSelCount (d : List Byte) : Nat := field d 0x18 4
def descFirst (d : List Byte) : Nat := field d 0x1C 4

/-- Bytes of a descriptor with `c` columns. -/
def descBytes (c : Nat) : Nat := 32 + 32 * c

/-- Column entry `k`. -/
def descCol (d : List Byte) (k : Nat) : List Byte := slice d (descBytes k) 32

/-- HEAP_SIZE summed over the columns. -/
def descHeap (d : List Byte) : Nat := ((List.range (descCols d)).map fun k => field (descCol d k) 0x18 4).sum

/-- FLAGS of a descriptor. -/
def flagSel : Nat := 1
def flagEmpty : Nat := 2
def flagGroupLast : Nat := 4

/-- A descriptor header. -/
structure DescHdr where
  seq : Nat
  rows : Nat
  cols : Nat
  flags : Nat
  tag : Nat := 0
  selAddr : Nat := 0
  selCount : Nat := 0
  first : Nat := 0

def DescHdr.bytes (h : DescHdr) : List Byte :=
  leBytes 6 h.seq ++ zeros 2 ++ leBytes 4 h.rows ++ leBytes 1 h.cols ++ leBytes 1 h.flags ++ leBytes 2 h.tag ++
  leBytes 8 h.selAddr ++ leBytes 4 h.selCount ++ leBytes 4 h.first

/-- A descriptor with another sequence number. -/
def withSeq (d : List Byte) (q : Nat) : List Byte := patch d 0 (leBytes 6 q)

-- COLUMNS (R99, R116) -------------------------------------------------------------------------------------------------------------------

/-- STRING or BYTES. -/
def strType (ty : Nat) : Bool := ty == 0x0F || ty == 0x10

/-- A column in VALUE form of STRING or BYTES: offsets and heap. -/
def Column.str (c : Column) : Bool := c.form == 0 && strType c.ltype

/-- The lanes, or the offsets starting at 0; a null row's lane is 0 and a null string spans no bytes (R116). -/
def Column.data (c : Column) : List Byte :=
  if c.str then
    (c.cells.foldl (fun (p : Nat × List Byte) x =>
      let e := p.1 + (x.getD []).length
      (e, p.2 ++ leBytes 4 e)) (0, leBytes 4 0)).2
  else c.cells.flatMap fun x => fit c.lane (x.getD [])

/-- The validity bitmap; nothing when every row is valid (R122). -/
def Column.validity (c : Column) : List Byte :=
  if c.cells.all (·.isSome) then []
  else leBytes (ceilDiv c.cells.length 8) (bitmap ((List.range c.cells.length).filter fun i => (c.cells.getD i none).isSome))

/-- The compacted heap. -/
def Column.heap (c : Column) : List Byte := if c.str then c.cells.flatMap (·.getD []) else []

/-- The heap bytes of a column (R74). -/
def Column.heapBytes (c : Column) : Nat := c.heap.length

/-- Rows `is` of a column, in that order. -/
def Column.pick (c : Column) (is : List Nat) : Column := { c with cells := is.map fun i => c.cells.getD i none }

/-- The number in a fixed-width cell. -/
def cellNat (x : Option (List Byte)) : Nat := leNat (x.getD [])

/-- Split bytes into `n` lanes of `w` bytes. -/
def lanes (bs : List Byte) (w n : Nat) : List (List Byte) := (List.range n).map fun i => slice bs (i * w) w

/-- Read one column of a morsel with `rows` rows, from its entry. -/
def State.readColumn (s : State) (n rows : Nat) (e : List Byte) : Res Column := do
  let ty := byteAt e 0x1D
  let form := byteAt e 0x1E
  let lane := byteAt e 0x1C
  let valid ← if field e 8 8 = 0 then .ok [] else s.fetch n (field e 8 8) (ceilDiv rows 8)
  let isValid := fun i => field e 8 8 == 0 || bit (leNat valid) i
  let cells ←
    if form = 0 ∧ strType ty then do
      let offs ← s.fetch n (field e 0 8) (4 * (rows + 1))
      let heap ← s.fetch n (field e 16 8) (field e 0x18 4)
      .ok ((List.range rows).map fun i => slice heap (field offs (4 * i) 4) (field offs (4 * i + 4) 4 - field offs (4 * i) 4))
    else do
      let bs ← s.fetch n (field e 0 8) (lane * rows)
      .ok (lanes bs lane rows)
  .ok { ltype := ty, form := form, lane := lane, scale := byteAt e 0x1F, dict := (field e 16 8, field e 0x18 4)
        cells := cells.zipIdx.map fun p => if isValid p.2 then some p.1 else none }

/-- Every column of a morsel. -/
def State.readColumns (s : State) (n : Nat) (d : List Byte) : Res (List Column) :=
  (List.range (descCols d)).mapM fun k => s.readColumn n (descRows d) (descCol d k)

/-- The rows that a morsel selects: its selection vector, or all (R121). -/
def State.selected (s : State) (n : Nat) (d : List Byte) : Res (List Nat) :=
  if descFlags d % 2 = 1 then do
    let bs ← s.fetch n (descSelAddr d) (2 * descSelCount d)
    .ok ((List.range (descSelCount d)).map fun i => field bs (2 * i) 2)
  else .ok (List.range (descRows d))

/-- The columns of a morsel with only the selected rows. -/
def State.selectedColumns (s : State) (n : Nat) (d : List Byte) : Res (List Column) := do
  let cols ← s.readColumns n d
  let sel ← s.selected n d
  .ok (cols.map (·.pick sel))

-- LAYING OUT COLUMNS ----------------------------------------------------------------------------------------------------------------------

/-- Bytes padded to a 64-byte boundary. -/
def pad64 (bs : List Byte) : List Byte := fit (alignUp 64 bs.length) bs

/-- Lay columns out from offset `off`, each part on a 64-byte boundary, and the column entries with addresses `base` + offset.
`wire`: the heap of a CODES column is its dictionary, given in `dicts`. -/
def layColumns (base : Nat) (wire : Bool) : Nat → List (Column × List Byte) → List Byte × List Byte
  | _, [] => ([], [])
  | off, (c, dict) :: cs =>
    let d := pad64 c.data
    let v := pad64 c.validity
    let h := pad64 (if wire && c.form == 3 then dict else c.heap)
    let heapAddr := if c.form = 3 && !wire then c.dict.1 else if c.str || c.form == 3 then base + off + d.length + v.length else 0
    let heapSize := if c.form = 3 then c.dict.2 else c.heap.length
    let e := leBytes 8 (base + off) ++ leBytes 8 (if c.validity = [] then 0 else base + off + d.length) ++
      leBytes 8 heapAddr ++ leBytes 4 heapSize ++ leBytes 1 c.lane ++ leBytes 1 c.ltype ++ leBytes 1 c.form ++ leBytes 1 c.scale
    let rest := layColumns base wire (off + d.length + v.length + h.length) cs
    (d ++ v ++ h ++ rest.1, e ++ rest.2)

/-- Lay out columns and a selection vector at an address: the bytes and the descriptor. -/
def layMorsel (base : Nat) (h : DescHdr) (cols : List Column) (sel : Option (List Nat)) : List Byte × List Byte :=
  let p := layColumns base false 0 (cols.map fun c => (c, []))
  match sel with
  | none => (p.1, { h with cols := cols.length }.bytes ++ p.2)
  | some is =>
    (p.1 ++ pad64 (is.flatMap (leBytes 2)),
      { h with cols := cols.length, flags := h.flags ||| flagSel, selAddr := base + p.1.length, selCount := is.length }.bytes ++ p.2)

-- THE MORSEL ARENA (R115) -------------------------------------------------------------------------------------------------------------------

/-- A range of an arena is free. -/
def Arena.fits (a : Arena) (off size : Nat) : Bool :=
  decide (off + size ≤ a.bytes) && a.live.all fun l => off + size ≤ l.1 || l.1 + l.2 ≤ off

/-- The lowest free place for a buffer. -/
def Arena.firstFit (a : Arena) (size : Nat) : Option Nat :=
  (sortBy (· ≤ ·) (0 :: a.live.map fun l => alignUp 64 (l.1 + l.2))).find? fun o => a.fits o size

/-- Where a buffer of `size` bytes goes: a free choice among the free places. -/
def Arena.place (a : Arena) (size draw : Nat) : Option Nat :=
  let o := 64 * (Config.arenaPlace draw % (a.bytes / 64 + 1))
  if a.fits o size then some o else a.firstFit size

def Job.arena? (j : Job) (d : Nat) : Option Arena := j.arenas.find? (·.die == d)

def Job.modArena (j : Job) (d : Nat) (f : Arena → Arena) : Job :=
  { j with arenas := j.arenas.map fun a => if a.die = d then f a else a }

/-- Take a buffer in the arena of job `jid` on die `d`: its offset and address, or MEM_FAULT (R82, R115). -/
def State.takeBuffer (s : State) (jid d size : Nat) : Res (State × Nat × Nat) :=
  match (s.job? jid).bind (·.arena? d) with
  | none => .error Config.stMemFault
  | some a =>
    match a.place size s.draw with
    | none => .error Config.stMemFault
    | some o => .ok (s.drawn.modJob jid fun j => j.modArena d fun a => { a with live := (o, size) :: a.live }, o, a.addr + o)

/-- A buffer shrinks to its actual size; one of no bytes is given back (R115). -/
def State.shrinkBuffer (s : State) (jid d off size : Nat) : State :=
  s.modJob jid fun j => j.modArena d fun a =>
    { a with live := if size = 0 then a.live.filter (·.1 != off) else a.live.map fun l => if l.1 = off then (off, size) else l }

/-- Whether a die's arena has room for `size` bytes. -/
def Job.arenaRoom (j : Job) (d size : Nat) : Bool :=
  match j.arena? d with
  | none => false
  | some a => (a.firstFit size).isSome

-- LIMITS OF A STAGE (R69, R74) ----------------------------------------------------------------------------------------------------------------

/-- MORSEL_ROWS: 0 means 16,384 (R69). -/
def Stage.rows (st : Stage) : Nat := if st.morselRows = 0 then 16384 else st.morselRows

def Image.stage? (im : Image) (i : Nat) : Option Stage := im.stages[i]?
def Image.flow? (im : Image) (i : Nat) : Option Flow := im.flows[i]?

/-- The stage that takes what a flow carries; behind an exchange stage, the consumer of its output flow (R74). -/
def Image.taker (im : Image) (fi : Nat) : Option Stage :=
  match (im.flow? fi).bind fun f => im.stage? f.consumer with
  | none => none
  | some c =>
    if c.kind = .exchange then (c.outs.head?.bind im.flow?).bind fun f => im.stage? f.consumer
    else some c

/-- The row limit of a producer stage: the smallest MORSEL_ROWS among its consumers (R74). -/
def Image.rowLimit (im : Image) (st : Stage) : Nat :=
  ((st.outs.filterMap im.taker).map (·.rows)).foldl min 65536

/-- The heap limit of a producer stage: the smallest MAX_VAR_BYTES among its consumers (R74). -/
def Image.heapLimit (im : Image) (st : Stage) : Nat :=
  ((st.outs.filterMap im.taker).map (·.maxVar)).foldl min 0xFFFFFFFF

/-- bound(r, v) of R74. -/
def Stage.boundOf (st : Stage) (r v : Nat) : Nat := st.base + ceilDiv (st.perRow * r + st.perVar * v) 256

/-- The bytes of a full-size output morsel with these lanes: lanes, validity bits and selection vector for `rows` rows, and `heap`
heap bytes (R115). -/
def fullSize (rows heap : Nat) (laneBytes : List (Nat × Bool)) : Nat :=
  (laneBytes.map fun l => alignUp 64 (l.1 * (if l.2 then rows + 1 else rows)) + alignUp 64 (ceilDiv rows 8)).sum +
    alignUp 64 (2 * rows) + alignUp 64 heap + 64 * laneBytes.length

end Sys2Proof.Machine
end

