-- ==== Sys2Proof/Machine/Keys.lean ====
section
/-!
DEFINITION. Keys and the hash of the Hash Probe Engine (R135, R136), which the exchange engine uses too (R417).
-/

namespace Sys2Proof.Machine

/-- The hash of R136 over the 8-byte words of a key. -/
def hashWords (h : W64) : List Byte → Nat → W64
  | _, 0 => h
  | key, k + 1 =>
    let w := BitVec.ofNat 64 (leNat (key.take 8))
    let m := (h ^^^ w) * 0x8F3A6D15E4C927B1
    hashWords (m ^^^ (m >>> 31)) (key.drop 8) k

/-- terevo_hash of R136. -/
def tableHash (key : List Byte) (seed : W64) : W64 :=
  let h := hashWords (seed ^^^ (BitVec.ofNat 64 key.length * 0xB7E151632A9D4C87)) key (ceilDiv key.length 8)
  let a := (h ^^^ (h >>> 29)) * 0xB7E151632A9D4C87
  a ^^^ (a >>> 32)

/-- A key entry of a parameter block: column and bytes (R151). -/
structure KeyEntry where
  col : Nat
  bytes : Nat

/-- The entries of 4 bytes from an offset of a parameter block. -/
def paramEntries (p : List Byte) (off n : Nat) : List (List Byte) := (List.range n).map fun i => slice p (off + 4 * i) 4

def keyEntries (p : List Byte) (n : Nat) : List KeyEntry :=
  (paramEntries p 16 n).map fun e => { col := byteAt e 0, bytes := byteAt e 1 }

/-- The columns that key entries name; any other form or a narrower lane fails the job with INVALID_FIELD (R135). -/
def keyColumns (cols : List Column) (ks : List KeyEntry) : Res (List (Column × Nat)) :=
  ks.mapM fun k =>
    match cols[k.col]? with
    | none => .error Config.stInvalidField
    | some c =>
      if !c.str && (c.form == 0 || c.form == 1 || c.form == 3) && k.bytes ≤ c.lane then .ok (c, k.bytes)
      else .error Config.stInvalidField

/-- The key of row `i`: the lowest bytes of each key lane, a null contributing zeros (R135). -/
def rowKey (ks : List (Column × Nat)) (i : Nat) : List Byte :=
  ks.flatMap fun k => fit k.2 ((k.1.cells.getD i none).getD [])

/-- Some key column of row `i` is null. -/
def rowKeyNull (ks : List (Column × Nat)) (i : Nat) : Bool := ks.any fun k => (k.1.cells.getD i none).isNone

/-- The NULL_MASK byte of a GROUP key (R135). -/
def nullMask (ks : List (Column × Nat)) (i : Nat) : Byte :=
  BitVec.ofNat 8 (bitmap ((List.range ks.length).filter fun c =>
    match ks[c]? with
    | none => false
    | some k => (k.1.cells.getD i none).isNone))

end Sys2Proof.Machine
end

