-- ==== Sys2Proof/Machine/Wire.lean ====
section
/-!
DEFINITION. The exchange engine: rows go to participants and into wire morsels (R416 to R418).
-/

namespace Sys2Proof.Machine

/-- The parts of two column lists agree in type, form, lane, scale and dictionary, so their rows can stand in one wire morsel. -/
def sameShape (a b : List Column) : Bool :=
  a.map (fun c => (c.ltype, c.form, c.lane, c.scale, c.dict)) == b.map (fun c => (c.ltype, c.form, c.lane, c.scale, c.dict))

/-- The heap bytes of row `i`. -/
def rowHeap (cols : List Column) (i : Nat) : Nat := (cols.map fun c => if c.str then ((c.cells.getD i none).getD []).length else 0).sum

/-- The dictionary of a CODES column, as its bytes. -/
def State.dictOf (s : State) (n : Nat) (c : Column) : List Byte :=
  if c.form = 3 then (s.readInst n c.dict.1 c.dict.2).getD [] else []

/-- The participant index of the device in a distributed job; 0 in any other job. -/
def Job.selfIndex (s : State) (j : Job) : Nat :=
  match j.dist with
  | none => 0
  | some D => (D.devs.idxOf? (s.fabric.deviceIdActive.getD 0xFFFF)).getD 0

/-- PART_COUNT; 1 for a job that is not distributed. -/
def Job.partCount (j : Job) : Nat := match j.dist with | none => 1 | some D => D.devs.length

/-- SOURCE_DONE in the FLAGS of a wire morsel (R418). -/
def flagSourceDone : Nat := 8

/-- Close a wire morsel: the descriptor, with offsets in place of addresses, then its data (R418). -/
def State.closeWire (s : State) (j : Job) (last : Bool) (w : WireOut) : WireOut :=
  let hdr := descBytes w.cols.length
  let p := layColumns 0 true (alignUp 64 hdr) (w.cols.map fun c => (c, s.dictOf j.inst c))
  let d : DescHdr := { seq := j.selfIndex s * 2 ^ 37 + w.id, rows := w.rows, cols := w.cols.length
                       flags := (if w.rows = 0 then flagEmpty else 0) + (if last then flagSourceDone else 0) }
  { w with closed := true, bytes := pad64 (d.bytes ++ p.2) ++ p.1 }

/-- A fresh wire morsel to a destination, and the count that it takes. -/
def Dist.freshWire (D : Dist) (stage dest : Nat) (cols : List Column) : Dist × WireOut :=
  let id := match D.nextId.find? fun x => x.1 == stage && x.2.1 == dest with
    | none => 0
    | some x => x.2.2
  ({ D with nextId := (stage, dest, id + 1) :: D.nextId.filter fun x => !(x.1 == stage && x.2.1 == dest) },
    { stage := stage, dest := dest, id := id, cols := cols.map (·.pick []), bytes := [], closed := false, rows := 0, sent := 0 })

/-- Row `i` of `cols` joins a wire morsel. -/
def WireOut.push (w : WireOut) (cols : List Column) (i : Nat) : WireOut :=
  { w with rows := w.rows + 1, cols := (w.cols.zip cols).map fun p => { p.1 with cells := p.1.cells ++ [p.2.cells.getD i none] } }

/-- The heap bytes of a wire morsel. -/
def WireOut.heap (w : WireOut) : Nat := (w.cols.map (·.heapBytes)).sum

/-- Row `i` goes to destination `dest`: into the open wire morsel, or into a fresh one where that is full (R74, R418). -/
def State.wireRow (s : State) (j : Job) (lim : Nat × Nat) (stage dest : Nat) (cols : List Column) (D : Dist) (i : Nat) : Dist :=
  let here := fun (w : WireOut) => w.stage == stage && w.dest == dest && !w.closed
  let fresh := fun (D : Dist) =>
    let p := D.freshWire stage dest cols
    { p.1 with wireOut := p.1.wireOut ++ [p.2.push cols i] }
  match D.wireOut.find? here with
  | none => fresh D
  | some w =>
    if sameShape w.cols cols && w.rows < lim.1 && w.heap + rowHeap cols i ≤ lim.2 then
      { D with wireOut := D.wireOut.map fun x => if here x then x.push cols i else x }
    else fresh { D with wireOut := D.wireOut.map fun x => if here x then s.closeWire j false x else x }

/-- The destinations of row `i` (R417). -/
def wireDests (p : List Byte) (parts : Nat) (cols : List Column) (ks : List (Column × Nat)) (i : Nat) : Res (List Nat) :=
  match byteAt p 0 with
  | 0x01 =>
    let h := (tableHash (rowKey ks i) (BitVec.ofNat 64 (field p 8 8))).toNat
    .ok [h / 2 ^ 32 * parts / 2 ^ 32]
  | 0x02 =>
    match cols[byteAt p 2]? with
    | none => .error Config.stInvalidField
    | some c =>
      match c.cells.getD i none with
      | none => .ok (if bit (byteAt p 3) 0 then [] else [0])
      | some bs => if leNat bs < parts then .ok [leNat bs] else .error Config.stDecodeRange
  | 0x03 => .ok (List.range parts)
  | _ => .ok [field p 4 2]

/-- The dist record under which a job that is not distributed keeps its wire morsels: the device is its only participant. -/
def Dist.alone (dev : Nat) : Dist where
  djid := 0
  devs := [dev]
  state := .running
  status := 0
  peers := []
  reqIn := []
  grantsOut := []
  grantsIn := []
  wireOut := []
  wireIn := []
  nextId := []
  ended := []
  admittedNs := 0
  decideIn := none

/-- The exchange engine takes a morsel placed in the input flow of stage `ei` (R417). -/
def State.exchange (s : State) (jid ei : Nat) (d : List Byte) : Res State := do
  match s.job? jid with
  | none => .ok s
  | some j =>
    match j.image.stage? ei with
    | none => .ok s
    | some st =>
      let cols ← s.selectedColumns j.inst d
      let ks ← keyColumns cols (keyEntries st.param (byteAt st.param 1))
      let lim := (j.image.rowLimit st, j.image.heapLimit st)
      let rows := match cols.head? with | none => 0 | some c => c.cells.length
      let D ← (List.range rows).foldlM (fun D i => do
        let ds ← wireDests st.param j.partCount cols ks i
        .ok (ds.foldl (fun D dest => s.wireRow j lim ei dest cols D i) D))
        (j.dist.getD (Dist.alone (s.fabric.deviceIdActive.getD 0xFFFF)))
      .ok (s.modJob jid fun j => { j with dist := some D })

end Sys2Proof.Machine
end

