-- ==== Sys2Proof/Machine/Flow.lean ====
section
/-!
DEFINITION. Flows between stages: ready lists and their capacity (R178, R182, R183), placement, numbering and ordered release (R72,
R81, R82, R170 to R174), and the result buffers of sinks (R87, R175).
-/

namespace Sys2Proof.Machine

-- STATISTICS OF THE RUNNING FRAME (R196, R202, R203) -----------------------------------------------------------------------------------

/-- The empty instance block (R202). -/
def InstStat.reset (n : Nat) : InstStat where
  inst := n
  readyNow := 0
  readyMax := 0
  dispatchF := 0
  dispatchU := 0
  resumed := 0
  overrun := 0
  evicted := 0
  boundExcess := 0
  deferred := 0
  foragerBusy := 0
  slots := 0
  gen := 0
  excessNow := 0
  unitCycles := List.replicate 8 0
  waitHist := List.replicate 16 0

/-- The block of instance `n` in a die's statistics. -/
def DieStat.block (x : DieStat) (n : Nat) : InstStat := (x.insts.find? (·.inst == n)).getD (InstStat.reset n)

def DieStat.modInst (x : DieStat) (n : Nat) (f : InstStat → InstStat) : DieStat :=
  if x.insts.any (·.inst == n) then { x with insts := x.insts.map fun b => if b.inst = n then f b else b }
  else { x with insts := insertBy (fun a b => a.inst ≤ b.inst) (f (InstStat.reset n)) x.insts }

def State.modStat (s : State) (d : Nat) (f : DieStat → DieStat) : State := s.modDie d fun x => { x with stat := f x.stat }

def State.modInstStat (s : State) (d n : Nat) (f : InstStat → InstStat) : State := s.modStat d (·.modInst n f)

-- READY LISTS ---------------------------------------------------------------------------------------------------------------------------

/-- Ready morsels of an instance on a die, excess included. -/
def Die.readyOf (d : Die) (n : Nat) : List Morsel := d.ready.filter (·.inst == n)

/-- The greatest counts of the frame after a morsel joined the list (R196). -/
def Die.countReady (d : Die) (m : Morsel) : Die :=
  let all := (d.ready.filter (!·.excess)).length
  let mine := (d.readyOf m.inst).length
  let depth := (d.ready.filter (·.level == m.level)).length
  { d with stat := ({ d.stat with
      readyMax := max d.stat.readyMax all
      levels := d.stat.levels.modify m.level fun l => (l.1, max l.2.1 depth, l.2.2) }).modInst m.inst fun b =>
        { b with readyMax := max b.readyMax mine } }

/-- A morsel joins the ready list of die `d`: within READY_LIMIT, in the ready excess area, or its job fails with
READY_OVERFLOW (R182, R183). -/
def State.enqueue (s : State) (d : Nat) (m : Morsel) : State :=
  let mine := (s.dieD d).readyOf m.inst
  let put := fun (x : Bool) => s.modDie d fun y =>
    ({ y with ready := y.ready ++ [{ m with excess := x }] } : Die).countReady m
  if (mine.filter (!·.excess)).length < (s.instD m.inst).alloc.readyLimit then put false
  else if (mine.filter (·.excess)).length < Config.excessPerInstance then put true
  else
    let s1 := (s.modStat d fun x => { x with readyOverflow := x.readyOverflow + 1 }).failPart m.jid d m.stage
      Config.stReadyOverflow []
    ({ s1 with settings := { s1.settings with readyOverflowTotal := s1.settings.readyOverflowTotal + 1 } }).raise
      Config.evReadyOverflow

-- STAGES OF A JOB -------------------------------------------------------------------------------------------------------------------------

/-- The words of a code section hold a MEMIT (R246): the program can emit a varying number of morsels. -/
def hasMemit : List Byte → Nat → Bool
  | _, 0 => false
  | bs, k + 1 => (field bs 0 4 % 128 == 0x34 && field bs 0 4 / 2 ^ 26 == 2) || hasMemit (bs.drop 4) k

/-- The stage emits exactly one morsel for each input morsel, so its output keeps the input's sequence number (R81). -/
def Image.oneToOne (im : Image) (st : Stage) : Bool :=
  match st.kind with
  | .streamer | .amu | .digest => true
  | .forager =>
    match st.codeSec with
    | none => true
    | some c => !hasMemit (im.section c) ((im.section c).length / 4)
  | _ => false

/-- Every die of the die set inserts or writes each morsel of the stage itself: a LOAD, or a BUILD of a REPLICATED table (R145, R287). -/
def Job.everyDie (j : Job) (st : Stage) : Bool :=
  match st.kind with
  | .amu => byteAt st.param 0 == 2
  | .hash => byteAt st.param 0 == 1 &&
      match j.tables[byteAt st.param 1]? with
      | none => false
      | some t => t.mode == 1
  | _ => false

/-- The dies whose ready lists a morsel for stage `st` joins, when it was produced on die `pd` with sequence number `q` and PART_TAG
`tag` (R72). -/
def Job.takers (j : Job) (st : Stage) (pd q tag : Nat) : List Nat :=
  let entry := fun k => match j.dieSet[k % j.dieSet.length]? with | none => [] | some d => [d]
  if j.everyDie st then j.dieSet
  else match st.placement with
    | 2 => if st.partFn = 1 then entry q else entry tag
    | 3 => entry 0
    | _ => [pd]

-- PLACEMENT ------------------------------------------------------------------------------------------------------------------------------

/-- An output morsel: its pair (R170), and its descriptor with the arena buffers that it points into. -/
structure Output where
  origin : Nat
  frag : Nat
  last : Bool
  rows : Nat
  heap : Nat
  desc : List Byte
  bufs : List (Nat × Nat)

/-- The ready morsel of stage `i` that an output becomes. -/
def State.asMorsel (s : State) (j : Job) (i : Nat) (st : Stage) (flow : Option Nat) (o : Output) (q : Nat) : Morsel where
  mid := s.nextMid
  jid := j.jid
  inst := j.inst
  gen := j.gen
  stage := i
  kind := .normal
  origin := o.origin
  frag := o.frag
  last := o.last
  seq := q
  rows := o.rows
  heap := o.heap
  desc := withSeq o.desc q
  flow := flow
  src := none
  entry := s.power.uptimeNs
  level := st.prio
  bound := 0
  start := 0
  overruns := 0
  placed := 0
  outAt := 0
  outBytes := 0
  bufs := o.bufs
  excess := false

/-- An output that flow `fi` releases with sequence number `q` reaches its consumer (R72, R178); a number past 48 bits fails the job
with BOUND_EXCEEDED (R170). -/
def State.deliver (s : State) (jid fi pd : Nat) (o : Output) (q : Nat) : State :=
  match s.job? jid with
  | none => s
  | some j =>
    match j.image.flow? fi with
    | none => s
    | some f =>
      match j.image.stage? f.consumer with
      | none => s
      | some st =>
        if 2 ^ 48 ≤ q then s.failPart jid pd f.producer Config.stBoundExceeded []
        else if st.kind = .exchange then
          match s.exchange jid f.consumer (withSeq o.desc q) with
          | .ok t => t
          | .error e => s.failPart jid pd f.consumer e []
        else (j.takers st pd q (descTag o.desc)).foldl
          (fun s d => { s.enqueue d (s.asMorsel j f.consumer st (some fi) o q) with nextMid := s.nextMid + 1 }) s

def State.modFlow (s : State) (jid fi : Nat) (f : FlowSt → FlowSt) : State :=
  s.modJob jid fun j => { j with flows := j.flows.modify fi f }

def State.flowSt? (s : State) (jid fi : Nat) : Option FlowSt := (s.job? jid).bind (·.flows[fi]?)

/-- A held morsel as an output again. -/
def Morsel.output (m : Morsel) : Output :=
  { origin := m.origin, frag := m.frag, last := m.last, rows := m.rows, heap := m.heap, desc := m.desc, bufs := m.bufs }

/-- The state of an ordered-flow context that its counts give (R174). -/
def FlowSt.settled (f : FlowSt) : FlowSt :=
  { f with state :=
      if f.state = .failed then .failed
      else if f.done then (if f.held = [] then .closed else .closing)
      else if Config.window ≤ f.held.length then .stalled
      else .opened }

/-- NEXT after a release (R172). -/
def FlowSt.advance (f : FlowSt) (last : Bool) : FlowSt :=
  { f with seq := f.seq + 1
           nextOrigin := if last then f.nextOrigin + 1 else f.nextOrigin
           nextFrag := if last then 0 else f.nextFrag + 1 }

/-- Release held morsels while the next pair is held (R172). -/
def State.releaseHeld (s : State) (jid fi pd : Nat) : Nat → State
  | 0 => s
  | k + 1 =>
    match s.flowSt? jid fi with
    | none => s
    | some f =>
      match f.held.find? fun m => m.origin == f.nextOrigin && m.frag == f.nextFrag with
      | none => s
      | some m =>
        let s1 := s.modFlow jid fi fun f => { (f.advance m.last) with held := f.held.filter (·.mid != m.mid) }
        (s1.deliver jid fi pd m.output f.seq).releaseHeld jid fi pd k

/-- Entries of the overflow list of the die set's first die `d`: what its ordered-flow contexts hold beyond the window (R173). -/
def State.overflowUsed (s : State) (d : Nat) : Nat :=
  (s.jobs.map fun j => if j.dieSet.head? = some d then (j.flows.map fun f => f.held.length - Config.window).sum else 0).sum

/-- Place an output in an ordered flow (R172, R173). -/
def State.placeOrdered (s : State) (j : Job) (fi pd producer : Nat) (st : Stage) (o : Output) : State :=
  match s.flowSt? j.jid fi with
  | none => s
  | some f =>
    let settle := fun (t : State) => t.modFlow j.jid fi (·.settled)
    if o.origin = f.nextOrigin ∧ o.frag = f.nextFrag then
      let s1 := (s.modFlow j.jid fi (·.advance o.last)).deliver j.jid fi pd o f.seq
      settle (s1.releaseHeld j.jid fi pd f.held.length)
    else if Config.window ≤ f.held.length ∧ Config.overflowEntries ≤ s.overflowUsed (j.dieSet.headD 0) then
      s.failPart j.jid pd producer Config.stFlowOverflow []
    else
      let m := s.asMorsel j producer st (some fi) o 0
      settle ({ s with nextMid := s.nextMid + 1 }.modFlow j.jid fi fun f => { f with held := f.held ++ [m] })

/-- Place an output in flow `fi` of a stage that runs on die `pd` (R81, R170). -/
def State.placeFlow (s : State) (jid fi pd producer : Nat) (o : Output) : State :=
  match s.job? jid with
  | none => s
  | some j =>
    match j.image.flow? fi, j.image.stage? producer, s.flowSt? jid fi with
    | some f, some st, some x =>
      if f.ordered then s.placeOrdered j fi pd producer st o
      else if j.image.oneToOne st then s.deliver jid fi pd o o.origin
      else (s.modFlow jid fi fun y => { y with seq := y.seq + 1 }).deliver jid fi pd o x.seq
    | _, _, _ => s

/-- Place an output in every output flow of stage `producer` (R272). -/
def State.placeAll (s : State) (jid pd producer : Nat) (o : Output) : State :=
  match (s.job? jid).bind (·.image.stage? producer) with
  | none => s
  | some st => st.outs.foldl (fun s fi => s.placeFlow jid fi pd producer o) s

-- RESULT BUFFERS -----------------------------------------------------------------------------------------------------------------------------

/-- The bytes by which a sink morsel's rows stand in the result buffer: a free value of its rows (R175 gives no layout). -/
def State.sinkBytes (s : State) (n : Nat) (d : List Byte) : Res (List Byte) := do
  let cols ← s.selectedColumns n d
  if descRows d = 0 then .ok []
  else .ok (Config.resultRows d (cols.flatMap fun c => [c.data, c.validity, c.heap]))

def State.modResult (s : State) (jid stage : Nat) (f : ResultBuf → ResultBuf) : State :=
  s.modJob jid fun j => { j with results := j.results.map fun r => if r.stage = stage then f r else r }

/-- Bytes go to the result buffer of a stage at its final write offset; past its end, MEM_FAULT. -/
def State.appendResult (s : State) (jid stage : Nat) (bs : List Byte) : Res State :=
  match (s.job? jid).bind fun j => (j.results.find? (·.stage == stage)).map fun r => (j.inst, r) with
  | none => .ok s
  | some (n, r) =>
    if r.bytes < r.off + bs.length then .error Config.stMemFault
    else do
      let t ← s.poke n (r.addr + r.off) bs
      .ok (t.modResult jid stage fun r => { r with off := r.off + bs.length })

/-- The flow by which a sink morsel came, if it is ordered. -/
def Job.orderedFlow (j : Job) (m : Morsel) : Option Nat :=
  match m.flow with
  | none => none
  | some fi =>
    match j.image.flow? fi with
    | some f => if f.ordered then some fi else none
    | none => none

/-- The rows of a sink morsel are ready: they go to the buffer at once, or wait for their predecessors in an ordered flow (R175). -/
def State.sinkPut (s : State) (m : Morsel) (bs : List Byte) : Res State :=
  match (s.job? m.jid).bind (·.orderedFlow m) with
  | none => s.appendResult m.jid m.stage bs
  | some fi => .ok (s.modResult m.jid m.stage fun r => { r with held := r.held ++ [(fi, m.seq, bs)] })

/-- The next sequence number to place of a flow. -/
def ResultBuf.nextOf (r : ResultBuf) (fi : Nat) : Nat := (assocGet fi r.next).getD 0

/-- Place the rows of complete sink morsels while the next one in sequence order is complete (R175). -/
def State.sinkFlush (s : State) (jid stage fi : Nat) : Nat → Res State
  | 0 => .ok s
  | k + 1 =>
    match (s.job? jid).bind fun j => j.results.find? (·.stage == stage) with
    | none => .ok s
    | some r =>
      let q := r.nextOf fi
      if r.complete.contains (fi, q) then do
        let t ← s.appendResult jid stage ((r.held.filter fun h => h.1 == fi && h.2.1 == q).flatMap (·.2.2))
        (t.modResult jid stage fun r => { r with
          held := r.held.filter fun h => !(h.1 == fi && h.2.1 == q)
          complete := r.complete.filter (· != (fi, q))
          next := assocSet fi (q + 1) r.next }).sinkFlush jid stage fi k
      else .ok s

/-- A sink morsel completes (R175). -/
def State.sinkDone (s : State) (m : Morsel) : Res State :=
  match (s.job? m.jid).bind (·.orderedFlow m) with
  | none => .ok s
  | some fi =>
    match (s.job? m.jid).bind fun j => j.results.find? (·.stage == m.stage) with
    | none => .ok s
    | some r => (s.modResult m.jid m.stage fun r => { r with complete := (fi, m.seq) :: r.complete }).sinkFlush m.jid m.stage fi
        (r.complete.length + 1)

-- THE MORSELS OF A JOB ---------------------------------------------------------------------------------------------------------------------------

/-- The morsels that a die holds: ready, on Foragers, evicted and on units. -/
def Die.morsels (d : Die) : List Morsel :=
  d.ready ++ d.fgrs.filterMap (·.morsel) ++ d.saved.map (·.morsel) ++ d.units.filterMap (·.morsel)

/-- The morsels of a job on every die. -/
def State.jobMorsels (s : State) (jid : Nat) : List Morsel := (s.dies.flatMap (·.morsels)).filter (·.jid == jid)

/-- Some morsel of a stage is ready, running or parked. -/
def State.stageLive (s : State) (jid i : Nat) : Bool := (s.jobMorsels jid).any (·.stage == i)

/-- A morsel of job `jid` points into, or holds, the buffer at an offset of the arena of die `d`. -/
def State.bufferUsed (s : State) (jid d off : Nat) (held : List Morsel) : Bool :=
  (s.jobMorsels jid ++ held).any (·.bufs.contains (d, off)) ||
  (s.dieD d).morsels.any fun m => m.jid == jid && m.outBytes != 0 && m.outAt == off

/-- Free the arena buffers that no morsel of the job points into any more (R115). -/
def State.freeBuffers (s : State) (jid : Nat) : State :=
  s.modJob jid fun j => { j with
    arenas := j.arenas.map fun a => { a with live := a.live.filter fun l => s.bufferUsed jid a.die l.1 (j.flows.flatMap (·.held)) } }

/-- Write columns as an output morsel into the arena of the job on die `d`, and place it (R115, R122). `old` are the
buffers of the input that the output still points into. -/
def State.emitColumns (s : State) (m : Morsel) (d : Nat) (h : DescHdr) (cols : List Column) (sel : Option (List Nat))
    (old : List (Nat × Nat)) : Res (State × List Byte × List (Nat × Nat)) := do
  let size := (layMorsel 0 h cols sel).1.length
  if size = 0 then .ok (s, (layMorsel 0 h cols sel).2, old)
  else do
    let p ← s.takeBuffer m.jid d size
    let q := layMorsel p.2.2 h cols sel
    let t ← p.1.poke m.inst p.2.2 q.1
    .ok (t, q.2, old ++ [(d, p.2.1)])

end Sys2Proof.Machine
end

