-- ==== Sys2Proof/Machine/StreamOps.lean ====
section
/-!
DEFINITION. What a Column Streamer reads and emits: chunk headers and their checks (R97 to R100, R110, R123 to R127), decoding (R101 to R109,
R111), output forms (R116 to R118), predicates (R120), and the cut of a row group into morsels (R113).
-/

namespace Sys2Proof.Machine

-- TYPES (R99) ------------------------------------------------------------------------------------------------------------------------

def tyBool : Nat := 0x0A
def tyDecimal : Nat := 0x0B
def tyBinary64 : Nat := 0x0C

/-- Lane bits of a fixed-width type; 0 for STRING and BYTES. -/
def laneBits (ty prec : Nat) : Nat :=
  match ty with
  | 0x01 | 0x06 | 0x0A => 8
  | 0x02 | 0x07 => 16
  | 0x03 | 0x08 | 0x0D => 32
  | 0x04 | 0x09 | 0x0C | 0x0E => 64
  | 0x05 => 128
  | 0x0B => if prec ≤ 18 then 64 else 128
  | _ => 0

/-- Types compared as signed (R120). -/
def signedLane (ty : Nat) : Bool := (1 ≤ ty && ty ≤ 5) || ty == 0x0B || ty == 0x0D || ty == 0x0E

/-- A value lies within the range of a type (R102, R109). -/
def inRange (ty prec : Nat) (v : Int) : Bool :=
  if ty = tyBool then decide (0 ≤ v) && decide (v ≤ 1)
  else if ty = tyDecimal then decide (v.natAbs ≤ 10 ^ prec - 1)
  else if signedLane ty then
    decide (-(2 ^ (laneBits ty prec - 1) : Nat) ≤ v) && decide (v < (2 ^ (laneBits ty prec - 1) : Nat))
  else decide (0 ≤ v) && decide (v < (2 ^ laneBits ty prec : Nat))

/-- A value in its lane. -/
def toLane (ty prec : Nat) (v : Int) : List Byte := leBytes (laneBits ty prec / 8) (ucode (laneBits ty prec) v)

-- CHECKS IN ORDER (R127) -----------------------------------------------------------------------------------------------------------------

/-- The first check that fails gives its status. LEN_LONG fails only under STRICT_LEN; otherwise it leaves a warning (R125). -/
def runChecks (strict : Bool) : List (Bool × Nat) → Bool → Res Bool
  | [], warn => .ok warn
  | (bad, st) :: cs, warn =>
    if !bad then runChecks strict cs warn
    else if st = Config.stLenLong ∧ !strict then runChecks strict cs true
    else .error st

-- CHUNKS ------------------------------------------------------------------------------------------------------------------------------------

/-- A chunk as its header describes it, with the places of its sections or buffers. -/
structure Chunk where
  arrow : Bool
  enc : Nat
  ty : Nat
  flags : Nat
  rows : Nat
  width : Nat
  valueWidth : Nat
  scale : Nat
  prec : Nat
  base : Int
  minDelta : Int
  auxCount : Nat
  dataAddr : Nat
  dataSize : Nat
  validAddr : Nat
  validSize : Nat
  heapAddr : Nat
  heapSize : Nat
  offset : Nat

def Chunk.hasValidity (c : Chunk) : Bool := bit c.flags 0
def Chunk.lane (c : Chunk) : Nat := laneBits c.ty c.prec / 8
def Chunk.strDict (c : Chunk) : Bool := c.enc == 6 && bit c.flags 2
/-- A chunk whose morsels are decoded one after another (R114). -/
def Chunk.serial (c : Chunk) : Bool := c.enc == 4 || c.enc == 5

/-- Read a header of 64 bytes that stands at `a` (R97, R98, R110). -/
def chunkOf (a : Nat) (h : List Byte) : Chunk :=
  let arrow := slice h 0 4 == ascii "CCFA"
  if arrow then
    { arrow := true, enc := byteAt h 5, ty := byteAt h 6, flags := byteAt h 7, rows := field h 8 4, width := 0, valueWidth := 0
      scale := byteAt h 0x3C, prec := byteAt h 0x3D, base := 0, minDelta := 0, auxCount := 0
      dataAddr := field h 0x18 8, dataSize := field h 0x28 8, validAddr := field h 0x10 8, validSize := field h 0x38 4
      heapAddr := field h 0x20 8, heapSize := field h 0x30 8, offset := field h 0x0C 4 }
  else
    let v := a + 64 + alignUp 64 (field h 0x18 8)
    { arrow := false, enc := byteAt h 5, ty := byteAt h 6, flags := byteAt h 7, rows := field h 8 4, width := byteAt h 0x0C
      valueWidth := byteAt h 0x0D, scale := byteAt h 0x0E, prec := byteAt h 0x0F, base := sint 64 (field h 0x10 8)
      minDelta := sint 64 (field h 0x38 8), auxCount := field h 0x30 4
      dataAddr := a + 64, dataSize := field h 0x18 8, validAddr := v, validSize := field h 0x20 8
      heapAddr := v + alignUp 64 (field h 0x20 8), heapSize := field h 0x28 8, offset := 0 }

/-- The pairing of encoding and type that R100 allows. -/
def pairAllowed (enc ty : Nat) : Bool :=
  match enc with
  | 1 => ty != tyBool && !strType ty
  | 2 => ty != 5 && ty != tyBinary64 && !strType ty
  | 3 | 4 => ty != 5 && ty != tyBinary64 && ty != tyBool && !strType ty
  | 5 => !strType ty
  | 6 => ty != tyBool
  | 7 => strType ty
  | _ => false

/-- The WIDTH that R100 allows. -/
def widthAllowed (c : Chunk) : Bool :=
  match c.enc with
  | 1 | 5 => c.width == laneBits c.ty c.prec
  | 2 | 3 | 4 => (1 ≤ c.width && c.width ≤ 64) && (c.ty != tyBool || c.width == 1) && (c.ty != tyDecimal || c.prec ≤ 18)
  | 6 => 1 ≤ c.width && c.width ≤ 32
  | _ => c.width == 0

/-- The rules on SCALE and PRECISION (R98). -/
def decimalOk (c : Chunk) : Bool :=
  if c.ty = tyDecimal then 1 ≤ c.prec && c.prec ≤ 38 && c.scale ≤ c.prec else c.prec == 0 && c.scale == 0

def typeListed (ty : Nat) : Bool := 1 ≤ ty && ty ≤ 0x10

/-- The checks of ROW_COUNT against the row group, when the chunk is not its first (R112). -/
def rowChecks (c : Chunk) (group : Option Nat) : List (Bool × Nat) :=
  match group with
  | none => []
  | some r => [(c.rows < r, Config.stLenShort), (!c.arrow && r < c.rows, Config.stLenLong)]

/-- The header checks of a CCF chunk in byte order (R98, R100, R127). `cols` are EXPECT_TYPE and FORM of the column entries that name it. -/
def ccfChecks (c : Chunk) (h : List Byte) (group : Option Nat) (cols : List (Nat × Nat)) : List (Bool × Nat) :=
  [(slice h 0 4 != ascii "CCF1", Config.stCcfFormat),
   (byteAt h 4 != 1, Config.stCcfFormat),
   (c.enc == 0 || 9 ≤ c.enc, Config.stInvalidField),
   (c.enc == 8, Config.stCcfFormat),
   (cols.any (fun x => x.2 == 3 && c.enc != 6), Config.stCcfFormat),
   (!typeListed c.ty, Config.stInvalidField),
   (!pairAllowed c.enc c.ty, Config.stCcfFormat),
   (cols.any (fun x => x.1 != c.ty), Config.stCcfFormat),
   (c.flags / 8 != 0, Config.stInvalidField),
   (bit c.flags 1 && c.enc != 2, Config.stCcfFormat),
   (if c.enc = 6 then bit c.flags 2 != strType c.ty else bit c.flags 2, Config.stCcfFormat)] ++
  rowChecks c group ++
  [(!widthAllowed c, Config.stCcfFormat),
   (c.valueWidth != (if c.enc = 6 ∧ !bit c.flags 2 then laneBits c.ty c.prec else 0), Config.stCcfFormat),
   (!decimalOk c, Config.stCcfFormat),
   (c.base != 0 && c.enc != 3 && c.enc != 4, Config.stCcfFormat),
   (c.validSize != 0 && !c.hasValidity, Config.stCcfFormat),
   (c.auxCount != 0 && c.enc != 5 && c.enc != 6, Config.stCcfFormat),
   (c.auxCount == 0 && c.enc == 5 && c.rows != 0, Config.stCcfFormat),
   (!allZero (slice h 0x34 4), Config.stInvalidField),
   (c.minDelta != 0 && c.enc != 4, Config.stCcfFormat)]

/-- The header checks of an Arrow reference in byte order (R110, R111). -/
def arrowChecks (c : Chunk) (h : List Byte) (group : Option Nat) (cols : List (Nat × Nat)) : List (Bool × Nat) :=
  [(byteAt h 4 != 1, Config.stCcfFormat),
   (c.enc == 0 || 9 ≤ c.enc, Config.stInvalidField),
   (c.enc != 8, Config.stCcfFormat),
   (cols.any (fun x => x.2 == 3), Config.stCcfFormat),
   (!typeListed c.ty, Config.stInvalidField),
   (c.ty == 5, Config.stCcfFormat),
   (cols.any (fun x => x.1 != c.ty), Config.stCcfFormat),
   (c.flags / 2 != 0, Config.stInvalidField)] ++
  rowChecks c group ++
  [(if c.hasValidity then c.validAddr % 8 != 0 else c.validAddr != 0, Config.stCcfFormat),
   (c.dataAddr % 8 != 0, Config.stCcfFormat),
   (if strType c.ty then c.heapAddr % 8 != 0 else c.heapAddr != 0, Config.stCcfFormat),
   (!decimalOk c, Config.stCcfFormat),
   (!allZero (slice h 0x3E 2), Config.stInvalidField)]

/-- Needed data bytes (R123, R126). -/
def Chunk.needData (c : Chunk) : Nat :=
  if c.arrow then
    if strType c.ty then 4 * (c.offset + c.rows + 1)
    else if c.ty = tyBool then ceilDiv (c.offset + c.rows) 8
    else (c.offset + c.rows) * (if c.ty = tyDecimal then 16 else c.lane)
  else match c.enc with
    | 7 => 4 * (c.rows + 1)
    | 5 => 8 * ceilDiv c.auxCount 2 + c.auxCount * c.width / 8
    | _ => ceilDiv (c.rows * c.width) 8

/-- Needed validity bytes. -/
def Chunk.needValid (c : Chunk) : Nat := if c.hasValidity then ceilDiv (c.offset + c.rows) 8 else 0

/-- Needed bytes of the auxiliary section as far as the header gives them: the fixed dictionary, or the padded offsets of a string one
(R106, R123). -/
def Chunk.needAux (c : Chunk) : Nat :=
  if c.enc != 6 then 0
  else if c.strDict then alignUp 8 (4 * (c.auxCount + 1))
  else c.auxCount * c.valueWidth / 8

/-- The checks of one section: too small, past the chunk, or longer than its need by more than its padding (R123 to R125). A section of
no bytes is a section that the chunk does not hold, and reaches past nothing (R97). -/
def sectionChecks (size need stop len : Nat) (long : Bool) : List (Bool × Nat) :=
  [(size < need || (size != 0 && len < stop), Config.stLenShort), (long && alignUp 8 need < size, Config.stLenLong)]

/-- The size checks of a chunk at `a` of `len` bytes. -/
def sizeChecks (c : Chunk) (a len : Nat) : List (Bool × Nat) :=
  if c.arrow then
    [(c.validSize < c.needValid, Config.stLenShort), (c.dataSize < c.needData, Config.stLenShort)]
  else
    sectionChecks c.dataSize c.needData (c.dataAddr + c.dataSize - a) len true ++
    sectionChecks c.validSize c.needValid (c.validAddr + c.validSize - a) len true ++
    sectionChecks c.heapSize c.needAux (c.heapAddr + c.heapSize - a) len (!c.strDict && c.enc != 7)

/-- The rules of R107 on offsets: from 0, not decreasing, within the heap. -/
def offsetsOk (os : List Nat) (heap : Nat) : Bool :=
  os.head? == some 0 && (os.zip (os.drop 1)).all (fun p => p.1 ≤ p.2) && os.getLastD 0 ≤ heap

/-- `k` U32 values. -/
def u32s (bs : List Byte) (k : Nat) : List Nat := (List.range k).map fun i => field bs (4 * i) 4

/-- The checks that read the offsets of a VARSTR chunk or of a string dictionary (R106, R107, R123 to R125). -/
def State.offsetChecks (s : State) (n : Nat) (c : Chunk) : Res (List (Bool × Nat)) :=
  if c.arrow then .ok []
  else if c.enc = 7 then do
    let os := u32s (← s.fetch n c.dataAddr (4 * (c.rows + 1))) (c.rows + 1)
    .ok [(!offsetsOk os c.heapSize, Config.stCcfFormat), (alignUp 8 (os.getLastD 0) < c.heapSize, Config.stLenLong)]
  else if c.strDict then do
    let os := u32s (← s.fetch n c.heapAddr (4 * (c.auxCount + 1))) (c.auxCount + 1)
    .ok [(!offsetsOk os (c.heapSize - c.needAux), Config.stCcfFormat),
      (alignUp 8 (c.needAux + os.getLastD 0) < c.heapSize, Config.stLenLong)]
  else .ok []

/-- Open a chunk: its header, its sizes and, for a chunk that a column names, its offsets (R112, R123, R127). The flag says that it is
too long. -/
def State.openChunk (s : State) (n : Nat) (strict : Bool) (a len : Nat) (group : Option Nat) (cols : List (Nat × Nat)) :
    Res (Chunk × Bool) := do
  need (a % 64 = 0) Config.stCcfFormat
  let h ← s.fetch n a 64
  let c := chunkOf a h
  let w1 ← runChecks strict (if c.arrow then arrowChecks c h group cols else ccfChecks c h group cols) false
  let w2 ← runChecks strict (sizeChecks c a len) w1
  if cols = [] then .ok (c, w2)
  else do
    let w3 ← runChecks strict (← s.offsetChecks n c) w2
    .ok (c, w3)

-- DECODING (R101 to R109, R111) ------------------------------------------------------------------------------------------------------------

/-- Bits `b0` to `b0 + len − 1` of the bit string at `a` (R101). -/
def State.fetchBits (s : State) (n a b0 len : Nat) : Res Nat := do
  let bs ← s.fetch n (a + b0 / 8) (ceilDiv (b0 % 8 + len) 8)
  .ok (leNat bs / 2 ^ (b0 % 8) % 2 ^ len)

/-- Packed values `r0` to `r0 + k − 1` of width `w`. -/
def State.packed (s : State) (n a w r0 k : Nat) : Res (List Nat) := do
  let x ← s.fetchBits n a (r0 * w) (k * w)
  .ok ((List.range k).map fun i => x / 2 ^ (i * w) % 2 ^ w)

/-- The run of each of rows `r0` to `e − 1`. -/
def runIndex (r0 e : Nat) : Nat → Nat → List Nat → List Nat
  | _, _, [] => []
  | j, at_, l :: ls => List.replicate (min e (at_ + l) - max r0 at_) j ++ runIndex r0 e (j + 1) (at_ + l) ls

/-- The runs that cover rows 0 to `e − 1`, the rows that they cover, and whether runs are left. -/
def runsTo (e : Nat) : Nat → List Nat → List Nat × Nat × Bool
  | at_, [] => ([], at_, false)
  | at_, l :: ls =>
    if e ≤ at_ then ([], at_, true)
    else
      let r := runsTo e (at_ + l) ls
      (l :: r.1, r.2)

/-- Values of rows of an RLE chunk; the flag says that runs carry past ROW_COUNT (R105, R124, R125). -/
def State.rleRows (s : State) (n : Nat) (strict : Bool) (c : Chunk) (r0 k : Nat) : Res (List (List Byte) × Bool) := do
  let lens := u32s (← s.fetch n c.dataAddr (4 * c.auxCount)) c.auxCount
  let e := r0 + k
  let p := runsTo e 0 lens
  let w ← runChecks strict [(p.1.any (· == 0), Config.stCcfFormat), (p.2.1 < e, Config.stLenShort),
    (e == c.rows && (p.2.2 || c.rows < p.2.1), Config.stLenLong)] false
  let vals ← s.fetch n (c.dataAddr + 8 * ceilDiv c.auxCount 2) (c.auxCount * c.lane)
  .ok ((runIndex r0 e 0 0 lens).map fun j => slice vals (j * c.lane) c.lane, w)

/-- Check decoded values against the type; a null row is not checked unless `all` (R102, R108, R109). -/
def rangeChecked (c : Chunk) (all : Bool) (valid : List Bool) (vs : List Int) : Res (List (List Byte)) := do
  need ((vs.zip valid).all fun p => (!p.2 && !all) || inRange c.ty c.prec p.1) Config.stDecodeRange
  .ok (vs.map (toLane c.ty c.prec))

/-- Entries of a dictionary. -/
def State.dictEntries (s : State) (n : Nat) (c : Chunk) : Res (List (List Byte)) :=
  if c.strDict then do
    let os := u32s (← s.fetch n c.heapAddr (4 * (c.auxCount + 1))) (c.auxCount + 1)
    let heap ← s.fetch n (c.heapAddr + c.needAux) (os.getLastD 0)
    .ok ((os.zip (os.drop 1)).map fun p => slice heap p.1 (p.2 - p.1))
  else do
    let bs ← s.fetch n c.heapAddr (c.auxCount * c.valueWidth / 8)
    .ok (lanes bs (c.valueWidth / 8) c.auxCount)

/-- Strings `r0` to `r0 + k − 1` from offsets at `a` and a heap. -/
def State.strings (s : State) (n a heapAddr heapSize r0 k : Nat) : Res (List (List Byte)) := do
  let os := u32s (← s.fetch n (a + 4 * r0) (4 * (k + 1))) (k + 1)
  need ((os.zip (os.drop 1)).all fun p => p.1 ≤ p.2) Config.stCcfFormat
  need (os.getLastD 0 ≤ heapSize) Config.stLenShort
  let lo := os.headD 0
  let heap ← s.fetch n (heapAddr + lo) (os.getLastD 0 - lo)
  .ok ((os.zip (os.drop 1)).map fun p => slice heap (p.1 - lo) (p.2 - p.1))

/-- Values of rows of an Arrow buffer (R111). -/
def State.arrowRows (s : State) (n : Nat) (c : Chunk) (valid : List Bool) (r0 k : Nat) : Res (List (List Byte)) :=
  let at_ := c.offset + r0
  if strType c.ty then s.strings n c.dataAddr c.heapAddr c.heapSize at_ k
  else if c.ty = tyBool then do
    let bs ← s.packed n c.dataAddr 1 at_ k
    .ok (bs.map (leBytes 1))
  else if c.ty = tyDecimal then do
    let bs ← s.fetch n (c.dataAddr + 16 * at_) (16 * k)
    let vs := (lanes bs 16 k).map fun b => sint 128 (leNat b)
    need ((vs.zip valid).all fun p => !p.2 || (decide (-(2 ^ (8 * c.lane - 1) : Nat) ≤ p.1) && decide (p.1 < (2 ^ (8 * c.lane - 1) : Nat))))
      Config.stDecodeRange
    .ok (vs.map (toLane c.ty c.prec))
  else do
    let bs ← s.fetch n (c.dataAddr + c.lane * at_) (c.lane * k)
    .ok (lanes bs c.lane k)

/-- Decode rows `r0` to `r0 + k − 1` of a chunk for a FORM: the values, a null one as none; the flag is LEN_LONG left as a warning. -/
def State.decodeRows (s : State) (n : Nat) (strict : Bool) (c : Chunk) (form r0 k : Nat) :
    Res (List (Option (List Byte)) × Bool) := do
  let vbits ← if c.hasValidity then s.fetchBits n c.validAddr (c.offset + r0) k else .ok 0
  let valid := (List.range k).map fun i => !c.hasValidity || bit vbits i
  let done := fun (vs : List (List Byte)) (w : Bool) =>
    Except.ok ((vs.zip valid).map (fun p => if p.2 then some p.1 else none), w)
  if c.arrow then do
    done (← s.arrowRows n c valid r0 k) false
  else match c.enc with
    | 1 => do
      let bs ← s.fetch n (c.dataAddr + c.lane * r0) (c.lane * k)
      done (lanes bs c.lane k) false
    | 2 => do
      let ps ← s.packed n c.dataAddr c.width r0 k
      done (← rangeChecked c false valid (ps.map fun (p : Nat) => if bit c.flags 1 then sint c.width p else (p : Int))) false
    | 3 => do
      let ps ← s.packed n c.dataAddr c.width r0 k
      done (← rangeChecked c false valid (ps.map fun (p : Nat) => c.base + (p : Int))) false
    | 4 => do
      let ps ← s.packed n c.dataAddr c.width 0 (r0 + k)
      let vs := (ps.foldl (fun (a : Int × List Int) (p : Nat) => (a.1 + c.minDelta + (p : Int), a.2 ++ [a.1 + c.minDelta + (p : Int)]))
        (c.base, [])).2
      done (← rangeChecked c true valid (vs.drop r0)) false
    | 5 => do
      let p ← s.rleRows n strict c r0 k
      done p.1 p.2
    | 6 => do
      let ps ← s.packed n c.dataAddr c.width r0 k
      need ((ps.zip valid).all fun p => !p.2 || p.1 < c.auxCount) Config.stDecodeRange
      if form = 3 then done (ps.map (leBytes 4)) false
      else do
        let ds ← s.dictEntries n c
        done (ps.map fun p => ds.getD p []) false
    | _ => do
      done (← s.strings n c.dataAddr c.heapAddr c.heapSize r0 k) false

-- OUTPUT FORMS (R116 to R118) -----------------------------------------------------------------------------------------------------------------

/-- The binary64 that stands for a value under FLOAT_CANON: −0 as +0, a NaN as the default one (R117). -/
def floatCanon (v : Nat) : Nat :=
  if v = 2 ^ 63 then 0
  else if bits v 62 52 = 2047 ∧ bits v 51 0 ≠ 0 then 0x7FF8000000000000
  else v

/-- ORDER_KEY (R117). -/
def orderKey (ty lane : Nat) (canon : Bool) (bs : List Byte) : List Byte :=
  let v := leNat bs
  if ty = tyBinary64 then
    let x := if canon then floatCanon v else v
    leBytes 8 (if bit x 63 then 2 ^ 64 - 1 - x else x + 2 ^ 63)
  else if signedLane ty then leBytes lane ((v + 2 ^ (8 * lane - 1)) % 2 ^ (8 * lane))
  else bs

/-- The lane of R118 for a binary64, under the split of R90. -/
def binnedLane (v : Nat) : Nat :=
  let e := bits v 62 52
  let f := bits v 51 0
  if e = 2047 then (if f ≠ 0 then 1 else if bit v 63 then 3 else 2) * 2 ^ 126
  else
    let m := if 1 ≤ e then 2 ^ 52 + f else f
    let e' := max e 1
    let b := e' / 32
    let a : Int := (m * 2 ^ (e' - 32 * b) : Nat)
    b * 2 ^ 120 + (if v = 2 ^ 63 then 2 ^ 119 else 0) + ucode 119 (if bit v 63 then -a else a)

/-- A decoded value in its FORM. -/
def formCell (ty lane form : Nat) (canon : Bool) (bs : List Byte) : List Byte :=
  match form with
  | 1 => orderKey ty lane canon bs
  | 2 => leBytes 16 (binnedLane (leNat bs))
  | _ => bs

/-- The column of decoded rows in a FORM. -/
def formColumn (c : Chunk) (form : Nat) (canon : Bool) (cells : List (Option (List Byte))) : Column where
  ltype := c.ty
  form := form
  lane := if form = 2 then 16 else if form = 3 then 4 else if strType c.ty then 4 else c.lane
  scale := c.scale
  dict := if form = 3 then (c.heapAddr, c.heapSize) else (0, 0)
  cells := cells.map (·.map (formCell c.ty c.lane form canon))

-- PARAMETERS (R119) AND PREDICATES (R120) ----------------------------------------------------------------------------------------------------------

structure CsCol where
  input : Nat
  form : Nat
  expect : Nat

structure CsPred where
  col : Nat
  op : Nat
  a : List Byte
  b : List Byte

def csCols (p : List Byte) : List CsCol :=
  (List.range (byteAt p 0)).map fun i =>
    { input := byteAt p (8 + 8 * i), form := byteAt p (9 + 8 * i), expect := byteAt p (10 + 8 * i) }

def csPreds (p : List Byte) : List CsPred :=
  (List.range (byteAt p 1)).map fun i =>
    let o := 8 + 8 * byteAt p 0 + 40 * i
    { col := byteAt p o, op := byteAt p (o + 1), a := slice p (o + 8) 16, b := slice p (o + 24) 16 }

def csSelMode (p : List Byte) : Nat := byteAt p 2
def csCanon (p : List Byte) : Bool := bit (byteAt p 3) 0

/-- The number by which a predicate compares a lane, or its constant, of a column (R120). -/
def predValue (c : Column) (bs : List Byte) : Int :=
  if (c.form = 0 ∨ c.form = 4) ∧ signedLane c.ltype then sint (8 * c.lane) (leNat (bs.take c.lane)) else (leNat (bs.take c.lane) : Int)

/-- A row passes a predicate (R120). -/
def predPasses (c : Column) (q : CsPred) (x : Option (List Byte)) : Bool :=
  match x with
  | none => q.op == 8
  | some bs =>
    let v := predValue c bs
    let a := predValue c q.a
    match q.op with
    | 1 => v == a
    | 2 => v != a
    | 3 => v < a
    | 4 => v ≤ a
    | 5 => a < v
    | 6 => a ≤ v
    | 7 => decide (a ≤ v) && decide (v ≤ predValue c q.b)
    | 9 => true
    | _ => false

/-- The rows that pass every predicate, ascending. -/
def selectRows (cols : List Column) (ps : List CsPred) (k : Nat) : List Nat :=
  (List.range k).filter fun i => ps.all fun q =>
    match cols[q.col]? with
    | none => false
    | some c => predPasses c q (c.cells.getD i none)

-- ROW GROUPS (R112, R113, R354) -------------------------------------------------------------------------------------------------------------------------

/-- The chunk record at position `pos` of row group `g`: address and length. -/
def State.chunkRec (s : State) (n : Nat) (l : InputList) (g pos : Nat) : Res (Nat × Nat) := do
  let bs ← s.fetch n (l.addr + 16 * (g * l.cols + pos)) 16
  .ok (field bs 0 8, field bs 8 8)

/-- The column entries that name position `pos`. -/
def namedBy (cs : List CsCol) (pos : Nat) : List (Nat × Nat) := (cs.filter (·.input == pos)).map fun c => (c.expect, c.form)

/-- Open the chunks of row group `g` that matter: the first, and those that a column names. Answers the declared row count, the chunks by
position, and the LEN_LONG warning. -/
def State.openGroup (s : State) (n : Nat) (strict : Bool) (l : InputList) (cs : List CsCol) (g : Nat) :
    Res (Nat × List (Nat × Chunk) × Bool) := do
  let r0 ← s.chunkRec n l g 0
  let first ← s.openChunk n strict r0.1 r0.2 none (namedBy cs 0)
  ((List.range l.cols).filter fun p => p != 0 && (namedBy cs p) != []).foldlM (fun acc p => do
    let r ← s.chunkRec n l g p
    let c ← s.openChunk n strict r.1 r.2 (some first.1.rows) (namedBy cs p)
    .ok (acc.1, acc.2.1 ++ [(p, c.1)], acc.2.2 || c.2)) (first.1.rows, [(0, first.1)], first.2)

/-- Decode the columns of rows of a group, in their forms. -/
def State.groupColumns (s : State) (n : Nat) (strict : Bool) (p : List Byte) (chunks : List (Nat × Chunk)) (r0 k : Nat) :
    Res (List Column × Bool) :=
  (csCols p).foldlM (fun acc e =>
    match assocGet e.input chunks with
    | none => .error Config.stCcfFormat
    | some c => do
      let x ← s.decodeRows n strict c e.form r0 k
      .ok (acc.1 ++ [formColumn c e.form (csCanon p) x.1], acc.2 || x.2)) ([], false)

/-- The heap bytes of each row over the strings that the stage emits in VALUE form (R113). -/
def rowHeaps (cols : List Column) (k : Nat) : List Nat := (List.range k).map fun i => rowHeap cols i

/-- How many rows fit a heap limit; at least one. -/
def heapRows (lim : Nat) : Nat → List Nat → Nat
  | _, [] => 0
  | used, h :: hs => if used + h ≤ lim then 1 + heapRows lim (used + h) hs else 0

/-- What a streamer morsel emits: the columns, the selection vector if the morsel has one, the rows decoded and their heap bytes, and the
LEN_LONG warning (R113, R121). -/
structure Streamed where
  cols : List Column
  sel : Option (List Nat)
  flags : Nat
  rows : Nat
  warn : Bool

/-- Decode, filter and form the rows of a source morsel. -/
def State.streamMorsel (s : State) (n : Nat) (strict : Bool) (l : InputList) (p : List Byte) (heapLim : Nat) (at_ : SrcPos) :
    Res Streamed := do
  let g ← s.openGroup n strict l (csCols p) at_.group
  let x ← s.groupColumns n strict p g.2.1 at_.row at_.rows
  need ((rowHeaps x.1 at_.rows).sum ≤ heapLim) Config.stBoundExceeded
  let emitted := x.1.filter (·.form != 4)
  let last := if at_.last then flagGroupLast else 0
  let warn := g.2.2 || x.2
  if csSelMode p = 0 then .ok { cols := emitted, sel := none, flags := last, rows := at_.rows, warn := warn }
  else
    let is := selectRows x.1 (csPreds p) at_.rows
    if is = [] then
      .ok { cols := emitted.map (·.pick []), sel := none, flags := last + flagEmpty, rows := 0, warn := warn }
    else if csSelMode p = 1 then .ok { cols := emitted, sel := some is, flags := last, rows := at_.rows, warn := warn }
    else .ok { cols := emitted.map (·.pick is), sel := none, flags := last, rows := is.length, warn := warn }

-- THE CUT (R113) -------------------------------------------------------------------------------------------------------------------------------------------

/-- What a cut at a position of a row group comes to: nothing left in the group, or a morsel with its heap bytes; `last` ends the group. A group that cannot be
opened or decoded gives a morsel, whose decoding then fails the job. -/
inductive Cut where
  | none
  | morsel (rows heap : Nat) (last : Bool)

/-- The serial constraint of R114: the group holds a DELTA_BITPACK or RLE chunk that the streamer decodes. -/
def State.groupSerial (s : State) (n : Nat) (strict : Bool) (l : InputList) (cs : List CsCol) (g : Nat) : Bool :=
  match s.openGroup n strict l cs g with
  | .error _ => false
  | .ok x => x.2.1.any fun c => c.2.serial && (namedBy cs c.1) != []

/-- Cut the next morsel of a row group at row `r`. -/
def State.cutGroup (s : State) (n : Nat) (strict : Bool) (l : InputList) (p : List Byte) (rowLim heapLim g r : Nat) : Cut :=
  match s.openGroup n strict l (csCols p) g with
  | .error _ => .morsel rowLim 0 true
  | .ok x =>
    if x.1 ≤ r then .none
    else
      let k := min rowLim (x.1 - r)
      let strs := (csCols p).filter fun c => c.form == 0 && strType c.expect
      if strs = [] then .morsel k 0 (x.1 ≤ r + k)
      else match s.groupColumns n strict p x.2.1 r k with
        | .error _ => .morsel k 0 (x.1 ≤ r + k)
        | .ok cols =>
          let hs := rowHeaps cols.1 k
          let k' := max 1 (heapRows heapLim 0 hs)
          .morsel k' (hs.take k').sum (x.1 ≤ r + k')

/-- The die on which a row group is read: the home of its first chunk's first byte; the lowest die of the die set for a chunk in the host
aperture, or one that cannot be found (R72). -/
def State.groupDie (s : State) (n : Nat) (l : InputList) (dies : List Nat) (g : Nat) : Nat :=
  match s.chunkRec n l g 0 with
  | .error _ => dies.headD 0
  | .ok r =>
    match s.translate n r.1 with
    | some (_, .rlm dev) => if dies.contains (devDie dev) then devDie dev else dies.headD 0
    | _ => dies.headD 0

end Sys2Proof.Machine
end

