-- ==== Sys2Proof/Machine/ImageChecks.lean ====
section
/-!
DEFINITION. Pipeline images: the layout of R66 to R73 and the checks of R77 with the offset each is reported at, the parameter blocks of the
fixed units (R119, R151, R159, R284, R416, R459) and the final-aggregation word (R92).
-/

namespace Sys2Proof.Machine

/-- Things to check in order: whether each holds, and the offset in the image at which a breach is reported. -/
abbrev Checks := List (Bool × Nat)

/-- The offset of the first breach. -/
def Checks.bad (l : Checks) : Option Nat := (l.find? (!·.1)).map (·.2)

/-- Bytes of the image before its trailer. -/
def bodyLen (bs : List Byte) : Nat := bs.length - 32

-- HEADER AND SECTION TABLE (R67, R68) ------------------------------------------------------------------------------------------------------------

def ihSections (bs : List Byte) : Nat := field bs 0x0E 2
def ihStages (bs : List Byte) : Nat := field bs 0x20 2
def ihFlows (bs : List Byte) : Nat := field bs 0x22 2

/-- A section-table entry: its own offset, then TYPE, ENTRY_COUNT, OFFSET and SIZE. -/
structure Sec where
  at_ : Nat
  type : Nat
  count : Nat
  off : Nat
  size : Nat

def secAt (bs : List Byte) (i : Nat) : Sec :=
  let o := 128 + 32 * i
  { at_ := o, type := field bs o 2, count := field bs (o + 4) 4, off := field bs (o + 8) 8, size := field bs (o + 16) 8 }

/-- The section-table entries that lie wholly before the trailer. -/
def sectionsOf (bs : List Byte) : List Sec :=
  (List.range (min (ihSections bs) ((bodyLen bs - 128) / 32))).map (secAt bs)

/-- Bytes of an entry of a table section; 0 for the others. -/
def entryBytes (type : Nat) : Nat :=
  match type with
  | 1 => 64
  | 2 => 16
  | 3 => 8
  | 4 => 32
  | _ => 0

/-- The offsets of a table section's entries that lie wholly before the trailer. -/
def entriesOf (bs : List Byte) (x : Sec) : List Nat :=
  let e := entryBytes x.type
  if e = 0 then []
  else (List.range (min x.count ((bodyLen bs - x.off) / e))).map fun k => x.off + e * k

/-- The first section of a type. -/
def secOf (bs : List Byte) (type : Nat) : Option Sec := (sectionsOf bs).find? (·.type == type)

def secOff (bs : List Byte) (type : Nat) : Nat := (secOf bs type).elim 0 (·.off)

-- CHECK 4 (R77) --------------------------------------------------------------------------------------------------------------------------------------

def check4 (bs : List Byte) : Checks :=
  [(slice bs 0 8 == ascii "OVPIMAGE", 0x00), (field bs 0x0C 2 == 128, 0x0C), (field bs 0x10 8 == bs.length, 0x10), (field bs 0x18 8 == 128, 0x18)]

-- CHECK 5 (R67, R448) ----------------------------------------------------------------------------------------------------------------------------------

/-- IMG_MINOR_MAX of the firmware families that the spec describes. -/
def imgMinorMax : Nat := 0

def check5 (s : State) (bs : List Byte) : Checks :=
  [(field bs 0x08 2 == 1, 0x08), (field bs 0x0A 2 ≤ imgMinorMax, 0x0A), (field bs 0x2C 2 ≤ s.keeper.runtimeFamily.toNat, 0x2C)]

-- CHECK 6: reserved fields and unlisted values ---------------------------------------------------------------------------------------------------------

def check6Header (bs : List Byte) : Checks :=
  [(4 ≤ ihSections bs && ihSections bs ≤ 160, 0x0E), (1 ≤ ihStages bs && ihStages bs ≤ 256, 0x20), (ihFlows bs ≤ 512, 0x22),
   (field bs 0x24 2 ≤ 256, 0x24), (byteAt bs 0x26 ≤ 8, 0x26),
   (byteAt bs 0x27 == 0 || (8 ≤ byteAt bs 0x27 && byteAt bs 0x27 ≤ 128), 0x27), (field bs 0x28 4 < 8, 0x28),
   (allZero (slice bs 0x40 64), 0x40)]

def secTypeListed (t : Nat) : Bool := (1 ≤ t && t ≤ 7) || t == 0xF0

def check6Section (bs : List Byte) (x : Sec) : Checks :=
  [(secTypeListed x.type, x.at_), (allZero (slice bs (x.at_ + 2) 2), x.at_ + 2), (allZero (slice bs (x.at_ + 0x18) 8), x.at_ + 0x18)]

def check6Stage (bs : List Byte) (o : Nat) : Checks :=
  [(1 ≤ byteAt bs (o + 2) && byteAt bs (o + 2) ≤ 7, o + 2), (byteAt bs (o + 3) ≤ 7, o + 3), (field bs (o + 4) 2 < 8, o + 4),
   (byteAt bs (o + 6) ≤ 4, o + 6), (byteAt bs (o + 7) ≤ 4, o + 7), (field bs (o + 0x18) 4 ≤ 65536, o + 0x18),
   (field bs (o + 0x28) 4 ≤ 65536, o + 0x28), (allZero (slice bs (o + 0x2C) 20), o + 0x2C)]

def check6Flow (bs : List Byte) (o : Nat) : Checks :=
  [(byteAt bs (o + 2) < 2, o + 2), (byteAt bs (o + 3) == 0, o + 3), (allZero (slice bs (o + 0x0A) 6), o + 0x0A)]

def check6Binding (bs : List Byte) (o : Nat) : Checks :=
  [(byteAt bs (o + 2) ≤ 3, o + 2), (byteAt bs (o + 3) ≤ 7, o + 3),
   (if byteAt bs (o + 2) = 2 then 1 ≤ byteAt bs (o + 4) && byteAt bs (o + 4) ≤ 2 else byteAt bs (o + 4) == 0, o + 4),
   (allZero (slice bs (o + 5) 3), o + 5)]

def check6Bound (bs : List Byte) (o : Nat) : Checks :=
  [(byteAt bs (o + 2) ≤ 2, o + 2), (byteAt bs (o + 3) == 0, o + 3), (allZero (slice bs (o + 0x18) 8), o + 0x18)]

def check6Entry (bs : List Byte) (type o : Nat) : Checks :=
  match type with
  | 1 => check6Stage bs o
  | 2 => check6Flow bs o
  | 3 => check6Binding bs o
  | 4 => check6Bound bs o
  | _ => []

def check6 (bs : List Byte) : Checks :=
  check6Header bs ++ (sectionsOf bs).flatMap (check6Section bs) ++
  (sectionsOf bs).flatMap fun x => (entriesOf bs x).flatMap (check6Entry bs x.type)

-- CHECK 7: section counts, sizes, alignment and overlaps -----------------------------------------------------------------------------------------------

/-- Sections of a type that an image may hold at most (R68). -/
def secMax (bs : List Byte) (type : Nat) : Nat :=
  match type with
  | 2 => if ihFlows bs = 0 then 0 else 1
  | 5 | 6 => 64
  | 0xF0 => 24
  | _ => 1

/-- ENTRY_COUNT that a section must hold. -/
def secCount (bs : List Byte) (type : Nat) : Nat :=
  match type with
  | 1 | 3 | 4 => ihStages bs
  | 2 => ihFlows bs
  | _ => 0

def secSizeOk (x : Sec) : Bool :=
  match x.type with
  | 5 => x.size ≤ 0x400000 && x.size % 4 == 0
  | 6 => x.size ≤ 0x400000
  | 7 => x.size ≤ 0x100000
  | 0xF0 => true
  | _ => x.size == x.count * entryBytes x.type

def check7Section (bs : List Byte) (xs : List Sec) (i : Nat) (x : Sec) : Checks :=
  let before := xs.take i
  let n := ihSections bs
  [((before.filter (·.type == x.type)).length < secMax bs x.type, x.at_), (x.count == secCount bs x.type, x.at_ + 4),
   (x.off % 64 == 0 && decide (128 + 32 * n ≤ x.off) && before.all (fun y => x.off + x.size ≤ y.off || y.off + y.size ≤ x.off), x.at_ + 8),
   (secSizeOk x && decide (x.off + x.size ≤ bodyLen bs), x.at_ + 16)]

/-- A byte that belongs to no part of the image. -/
def isPadding (bs : List Byte) (xs : List Sec) (i : Nat) : Bool :=
  decide (128 + 32 * ihSections bs ≤ i) && !xs.any fun x => x.off ≤ i && i < x.off + x.size

def check7 (bs : List Byte) : Checks :=
  let xs := sectionsOf bs
  let flows := (secOf bs 2).elim [] (entriesOf bs)
  [(xs.length == ihSections bs, 0x0E)] ++
  (xs.zipIdx.flatMap fun p => check7Section bs xs p.2 p.1) ++
  [([1, 3, 4].all (fun t => xs.any (·.type == t)) && (ihFlows bs == 0 || xs.any (·.type == 2)), 0x0E),
   ((flows.filter fun o => bit (byteAt bs (o + 2)) 0).length == field bs 0x24 2, 0x24)] ++
  (List.range (bodyLen bs)).map fun i => (!isPadding bs xs i || byteAt bs i == 0, i)

-- THE PARSED IMAGE -------------------------------------------------------------------------------------------------------------------------------------

def unitKindOf (code : Nat) : UnitKind :=
  match code with
  | 1 => .streamer
  | 2 => .forager
  | 3 => .hash
  | 4 => .merge
  | 5 => .amu
  | 6 => .digest
  | _ => .exchange

def secIndex (v : Nat) : Option Nat := if v = 0xFFFF then none else some v

/-- Four flow slots, those that are used. -/
def flowSlots (bs : List Byte) (o n : Nat) : List Nat := (List.range (min n 4)).map fun k => field bs (o + 2 * k) 2

/-- The parameter block of the stage entry at an offset. -/
def paramOf (bs : List Byte) (o : Nat) : List Byte := slice bs (secOff bs 7 + field bs (o + 0x24) 4) (field bs (o + 0x28) 4)

def parseStage (bs : List Byte) (i : Nat) : Stage :=
  let o := secOff bs 1 + 64 * i
  let b := secOff bs 3 + 8 * i
  let c := secOff bs 4 + 32 * i
  { kind := unitKindOf (byteAt bs (o + 2))
    prio := byteAt bs (o + 3)
    source := bit (byteAt bs (o + 4)) 0
    sink := bit (byteAt bs (o + 4)) 1
    aggFinal := bit (byteAt bs (o + 4)) 2
    ins := flowSlots bs (o + 8) (byteAt bs (o + 6))
    outs := flowSlots bs (o + 0x10) (byteAt bs (o + 7))
    morselRows := field bs (o + 0x18) 4
    codeSec := secIndex (field bs (o + 0x1C) 2)
    constSec := secIndex (field bs (o + 0x1E) 2)
    entryOff := field bs (o + 0x20) 4
    param := paramOf bs o
    placement := byteAt bs (b + 2)
    maxHops := byteAt bs (b + 3)
    partFn := byteAt bs (b + 4)
    base := field bs (c + 4) 4
    perRow := field bs (c + 8) 4
    perVar := field bs (c + 0x0C) 4
    maxRows := field bs (c + 0x10) 4
    maxVar := field bs (c + 0x14) 4 }

def parseFlow (bs : List Byte) (i : Nat) : Flow :=
  let o := secOff bs 2 + 16 * i
  { ordered := bit (byteAt bs (o + 2)) 0, producer := field bs (o + 4) 2, consumer := field bs (o + 6) 2, depth := field bs (o + 8) 2 }

/-- The image that bytes describe. -/
def parseImage (bs : List Byte) : Image where
  bytes := bs
  digest := sha256 (bs.take (bodyLen bs))
  stages := (List.range (ihStages bs)).map (parseStage bs)
  flows := (List.range (ihFlows bs)).map (parseFlow bs)
  sections := (sectionsOf bs).map fun x => (x.type, x.off, x.size)
  minComb := byteAt bs 0x26
  framePeriod := byteAt bs 0x27
  requires := field bs 0x28 4
  formatMinor := field bs 0x0A 2
  runtimeMin := field bs 0x2C 2

-- CHECK 8: the graph (R69, R71, R72, R152, R158, R171, R287, R416, R459) -----------------------------------------------------------------------------------

/-- A section index names a section of a type. -/
def Image.hasSection (im : Image) (type : Nat) (i : Option Nat) : Bool :=
  match i with
  | none => false
  | some k => (im.sections[k]?).elim false (·.1 == type)

def Image.sectionSize (im : Image) (i : Option Nat) : Nat := (i.bind (im.sections[·]?)).elim 0 (·.2.2)

def Stage.isLoad (st : Stage) : Bool := st.kind == .amu && byteAt st.param 0 == 2
def Stage.isStream (st : Stage) : Bool := st.kind == .digest && byteAt st.param 0 == 2

/-- Counts of flows that a unit kind asks for. -/
def insOk (st : Stage) (n : Nat) : Bool :=
  decide (n = 0 ↔ st.source) && (if st.kind = .merge ∨ st.kind = .exchange ∨ st.isStream then n == 1 else true)

def outsOk (st : Stage) (n : Nat) : Bool :=
  match st.kind with
  | .exchange => n == 1
  | .merge => n == 1 && !st.sink
  | _ => decide (n = 0 ↔ st.sink)

def check8Stage (bs : List Byte) (im : Image) (i : Nat) (st : Stage) : Checks :=
  let o := secOff bs 1 + 64 * i
  let slot := fun (base n : Nat) (mine : Flow → Nat) => (List.range 4).map fun k =>
    let f := field bs (o + base + 2 * k) 2
    (if k < n then (im.flows[f]?).elim false (mine · == i) else f == 0xFFFF, o + base + 2 * k)
  let nIn := byteAt bs (o + 6)
  let nOut := byteAt bs (o + 7)
  let forager := st.kind == .forager
  let paramEnd := field bs (o + 0x24) 4 + field bs (o + 0x28) 4
  [(field bs o 2 == i, o), (!(st.isLoad || st.isStream) || st.sink, o + 4), (insOk st nIn, o + 6), (outsOk st nOut, o + 7)] ++
  slot 8 nIn (·.consumer) ++ slot 0x10 nOut (·.producer) ++
  [(!st.isStream || st.ins.all (fun f => (im.flows[f]?).elim false (·.ordered)), o + 8),
   (if forager then im.hasSection 5 st.codeSec else st.codeSec.isNone, o + 0x1C),
   (st.constSec.isNone || im.hasSection 6 st.constSec, o + 0x1E),
   (if forager then st.entryOff % 4 == 0 && decide (st.entryOff < im.sectionSize st.codeSec) else st.entryOff == 0, o + 0x20),
   (field bs (o + 0x24) 4 % 8 == 0, o + 0x24),
   (field bs (o + 0x28) 4 == 0 || decide (paramEnd ≤ (secOf bs 7).elim 0 (·.size)), o + 0x28)]

/-- DEPTH of a flow (R71). -/
def depthOk (f : Flow) : Bool :=
  if f.ordered then f.depth == 0 else [16, 32, 64, 128, 256, 512, 1024, 2048, 4096].contains f.depth

def check8Flow (bs : List Byte) (im : Image) (i : Nat) (f : Flow) : Checks :=
  let o := secOff bs 2 + 16 * i
  let listed := fun (l : List Nat) => (l.filter (· == i)).length
  let total := fun (g : Stage → List Nat) => (im.stages.map fun st => listed (g st)).sum
  [(field bs o 2 == i, o), (!(f.ordered && (im.stages[f.producer]?).elim false (·.kind == .exchange)), o + 2),
   ((im.stages[f.producer]?).elim false (listed ·.outs == 1) && total (·.outs) == 1, o + 4),
   ((im.stages[f.consumer]?).elim false (listed ·.ins == 1) && total (·.ins) == 1, o + 6), (depthOk f, o + 8)]

/-- PLACEMENT of a stage. -/
def placementOk (im : Image) (st : Stage) : Bool :=
  let p := st.placement
  (!st.source || p == 0) &&
  (!(st.ins.any fun f => (im.flows[f]?).elim false (·.ordered)) || p == 3) &&
  match st.kind with
  | .forager => true
  | .merge => p == 3
  | .exchange => p == 1
  | .amu => if st.isLoad then p == 1 else p != 2
  | .digest => if st.isStream then p == 3 else p != 2
  | _ => p != 2

def check8Binding (bs : List Byte) (im : Image) (i : Nat) (st : Stage) : Checks :=
  let o := secOff bs 3 + 8 * i
  [(field bs o 2 == i, o), (placementOk im st, o + 2)]

/-- Stages that the output of some stages reaches, within a number of flows. -/
def Image.reach (im : Image) : Nat → List Nat → List Nat
  | 0, l => l
  | k + 1, l => im.reach k ((l ++ (im.flows.filter fun f => l.contains f.producer).map (·.consumer)).eraseDups)

/-- A flow lies on a cycle. -/
def Image.cyclic (im : Image) (f : Flow) : Bool := (im.reach im.stages.length [f.consumer]).contains f.producer

def check8 (bs : List Byte) (im : Image) : Checks :=
  (im.stages.zipIdx.flatMap fun p => check8Stage bs im p.2 p.1) ++
  (im.flows.zipIdx.flatMap fun p => check8Flow bs im p.2 p.1) ++
  (im.stages.zipIdx.flatMap fun p => check8Binding bs im p.2 p.1) ++
  (im.flows.zipIdx.map fun p => (!im.cyclic p.1, secOff bs 2 + 16 * p.2 + 4)) ++
  [(im.stages.any (·.source) && im.stages.any (·.sink), secOff bs 1 + 4)]

-- CHECK 9: the bounds (R47, R73, R74) ------------------------------------------------------------------------------------------------------------------------

/-- DOMAIN of a unit kind (R70). -/
def domainOf (k : UnitKind) : Nat :=
  match k with
  | .forager => 0
  | .exchange => 2
  | _ => 1

/-- The load-time bound of a stage (R74). -/
def Stage.loadBound (st : Stage) : Nat := st.boundOf st.maxRows st.maxVar

/-- R47 at the nominal clock. -/
def State.boundFits (s : State) (st : Stage) : Bool :=
  match st.kind with
  | .forager => decide (st.loadBound + 64 ≤ s.frame.periodActive * s.part.fclkMHz)
  | .exchange => true
  | _ => decide (st.loadBound + 40 ≤ s.unitCycles)

/-- MAX_ROWS covers the stage's morsels (R73). -/
def Stage.maxRowsOk (st : Stage) : Bool := decide (st.rows ≤ st.maxRows) && decide (st.maxRows ≤ 65536)

def check9Stage (s : State) (bs : List Byte) (i : Nat) (st : Stage) : Checks :=
  let o := secOff bs 4 + 32 * i
  let ex := st.kind == .exchange
  [(field bs o 2 == i, o), (byteAt bs (o + 2) == domainOf st.kind, o + 2), (!ex || st.base == 0, o + 4), (!ex || st.perRow == 0, o + 8),
   (!ex || st.perVar == 0, o + 0x0C), (if ex then st.maxRows == 0 else st.maxRowsOk, o + 0x10), (!ex || st.maxVar == 0, o + 0x14),
   (s.boundFits st, o)]

def check9 (s : State) (bs : List Byte) (im : Image) : Checks := im.stages.zipIdx.flatMap fun p => check9Stage s bs p.2 p.1

-- CHECK 10: parameter blocks -----------------------------------------------------------------------------------------------------------------------------------

def zeroAt (p : List Byte) (o n : Nat) : Bool × Nat := (allZero (slice p o n), o)

/-- FORM and type that R116 allows together. -/
def formOk (form ty : Nat) : Bool :=
  match form with
  | 1 => !strType ty
  | 2 => ty == 0x0C
  | _ => true

/-- A comparison is allowed on a column of a form and type (R120). -/
def compareOk (form ty : Nat) : Bool := form != 2 && (form == 3 || !strType ty)

/-- A Column Streamer's block (R119). -/
def streamerBlock (p : List Byte) : Checks :=
  let cols := csCols p
  [(1 ≤ byteAt p 0 && byteAt p 0 ≤ 32, 0), (byteAt p 1 ≤ 8, 1), (byteAt p 2 ≤ 2 && (byteAt p 2 != 0 || byteAt p 1 == 0), 2), (byteAt p 3 < 2, 3),
   zeroAt p 4 4] ++
  (cols.zipIdx.flatMap fun c =>
    let o := 8 + 8 * c.2
    [(decide (c.1.input < 32), o), (c.1.form ≤ 4 && formOk c.1.form c.1.expect, o + 1), (1 ≤ c.1.expect && c.1.expect ≤ 16, o + 2), zeroAt p (o + 3) 5]) ++
  ((csPreds p).zipIdx.flatMap fun q =>
    let o := 8 + 8 * byteAt p 0 + 40 * q.2
    let op := q.1.op
    [(decide (q.1.col < cols.length), o),
     (1 ≤ op && op ≤ 9 && (8 ≤ op || (cols[q.1.col]?).elim true fun c => compareOk c.form c.expect), o + 1), zeroAt p (o + 2) 6,
     (op == 7 || allZero q.1.b, o + 0x18)]) ++
  [(cols.any (·.form != 4), 9)]

/-- A key entry's BYTES. -/
def keyWidth (b : Nat) : Bool := b == 1 || b == 2 || b == 4 || b == 8 || b == 16

/-- Entries of 4 bytes from an offset, each by its two bytes, with bytes 2 and 3 reserved. -/
def entryChecks (p : List Byte) (off n : Nat) (ok : Nat → Nat → Nat → Bool × Bool) : Checks :=
  (List.range n).flatMap fun i =>
    let o := off + 4 * i
    let r := ok i (byteAt p o) (byteAt p (o + 1))
    [(r.1, o), (r.2, o + 1), zeroAt p (o + 2) 2]

/-- A Hash Probe Engine's block (R151). -/
def hashBlock (p : List Byte) : Checks :=
  let op := byteAt p 0
  let k := byteAt p 2
  let pay := byteAt p 3
  let emits := op == 2 || op == 3
  [(1 ≤ op && op ≤ 6, 0), (byteAt p 1 ≤ 15, 1), (1 ≤ k && k ≤ 4, 2), (pay ≤ 8 && (pay == 0 || op == 1 || emits), 3),
   (if op = 6 then 1 ≤ byteAt p 4 && byteAt p 4 ≤ 8 else byteAt p 4 == 0, 4),
   (if emits then 1 ≤ byteAt p 5 && byteAt p 5 ≤ 64 else byteAt p 5 == 0, 5),
   (byteAt p 6 == 0 || (byteAt p 6 == 1 && op == 5), 6), zeroAt p 7 9] ++
  entryChecks p 16 (k + pay) (fun _ _ b => (true, keyWidth b)) ++
  entryChecks p (16 + 4 * (k + pay)) (byteAt p 4) (fun _ f c => (1 ≤ f && f ≤ 6, f != 1 || c == 0))

/-- A Merge Network's block (R159). -/
def mergeBlock (p : List Byte) : Checks :=
  let op := byteAt p 0
  let limit := field p 4 4
  [(op == 1 || op == 2, 0), (1 ≤ byteAt p 1 && byteAt p 1 ≤ 8, 1), (1 ≤ byteAt p 2 && byteAt p 2 ≤ 4 && byteAt p 2 ≤ byteAt p 1, 2),
   (2 ≤ byteAt p 3 && byteAt p 3 ≤ 64, 3), (if op = 2 then 1 ≤ limit && limit ≤ 65536 else limit == 0, 4), (byteAt p 8 ≤ 3, 8), zeroAt p 9 7] ++
  entryChecks p 16 (byteAt p 1) (fun i _ f => (true, if i < byteAt p 2 then f < 4 else f == 0))

/-- An Associative Match Unit's block (R284). -/
def amuParamBlock (p : List Byte) : Checks :=
  let load := byteAt p 0 == 2
  let mode := byteAt p 1
  let none_ := fun (k : Nat) => byteAt p (4 + k) == 0xFF
  [(byteAt p 0 == 1 || load, 0), (if load then mode == 0 else mode ≤ 2, 1),
   (if load then byteAt p 2 == 0 else 1 ≤ byteAt p 2 && byteAt p 2 ≤ 4, 2), zeroAt p 3 1, (!none_ 0, 4),
   (if load then !none_ 1 else mode == 0 || none_ 1, 5), (load || none_ 2, 6), (if load then !none_ 3 else none_ 3, 7), (load || none_ 4, 8),
   (load || none_ 5, 9), zeroAt p 0x0A 6]

/-- A digest stage's block (R459). -/
def digestBlock (p : List Byte) : Checks := [(byteAt p 0 == 1 || byteAt p 0 == 2, 0), zeroAt p 2 14]

/-- An exchange stage's block (R416). -/
def exchangeBlock (p : List Byte) : Checks :=
  let mode := byteAt p 0
  let k := byteAt p 1
  [(1 ≤ mode && mode ≤ 4, 0), (if mode = 1 then 1 ≤ k && k ≤ 4 else k == 0, 1),
   (if mode = 2 then byteAt p 2 != 0xFF else byteAt p 2 == 0xFF, 2), (byteAt p 3 == 0 || (byteAt p 3 == 1 && mode == 2), 3),
   (mode == 4 || field p 4 2 == 0, 4), zeroAt p 6 2, (mode == 1 || allZero (slice p 8 8), 8)] ++
  entryChecks p 16 k (fun _ _ b => (true, keyWidth b))

/-- The final-aggregation word (R92). -/
def aggBlock (p : List Byte) : Checks :=
  [(byteAt p 0 < 6, 0), (byteAt p 1 ≤ 38, 1), zeroAt p 2 6]

/-- PARAM_SIZE that a unit kind's block must have. -/
def paramSizeOk (k : UnitKind) (p : List Byte) : Bool :=
  match k with
  | .streamer => p.length == 8 + 8 * byteAt p 0 + 40 * byteAt p 1
  | .forager => true
  | .hash => p.length == 16 + 4 * (byteAt p 2 + byteAt p 3 + byteAt p 4)
  | .merge => p.length == 16 + 4 * byteAt p 1
  | .amu | .digest => p.length == 16
  | .exchange => p.length == 16 + 4 * byteAt p 1

def blockChecks (k : UnitKind) (p : List Byte) : Checks :=
  match k with
  | .streamer => streamerBlock p
  | .forager => []
  | .hash => hashBlock p
  | .merge => mergeBlock p
  | .amu => amuParamBlock p
  | .digest => digestBlock p
  | .exchange => exchangeBlock p

def check10Stage (bs : List Byte) (i : Nat) (st : Stage) : Checks :=
  let o := secOff bs 1 + 64 * i
  let at_ := secOff bs 7 + field bs (o + 0x24) 4
  [(paramSizeOk st.kind st.param && (!st.aggFinal || decide (8 ≤ st.param.length)), o + 0x28)] ++
  ((blockChecks st.kind st.param ++ if st.aggFinal then aggBlock st.param else []).map fun c => (c.1, at_ + c.2))

def check10 (bs : List Byte) (im : Image) : Checks := im.stages.zipIdx.flatMap fun p => check10Stage bs p.2 p.1

-- CHECK 11 (R77) -------------------------------------------------------------------------------------------------------------------------------------------------

def check11 (s : State) (im : Image) : Checks :=
  [(!bit im.requires 0 || s.saddle.state == 2, 0x28), (!bit im.requires 1 || s.keeper.rwp.syncMode == 1, 0x28),
   (im.framePeriod == 0 || im.framePeriod == s.frame.periodActive, 0x27), (im.minComb ≤ s.activeDies.length, 0x26)]

-- THE CHECKS IN ORDER ---------------------------------------------------------------------------------------------------------------------------------------------

/-- The digest check: the trailer and the entry's DIGEST both equal the computed digest (R76); the detail of R77. -/
def check3 (bs entryDigest : List Byte) : Checks :=
  let d := sha256 (bs.take (bodyLen bs))
  [(bs.drop (bodyLen bs) == d, bodyLen bs), (entryDigest == d, 0xFFFFFFFF)]

/-- Checks 3 to 11 of R77: the image, or the status and the detail of the first failure. -/
def State.checkImage (s : State) (bs entryDigest : List Byte) : Except (Nat × Nat) Image :=
  let im := parseImage bs
  let run := fun (l : List (Nat × (Unit → Checks))) =>
    l.findSome? fun c => ((c.2 ()).bad).map fun o => (c.1, o)
  match run
    [(Config.stImgDigest, fun _ => check3 bs entryDigest), (Config.stImgFormat, fun _ => check4 bs), (Config.stImgVersion, fun _ => check5 s bs),
     (Config.stInvalidField, fun _ => check6 bs), (Config.stImgFormat, fun _ => check7 bs), (Config.stImgGraph, fun _ => check8 bs im),
     (Config.stImgBound, fun _ => check9 s bs im), (Config.stInvalidField, fun _ => check10 bs im),
     (Config.stImgUnsupported, fun _ => check11 s im)] with
  | some e => .error e
  | none => .ok im

/-- The checks that a loaded image must still pass when a job names it: 5, 9 and 11 (R79, R347). -/
def State.recheckImage (s : State) (im : Image) : Option Nat :=
  if (check5 s im.bytes).bad.isSome then some Config.stImgVersion
  else if (check9 s im.bytes im).bad.isSome then some Config.stImgBound
  else if (check11 s im).bad.isSome then some Config.stImgUnsupported
  else none

end Sys2Proof.Machine
end

