-- ==== Sys2Proof/Machine/AmuOps.lean ====
section
/-!
DEFINITION. The array, blocks, shadow and lookups of the Associative Match Unit (R278 to R293).
-/

namespace Sys2Proof.Machine

-- ENTRIES (R278, R279) ------------------------------------------------------------------------------------------------------------------

/-- An entry that is not listed: invalid, all zero. -/
def AmuEntry.empty : AmuEntry := { valid := false, value := 0, care := 0, data := 0, prio := 0 }

/-- The number of 1 bits in CARE (R279). -/
def carePriority (c : BitVec 160) : Nat := ((List.range 160).filter fun i => c.getLsbD i).length

/-- A written entry: VALUE AND CARE is stored (R278), the priority is computed (R290). -/
def AmuEntry.written (valid : Bool) (value care : BitVec 160) (data : W32) : AmuEntry :=
  { valid := valid, value := value &&& care, care := care, data := data, prio := carePriority care }

/-- An entry matches a key (R278). -/
def AmuEntry.hits (e : AmuEntry) (k : BitVec 160) : Bool := e.valid && (k ^^^ e.value) &&& e.care == 0

def Amu.entry (a : Amu) (i : Nat) : AmuEntry := (assocGet i a.array).getD AmuEntry.empty

/-- Write array entry `i`; an empty entry is not listed. -/
def Amu.setEntry (a : Amu) (i : Nat) (e : AmuEntry) : Amu :=
  { a with
    array := if e = AmuEntry.empty then a.array.filter (·.1 != i) else assocSet i e a.array
    badParity := a.badParity.filter (· != i) }

-- REGIONS (R280, R281) --------------------------------------------------------------------------------------------------------------------

/-- Entries of a block. -/
def amuBlock : Nat := 512

/-- The physical blocks of an instance in logical order. -/
def Amu.region (a : Amu) (n : Nat) : List Nat :=
  let mine := (List.range 64).filter fun b => (a.blocks.getD b AmuBlock.reset).owner == some n
  sortBy (fun x y => (a.blocks.getD x AmuBlock.reset).logical ≤ (a.blocks.getD y AmuBlock.reset).logical) mine

/-- The physical index of an instance-relative address, if the region holds it (R280). -/
def Amu.physical (a : Amu) (n i : Nat) : Option Nat :=
  match (a.region n)[i / amuBlock]? with
  | none => none
  | some b => some (b * amuBlock + i % amuBlock)

/-- A block that is being cleared is treated as empty (R281). -/
def Amu.clearing (a : Amu) (i : Nat) : Bool := (a.blocks.getD (i / amuBlock) AmuBlock.reset).clearing

/-- The instance addresses and entries of a region that match a key, ascending. -/
def Amu.matches (a : Amu) (n : Nat) (k : BitVec 160) : List (Nat × AmuEntry) :=
  (a.region n).zipIdx.flatMap fun b =>
    (a.array.filter fun e => e.1 / amuBlock == b.1 && !a.clearing e.1 && e.2.hits k).map fun e =>
      (b.2 * amuBlock + e.1 % amuBlock, e.2)

/-- The lookup of R279: the highest priority, then the lowest address. -/
def Amu.lookup (a : Amu) (n : Nat) (k : BitVec 160) : Option (Nat × AmuEntry) :=
  (a.matches n k).foldl (fun best x =>
    match best with
    | none => some x
    | some y => if y.2.prio < x.2.prio || (y.2.prio == x.2.prio && x.1 < y.1) then some x else some y) none

/-- The no-match code (R279). -/
def amuNoMatch : Nat := 0xFFFFFFFF

-- THE SHADOW (R290) -----------------------------------------------------------------------------------------------------------------------------

/-- The device address of shadow entry `i` of die `d`. -/
def shadowAddr (d i : Nat) : Nat := d * Config.windowBytes + 0xBE0000000 + 64 * i

/-- The OWNER field: the instance that holds the block, or 0xFFFF. -/
def Amu.ownerField (a : Amu) (i : Nat) : Nat := ((a.blocks.getD (i / amuBlock) AmuBlock.reset).owner).getD 0xFFFF

/-- The shadow layout of an entry (R290). -/
def shadowBytes (e : AmuEntry) (faulted : Bool) (owner : Nat) : List Byte :=
  leBytes 20 e.value.toNat ++ leBytes 20 e.care.toNat ++ leBytes 4 e.data.toNat ++
  leBytes 1 ((if e.valid then 1 else 0) + (if faulted then 2 else 0)) ++ leBytes 1 e.prio ++ leBytes 2 owner ++ zeros 16

/-- The entry that a 64-byte image in the shadow layout holds; PRIO is computed. -/
def shadowEntry (bs : List Byte) : AmuEntry :=
  AmuEntry.written (bit (byteAt bs 0x2C) 0) (BitVec.ofNat 160 (field bs 0 20)) (BitVec.ofNat 160 (field bs 20 20))
    (BitVec.ofNat 32 (field bs 40 4))

/-- The shadow of physical entry `i` of die `d`. -/
def State.shadow (s : State) (d i : Nat) : List Byte := memRead s.mem (shadowAddr d i) 64

def State.modAmu (s : State) (d : Nat) (f : Amu → Amu) : State := s.modDie d fun x => { x with amu := f x.amu }

/-- Write an entry: the shadow first, FAULTED cleared, then the array (R290, R293). -/
def State.amuWrite (s : State) (d i : Nat) (e : AmuEntry) : State :=
  let owner := (s.dieD d).amu.ownerField i
  { s with mem := memWrite s.mem (shadowAddr d i) (shadowBytes e false owner) }.modAmu d (·.setEntry i e)

/-- Clear every entry of a block, in the shadow and in the array (R281, R290). -/
def State.amuClearBlock (s : State) (d b : Nat) : State :=
  let s1 := (List.range amuBlock).foldl (fun s k => s.amuWrite d (b * amuBlock + k) AmuEntry.empty) s
  s1.modAmu d fun a => { a with blocks := a.blocks.modify b fun x => { x with clearing := false } }

-- LOOKUPS ----------------------------------------------------------------------------------------------------------------------------------------

/-- A lookup re-reads from the shadow every entry of the searched region whose parity is bad, and counts it (R292). -/
def State.amuRepair (s : State) (d n : Nat) : State :=
  let a := (s.dieD d).amu
  let bad := a.badParity.filter fun i => (a.region n).contains (i / amuBlock)
  bad.foldl (fun s i => s.modAmu d fun a =>
    { (a.setEntry i (shadowEntry (s.shadow d i))) with parityFix := a.parityFix + 1 }) s

/-- The region of instance `n` on die `d` is STALE (R289). -/
def State.amuStale (s : State) (n d : Nat) : Bool := (s.instD n).amuState.getD d 0 == 2

/-- Set a region state (R289). -/
def State.setAmuState (s : State) (n d v : Nat) : State := s.modInst n fun i => { i with amuState := i.amuState.set d v }

end Sys2Proof.Machine
end

