-- ==== Sys2Proof/Machine/ExactSum.lean ====
section
/-!
DEFINITION. Exact sums: the final aggregation over binary64 bins and over DECIMAL (R91 to R95).
-/

namespace Sys2Proof.Machine

/-- A result and the warning flags that it sets (R95). -/
structure AggOut where
  bits : Nat
  inv : Bool := false
  inx : Bool := false
  fpOvf : Bool := false

/-- Round a magnitude num / den under RM of R92; `neg` is the sign. The flag says that it was rounded. -/
def roundMag (rm : Nat) (neg : Bool) (num den : Nat) : Nat × Bool :=
  let q := num / den
  let r := num % den
  let up := match rm with
    | 0 => den < 2 * r || (2 * r == den && q % 2 == 1)
    | 1 => r != 0 && den ≤ 2 * r
    | 2 => false
    | 3 => r != 0 && neg
    | 4 => r != 0 && !neg
    | _ => den < 2 * r || (2 * r == den && r != 0 && !neg)
  (if up then q + 1 else q, r != 0)

/-- The result of an overflow (R92). -/
def overflowBits (rm : Nat) (neg : Bool) : Nat :=
  let toInf := match rm with
    | 2 => false
    | 3 => neg
    | 4 => !neg
    | _ => true
  (if neg then 2 ^ 63 else 0) + if toInf then 0x7FF0000000000000 else 0x7FEFFFFFFFFFFFFF

/-- ± num / den × 2^−1075, rounded once to binary64 (R92); num is not 0. -/
def roundBinary64 (rm : Nat) (neg : Bool) (num den : Nat) : AggOut :=
  let k := max 1 ((num / den).log2 - 52)
  let r := roundMag rm neg num (den * 2 ^ k)
  let m := if r.1 = 2 ^ 53 then 2 ^ 52 else r.1
  let e := if r.1 = 2 ^ 53 then k + 1 else k
  if 2047 ≤ e then { bits := overflowBits rm neg, inx := true, fpOvf := true }
  else
    { bits := (if neg then 2 ^ 63 else 0) + (if m < 2 ^ 52 then m else e * 2 ^ 52 + (m - 2 ^ 52)), inx := r.2 }

/-- N of R92: Σ A_b × 2^(32b) over accumulators of 18 bytes. -/
def exactN (st : List Byte) : Int :=
  (List.range 64).foldl (fun n b => n + sint 144 (field st (18 * b) 18) * (2 ^ (32 * b) : Nat)) 0

/-- The flags of a group state, in the byte after the accumulators: HAS_NAN, HAS_POS_INF, HAS_NEG_INF, NEG_ZERO_ONLY (R91). -/
def gsFlags (st : List Byte) : Nat := byteAt st 1152
def gsCount (st : List Byte) : Nat := field st 1153 8

/-- The default quiet NaN (R93). -/
def quietNan : Nat := 0x7FF8000000000000

/-- The result of a binary64 group: none is NULL (R92, R93). -/
def binaryResult (rm : Nat) (avg : Bool) (st : List Byte) : Option AggOut :=
  let f := gsFlags st
  if gsCount st = 0 then none
  else if bit f 0 || (bit f 1 && bit f 2) then some { bits := quietNan, inv := true }
  else if bit f 1 then some { bits := 0x7FF0000000000000 }
  else if bit f 2 then some { bits := 0xFFF0000000000000 }
  else
    let n := exactN st
    if n = 0 then some { bits := if bit f 3 || rm = 3 then 2 ^ 63 else 0 }
    else some (roundBinary64 rm (n < 0) n.natAbs (if avg then gsCount st else 1))

/-- A DECIMAL total: none fails the job with ARITH_OVERFLOW (R94). `s` is the scale of the input, `r` RESULT_SCALE. -/
def decimalResult (rm r s : Nat) (avg : Bool) (sum : Int) (count : Nat) : Option AggOut :=
  if 10 ^ 38 - 1 < sum.natAbs then none
  else if !avg && s ≤ r then some { bits := ucode 128 sum }
  else
    let p := roundMag rm (sum < 0) (sum.natAbs * 10 ^ (r - s)) ((if avg then count else 1) * 10 ^ (s - r))
    some { bits := ucode 128 (if sum < 0 then -(p.1 : Int) else p.1), inx := p.2 }

/-- The group state of R91 takes 1,216 bytes; any other is a DECIMAL one of the model: sum in 24 bytes, count in 8, AVG, scale. -/
def stateResult (word : Nat) (st : List Byte) : Option (Option AggOut) :=
  let rm := bits word 2 0
  if st.length = 1216 then some (binaryResult rm (bit (byteAt st 1161) 0) st)
  else
    let count := field st 24 8
    if count = 0 then some none
    else (decimalResult rm (bits word 13 8) (byteAt st 33 % 39) (bit (byteAt st 32) 0) (sint 192 (field st 0 24)) count).map some

/-- The flags of R95 that a result sets: INV, INX, FP_OVF in bits 0 to 2. -/
def AggOut.flags (a : AggOut) : Nat := (if a.inv then 1 else 0) + (if a.inx then 2 else 0) + (if a.fpOvf then 4 else 0)

/-- The flags of a final-aggregation morsel over its group states; none where a DECIMAL total overflows (R94). -/
def finalFlags (word : Nat) : List (List Byte) → Option Nat
  | [] => some 0
  | st :: t =>
    match stateResult word st, finalFlags word t with
    | some x, some f => some ((x.elim 0 (·.flags)) ||| f)
    | _, _ => none

end Sys2Proof.Machine
end

