-- ==== Sys2Proof/Machine/DigestOps.lean ====
section
/-!
DEFINITION. Digest contexts and their holders (R452, R453), the charge of the digest engines (R456), and the Merkle tree of a result
digest (R461).
-/

namespace Sys2Proof.Machine

-- SHARES (R46, R187) ------------------------------------------------------------------------------------------------------------------

/-- The share of an instance in a kind of unit on a die. -/
def Alloc.share (a : Alloc) (k : UnitKind) (d : Nat) : Nat :=
  match k with
  | .streamer => dieByte a.shareCs d
  | .hash => dieByte a.shareHpe d
  | .merge => dieByte a.shareMn d
  | .amu => dieByte a.shareAmu d
  | .digest => dieByte a.shareDg d
  | _ => 0

/-- The unit cycles of one unit that an instance has in a frame (R46). -/
def State.shareCycles (s : State) (n : Nat) (k : UnitKind) (d : Nat) : Nat := (s.instD n).alloc.share k d * s.unitCycles / 64

/-- Cycles charged to an instance on a unit this frame. -/
def UnitSt.chargedTo (u : UnitSt) (n : Nat) : Nat := (assocGet n u.charged).getD 0

def UnitSt.charge (u : UnitSt) (n c : Nat) : UnitSt := { u with charged := assocSet n (u.chargedTo n + c) u.charged }

/-- The units of a kind on a die, by the index of R203. -/
def unitsOf (k : UnitKind) : List Nat :=
  match k with
  | .streamer => [0, 1, 2, 3]
  | .hash => [4, 5, 6, 7, 8, 9, 10, 11]
  | .merge => [12]
  | .amu => [13]
  | .digest => (List.range 16).map (· + 14)
  | _ => []

-- CONTEXTS (R452, R453) ----------------------------------------------------------------------------------------------------------------

/-- Contexts that an instance holds on a die. -/
def Die.ctxsOf (d : Die) (n : Nat) : Nat := (d.ctxs.filter fun c => c.holder != .free && c.inst == n).length

/-- The lowest context free to an instance (R453). -/
def State.freeCtx (s : State) (d n : Nat) : Option Nat :=
  if (s.dieD d).ctxsOf n < (s.instD n).alloc.share .digest d then
    firstBelow 64 fun i => ((s.dieD d).ctxs.getD i Ctx.reset).holder == .free
  else none

def State.setCtx (s : State) (d i : Nat) (c : Ctx) : State := s.modDie d fun x => { x with ctxs := x.ctxs.set i c }

/-- Open context `i`. -/
def State.openCtx (s : State) (d i n : Nat) (h : Holder) : State := s.setCtx d i { holder := h, inst := n, sha := shaInit }

/-- A release writes zero to every bit (R452). -/
def State.releaseCtx (s : State) (d i : Nat) : State := s.setCtx d i Ctx.reset

/-- Release the contexts of a die that satisfy a test on the holder. -/
def Die.releaseCtxs (d : Die) (p : Holder → Bool) : Die := { d with ctxs := d.ctxs.map fun c => if p c.holder then Ctx.reset else c }

/-- The context of a die that a holder holds. -/
def Die.ctxOf (d : Die) (h : Holder) : Option Nat := firstBelow 64 fun i => (d.ctxs.getD i Ctx.reset).holder == h

/-- The engine of a request of `blocks` blocks: the lowest idle engine with share cycles left, charged 24 + 64 for each block
(R456). -/
def State.digestCharge (s : State) (d n blocks : Nat) : Option State :=
  let cost := 24 + 64 * blocks
  match (unitsOf .digest).find? fun u =>
      let x := (s.dieD d).units.getD u UnitSt.reset
      x.morsel.isNone && decide (x.chargedTo n < s.shareCycles n .digest d) with
  | none => none
  | some u => some ((s.modDie d fun x => { x with units := x.units.modify u fun y => { (y.charge n cost) with busy := y.busy + cost } }).modInstStat
      d n fun b => { b with unitCycles := b.unitCycles.modify 6 (satAdd 32 · cost) })

-- THE COMPLEMENTARY COMPARE (R458) -------------------------------------------------------------------------------------------------------

/-- Two comparators set EQ (bit 0) and EQ_N (bit 1); a fault in them flips what they set. A pair of equal bits is a compare fault: it is counted
and raises DIGEST_CMP_FAULT. -/
def State.compareDigests (s : State) (a b : List Byte) : State × BitVec 2 :=
  let pair := (if a = b then 1#2 else 2#2) ^^^ s.propolis.cmpFlip
  let s1 := { s with propolis := { s.propolis with cmpFlip := 0 } }
  if pair = 0 ∨ pair = 3 then
    ({ s1 with propolis := { s1.propolis with cmpFault := satAdd 32 s1.propolis.cmpFault 1 } }.raise Config.evDigestCmpFault, pair)
  else (s1, pair)

/-- A compare counts as equal only when EQ = 1 and EQ_N = 0. -/
def digestsEqual (pair : BitVec 2) : Bool := pair == 1

-- MERKLE TREES (R461) ----------------------------------------------------------------------------------------------------------------------

/-- One level of interior nodes from the level below. -/
def merkleLevel : List (List Byte) → List (List Byte)
  | a :: b :: t => sha256 (1 :: a ++ b) :: merkleLevel t
  | t => t

/-- The root over the leaves. -/
def merkleRoot : Nat → List (List Byte) → List Byte
  | 0, l => l.headD []
  | k + 1, l => if l.length ≤ 1 then l.headD [] else merkleRoot k (merkleLevel l)

/-- The root of a buffer: of no chunks, SHA-256(0x00). -/
def resultRoot (leaves : List (List Byte)) : List Byte := if leaves = [] then sha256 [0] else merkleRoot leaves.length leaves

end Sys2Proof.Machine
end

