-- ==== Sys2Proof/Machine/HashTable.lean ====
section
/-!
DEFINITION. Hash tables in instance memory: layout, slots, chains and records (R133, R137 to R142), insert, probe, group and drain (R143 to
R150), and spilling (R153 to R155).
-/

namespace Sys2Proof.Machine

-- THE TABLE OF A JOB -----------------------------------------------------------------------------------------------------------------

def State.table? (s : State) (jid ti : Nat) : Option Table := (s.job? jid).bind (·.tables[ti]?)

def State.modTable (s : State) (jid ti : Nat) (f : Table → Table) : State :=
  s.modJob jid fun j => { j with tables := j.tables.modify ti f }

/-- FLAGS of R132. -/
def Table.unique (t : Table) : Bool := bit t.flags 0
def Table.inlined (t : Table) : Bool := bit t.flags 1
def Table.dynSpill (t : Table) : Bool := bit t.flags 2
def Table.prebuilt (t : Table) : Bool := bit t.flags 3

def Table.buckets (t : Table) : Nat := 2 ^ t.bucketBits
def Table.parts (t : Table) : Nat := 2 ^ t.partBits
def Table.recordBytes (t : Table) : Nat := 8 * t.recordQ8

/-- A pool chunk (R142). -/
def chunkBytes : Nat := 65536

/-- BASE of copy `c`: copy 0 of a SHARED table, copy d of a REPLICATED one on die d (R132). -/
def Table.baseOf (t : Table) (c : Nat) : Nat := t.bases.getD c 0

/-- The copy that the engine of die `d` uses. -/
def Table.copyOn (t : Table) (d : Nat) : Nat := if t.mode = 1 then d else 0

def Table.bucketAddr (t : Table) (c b : Nat) : Nat := t.baseOf c + 64 * b
def Table.partAddr (t : Table) (c : Nat) : Nat := t.baseOf c + 64 * t.buckets
def Table.partBytes (t : Table) : Nat := alignUp 64 (16 * t.parts)
/-- The chunk pool, at the next 64 KiB boundary (R133). -/
def Table.poolAddr (t : Table) (c : Nat) : Nat := alignUp chunkBytes (t.partAddr c + t.partBytes)

/-- Bucket, partition and tag of a hash (R137). -/
def Table.bucketOf (t : Table) (h : W64) : Nat := h.toNat / 2 ^ (64 - t.bucketBits)
def Table.partOf (t : Table) (h : W64) : Nat := if t.partBits = 0 then 0 else h.toNat / 2 ^ (64 - t.partBits)
def tagOf (h : W64) : Nat := h.toNat % 65536
/-- Buckets of one partition. -/
def Table.partSpan (t : Table) : Nat := 2 ^ (t.bucketBits - t.partBits)

/-- Keys held in resident partitions. -/
def Table.held (t : Table) : Nat := (t.partRows.map (·.2)).sum
/-- Rows in a spill buffer. -/
def Table.spillRows (t : Table) (b : Nat) : Nat := match t.spillUse.find? (·.1 == b) with | none => 0 | some x => x.2.2
/-- The table holds no entry (R147). -/
def Table.bare (t : Table) : Bool :=
  if t.builds then t.held == 0 && t.spilled == [] else t.rows == 0 && t.spilled == []

-- SLOTS (R138, R139) --------------------------------------------------------------------------------------------------------------------

inductive TSlot where
  | empty
  /-- a record at a pool offset -/
  | record (off : Nat)
  | inlineKey (k : Nat)
  /-- a link bucket at a pool offset -/
  | link (off : Nat)
  /-- any other combination: a damaged table -/
  | damaged

/-- What slot `j` holds. -/
def Table.slot (t : Table) (j v : Nat) : TSlot :=
  let ref := bits v 47 0
  if v = 0 then .empty
  else match bits v 47 46 with
    | 2 => if t.inlined && bits v 45 40 == 0 then .inlineKey (bits v 39 0) else .damaged
    | 3 =>
      let off := bits v 45 0 * 64
      if j = 7 ∧ off + 64 ≤ t.poolBytes then .link off else .damaged
    | _ =>
      if t.inlined || ref == 0 then .damaged
      else if (ref - 1) * 8 + t.recordBytes ≤ t.poolBytes then .record ((ref - 1) * 8) else .damaged

/-- Slot `j` holds a combination that no table has. -/
def Table.damagedSlot (t : Table) (j v : Nat) : Bool := match t.slot j v with | .damaged => true | _ => false

def slotTag (v : Nat) : Nat := bits v 63 48

/-- The eight slots of a bucket. -/
def State.bucket (s : State) (n a : Nat) : Res (List Nat) := do
  let bs ← s.fetch n a 64
  .ok ((List.range 8).map fun j => field bs (8 * j) 8)

/-- The chain from a bucket address: addresses and slots; a chain longer than 1 + LINK_MAX is damaged (R140). -/
def State.chain (s : State) (n : Nat) (t : Table) (c a : Nat) : Nat → Res (List (Nat × List Nat))
  | 0 => .error Config.stHashTableState
  | k + 1 => do
    let b ← s.bucket n a
    match t.slot 7 (b.getD 7 0) with
    | .link off => do
      let rest ← s.chain n t c (t.poolAddr c + off) k
      .ok ((a, b) :: rest)
    | _ => .ok [(a, b)]

/-- The chain of a hash. -/
def State.chainOf (s : State) (n : Nat) (t : Table) (c b : Nat) : Res (List (Nat × List Nat)) :=
  s.chain n t c (t.bucketAddr c b) (1 + t.linkMax)

/-- The key of a slot, if it is an entry; a damaged slot fails the job (R139). -/
def State.slotKey (s : State) (n : Nat) (t : Table) (c j v : Nat) : Res (Option (List Byte × Nat)) :=
  match t.slot j v with
  | .empty | .link _ => .ok .none
  | .damaged => .error Config.stHashTableState
  | .inlineKey k => .ok (some (leBytes t.keyBytes k, 0))
  | .record off => do
    let k ← s.fetch n (t.poolAddr c + off + 8) t.keyBytes
    .ok (some (k, off))

/-- The entries of a chain with a tag and key: their pool offsets, in chain order (R147). -/
def State.findKey (s : State) (n : Nat) (t : Table) (c : Nat) (h : W64) (key : List Byte) : Res (List Nat) := do
  let ch ← s.chainOf n t c (t.bucketOf h)
  (ch.flatMap fun b => b.2.zipIdx).foldlM (fun l v => do
    if v.1 = 0 ∨ (slotTag v.1 ≠ tagOf h ∧ !t.damagedSlot v.2 v.1) then .ok l
    else match ← s.slotKey n t c v.2 v.1 with
      | some (k, off) => .ok (if k = key then l ++ [off] else l)
      | .none => .ok l) []

-- THE POOL (R142) --------------------------------------------------------------------------------------------------------------------------------

/-- Take `size` bytes of the pool of copy `c` for partition `p`: from its chunk of that kind with room, else from the lowest free
chunk. -/
def Table.take (t : Table) (c p : Nat) (isLink : Bool) (size : Nat) : Option (Table × Nat) :=
  match t.chunks.find? fun x => x.1 == c && x.2.2.1 == p && x.2.2.2.1 == isLink && x.2.2.2.2 + size ≤ chunkBytes with
  | some x =>
    some ({ t with chunks := t.chunks.map fun y => if y.1 = c ∧ y.2.1 = x.2.1 then (c, x.2.1, p, isLink, x.2.2.2.2 + size) else y },
      x.2.1 * chunkBytes + x.2.2.2.2)
  | .none =>
    match firstBelow (t.poolBytes / chunkBytes) fun k => !t.chunks.any fun y => y.1 == c && y.2.1 == k with
    | .none => .none
    | some k => some ({ t with chunks := t.chunks ++ [(c, k, p, isLink, size)] }, k * chunkBytes)

/-- Link buckets in use, summed over copies (R132). -/
def Table.linksUsed (t : Table) : Nat := (t.chunks.map fun x => if x.2.2.2.1 then x.2.2.2.2 / 64 else 0).sum

-- SPILLING (R153 to R155) --------------------------------------------------------------------------------------------------------------------------

/-- Append a record to a spill buffer, and its header; past SPILL_BYTES the job fails (R153, R155). -/
def State.spillAppend (s : State) (jid ti n b : Nat) (rec : List Byte) : Res State :=
  match s.table? jid ti with
  | .none => .ok s
  | some t =>
    let cur := match t.spillUse.find? (·.1 == b) with | .none => (0, 0) | some x => x.2
    let at_ := t.spillBase + b * t.spillBytes
    if t.spillBytes < 64 + cur.1 + rec.length then .error Config.stHashSpillFull
    else do
      let s1 ← s.poke n (at_ + 64 + cur.1) rec
      let s2 ← s1.poke n at_ (leBytes 8 (cur.1 + rec.length) ++ leBytes 8 (cur.2 + 1) ++ leBytes 4 rec.length ++ zeros 44)
      .ok (s2.modTable jid ti fun t => { t with spillUse := assocSet b (cur.1 + rec.length, cur.2 + 1) t.spillUse })

/-- The record that an entry spills as: its hash, then its record, or for an inline key a record of header and key (R153). -/
def Table.spillRecord (t : Table) (key rec : List Byte) : List Byte :=
  leBytes 8 (tableHash key t.seed).toNat ++ (if t.inlined then zeros 8 ++ fit (alignUp 8 t.keyBytes) key else rec)

/-- Zero instance memory, a page at a time. -/
def State.zeroInst (s : State) (n : Nat) : Nat → Nat → Nat → Res State
  | _, _, 0 => .ok s
  | a, len, k + 1 =>
    if len = 0 then .ok s
    else
      let step := min len (Config.pageBytes - a % Config.pageBytes)
      match s.translate n a with
      | .none => .error Config.stMemFault
      | some (e, l) =>
        if !pteWrite e then .error Config.stMemFault
        else
          let s1 := { s with
            mem := memZero s.mem (l.key n) step
            poison := match l with
              | .rlm dev => s.poison.filter fun g => !(dev / 64 ≤ g && g < (dev + step) / 64)
              | .host _ => s.poison }
          (s1.reach n (a / Config.pageBytes) ((s.instD n).policy e) l true).zeroInst n (a + step) (len - step) k

/-- Zero `len` bytes from `a`. -/
def State.zero (s : State) (n a len : Nat) : Res State := s.zeroInst n a len (len / Config.pageBytes + 2)

/-- Spill partition `p`: copy its entries to buffer 2p, clear its buckets, return its chunks, set SPILLED (R155). -/
def State.spillPart (s : State) (jid ti n p : Nat) : Res State :=
  match s.table? jid ti with
  | .none => .ok s
  | some t => do
    let s1 ← (List.range t.partSpan).foldlM (fun s k => do
      let ch ← s.chainOf n t 0 (p * t.partSpan + k)
      (ch.flatMap fun b => b.2.zipIdx).foldlM (fun s v => do
        match ← s.slotKey n t 0 v.2 v.1 with
        | .none => .ok s
        | some (key, off) =>
          let rec ← if t.inlined then .ok [] else s.fetch n (t.poolAddr 0 + off) t.recordBytes
          s.spillAppend jid ti n (2 * p) (t.spillRecord key rec)) s) s
    let s2 ← s1.zero n (t.bucketAddr 0 (p * t.partSpan)) (64 * t.partSpan)
    .ok (s2.modTable jid ti fun t => { t with
      chunks := t.chunks.filter fun x => x.2.2.1 != p
      spilled := insAsc p t.spilled
      partRows := t.partRows.filter (·.1 != p) })

/-- The resident partition with the most rows; ties go to the lowest index (R154). -/
def Table.fullest (t : Table) : Option Nat :=
  (t.partRows.foldl (fun (best : Option (Nat × Nat)) x =>
    match best with
    | .none => some x
    | some y => if y.2 < x.2 || (y.2 == x.2 && x.1 < y.1) then some x else best) .none).map (·.1)

-- INSERT (R140, R143, R154) ---------------------------------------------------------------------------------------------------------------------------

/-- What an attempt to insert comes to. -/
inductive Ins where
  | done (s : State)
  /-- the pool is exhausted -/
  | full
  /-- the chain would exceed LINK_MAX -/
  | long

/-- Write slot `j` of the bucket at `a`. -/
def State.putSlot (s : State) (n a j v : Nat) : Res State := s.poke n (a + 8 * j) (leBytes 8 v)

/-- Put a slot value into the chain of bucket `b`, growing the chain where it is full (R140). -/
def State.putInChain (s : State) (jid ti n c b p v : Nat) : Res Ins :=
  match s.table? jid ti with
  | .none => .ok (.done s)
  | some t => do
    let ch ← s.chainOf n t c b
    match ch.getLast? with
    | .none => .ok .full
    | some (a, slots) =>
      match firstBelow 8 fun j => slots.getD j 0 == 0 with
      | some j => do
        let s1 ← s.putSlot n a j v
        .ok (.done s1)
      | .none =>
        if 1 + t.linkMax ≤ ch.length then .ok .long
        else match t.take c p true 64 with
          | .none => .ok .full
          | some (t', off) => do
            let la := t.poolAddr c + off
            let s1 := s.modTable jid ti fun _ => t'
            let s2 ← s1.poke n la (leBytes 8 (slots.getD 7 0) ++ leBytes 8 v ++ zeros 48)
            let s3 ← s2.putSlot n a 7 (3 * 2 ^ 46 + off / 64)
            .ok (.done s3)

/-- One attempt to insert an entry with record `rec` (none in an INLINE table): the record is written first, then the slot. `counts`: the
copy's rows are counted, which happens in one copy of a REPLICATED table. -/
def State.insertOnce (s : State) (jid ti n c : Nat) (counts : Bool) (h : W64) (key rec : List Byte) : Res Ins :=
  match s.table? jid ti with
  | .none => .ok (.done s)
  | some t =>
    let p := t.partOf h
    let count := fun (x : Ins) => match x with
      | .done s => Ins.done (if counts then s.modTable jid ti fun t =>
          { t with partRows := assocSet p ((assocGet p t.partRows).getD 0 + 1) t.partRows } else s)
      | x => x
    let tag := tagOf h * 2 ^ 48
    if t.inlined then do
      let r ← s.putInChain jid ti n c (t.bucketOf h) p (tag + 2 * 2 ^ 46 + leNat key)
      .ok (count r)
    else match t.take c p false t.recordBytes with
      | .none => .ok .full
      | some (t', off) => do
        let s1 ← (s.modTable jid ti fun _ => t').poke n (t.poolAddr c + off) rec
        let r ← s1.putInChain jid ti n c (t.bucketOf h) p (tag + off / 8 + 1)
        .ok (count r)

/-- Insert an entry, spilling partitions until it fits or stands in its partition's buffer (R154, R155). -/
def State.insert (s : State) (jid ti n c : Nat) (counts : Bool) (h : W64) (key rec : List Byte) : Nat → Res State
  | 0 => .error Config.stHashFull
  | k + 1 =>
    match s.table? jid ti with
    | .none => .ok s
    | some t =>
      let p := t.partOf h
      if t.spilled.contains p then s.spillAppend jid ti n (2 * p) (t.spillRecord key rec)
      else do
        match ← s.insertOnce jid ti n c counts h key rec with
        | .done s1 => .ok s1
        | .full =>
          match t.fullest with
          | some q =>
            if t.dynSpill && t.mode == 0 then do
              let s1 ← s.spillPart jid ti n q
              s1.insert jid ti n c counts h key rec k
            else .error Config.stHashFull
          | .none => .error Config.stHashFull
        | .long =>
          if t.dynSpill && t.mode == 0 then do
            let s1 ← s.spillPart jid ti n p
            s1.insert jid ti n c counts h key rec k
          else .error Config.stHashFull

-- PARAMETERS (R151) ---------------------------------------------------------------------------------------------------------------------------------

def hpOp (p : List Byte) : Nat := byteAt p 0
def hpTable (p : List Byte) : Nat := byteAt p 1
def hpKeys (p : List Byte) : List KeyEntry := keyEntries p (byteAt p 2)
/-- Payload entries: column or field index, and bytes. -/
def hpPay (p : List Byte) : List (Nat × Nat) :=
  (paramEntries p (16 + 4 * byteAt p 2) (byteAt p 3)).map fun e => (byteAt e 0, byteAt e 1)
/-- Aggregate entries: FUNC and column. -/
def hpAggs (p : List Byte) : List (Nat × Nat) :=
  (paramEntries p (16 + 4 * (byteAt p 2 + byteAt p 3)) (byteAt p 4)).map fun e => (byteAt e 0, byteAt e 1)
def hpFanout (p : List Byte) : Nat := byteAt p 5
def hpNullAware (p : List Byte) : Bool := bit (byteAt p 6) 0

/-- A payload field takes 8 bytes, or 16 (R141). -/
def payField (bytes : Nat) : Nat := if bytes = 16 then 16 else 8

/-- The size of an aggregate field (R148). -/
def aggSize (func : Nat) : Nat := match func with | 3 => 16 | 4 => 24 | _ => 8

/-- The offsets of group fields from offset `o`, none crossing a 64-byte boundary (R141). -/
def aggOffsets : Nat → List Nat → List Nat
  | _, [] => []
  | o, w :: ws =>
    let o' := if o / 64 ≠ (o + w - 1) / 64 then alignUp 64 o else o
    o' :: aggOffsets (o' + w) ws

/-- The first field of a record (R141). -/
def Table.fieldsAt (t : Table) : Nat := 8 + alignUp 8 t.keyBytes

-- BUILD (R143) -----------------------------------------------------------------------------------------------------------------------------------------

/-- The record of a build row (R141). -/
def Table.buildRecord (t : Table) (key : List Byte) (pay : List (Option (List Byte) × Nat)) : List Byte :=
  let nulls := bitmap ((List.range pay.length).filter fun k => ((pay.getD k (none, 0)).1).isNone)
  leBytes 8 nulls ++ fit (alignUp 8 t.keyBytes) key ++ pay.flatMap fun p => fit (payField p.2) ((p.1.getD []).take p.2)

/-- Payload columns: a fixed-width lane no narrower than BYTES. -/
def payColumns (cols : List Column) (ps : List (Nat × Nat)) : Res (List (Column × Nat)) :=
  ps.mapM fun p =>
    match cols[p.1]? with
    | none => .error Config.stInvalidField
    | some c => if !c.str && p.2 ≤ c.lane then .ok (c, p.2) else .error Config.stInvalidField

/-- Fuel that covers every spill of one insert. -/
def Table.tries (t : Table) : Nat := t.parts + 2

/-- Insert row `i` (R143). -/
def State.buildRow (s : State) (jid ti n c : Nat) (counts : Bool) (keys pay : List (Column × Nat)) (i : Nat) : Res State :=
  match s.table? jid ti with
  | .none => .ok s
  | some t =>
    if rowKeyNull keys i then
      .ok (if counts then s.modTable jid ti fun t => { t with nullKeys := t.nullKeys + 1 } else s)
    else do
      let key := rowKey keys i
      let h := tableHash key t.seed
      let dup ← if t.unique && !t.spilled.contains (t.partOf h) then s.findKey n t c h key else .ok []
      need (dup = []) Config.stHashDupKey
      s.insert jid ti n c counts h key (t.buildRecord key (pay.map fun p => (p.1.cells.getD i none, p.2))) t.tries

-- GROUP (R148) -------------------------------------------------------------------------------------------------------------------------------------------

/-- The aggregate columns fit their functions (R148). -/
def aggFits (func : Nat) (c : Option Column) : Bool :=
  match func, c with
  | 0x01, _ => true
  | _, none => false
  | 0x02, some _ => true
  | 0x03, some c => !c.str && c.lane ≤ 8
  | 0x04, some c => !c.str && c.lane == 16
  | _, some c => !c.str && c.lane == 8

/-- Update field bytes `old` of a function by a non-null value; `seen` is its AGG_SEEN bit. -/
def aggUpdate (func : Nat) (seen : Bool) (old v : List Byte) : List Byte :=
  match func with
  | 0x03 => leBytes 16 (ucode 128 (sint 128 (leNat old) + sint (8 * v.length) (leNat v)))
  | 0x04 => leBytes 24 (ucode 192 (sint 192 (leNat old) + sint 128 (leNat v)))
  | 0x05 => leBytes 8 (if seen then min (leNat old) (leNat v) else leNat v)
  | 0x06 => leBytes 8 (if seen then max (leNat old) (leNat v) else leNat v)
  | _ => leBytes 8 (leNat old + 1)

/-- A group record after row `i` (R148). -/
def groupUpdate (cols : List Column) (aggs : List (Nat × Nat)) (offs : List Nat) (rec : List Byte) (i : Nat) : List Byte :=
  (aggs.zip offs).zipIdx.foldl (fun rec x =>
    let func := x.1.1.1
    let w := aggSize func
    let old := slice rec x.1.2 w
    let seen := bit (byteAt rec 0) x.2
    let mark := fun (r : List Byte) => patch r 0 [BitVec.ofNat 8 (byteAt r 0) ||| (1#8 <<< x.2)]
    if func = 0x01 then mark (patch rec x.1.2 (aggUpdate func seen old []))
    else match (cols[x.1.1.2]?).bind fun c => c.cells.getD i none with
      | none => rec
      | some v => mark (patch rec x.1.2 (aggUpdate func seen old v))) rec

/-- Find or insert the group of row `i`, and update it (R148). -/
def State.groupRow (s : State) (jid ti n : Nat) (cols : List Column) (keys : List (Column × Nat)) (aggs : List (Nat × Nat))
    (i : Nat) : Res State :=
  match s.table? jid ti with
  | .none => .ok s
  | some t => do
    let key := nullMask keys i :: rowKey keys i
    let h := tableHash key t.seed
    let offs := aggOffsets t.fieldsAt (aggs.map fun a => aggSize a.1)
    let fresh := fit t.recordBytes (zeros 8 ++ key)
    if t.spilled.contains (t.partOf h) then
      s.spillAppend jid ti n (2 * t.partOf h) (t.spillRecord key (groupUpdate cols aggs offs fresh i))
    else
      match ← s.findKey n t 0 h key with
      | off :: _ => do
        let rec ← s.fetch n (t.poolAddr 0 + off) t.recordBytes
        s.poke n (t.poolAddr 0 + off) (groupUpdate cols aggs offs rec i)
      | [] => s.insert jid ti n 0 true h key (groupUpdate cols aggs offs fresh i) t.tries

-- PROBE (R147) ---------------------------------------------------------------------------------------------------------------------------------------------

/-- The kinds of probe. -/
inductive ProbeOp where
  | inner | left | semi | anti
  deriving DecidableEq

/-- The offset of build payload field `k` in a record, given the fields' bytes. -/
def Table.payAt (t : Table) (sizes : List Nat) (k : Nat) : Nat := t.fieldsAt + ((sizes.take k).map payField).sum

/-- The payload of a record: a null field's bit is set in the header (R141). -/
def recordPay (t : Table) (sizes : List Nat) (rec : List Byte) (p : Nat × Nat) : Option (List Byte) :=
  if bit (byteAt rec 0) p.1 then none else some (slice rec (t.payAt sizes p.1) p.2)

/-- The record of a spilled probe row: H, its lanes padded to 8 bytes, its validity bytes padded to 8 (R153). -/
def probeSpill (h : W64) (cols : List Column) (i : Nat) : List Byte :=
  leBytes 8 h.toNat ++
  cols.flatMap (fun c => fit (alignUp 8 c.lane) ((c.cells.getD i none).getD [])) ++
  fit (alignUp 8 (ceilDiv cols.length 8))
    (leBytes (ceilDiv cols.length 8) (bitmap ((List.range cols.length).filter fun k => match cols[k]? with
      | none => false
      | some c => (c.cells.getD i none).isSome)))

/-- What probing adds: the output rows, each an input row with the record it matched, or none. -/
abbrev ProbeOut := List (Nat × Option (List Byte))

/-- Probe row `i`: a spilled partition takes the row into its buffer, else the rows that it emits (R147, R155). The order among several
matches is a free one. -/
def State.probeRow (s : State) (jid ti n c : Nat) (op : ProbeOp) (nullAware : Bool) (cols : List Column)
    (keys : List (Column × Nat)) (i : Nat) : Res (State × ProbeOut) :=
  match s.table? jid ti with
  | .none => .ok (s, [])
  | some t => do
    let isNull := rowKeyNull keys i
    let key := rowKey keys i
    let h := tableHash key t.seed
    if !isNull && t.spilled.contains (t.partOf h) then do
      let s1 ← s.spillAppend jid ti n (2 * t.partOf h + 1) (probeSpill h cols i)
      .ok (s1, [])
    else do
      let offs ← if isNull then .ok [] else s.findKey n t c h key
      let ranked := sortBy (fun a b => Config.matchRank s.draw a ≤ Config.matchRank s.draw b) offs
      let recs ← if t.inlined then .ok (ranked.map fun _ => []) else
        ranked.mapM fun o => s.fetch n (t.poolAddr c + o) t.recordBytes
      let out := match op with
        | .inner => recs.map fun r => (i, some r)
        | .left => if recs = [] then [(i, none)] else recs.map fun r => (i, some r)
        | .semi => if recs = [] then [] else [(i, none)]
        | .anti =>
          if recs ≠ [] then []
          else if nullAware && (t.nullKeys != 0 || (isNull && !t.bare)) then []
          else [(i, none)]
      .ok (s.drawn, out)

/-- The output columns of a probe: the probe row's, then the payload that it names; a missing record gives null payload. -/
def probeColumns (t : Table) (sizes : List Nat) (cols : List Column) (pay : List (Nat × Nat)) (out : ProbeOut) : List Column :=
  (cols.map fun c => c.pick (out.map (·.1))) ++
  pay.map fun p =>
    { ltype := 1 + Config.payloadMeta p.1 0 % 14, form := Config.payloadMeta p.1 1 % 2, lane := p.2
      scale := Config.payloadMeta p.1 2 % 39, dict := (0, 0)
      cells := out.map fun o => o.2.bind fun rec => recordPay t sizes rec p }

-- DRAIN (R150) ------------------------------------------------------------------------------------------------------------------------------------------------

/-- Buckets that one drain morsel covers. -/
def drainBuckets : Nat := 8192

/-- The records of the groups of buckets from `b0`: bucket order, then chain and slot order. -/
def State.groupsOf (s : State) (n : Nat) (t : Table) (b0 k : Nat) : Res (List (List Byte)) := do
  let ls ← ((List.range k).filter fun i => b0 + i < t.buckets).mapM fun i => do
    let ch ← s.chainOf n t 0 (b0 + i)
    (ch.flatMap fun b => b.2.zipIdx).foldlM (fun l v => do
      match ← s.slotKey n t 0 v.2 v.1 with
      | .none => .ok l
      | some (_, off) => do
        let rec ← s.fetch n (t.poolAddr 0 + off) t.recordBytes
        .ok (l ++ [rec])) []
  .ok ls.flatten

/-- The output cell of an aggregate; a SUM128 total past 128 bits fails the job (R150). -/
def aggCell (rec : List Byte) (func off k : Nat) : Res (Option (List Byte)) :=
  let seen := bit (byteAt rec 0) k
  let v := slice rec off (aggSize func)
  match func with
  | 0x01 | 0x02 => .ok (some v)
  | 0x04 =>
    let x := sint 192 (leNat v)
    if !seen then .ok none
    else if x < -(2 ^ 127 : Nat) ∨ (2 ^ 127 : Nat) ≤ x then .error Config.stArithOverflow
    else .ok (some (leBytes 16 (ucode 128 x)))
  | _ => .ok (if seen then some v else none)

/-- The output columns of group records (R150). -/
def drainColumns (t : Table) (keys : List KeyEntry) (aggs : List (Nat × Nat)) (recs : List (List Byte)) : Res (List Column) := do
  let lay := t.layout.getD []
  let blank : Column := { ltype := 0x09, form := 0, lane := 8, scale := 0, dict := (0, 0), cells := [] }
  let starts := (List.range keys.length).map fun k => 9 + ((keys.take k).map (·.bytes)).sum
  let keyCols := (keys.zip starts).zipIdx.map fun x =>
    { (lay.getD x.1.1.col blank) with
      lane := x.1.1.bytes
      cells := recs.map fun r => if bit (byteAt r 8) x.2 then none else some (slice r x.1.2 x.1.1.bytes) }
  let offs := aggOffsets t.fieldsAt (aggs.map fun a => aggSize a.1)
  let aggCols ← (aggs.zip offs).zipIdx.mapM fun x => do
    let cells ← recs.mapM fun r => aggCell r x.1.1.1 x.1.2 x.2
    let like := lay.getD x.1.1.2 blank
    .ok (match x.1.1.1 with
      | 0x01 | 0x02 => { blank with cells := cells }
      | 0x03 | 0x04 => { blank with ltype := 0x05, lane := 16, cells := cells }
      | _ => { like with lane := 8, cells := cells })
  .ok (keyCols ++ aggCols)

-- WHAT A COMMIT WRITES (R132, R134, R146) ----------------------------------------------------------------------------------------------------------------------

/-- One entry of the partition array of copy `c` (R134). -/
def Table.partEntry (t : Table) (c p : Nat) : List Byte :=
  let spilled := t.spilled.contains p
  let rows := if spilled then t.spillRows (2 * p) else (assocGet p t.partRows).getD 0
  let chunks := (t.chunks.filter fun x => x.1 == c && x.2.2.1 == p).length
  leBytes 8 (rows + if spilled then 2 ^ 63 else 0) ++ leBytes 2 (min chunks 0xFFFF) ++ zeros 6

/-- STATE of a table descriptor. -/
def tableBuilding : Nat := 1
def tableSealed : Nat := 2
def tableInvalid : Nat := 3

/-- Write STATE into a descriptor; an unwritable page is left. -/
def State.putTableState (s : State) (n : Nat) (t : Table) (st : Nat) : State := (s.writeInst n t.addr (leBytes 1 st)).getD s

/-- The copies of a table that a job uses. -/
def Table.copies (t : Table) (dies : List Nat) : List Nat := if t.mode = 1 then dies else [0]

/-- The commit of a job that built a table: the partition arrays, the counts and STATE = SEALED. -/
def State.commitTable (s : State) (n : Nat) (dies : List Nat) (t : Table) : State :=
  let s1 := (t.copies dies).foldl (fun s c =>
    (s.writeInst n (t.partAddr c) ((List.range t.parts).flatMap fun p => t.partEntry c p)).getD s) s
  let counts := leBytes 8 t.held ++ leBytes 4 t.linksUsed ++ leBytes 2 t.spilled.length
  let s2 := (s1.writeInst n (t.addr + 0x28) counts).getD s1
  ((s2.writeInst n (t.addr + 0x38) (leBytes 8 t.nullKeys)).getD s2).putTableState n t tableSealed

end Sys2Proof.Machine
end

