-- ==== Sys2Proof/Machine/MergeNet.lean ====
section
/-!
DEFINITION. The Merge Network: records and keys (R160 to R162), the merge area (R164), ingest, merges, the final merge and top-N (R165 to
R168).
-/

namespace Sys2Proof.Machine

-- PARAMETERS (R159) ------------------------------------------------------------------------------------------------------------------

def mnOp (p : List Byte) : Nat := byteAt p 0
def mnCols (p : List Byte) : Nat := byteAt p 1
def mnKeys (p : List Byte) : Nat := byteAt p 2
def mnFan (p : List Byte) : Nat := byteAt p 3
def mnLimit (p : List Byte) : Nat := field p 4 4
def mnArea (p : List Byte) : Nat := byteAt p 8
/-- Column `c` of the input, and its KEY_FLAGS. -/
def mnEntry (p : List Byte) (c : Nat) : Nat × Nat := (byteAt p (16 + 4 * c), byteAt p (17 + 4 * c))

-- RECORDS (R160, R164) -----------------------------------------------------------------------------------------------------------------

/-- The record columns of a morsel. -/
def mnColumns (p : List Byte) (cols : List Column) : Res (List Column) :=
  (List.range (mnCols p)).mapM fun c =>
    match cols[(mnEntry p c).1]? with
    | none => .error Config.stInvalidField
    | some x => .ok x

/-- A type whose VALUE lanes are not a key (R160). -/
def signedType (ty : Nat) : Bool := (1 ≤ ty && ty ≤ 5) || (0x0B ≤ ty && ty ≤ 0x0E)

/-- The rules of R160 on a morsel's record columns. -/
def mnColumnsOk (p : List Byte) (cols : List Column) : Bool :=
  cols.all (fun c => !strType c.ltype) &&
  decide ((cols.map (·.lane)).sum ≤ 64) && decide (((cols.take (mnKeys p)).map (·.lane)).sum ≤ 32) &&
  (cols.take (mnKeys p)).all fun c => !(c.form == 0 && signedType c.ltype) && c.form != 2 && c.form != 4

/-- Type, form and lane of the record columns. -/
def mnShape (cols : List Column) : List (Nat × Nat × Nat) := cols.map fun c => (c.ltype, c.form, c.lane)

/-- RECORD_BYTES and the entry length E (R160, R164). -/
def recordLen (cols : List Column) : Nat := (cols.map (·.lane)).sum
def entryLen (cols : List Column) : Nat := alignUp 8 (recordLen cols + 9)

/-- The entry of row `i` (R164). -/
def mnRecord (cols : List Column) (q i : Nat) : List Byte :=
  let nulls := bitmap ((List.range cols.length).filter fun c => match cols[c]? with
    | none => false
    | some x => (x.cells.getD i none).isNone)
  fit (entryLen cols) (leBytes 8 (q * 65536 + i) ++ cols.flatMap (fun c => fit c.lane ((c.cells.getD i none).getD [])) ++ leBytes 1 nulls)

/-- The cells of an entry. -/
def entryCells (lay : List Column) (e : List Byte) : List (Option (List Byte)) :=
  let nulls := byteAt e (8 + recordLen lay)
  let offs := (List.range lay.length).map fun k => 8 + ((lay.take k).map (·.lane)).sum
  (lay.zip offs).zipIdx.map fun x => if bit nulls x.2 then none else some (slice e x.1.2 x.1.1.lane)

-- ORDER (R161, R162) --------------------------------------------------------------------------------------------------------------------------

/-- Compare two cells of a key column: −1, 0 or 1. -/
def cellOrder (flags : Nat) (a b : Option (List Byte)) : Int :=
  match a, b with
  | none, none => 0
  | none, some _ => if bit flags 1 then 1 else -1
  | some _, none => if bit flags 1 then -1 else 1
  | some x, some y =>
    let o : Int := if leNat x < leNat y then -1 else if leNat y < leNat x then 1 else 0
    if bit flags 0 then -o else o

/-- Compare the keys of two entries, column by column. -/
def keyOrder (p : List Byte) (a b : List (Option (List Byte))) : Int :=
  ((a.zip b).take (mnKeys p)).zipIdx.foldl (fun o x => if o = 0 then cellOrder (mnEntry p x.2).2 x.1.1 x.1.2 else o) 0

/-- Entry `a` leaves before entry `b`: keys, then ORIGIN. -/
def entryBefore (p : List Byte) (lay : List Column) (a b : List Byte) : Bool :=
  match keyOrder p (entryCells lay a) (entryCells lay b) with
  | 0 => field a 0 8 < field b 0 8
  | o => o < 0

/-- The keys of a morsel never decrease. -/
def entriesSorted (p : List Byte) (lay : List Column) : List (List Byte) → Bool
  | a :: b :: t => decide (keyOrder p (entryCells lay a) (entryCells lay b) ≤ 0) && entriesSorted p lay (b :: t)
  | _ => true

-- THE AREA (R164) ----------------------------------------------------------------------------------------------------------------------------------

def State.area? (s : State) (jid ai : Nat) : Option Area := (s.job? jid).bind (·.areas[ai]?)

def State.modArea (s : State) (jid ai : Nat) (f : Area → Area) : State :=
  s.modJob jid fun j => { j with areas := j.areas.modify ai f }

/-- The runs that hold chunks. -/
def Area.allRuns (a : Area) : List Run :=
  a.runs ++ match a.merging with
    | none => []
    | some m => m.ins ++ m.out.toList

/-- A chunk holds an entry of some run, one of `more`, or none. -/
def Area.inUse (a : Area) (more : List Nat) (k : Nat) : Bool :=
  (more ++ a.allRuns.flatMap (·.entries)).any fun o => o / 65536 == k

/-- Where the next entry of a run whose entries are `run` goes: after its last one in the chunk, else the lowest free chunk. -/
def Area.nextEntry (a : Area) (len : Nat) (run : List Nat) : Option Nat :=
  let fresh := (firstBelow (a.bytes / 65536) fun k => !a.inUse run k).map (· * 65536)
  match run.getLast? with
  | none => fresh
  | some o => if o % 65536 + 2 * len ≤ 65536 then some (o + len) else fresh

/-- Write entries as one run, after the entries `run` that it has: the offsets (R164). -/
def State.writeRun (s : State) (n : Nat) (a : Area) (len : Nat) : List Nat → List (List Byte) → Res (State × List Nat)
  | run, [] => .ok (s, run)
  | run, e :: es =>
    match a.nextEntry len run with
    | none => .error Config.stSortAreaFull
    | some o => do
      let t ← s.poke n (a.addr + o) e
      t.writeRun n a len (run ++ [o]) es

/-- Check a morsel against R160, and keep its layout when it is the first. -/
def State.mnLayout (s : State) (jid ai : Nat) (p : List Byte) (cols : List Column) : Res State :=
  match s.area? jid ai with
  | none => .ok s
  | some a => do
    need (mnColumnsOk p cols) Config.stInvalidField
    match a.layout with
    | none => .ok (s.modArea jid ai fun a => { a with layout := some (cols.map (·.pick [])) })
    | some lay => do
      need (mnShape lay == mnShape cols) Config.stInvalidField
      .ok s

-- INGEST (R165, R168) ------------------------------------------------------------------------------------------------------------------------------------

/-- The entries of an input morsel, which must be sorted. -/
def State.ingestEntries (s : State) (m : Morsel) (p : List Byte) : Res (State × List Column × List (List Byte)) := do
  let all ← s.selectedColumns m.inst m.desc
  let cols ← mnColumns p all
  let s1 ← s.mnLayout m.jid (mnArea p) p cols
  let rows := match cols.head? with | none => 0 | some c => c.cells.length
  let es := (List.range rows).map (mnRecord cols m.seq)
  need (entriesSorted p cols es) Config.stSortOrder
  .ok (s1, cols, es)

/-- SORT: an input morsel becomes a level-0 run. -/
def State.sortIngest (s : State) (m : Morsel) (p : List Byte) : Res State := do
  let x ← s.ingestEntries m p
  match x.1.area? m.jid (mnArea p) with
  | none => .ok x.1
  | some a =>
    if x.2.2 = [] then .ok x.1
    else do
      let y ← x.1.writeRun m.inst a (entryLen x.2.1) [] x.2.2
      .ok (y.1.modArea m.jid (mnArea p) fun a => { a with runs := a.runs ++ [{ level := 0, origin := m.seq, entries := y.2 }] })

/-- The entries at offsets of an area. -/
def State.readEntries (s : State) (n : Nat) (a : Area) (len : Nat) (os : List Nat) : Res (List (List Byte)) :=
  os.mapM fun o => s.fetch n (a.addr + o) len

/-- TOPN: the first LIMIT records of the morsel, merged with the result run, of which the first LIMIT stay. -/
def State.topnIngest (s : State) (m : Morsel) (p : List Byte) : Res State := do
  let x ← s.ingestEntries m p
  match x.1.area? m.jid (mnArea p) with
  | none => .ok x.1
  | some a =>
    if x.2.2 = [] then .ok x.1
    else do
      let len := entryLen x.2.1
      let old ← x.1.readEntries m.inst a len (a.runs.flatMap (·.entries))
      let all := sortBy (fun e f => !entryBefore p x.2.1 f e) (old ++ x.2.2.take (mnLimit p))
      let y ← x.1.writeRun m.inst a len [] (all.take (mnLimit p))
      .ok (y.1.modArea m.jid (mnArea p) fun a => { a with runs := [{ level := 0, origin := 0, entries := y.2 }] })

-- MERGES (R165, R166) ---------------------------------------------------------------------------------------------------------------------------------------

/-- The least head among runs: its run's position, and the entry. -/
def State.leastHead (s : State) (n : Nat) (a : Area) (p : List Byte) (lay : List Column) (ins : List Run) :
    Res (Option (Nat × List Byte)) :=
  ins.zipIdx.foldlM (fun best r =>
    match r.1.entries.head? with
    | none => .ok best
    | some o => do
      let e ← s.fetch n (a.addr + o) (entryLen lay)
      match best with
      | none => .ok (some (r.2, e))
      | some b => .ok (if entryBefore p lay e b.2 then some (r.2, e) else best)) none

/-- Take the next `k` records of the merge in progress, into its run or for the output flow: the records taken. -/
def State.mergeTake (s : State) (jid n : Nat) (p : List Byte) : Nat → Res (State × List (List Byte))
  | 0 => .ok (s, [])
  | k + 1 =>
    match s.area? jid (mnArea p) with
    | none => .ok (s, [])
    | some a =>
      match a.merging with
      | none => .ok (s, [])
      | some mg => do
        let lay := a.layout.getD []
        match ← s.leastHead n a p lay mg.ins with
        | none => .ok (s, [])
        | some (i, e) =>
          let ins := mg.ins.modify i fun r => { r with entries := r.entries.drop 1 }
          let a1 := { a with merging := some { mg with ins := ins } }
          match mg.out with
          | none => do
            let rest ← (s.modArea jid (mnArea p) fun _ => a1).mergeTake jid n p k
            .ok (rest.1, e :: rest.2)
          | some run => do
            let y ← s.writeRun n a1 (entryLen lay) run.entries [e]
            let a2 := { a with merging := some { ins := ins, out := some { run with entries := y.2 } } }
            let rest ← (y.1.modArea jid (mnArea p) fun _ => a2).mergeTake jid n p k
            .ok (rest.1, e :: rest.2)

/-- The merge in progress has read every entry. -/
def Merging.exhausted (m : Merging) : Bool := m.ins.all (·.entries == [])

/-- The output columns of merged records. -/
def mergedColumns (lay : List Column) (es : List (List Byte)) : List Column :=
  lay.zipIdx.map fun c => { c.1 with cells := es.map fun e => (entryCells lay e).getD c.2 none }

/-- The first FAN_IN runs of the lowest level that has as many (R165). -/
def Area.fullLevel (a : Area) (fan : Nat) : Option (List Run) :=
  match (sortBy (· ≤ ·) (a.runs.map (·.level))).find? fun l => fan ≤ (a.runs.filter (·.level == l)).length with
  | none => none
  | some l => some ((a.runs.filter (·.level == l)).take fan)

/-- The smallest runs, ties to the lowest first origin (R165). -/
def Area.smallest (a : Area) (k : Nat) : List Run :=
  (sortBy (fun (x y : Run) => x.entries.length < y.entries.length ||
    (x.entries.length == y.entries.length && x.origin ≤ y.origin)) a.runs).take k

/-- Start a merge of runs into one run of the next level. -/
def Area.startMerge (a : Area) (rs : List Run) : Area :=
  let out : Run := { level := (rs.map (·.level)).foldl max 0 + 1, origin := (rs.map (·.origin)).foldl min (2 ^ 48), entries := [] }
  { a with runs := a.runs.filter (fun r => !rs.contains r), merging := some { ins := rs, out := some out } }

/-- Start the merge into the output flow. -/
def Area.startFinal (a : Area) : Area := { a with runs := [], merging := some { ins := a.runs, out := none } }

/-- What the stage starts next: nothing, a merge, or the final merge, when no merge is in progress (R165). -/
def Area.plan (a : Area) (p : List Byte) (ended : Bool) : Area :=
  if a.merging.isSome || a.finished then a
  else if mnOp p = 2 then (if ended then a.startFinal else a)
  else match a.fullLevel (mnFan p) with
    | some rs => a.startMerge rs
    | none =>
      if !ended then a
      else if mnFan p < a.runs.length then a.startMerge (a.smallest (min (a.runs.length - mnFan p + 1) (mnFan p)))
      else a.startFinal

/-- A merge that has read its last entry ends: its run joins the others. -/
def Area.endMerge (a : Area) : Area :=
  match a.merging with
  | none => a
  | some m =>
    if !m.exhausted then a
    else match m.out with
      | some r => { a with merging := none, runs := a.runs ++ [r] }
      | none => { a with merging := none, finished := true }

end Sys2Proof.Machine
end

