-- ==== Sys2Proof/Machine/Settle.lean ====
section
/-!
DEFINITION. The progress of a job's stages: the cut of source morsels (R81, R113, R181), the work that a stage starts by itself (R146, R150,
R165, R459), the end of a stage (R174, R418), and what the completion of a unit's morsel does (R46, R49, R203).
-/

namespace Sys2Proof.Machine

-- STAGES ---------------------------------------------------------------------------------------------------------------------------------

def State.modStage (s : State) (jid i : Nat) (f : StageSt → StageSt) : State :=
  s.modJob jid fun j => { j with stages := j.stages.modify i f }

/-- A stage that the job does not have reads as a finished one. -/
def Job.stageD (j : Job) (i : Nat) : StageSt :=
  j.stages.getD i { group := 0, row := 0, nextSeq := 0, cutDone := true, done := true, serial := [], nextLoad := [] }

/-- The input of a stage has ended: its source is cut, or every producer has finished and every held morsel is released. -/
def Job.inputEnded (j : Job) (i : Nat) (st : Stage) : Bool :=
  if st.source then (j.stageD i).cutDone
  else st.ins.all fun fi =>
    match j.image.flow? fi, j.flows[fi]? with
    | some f, some x => (j.stageD f.producer).done && x.held == []
    | _, _ => true

/-- A stage ends: each ordered output flow is DONE (R171, R174). -/
def State.endStage (s : State) (jid i : Nat) (st : Stage) : State :=
  st.outs.foldl (fun s fi => s.modFlow jid fi fun f => ({ f with done := true } : FlowSt).settled)
    (s.modStage jid i fun x => { x with done := true })

/-- The input list of a source stage: the i-th source stage takes list i (R353). -/
def Job.inputOf (j : Job) (i : Nat) : Option InputList :=
  j.inputs[((j.image.stages.take i).filter (·.source)).length]?

/-- The rows that a producer's morsel may hold: for a source, also its own MORSEL_ROWS (R74, R113). -/
def Job.sourceRows (j : Job) (st : Stage) : Nat := min st.rows (j.image.rowLimit st)

-- SOURCES (R113, R181) -------------------------------------------------------------------------------------------------------------------------

/-- The parameter block by which a source's rows are cut; only a Column Streamer has one. -/
def Stage.streamParam (st : Stage) : List Byte := if st.kind = .streamer then st.param else []

/-- A ready source morsel with sequence number `q` at a position. -/
def State.sourceMorsel (s : State) (j : Job) (i : Nat) (st : Stage) (q heap : Nat) (at_ : SrcPos) : Morsel :=
  let desc := if st.kind = .streamer then [] else
    patch (patch (fit (descBytes 1) (Config.sourceDescriptor s.draw)) 8 (leBytes 4 at_.rows)) 0x1C (leBytes 4 at_.row)
  { s.asMorsel j i st none { origin := q, frag := 0, last := true, rows := at_.rows, heap := heap, desc := desc, bufs := [] } q with
    src := some at_ }

/-- Cut one morsel of source stage `i`, if its die has room; none when nothing is cut. -/
def State.cutOne (s : State) (jid i : Nat) : Option State :=
  match s.job? jid with
  | none => none
  | some j =>
    match j.image.stage? i, j.inputOf i with
    | some st, some l =>
      let x := j.stageD i
      if x.cutDone then none
      else if l.groups ≤ x.group then some (s.modStage jid i fun x => { x with cutDone := true })
      else
        match s.cutGroup j.inst j.strictLen l st.streamParam (j.sourceRows st) (j.image.heapLimit st) x.group x.row with
        | .none => some (s.modStage jid i fun x => { x with group := x.group + 1, row := 0 })
        | .morsel rows heap last =>
          let d := s.groupDie j.inst l j.dieSet x.group
          let ready := (s.dieD d).readyOf j.inst
          if s.settings.sourceAhead ≤ (ready.filter fun m => m.jid == jid && m.stage == i).length then none
          else if (s.instD j.inst).alloc.readyLimit ≤ ready.length then none
          else if 2 ^ 48 ≤ x.nextSeq then
            some ((s.modStage jid i fun x => { x with cutDone := true }).failPart jid d i Config.stBoundExceeded [])
          else
            let m := s.sourceMorsel j i st x.nextSeq heap { group := x.group, row := x.row, rows := rows, last := last }
            some (({ s.drawn with nextMid := s.nextMid + 1 }.enqueue d m).modStage jid i fun x => { x with
              nextSeq := x.nextSeq + 1
              group := if last then x.group + 1 else x.group
              row := if last then 0 else x.row + rows })
    | _, _ => none

/-- Cut until nothing more is cut. -/
def State.cutAll (s : State) (jid i : Nat) : Nat → State
  | 0 => s
  | k + 1 =>
    match s.cutOne jid i with
    | none => s
    | some t => t.cutAll jid i k

/-- Enough steps to fill every die and to pass every empty group. -/
def Job.cutFuel (s : State) (j : Job) (i : Nat) : Nat :=
  8 * s.settings.sourceAhead + 1 + match j.inputOf i with | none => 0 | some l => l.groups

-- WORK THAT A STAGE STARTS BY ITSELF ---------------------------------------------------------------------------------------------------------------

/-- The die of the die set that homes an instance address, or the first of the set. -/
def State.homeDie (s : State) (j : Job) (a : Nat) : Nat :=
  match s.translate j.inst a with
  | some (_, .rlm dev) => if j.dieSet.contains (devDie dev) then devDie dev else j.dieSet.headD 0
  | _ => j.dieSet.headD 0

/-- A morsel of a kind of its own joins the ready list of a die. -/
def State.spawn (s : State) (j : Job) (i : Nat) (st : Stage) (d rows origin : Nat) (k : MKind) : State :=
  let m := s.asMorsel j i st none { origin := origin, frag := 0, last := true, rows := rows, heap := 0, desc := [], bufs := [] } origin
  { s with nextMid := s.nextMid + 1 }.enqueue d { m with kind := k, desc := [] }

/-- Morsels of stage `i` that some test picks. -/
def State.stageHas (s : State) (jid i : Nat) (p : MKind → Bool) : Bool :=
  (s.jobMorsels jid).any fun m => m.stage == i && p m.kind

def MKind.merging : MKind → Bool
  | .merge | .final => true
  | _ => false

/-- A Merge Network stage: start what R165 gives next, and put its morsel on the ready list of the die that homes the area (R165, R166,
R168). -/
def State.settleMerge (s : State) (j : Job) (i : Nat) (st : Stage) : State :=
  let ai := mnArea st.param
  match j.areas[ai]? with
  | none => s
  | some a =>
    if s.stageHas j.jid i MKind.merging then s
    else
      let ended := j.inputEnded i st && !s.stageLive j.jid i
      let a1 := a.plan st.param ended
      let s1 := s.modArea j.jid ai fun _ => a1
      match a1.merging with
      | some mg =>
        let left := (mg.ins.map (·.entries.length)).sum
        let d := if st.placement = 3 then j.dieSet.headD 0 else s.homeDie j a.addr
        s1.spawn j i st d (if mnOp st.param = 2 then left else min st.rows left) 0 (if mg.out.isSome then .merge else .final)
      | none => if a1.finished && ended then s1.endStage j.jid i st else s1

/-- A GROUP stage whose input has ended: its table is sealed, and its drain morsels go to the dies that home their buckets (R146, R150). -/
def State.settleGroup (s : State) (j : Job) (i : Nat) (st : Stage) : State :=
  let ti := hpTable st.param
  match j.tables[ti]? with
  | none => s
  | some t =>
    if !(j.inputEnded i st) || s.stageLive j.jid i then s
    else if t.drained then s.endStage j.jid i st
    else (List.range (ceilDiv t.buckets drainBuckets)).foldl
      (fun s k => s.spawn j i st (s.homeDie j (t.bucketAddr 0 (drainBuckets * k))) st.maxRows k (.drain k))
      (s.modTable j.jid ti fun t => { t with sealed := true, drained := true })

/-- A STREAM digest whose input has ended writes the digest and 32 zero bytes to its result buffer (R459). -/
def State.endStream (s : State) (j : Job) (i : Nat) (st : Stage) : State :=
  let d := j.dieSet.headD 0
  let ctx := (s.dieD d).ctxOf (.stage j.jid i)
  let sha := match ctx with
    | none => shaInit
    | some c => ((s.dieD d).ctxs.getD c Ctx.reset).sha
  let s1 := match ctx with
    | none => s
    | some c => s.releaseCtx d c
  let done := match j.results.find? (·.stage == i) with
    | none => s1
    | some r =>
      if r.bytes < 64 then s1.failPart j.jid d i Config.stMemFault []
      else match s1.writeInst j.inst r.addr (shaFinal sha ++ zeros 32) with
        | none => s1.failPart j.jid d i Config.stMemFault []
        | some t => t.modResult j.jid i fun r => { r with off := 32 }
  done.endStage j.jid i st

/-- The input of an exchange stage has ended: each destination's last wire morsel closes with SOURCE_DONE (R418). -/
def State.closeWires (s : State) (j : Job) (i : Nat) : State :=
  let D := j.dist.getD (Dist.alone (s.fabric.deviceIdActive.getD 0xFFFF))
  let shape := (D.wireOut.find? (·.stage == i)).elim [] (·.cols.map (·.pick []))
  let D1 := (List.range j.partCount).foldl (fun (D : Dist) dest =>
    let here := fun (w : WireOut) => w.stage == i && w.dest == dest && !w.closed
    if D.wireOut.any here then { D with wireOut := D.wireOut.map fun w => if here w then s.closeWire j true w else w }
    else
      let p := D.freshWire i dest shape
      { p.1 with wireOut := p.1.wireOut ++ [s.closeWire j true p.2] }) D
  s.modJob j.jid fun j => { j with dist := some { D1 with ended := i :: D1.ended } }

/-- SOURCE_DONE of an exchange stage has arrived from every participant, and nothing that it brought still waits (R418). -/
def Job.exchangeDone (s : State) (j : Job) (i : Nat) : Bool :=
  match j.dist with
  | none => false
  | some D =>
    D.ended.contains i && !(D.wireOut.any fun w => w.stage == i && w.dest == j.selfIndex s) &&
    D.peers.all (·.sourceDone.contains i) && !(D.wireIn.any (·.stage == i))

def State.settleExchange (s : State) (j : Job) (i : Nat) (st : Stage) : State :=
  let s1 := if j.inputEnded i st && !(j.dist.elim false (·.ended.contains i)) then s.closeWires j i else s
  match s1.job? j.jid with
  | none => s1
  | some j1 => if j1.exchangeDone s1 i then s1.endStage j.jid i st else s1

/-- Bring stage `i` of a job up to date. -/
def State.settleStage (s : State) (jid i : Nat) : State :=
  match s.job? jid with
  | none => s
  | some j =>
    if !j.alive || j.state != .running then s
    else match j.image.stage? i with
      | none => s
      | some st =>
        if (j.stageD i).done then s
        else
          let plain := fun (t : State) => if j.inputEnded i st && !s.stageLive jid i then t.endStage jid i st else t
          match st.kind with
          | .merge => s.settleMerge j i st
          | .exchange => s.settleExchange j i st
          | .hash =>
            if hpOp st.param = 6 then s.settleGroup j i st
            else if hpOp st.param = 1 then
              if j.inputEnded i st && !s.stageLive jid i then
                (s.modTable jid (hpTable st.param) fun t => { t with sealed := true }).endStage jid i st
              else s
            else plain s
          | .digest => if byteAt st.param 0 = 2 then (if j.inputEnded i st && !s.stageLive jid i then s.endStream j i st else s) else plain s
          | _ => plain s

/-- Bring a job up to date: cut its sources, and pass over its stages until each end has reached every stage behind it. -/
def State.settle (s : State) (jid : Nat) : State :=
  match s.job? jid with
  | none => s
  | some j =>
    if !j.alive || j.state != .running then s.freeBuffers jid
    else
      let is := List.range j.image.stages.length
      let s1 := is.foldl (fun s i => match j.image.stage? i with
        | none => s
        | some st => if st.source then s.cutAll jid i (j.cutFuel s i) else s) s
      (is.foldl (fun s _ => is.foldl (fun s i => s.settleStage jid i) s) s1).freeBuffers jid

/-- The job has finished every stage on this device, and the root of every result buffer where it asked for digests (R84, R96, R176). -/
def Job.finished (j : Job) : Bool :=
  j.stages.all (·.done) && (!j.resultDigest || j.results.all (·.root.isSome))

-- COMPLETION OF A UNIT'S MORSEL -----------------------------------------------------------------------------------------------------------------------

/-- The code of a unit kind (R70). -/
def kindCode : UnitKind → Nat
  | .streamer => 1
  | .forager => 2
  | .hash => 3
  | .merge => 4
  | .amu => 5
  | .digest => 6
  | .exchange => 7

/-- The kind of the unit with an index of R203. -/
def unitKind (u : Nat) : UnitKind :=
  if u < 4 then .streamer else if u < 12 then .hash else if u = 12 then .merge else if u = 13 then .amu else .digest

/-- A morsel of job `jid` has completed on die `d` (R359). -/
def State.countMorsel (s : State) (jid d : Nat) : State :=
  s.modJob jid fun j => { j with parts := j.parts.map fun p => if p.die = d then { p with morsels := satAdd 32 p.morsels 1 } else p }

/-- The clock runs: the work of a stage on fixed units goes on only while the part is powered with its Comb clocks and the die is
active and not past its fence boundary (R478, R499). -/
def State.unitsLive (s : State) (d : Nat) : Bool :=
  s.power.mainPower && !s.power.perst && s.power.combClocks && (s.dieD d).active && !(s.dieD d).fence.on

/-- Unit `u` lets go of its morsel after `used` cycles: the charge, the bound excess and the busy counts (R46, R49, R196). -/
def State.releaseUnit (s : State) (u : UId) (m : Morsel) : State :=
  let s1 := s.modDie u.die fun d => { d with units := d.units.modify u.unit fun x =>
    { x with
      morsel := none
      busy := x.busy + u.used
      charged := assocSet m.inst (x.chargedTo m.inst - m.bound + u.used) x.charged } }
  let s2 := s1.modInstStat u.die m.inst fun b => { b with
    unitCycles := b.unitCycles.modify (kindCode (unitKind u.unit)) (satAdd 32 · u.used)
    boundExcess := if m.bound < u.used then satAdd 32 b.boundExcess 1 else b.boundExcess }
  let s3 := if m.bound < u.used then
      { s2 with frame := { s2.frame with boundExcessTotal := satAdd 64 s2.frame.boundExcessTotal 1 } }.modStat u.die fun x =>
        { x with boundExcess := satAdd 32 x.boundExcess 1 }
    else s2
  s3

/-- The morsel on a unit belongs to a job in progress, under the generation in force. -/
def State.jobOf (s : State) (m : Morsel) : Option Job := (s.job? m.jid).filter fun j => j.gen == m.gen

/-- A FIXED-UNIT MORSEL COMPLETES: if unit `u` holds a morsel of the kind that the command names, the unit lets go of it, its work is done, or
its job's part fails with the status of the work, and the job's stages move on. A morsel of an older generation is discarded and counted. -/
def completeUnit (u : UId) (is : Stage → Morsel → Bool) (work : State → Job → Stage → Morsel → Res State) (s : State) :
    Host.Outcome State Fault Refusal :=
  match ((s.dieD u.die).units[u.unit]?).bind (·.morsel) with
  | none => .next s
  | some m =>
    if !s.unitsLive u.die then .next s
    else match s.jobOf m with
      | none => .next ((s.releaseUnit u m).staleJob m.inst)
      | some j =>
        match j.image.stage? m.stage with
        | none => .next s
        | some st =>
          if !is st m then .next s
          else
            let s1 := s.releaseUnit u m
            match (work s1 j st m).bind fun t => if st.sink then t.sinkDone m else .ok t with
            | .ok t => .next ((t.countMorsel m.jid u.die).settle m.jid)
            | .error e => .next ((s1.failPart m.jid u.die m.stage e []).settle m.jid)

end Sys2Proof.Machine
end

