-- ==== Sys2Proof/Machine/FgrUnit.lean ====
section
/-!
DEFINITION. The system instructions of the Forager and its attached units: major opcodes 0x34 and 0x70 to 0x7F (R272 to R275, R282, R283,
R454 to R458, R514), and what completes a Forager morsel (R74, R81, R92).
-/

namespace Sys2Proof.Machine

-- THE ASSOCIATIVE MATCH UNIT (R273, R282, R283) ----------------------------------------------------------------------------------------------

/-- The key {G[b][31:0], W[a]}. -/
def FRegs.amuKey (r : FRegs) (x : RegF) : BitVec 160 := ((r.rg x.rb).extractLsb' 0 32 ++ r.rw x.ra : BitVec (32 + 128))

/-- A lookup counts one cycle of the unit, and of the instance where there is one (R282). -/
def State.countLookup (s : State) (d : Nat) (n : Option Nat) : State :=
  let s1 := s.modDie d fun x => { x with units := x.units.modify 13 fun u => { u with busy := u.busy + 1 } }
  match n with
  | none => s1
  | some n => s1.modInstStat d n fun b => { b with unitCycles := b.unitCycles.modify 5 (satAdd 32 · 1) }

/-- AMLK: the region searched is the instance's own on the Forager's die; in a STALE region the lookup fails the job and writes nothing
(R273, R280, R289). -/
def execAmlk (f : FId) (x : RegF) (s : State) : Host.Outcome State Fault Refusal :=
  runFgr f (regWord 0x70 0x00 x) (chk5 (badReg {} x)) (fun s g =>
    match g.morsel with
    | none => (s.countLookup f.die none, .done (g.regs.setG x.rd (BitVec.ofNat 64 amuNoMatch)))
    | some m =>
      if s.amuStale m.inst f.die then (s.failPart m.jid f.die m.stage Config.stAmuState [], .done g.regs)
      else
        let s1 := (s.amuRepair f.die m.inst).countLookup f.die (some m.inst)
        let r := ((s1.dieD f.die).amu.lookup m.inst (g.regs.amuKey x)).elim amuNoMatch (·.1)
        (s1, .done (g.regs.setG x.rd (BitVec.ofNat 64 r)))) s

/-- The checks of AMWR and AMRD: reserved fields, then the mode (R273, R276). -/
def amuPortCheck (x : RegF) (r : FRegs) : Option Nat := firstCause [(badReg {} x, 0x03), (r.mode == 0, 0x08)]

/-- A reserved bit of an image in the shadow layout is 1 (R283, R290). -/
def shadowReserved (img : List Byte) : Bool := byteAt img 0x2C / 4 != 0 || !allZero (slice img 0x30 16)

/-- AMWR: write a physical entry, the shadow first; it waits while the entry's block is being cleared (R281, R283). -/
def execAmwr (f : FId) (x : RegF) (s : State) : Host.Outcome State Fault Refusal :=
  runFgr f (regWord 0x71 0x00 x) (amuPortCheck x) (fun s g =>
    let a := g.regs.rg x.ra
    let i := (g.regs.rg x.rb).toNat
    let code := fun (v : Nat) => FRes.done (g.regs.setG x.rd (BitVec.ofNat 64 v))
    if a.toNat % 64 ≠ 0 then (s, .trap g.regs 0x07 a)
    else if !inLdm a.toNat 64 then (s, .trap g.regs 0x05 a)
    else if 32767 < i then (s, code 1)
    else
      let img := memRead g.ldm a.toNat 64
      if shadowReserved img then (s, code 2)
      else if (s.dieD f.die).amu.clearing i then (s, .wait)
      else (s.amuWrite f.die i (shadowEntry img), code 0)) s

/-- AMRD: read a physical entry into LDM, FAULTED and OWNER as the shadow has them (R283). -/
def execAmrd (f : FId) (x : RegF) (s : State) : Host.Outcome State Fault Refusal :=
  runFgr f (regWord 0x71 0x01 x) (amuPortCheck x) (fun s g =>
    let a := g.regs.rg x.ra
    let i := (g.regs.rg x.rb).toNat
    if a.toNat % 64 ≠ 0 then (s, .trap g.regs 0x07 a)
    else if !inLdm a.toNat 64 then (s, .trap g.regs 0x06 a)
    else if 32767 < i then (s, .done (g.regs.setG x.rd 1))
    else
      let amu := (s.dieD f.die).amu
      let img := shadowBytes (amu.entry i) (bit (byteAt (s.shadow f.die i) 0x2C) 1) (amu.ownerField i)
      (s.modFgr f fun h => { h with ldm := memWrite h.ldm a.toNat img }, .done (g.regs.setG x.rd 0))) s

-- DIGESTS (R274, R454 to R458) -----------------------------------------------------------------------------------------------------------------

/-- The context that a handle names, if the issuing morsel holds it (R457). -/
def State.heldCtx (s : State) (f : FId) (g : Fgr) (h : W64) : Option (Nat × Ctx) :=
  match g.morsel, (s.dieD f.die).ctxs[h.toNat]? with
  | some m, some c => if c.holder = .morsel m.mid then some (h.toNat, c) else none
  | _, _ => none

/-- A handle that the morsel does not hold: the instruction completes without effect and the part fails with INVALID_FIELD (R457). -/
def State.badHandle (s : State) (f : FId) (g : Fgr) : State × FRes :=
  (match g.morsel with
    | none => s
    | some m => s.failPart m.jid f.die m.stage Config.stInvalidField [], .done g.regs)

/-- BUSY (R453). -/
def digestBusy : W64 := 0xFFFFFFFFFFFFFFFF

/-- DGINIT: a free context within the instance's share, or BUSY (R453, R454). -/
def execDginit (f : FId) (x : RegF) (s : State) : Host.Outcome State Fault Refusal :=
  runFgr f (regWord 0x72 0x00 x) (chk5 (badReg { ra := false, rb := false } x)) (fun s g =>
    match g.morsel with
    | none => (s, .done (g.regs.setG x.rd digestBusy))
    | some m =>
      match s.freeCtx f.die m.inst with
      | none => (s, .done (g.regs.setG x.rd digestBusy))
      | some c => (s.openCtx f.die c m.inst (.morsel m.mid), .done (g.regs.setG x.rd (BitVec.ofNat 64 c)))) s

/-- How the taking of bytes ends. -/
inductive TakeEnd where
  | finished
  | fault (a : W64)
  | wait

/-- Take `k` bytes from instance address `a`: the state, the bytes in reverse, and how it ended. -/
def State.takeBytes (s : State) (f : FId) (a : W64) : Nat → List Byte → State × List Byte × TakeEnd
  | 0, bs => (s, bs, .finished)
  | k + 1, bs =>
    match s.fgr? f with
    | none => (s, bs, .finished)
    | some g =>
      match s.fgrRead f g a.toNat 1 with
      | .bad => (s, bs, .fault a)
      | .wait => (s, bs, .wait)
      | .ok b t => t.takeBytes f (a + 1) k (b.headD 0 :: bs)

/-- The charge of compressing `blocks` blocks; none while the instance has no share cycles left on an idle engine (R456). -/
def State.chargeBlocks (s : State) (f : FId) (g : Fgr) (blocks : Nat) : Option State :=
  match g.morsel with
  | none => some s
  | some m => s.digestCharge f.die m.inst blocks

/-- DGUPD: bytes are taken in order, G[RA] advances and G[RB] falls; a fault at a byte keeps what was taken (R454, R456). -/
def execDgupd (f : FId) (x : RegF) (s : State) : Host.Outcome State Fault Refusal :=
  runFgr f (regWord 0x72 0x01 x) (chk5 (badReg {} x)) (fun s g =>
    match s.heldCtx f g (g.regs.rg x.rd) with
    | none => s.badHandle f g
    | some (c, ctx) =>
      let n := (g.regs.rg x.rb).toNat
      if n = 0 then (s, .done g.regs)
      else
        let t := s.takeBytes f (g.regs.rg x.ra) n []
        let k := t.2.1.length
        match t.1.chargeBlocks f g ((ctx.sha.len + k) / 64 - ctx.sha.len / 64) with
        | none => (s, .wait)
        | some s1 =>
          let s2 := s1.setCtx f.die c { ctx with sha := shaUpdate ctx.sha t.2.1.reverse }
          let r := (g.regs.setG x.ra (g.regs.rg x.ra + BitVec.ofNat 64 k)).setG x.rb (g.regs.rg x.rb - BitVec.ofNat 64 k)
          match t.2.2 with
          | .finished => (s2, .done r)
          | .fault a => (s2, .trap r 0x05 a)
          | .wait => (s2.modFgr f fun h => { h with regs := r }, .wait)) s

/-- A digest in Wd and Wd + 1 (R455). -/
def FRegs.setDigest (r : FRegs) (rd : BitVec 5) (d : List Byte) : FRegs :=
  (r.setW rd (BitVec.ofNat 128 (leNat (d.take 16)))).setW (rd + 1) (BitVec.ofNat 128 (leNat (d.drop 16)))

/-- The 32 bytes of Wa and Wa + 1. -/
def FRegs.digest (r : FRegs) (ra : BitVec 5) : List Byte := leBytes 16 (r.rw ra).toNat ++ leBytes 16 (r.rw (ra + 1)).toNat

/-- DGFIN: the digest is written and the context released (R454, R455). -/
def execDgfin (f : FId) (x : RegF) (s : State) : Host.Outcome State Fault Refusal :=
  runFgr f (regWord 0x72 0x02 x) (chk5 (badReg { rb := false } x || x.rd.getLsbD 0)) (fun s g =>
    match s.heldCtx f g (g.regs.rg x.ra) with
    | none => s.badHandle f g
    | some (c, ctx) =>
      match s.chargeBlocks f g (if ctx.sha.len % 64 < 56 then 1 else 2) with
      | none => (s, .wait)
      | some s1 => (s1.releaseCtx f.die c, .done (g.regs.setDigest x.rd (shaFinal ctx.sha)))) s

/-- DGABT (R454). -/
def execDgabt (f : FId) (x : RegF) (s : State) : Host.Outcome State Fault Refusal :=
  runFgr f (regWord 0x72 0x03 x) (chk5 (badReg { rd := false, rb := false } x)) (fun s g =>
    match s.heldCtx f g (g.regs.rg x.ra) with
    | none => s.badHandle f g
    | some (c, _) => (s.releaseCtx f.die c, .done g.regs)) s

/-- DGCMP: Gd receives the pair EQ, EQ_N as the comparators produced it (R274, R458). -/
def execDgcmp (f : FId) (x : RegF) (s : State) : Host.Outcome State Fault Refusal :=
  runFgr f (regWord 0x73 0x00 x) (chk5 (badReg {} x || x.ra.getLsbD 0 || x.rb.getLsbD 0)) (fun s g =>
    let p := s.compareDigests (g.regs.digest x.ra) (g.regs.digest x.rb)
    (p.1, .done (g.regs.setG x.rd (p.2.setWidth 64)))) s

-- THE SADDLE PORT (R275) ----------------------------------------------------------------------------------------------------------------------------

/-- The Saddle site takes operations: it is enabled, and no disable has reached its boundary (R36). -/
def State.saddleTakes (s : State) : Bool := s.saddle.state == 2 && (!s.saddle.disabling || s.saddle.disableNext)

/-- A word with major opcode 0x74 to 0x7F: sent to the customer die when the Saddle is enabled, else cause 0x04. Any other word is no such
command. -/
def execSaddleOp (f : FId) (word : W32) (s : State) : Host.Outcome State Fault Refusal :=
  if word.toNat % 128 < 0x74 then .next s
  else
    runFgr f word (fun _ => if s.saddleTakes then none else some 0x04) (fun s g =>
      let n := g.morsel.elim 0 (·.inst)
      let gen := g.morsel.elim (s.instD 0).gen (·.gen)
      let s1 := s.emit (.saddle word (g.regs.rg (word.extractLsb' 12 5)) (g.regs.rg (word.extractLsb' 17 5)) n gen)
      (({ s1 with saddle := { s1.saddle with inflight := s1.saddle.inflight ++ [({ who := f, inst := n, gen := gen } : SaddleReq)] } } : State).modFgr f fun h =>
        { h with run := .saddle (word.extractLsb' 7 5) }, .wait)) s

-- OUTPUT DESCRIPTORS (R115, R514) -------------------------------------------------------------------------------------------------------------------

/-- The limits of a Forager stage's output: of its consumers, or its own for a sink (R74). -/
def Image.outLimits (im : Image) (st : Stage) : Nat × Nat :=
  if st.outs = [] then (st.rows, st.maxVar) else (im.rowLimit st, im.heapLimit st)

/-- Lane bytes of each column of a descriptor, and whether it holds offsets. -/
def descLanes (d : List Byte) : List (Nat × Bool) :=
  (List.range (descCols d)).map fun k => (byteAt (descCol d k) 0x1C, byteAt (descCol d k) 0x1E == 0 && strType (byteAt (descCol d k) 0x1D))

/-- The bytes of a full output buffer for a descriptor. -/
def outBufferBytes (lim : Nat × Nat) (d : List Byte) : Nat := fullSize lim.1 lim.2 (descLanes d)

/-- An address of a fresh descriptor: one that was 0 stays 0 (R514). -/
def freshAddr (old new : Nat) : Nat := if old = 0 then 0 else new

/-- The column entries of a fresh descriptor over a buffer at `base`: lanes and validity bits column after column, each on a 64-byte boundary,
then the selection vector's room and the heap. -/
def freshEntries (lim : Nat × Nat) (base heapAt : Nat) (d : List Byte) : Nat → Nat → Nat → List Byte
  | _, _, 0 => []
  | off, k, n + 1 =>
    let e := descCol d k
    let lane := byteAt e 0x1C
    let offs := byteAt e 0x1E == 0 && strType (byteAt e 0x1D)
    let v := off + alignUp 64 (lane * (if offs then lim.1 + 1 else lim.1))
    leBytes 8 (freshAddr (field e 0 8) (base + off)) ++ leBytes 8 (freshAddr (field e 8 8) (base + v)) ++
      leBytes 8 (freshAddr (field e 16 8) heapAt) ++ zeros 4 ++ slice e 0x1C 4 ++
      freshEntries lim base heapAt d (v + alignUp 64 (ceilDiv lim.1 8)) (k + 1) n

/-- A fresh output descriptor over a buffer at `base`: SEQ, COLUMN_COUNT, FIRST_ROW and the columns' forms stay (R514). -/
def freshDescriptor (lim : Nat × Nat) (base : Nat) (d : List Byte) : List Byte :=
  let heapAt := base + outBufferBytes lim d - alignUp 64 lim.2 - 64 * descCols d
  slice d 0 8 ++ zeros 4 ++ slice d 0x0C 1 ++ zeros 3 ++ zeros 12 ++ slice d 0x1C 4 ++ freshEntries lim base heapAt d 0 0 (descCols d)

-- MDONE AND MEMIT (R272, R514) -------------------------------------------------------------------------------------------------------------------------

/-- The output descriptor at G2, or the first of its addresses past LDM (R514). -/
def Fgr.outDesc (g : Fgr) : Except W64 (List Byte) :=
  let a := (g.regs.rg 2).toNat
  let past := BitVec.ofNat 64 (max a ldmBytes)
  if !inLdm a 32 then .error past
  else
    let n := descBytes (byteAt (memRead g.ldm a 32) 0x0C)
    if !inLdm a n then .error past else .ok (memRead g.ldm a n)

/-- EMPTY is set on a morsel without rows (R272). -/
def emptied (d : List Byte) : List Byte :=
  if descRows d = 0 then patch d 0x0D (leBytes 1 (descFlags d ||| flagEmpty)) else d

/-- Place the output morsel of morsel `m` as its next fragment; past a limit of R74 the job fails with BOUND_EXCEEDED. -/
def State.placeOut (s : State) (f : FId) (j : Job) (st : Stage) (m : Morsel) (last : Bool) (d : List Byte) : Res State := do
  let lim := j.image.outLimits st
  need (descRows d ≤ lim.1 && descHeap d ≤ lim.2) Config.stBoundExceeded
  let d1 := emptied d
  let bufs := m.bufs ++ if m.outBytes = 0 then [] else [(f.die, m.outAt)]
  let s1 := s.placeAll m.jid f.die m.stage
    { origin := m.seq, frag := m.placed, last := last, rows := descRows d, heap := descHeap d, desc := d1, bufs := bufs }
  if st.sink then do
    let bs ← s1.sinkBytes m.inst d1
    s1.sinkPut m bs
  else .ok s1

/-- The final aggregation of a stage with AGG_FINAL, over the group states that the Runtime holds (R91 to R95). -/
def State.finalAggregation (s : State) (f : FId) (st : Stage) (m : Morsel) : Res State :=
  if !st.aggFinal then .ok s
  else match finalFlags (field st.param 0 8) (Config.groupStates s.draw) with
    | none => .error Config.stArithOverflow
    | some fl => .ok (s.drawn.modJob m.jid fun j => { j with
        flags := j.flags ||| fl
        parts := j.parts.map fun p => if p.die = f.die then { p with flags := p.flags ||| fl } else p })

/-- A Forager lets go of its morsel: its contexts are released, and the clear of R249 leaves it idle in Runtime mode (R249, R452). -/
def State.endMorsel (s : State) (f : FId) (m : Morsel) : State :=
  (s.modFgr f (·.discard)).modDie f.die (·.releaseCtxs (· == .morsel m.mid))

/-- The morsel took more cycles than its bound (R49). -/
def State.countExcess (s : State) (f : FId) (g : Fgr) (m : Morsel) : State :=
  if g.regs.cycle.toNat ≤ m.bound then s
  else
    let s1 := { s with frame := { s.frame with boundExcessTotal := satAdd 64 s.frame.boundExcessTotal 1 } }
    (s1.modInstStat f.die m.inst fun b => { b with boundExcess := satAdd 32 b.boundExcess 1 }).modStat f.die fun x =>
      { x with boundExcess := satAdd 32 x.boundExcess 1 }

/-- The registers after MDONE: the clear of R249, in Runtime mode. -/
def Fgr.cleared (g : Fgr) : FRegs := g.discard.regs

/-- A job's morsel on a Forager completes: its last output is placed, a final aggregation is made, and its stages move on. -/
def State.completeMorsel (s : State) (f : FId) (g : Fgr) (m : Morsel) (flag : Bool) (d : List Byte) : State :=
  let s1 := (s.countExcess f g m).endMorsel f m
  match s.jobOf m with
  | none => s1.staleJob m.inst
  | some j =>
    match j.image.stage? m.stage with
    | none => s1
    | some st =>
      let last := flag || j.image.oneToOne st
      let done := do
        let t ← s1.finalAggregation f st m
        let t ← t.placeOut f j st m last d
        if st.sink then t.sinkDone m else .ok t
      match done with
      | .error e => (s1.failPart m.jid f.die m.stage e []).settle m.jid
      | .ok t => (t.countMorsel m.jid f.die).settle m.jid

/-- The check of a Pipeline-mode instruction: reserved fields, then the mode. -/
def pipelineCheck (bad : Bool) (r : FRegs) : Option Nat := firstCause [(bad, 0x03), (r.mode != 0, 0x08)]

/-- ABAR: a pending arithmetic trap is delivered before it completes (R235, R272). -/
def execAbar (f : FId) (x : RegF) (s : State) : Host.Outcome State Fault Refusal :=
  runRegs f (regWord 0x34 0x00 x) (chk5 (badReg { rd := false, ra := false, rb := false } x)) (fun r =>
    if r.pend.isSome then .arith else .done r) s

/-- MDONE: the output is placed, the morsel completes, and the Forager enters Runtime mode (R235, R249, R272, R514). -/
def execMdone (f : FId) (x : RegF) (s : State) : Host.Outcome State Fault Refusal :=
  runFgr f (regWord 0x34 0x01 x) (pipelineCheck (badReg { rd := false, rb := false } x)) (fun s g =>
    if g.regs.pend.isSome then (s, .arith)
    else match g.outDesc with
      | .error a => (s, .trap g.regs 0x05 a)
      | .ok d =>
        match g.morsel with
        | none => (s.modFgr f (·.discard), .done g.cleared)
        | some m => (s.completeMorsel f g m ((g.regs.rg x.ra).getLsbD 0) d, .done g.cleared)) s

/-- MEMIT: the output is placed as the next fragment, and a fresh output descriptor stands at G2 over a new buffer; without room for one, the
job fails with MEM_FAULT (R82, R272, R514). -/
def execMemit (f : FId) (x : RegF) (s : State) : Host.Outcome State Fault Refusal :=
  runFgr f (regWord 0x34 0x02 x) (pipelineCheck (badReg { rd := false, ra := false, rb := false } x)) (fun s g =>
    match g.outDesc, g.morsel with
    | .error a, _ => (s, .trap g.regs 0x05 a)
    | .ok _, none => (s, .done g.regs)
    | .ok d, some m =>
      match s.jobOf m with
      | none => (s, .done g.regs)
      | some j =>
        match j.image.stage? m.stage with
        | none => (s, .done g.regs)
        | some st =>
          let fail := fun (e : Nat) => (s.failPart m.jid f.die m.stage e [], FRes.done g.regs)
          match s.placeOut f j st m false d with
          | .error e => fail e
          | .ok t =>
            let lim := j.image.outLimits st
            match t.takeBuffer m.jid f.die (outBufferBytes lim d) with
            | .error e => (t.failPart m.jid f.die m.stage e [], .done g.regs)
            | .ok p =>
              (p.1.modFgr f fun h => { h with
                ldm := memWrite h.ldm (g.regs.rg 2).toNat (freshDescriptor lim p.2.2 d)
                morsel := h.morsel.map fun m => { m with
                  placed := m.placed + 1, outAt := p.2.1, outBytes := outBufferBytes lim d } }, .done g.regs)) s

/-- BRK: cause 0x0B in every mode (R272). -/
def execBrk (f : FId) (x : RegF) (s : State) : Host.Outcome State Fault Refusal :=
  runRegs f (regWord 0x34 0x03 x) (chk5 (badReg { rd := false, ra := false, rb := false } x)) (fun r => .trap r 0x0B 0) s

/-- RTP: Runtime mode enters Pipeline mode at the entry or saved PC (R206, R272). -/
def execRtp (f : FId) (x : RegF) (s : State) : Host.Outcome State Fault Refusal :=
  runFgr f (regWord 0x34 0x04 x)
    (fun r => firstCause [(badReg { rd := false, ra := false, rb := false } x, 0x03), (r.mode != 1, 0x08)])
    (fun s g => (s, .jump (g.regs.setMode 0) g.entryPc)) s

end Sys2Proof.Machine
end

