-- ==== Sys2Proof/Machine/Sched.lean ====
section
/-!
DEFINITION. The Brood scheduler: eligibility (R44 to R48, R82, R115, R146, R173, R180 to R188, R498), dispatch (R75, R179, R186, R187), saving,
resuming and restoring preempted morsels (R51, R52, R235), the overrun limit (R54), retirement requests (R191, R205, R476) and the hold of
the statistics window (R199, R200).
-/

namespace Sys2Proof.Machine

-- ORDER (R60, R61, R179) ---------------------------------------------------------------------------------------------------------------------

/-- Morsel `a` goes before morsel `b`: level, entry, instance tie, sequence number, stage. -/
def State.goesBefore (s : State) (a b : Morsel) : Bool :=
  let key := fun (m : Morsel) => [m.level, m.entry, s.tieDist m.inst, m.seq, m.stage]
  decide (key a < key b)

def MKind.clears : MKind → Bool
  | .clear .. => true
  | _ => false

/-- The same job, stage and level, and both clear morsels or neither: the first of them is never overtaken (R185). -/
def sameLine (a b : Morsel) : Bool := a.jid == b.jid && a.stage == b.stage && a.level == b.level && a.kind.clears == b.kind.clears

-- ELIGIBILITY (R184) ----------------------------------------------------------------------------------------------------------------------------

/-- Instances that run admitted work (R366). -/
def InstSt.runs : InstSt → Bool
  | .enabled | .disabling | .freezing => true
  | _ => false

/-- Foragers of a die that hold a morsel of an instance, running or parked (R44). -/
def Die.heldBy (d : Die) (n : Nat) : Nat := (d.fgrs.filter fun g => g.morsel.elim false (·.inst == n)).length

/-- A slot of the instance is free on the die (R44). -/
def State.slotFree (s : State) (d n : Nat) : Bool := (s.dieD d).heldBy n < dieByte (s.instD n).alloc.coreFrames d

/-- The logical Foragers of a die that are idle in Runtime mode, lowest first: their physical numbers (R186, R207). -/
def Die.idleFgrs (d : Die) : List (Nat × Nat) :=
  d.map.zipIdx.filterMap fun x => x.1.bind fun p => d.fgrs[p]?.bind fun g =>
    if g.run == .idle && g.morsel.isNone && g.regs.mode == 1 then some (x.2, p) else none

/-- Morsels in an unordered flow; a consumer that takes every morsel on every die has the greatest count of a die (R82). -/
def State.flowCount (s : State) (j : Job) (fi : Nat) : Nat :=
  let here := fun (d : Die) => (d.ready.filter fun m => m.jid == j.jid && m.flow == some fi).length
  match (j.image.flow? fi).bind fun f => j.image.stage? f.consumer with
  | none => 0
  | some st =>
    let counts := s.dies.map here
    if j.everyDie st then counts.foldl max 0 else counts.sum

/-- An output flow admits one more producer morsel with an origin: DEPTH for an unordered flow, the reorder window for an ordered one (R82,
R173). -/
def State.flowAdmits (s : State) (j : Job) (origin fi : Nat) : Bool :=
  match j.image.flow? fi, j.flows[fi]? with
  | some f, some x =>
    if f.ordered then
      origin == x.nextOrigin || (decide (origin < x.nextOrigin + Config.window) && decide (x.held.length < Config.window))
    else s.flowCount j fi < f.depth
  | _, _ => true

/-- The producer's output can enter the ready lists that receive it (R182). -/
def State.readyAdmits (s : State) (j : Job) (d fi : Nat) : Bool :=
  match (j.image.flow? fi).bind fun f => j.image.stage? f.consumer with
  | none => true
  | some st =>
    let ds := if st.placement = 2 ∨ st.placement = 3 then j.dieSet else [d]
    ds.all fun d => ((s.dieD d).readyOf j.inst).length < (s.instD j.inst).alloc.readyLimit

/-- The room that a Column Streamer's dispatch reserves: lanes, validity bits, selection vector and heap up to the limits of R74 (R115). -/
def Job.reserve (j : Job) (st : Stage) : Nat :=
  let lanes := ((csCols st.param).filter (·.form != 4)).map fun c =>
    (if c.form = 2 then 16 else if c.form = 3 ∨ strType c.expect then 4 else laneBits c.expect 38 / 8,
      c.form == 0 && strType c.expect)
  let lim := j.image.outLimits st
  fullSize (min st.rows lim.1) lim.2 lanes

/-- The table of a stage is ready for the morsel: clear before its build morsels, sealed before probe and drain morsels (R144, R146). -/
def State.tableReady (s : State) (j : Job) (st : Stage) (m : Morsel) : Bool :=
  let ti := hpTable st.param
  if st.kind != .hash || m.kind.clears then true
  else if (hpOp st.param == 1 || hpOp st.param == 6) && m.kind == .normal then
    !(s.jobMorsels j.jid).any fun x => match x.kind with | .clear t _ _ => t == ti | _ => false
  else match j.tables[ti]? with
    | none => true
    | some t => !t.builds || t.sealed

/-- A digest morsel's context is held or free; one message takes one morsel at a time (R184, R188, R452). -/
def State.ctxReady (s : State) (d : Nat) (st : Stage) (m : Morsel) : Bool :=
  if st.kind != .digest then true
  else if byteAt st.param 0 = 2 then
    !((s.dieD d).units.any fun u => u.morsel.elim false fun x => x.jid == m.jid && x.stage == m.stage) &&
    (((s.dieD d).ctxOf (.stage m.jid m.stage)).isSome || (s.freeCtx d m.inst).isSome)
  else (s.freeCtx d m.inst).isSome

/-- A source morsel of a row group that is decoded serially waits for the one before it (R114). -/
def State.serialReady (s : State) (j : Job) (st : Stage) (m : Morsel) : Bool :=
  match m.src, j.inputOf m.stage with
  | some at_, some l =>
    st.kind != .streamer || !s.groupSerial j.inst j.strictLen l (csCols st.param) at_.group ||
    !(s.dies.any fun d => d.units.any fun u => u.morsel.elim false fun x =>
      x.jid == m.jid && x.stage == m.stage && x.src.elim false (·.group == at_.group))
  | _, _ => true

/-- The streamer on which a serial row group is decoded, once it has one (R114). -/
def Job.serialUnit (j : Job) (m : Morsel) : Option Nat := m.src.bind fun a => assocGet a.group (j.stageD m.stage).serial

/-- The next LOAD morsel of the stage on the die, in sequence order (R287). -/
def Job.loadTurn (j : Job) (d : Nat) (st : Stage) (m : Morsel) : Bool :=
  !(st.kind == .amu && byteAt st.param 0 == 2) || m.seq == (assocGet d (j.stageD m.stage).nextLoad).getD 0

/-- The origin under which a morsel's outputs stand (R170). -/
def Morsel.outOrigin (m : Morsel) : Nat :=
  match m.kind with
  | .drain k => k
  | .merge | .final => 0
  | _ => m.seq

/-- Every condition of R184 on a ready morsel but the slot, the bound and the unit. -/
def State.mayRun (s : State) (d : Nat) (j : Job) (st : Stage) (m : Morsel) : Bool :=
  (s.instD m.inst).state.runs && j.alive && j.state == .running && j.gen == m.gen &&
  decide (0 < (s.instD m.inst).alloc.readyLimit) &&
  !(s.dieD d).deferred.contains (m.inst, m.jid, m.stage) &&
  (m.kind.clears || (st.outs.all (s.flowAdmits j m.outOrigin) && st.outs.all (s.readyAdmits j d))) &&
  (st.kind != .streamer || j.arenaRoom d (j.reserve st)) &&
  s.tableReady j st m && s.ctxReady d st m && s.serialReady j st m && j.loadTurn d st m

/-- The bound of a morsel (R74, R144). -/
def Stage.morselBound (st : Stage) (m : Morsel) : Nat := if m.kind.clears then 2048 else st.boundOf m.rows m.heap

/-- What the scheduler finds for a ready morsel. -/
inductive Verdict where
  | no
  /-- held by the bound test: deferred for the rest of the frame (R185) -/
  | defer
  /-- it goes to a logical Forager, with its physical number -/
  | fgr (logical phys : Nat)
  /-- it goes to a unit -/
  | unit (u : Nat)

/-- The bound test of a Forager morsel at fixed-unit cycle `t`; while the clock is throttled, a bound past any frame is eligible at +0 (R45,
R498). -/
def State.fgrBound (s : State) (t bound : Nat) : Bool :=
  let c := t * s.power.fclkNow / Config.unitMHz
  decide (c + bound + 64 ≤ s.cyclesPerFrame) ||
  (t == 0 && decide (s.power.fclkNow < s.part.fclkMHz) && decide (s.cyclesPerFrame < bound + 64))

/-- Whether a ready morsel of a kind can be dispatched on die `d` at cycle `t`, and where (R44 to R46, R180, R184, R187). -/
def State.verdict (s : State) (d t : Nat) (k : UnitKind) (j : Job) (st : Stage) (m : Morsel) : Verdict :=
  let x := s.dieD d
  let bound := st.morselBound m
  if !s.mayRun d j st m then .no
  else if k = .forager then
    let first := x.fgrs.any (fun g => g.run == .parked && g.morsel.elim false (·.inst == m.inst)) ||
      x.saved.any (·.morsel.inst == m.inst)
    if first || !s.slotFree d m.inst then .no
    else if !s.fgrBound t bound then .defer
    else match x.idleFgrs.head? with
      | none => .no
      | some p => .fgr p.1 p.2
  else
    let share := s.shareCycles m.inst k d
    let fits := fun (u : Nat) => decide ((x.units.getD u UnitSt.reset).chargedTo m.inst + bound ≤ share)
    let us := match j.serialUnit m with
      | some u => [u]
      | none => unitsOf k
    if share = 0 then .no
    else if s.unitCycles < t + bound + 40 || us.all (!fits ·) then .defer
    else match us.find? fun u => (x.units.getD u UnitSt.reset).morsel.isNone && fits u with
      | none => .no
      | some u => .unit u

-- DISPATCH (R75, R178 to R187) ---------------------------------------------------------------------------------------------------------------------

/-- The ready morsels of a kind in the order of R179; only the first of each line is a candidate, and clear morsels of an instance go before its
others (R180, R185). -/
def State.candidates (s : State) (d : Nat) (k : UnitKind) : List (Morsel × Job × Stage) :=
  let mine := (s.dieD d).ready.filterMap fun m =>
    (s.jobOf m).bind fun j => (j.image.stage? m.stage).bind fun st => if st.kind = k then some (m, j, st) else none
  let sorted := sortBy (fun a b => !s.goesBefore b.1 a.1) mine
  let heads := sorted.zipIdx.filterMap fun x =>
    if (sorted.take x.2).any fun y => sameLine y.1 x.1.1 && y.2.1.loadTurn d y.2.2 y.1 then none else some x.1
  heads.filter fun x => x.1.kind.clears || !heads.any fun y => y.1.inst == x.1.inst && y.1.kind.clears

/-- The bucket of a waiting time (R197). -/
def waitBucket (ns : Nat) : Nat := if ns < 1000 then 0 else min 15 ((ns / 1000).log2 + 1)

/-- Count the first dispatch of a morsel (R196, R197, R202, R203). -/
def State.countDispatch (s : State) (d : Nat) (m : Morsel) (fgr : Bool) : State :=
  let b := waitBucket (s.power.uptimeNs - m.entry)
  (s.modStat d fun x => { x with
    waitHist := x.waitHist.modify b (satAdd 32 · 1)
    levels := x.levels.modify m.level fun l => (l.1, l.2.1, satAdd 32 l.2.2 1) }).modInstStat d m.inst fun i =>
      { i with
        waitHist := i.waitHist.modify b (satAdd 32 · 1)
        dispatchF := if fgr then satAdd 32 i.dispatchF 1 else i.dispatchF
        dispatchU := if fgr then i.dispatchU else satAdd 32 i.dispatchU 1 }

/-- The registers with which the Runtime starts a morsel (R75, R214, R217). -/
def startRegs (old : FRegs) (j : Job) (st : Stage) (m : Morsel) (inAt outAt : Nat) : FRegs :=
  let h := j.handle.toNat
  let base := fun (o : Option Nat) => o.elim 0 (Config.sectionBase h)
  let r := { FRegs.reset with
    coreCtl := 0
    tepc := old.tepc
    tcause := old.tcause
    tval := old.tval
    pc := BitVec.ofNat 48 (base st.codeSec + st.entryOff) }
  ((((((r.setG 1 (BitVec.ofNat 64 inAt)).setG 2 (BitVec.ofNat 64 outAt)).setG 3 (BitVec.ofNat 64 (base st.constSec))).setG 4
    (BitVec.ofNat 64 (if st.param = [] then 0 else Config.sectionBase h (128 + m.stage)))).setG 5 (BitVec.ofNat 64 m.rows)).setG 6
    (BitVec.ofNat 64 (m.seq % 2 ^ 48)))

/-- A descriptor's place in LDM: the input's below 0x2_0000, the output's from there. -/
def inPlace (draw : Nat) : Nat := 64 * (Config.descriptorIn draw % 2031)
def outPlace (draw : Nat) : Nat := 0x20000 + 64 * (Config.descriptorOut draw % 2031)

/-- The output descriptor that a Forager morsel finds: free column forms, one to 32 columns. -/
def firstDescriptor (draw : Nat) : List Byte :=
  let d := Config.outputDescriptor draw
  let c := byteAt d 0x0C % 32 + 1
  patch (fit (descBytes c) d) 0x0C (leBytes 1 c)

/-- Start morsel `m` on physical Forager `p`, logical `l`, of die `d`: its descriptors in LDM, an output buffer in the arena, its registers (R75,
R122, R206). Without room for the buffer the job fails with MEM_FAULT (R82). -/
def State.startFgr (s : State) (d l p : Nat) (j : Job) (st : Stage) (m : Morsel) : State :=
  let f : FId := { die := d, fgr := p }
  let lim := j.image.outLimits st
  let d0 := firstDescriptor s.draw
  let size := outBufferBytes lim d0
  let buf := if size = 0 then Except.ok (s, 0, 0) else s.takeBuffer m.jid d size
  match buf with
  | .error e => s.failPart m.jid d m.stage e []
  | .ok q =>
    let inAt := inPlace s.draw
    let outAt := outPlace s.draw
    let fresh := patch (freshDescriptor lim q.2.2 d0) 0 (leBytes 8 (m.seq % 2 ^ 48))
    (q.1.drawn.modFgr f fun g =>
      let r := startRegs g.regs j st m inAt outAt
      { g with
        regs := r
        entryPc := r.pc
        ldm := memWrite (memWrite [] inAt m.desc) outAt fresh
        dcache := []
        run := .running
        evictNext := false
        morsel := some { m with outAt := q.2.1, outBytes := size } }).modStat d fun x =>
          { x with ran := (l, m.inst) :: x.ran }

/-- What a dispatch to unit `u` takes with it: a streamer's room in the arena, a digest context, the streamer of a serial row group. -/
def State.startUnit (s : State) (d u : Nat) (j : Job) (st : Stage) (m : Morsel) : State :=
  let put := fun (t : State) (m : Morsel) => t.modDie d fun x => { x with units := x.units.modify u fun y =>
    { (y.charge m.inst m.bound) with morsel := some m } }
  match st.kind with
  | .streamer =>
    let size := j.reserve st
    match s.takeBuffer m.jid d size with
    | .error _ => s
    | .ok p =>
      let t := match m.src, j.inputOf m.stage with
        | some a, some l =>
          if s.groupSerial j.inst j.strictLen l (csCols st.param) a.group then
            p.1.modStage m.jid m.stage fun x => { x with serial := assocSet a.group u x.serial }
          else p.1
        | _, _ => p.1
      put t { m with outAt := p.2.1, outBytes := size }
  | .digest =>
    let h := if byteAt st.param 0 = 2 then Holder.stage m.jid m.stage else Holder.morsel m.mid
    let t := match (s.dieD d).ctxOf h with
      | some _ => s
      | none => match s.freeCtx d m.inst with
        | none => s
        | some c => s.openCtx d c m.inst h
    put t m
  | .amu =>
    put (if byteAt st.param 0 = 2 then s.modStage m.jid m.stage fun x => { x with nextLoad := assocSet d (m.seq + 1) x.nextLoad } else s) m
  | _ => put s m

/-- Dispatch a ready morsel of die `d`. -/
def State.dispatch (s : State) (d : Nat) (j : Job) (st : Stage) (m : Morsel) (v : Verdict) : State :=
  let m' := { m with bound := st.morselBound m, start := s.power.uptimeNs, excess := false }
  let s1 := s.modDie d fun x => { x with ready := x.ready.filter (·.mid != m.mid) }
  let s2 := match v with
    | .fgr l p => (s1.countDispatch d m true).startFgr d l p j st m'
    | .unit u => (s1.countDispatch d m false).startUnit d u j st m'
    | _ => s
  s2.settle m.jid

/-- Hold a stage's morsels of a die for the rest of the frame, and count the deferral (R185, R202). -/
def State.defer (s : State) (d : Nat) (m : Morsel) : State :=
  let s1 := (s.modDie d fun x => { x with deferred := (m.inst, m.jid, m.stage) :: x.deferred }).modInstStat d m.inst fun b =>
    { b with deferred := satAdd 32 b.deferred 1 }
  { s1 with settings := { s1.settings with deferredTotal := satAdd 64 s1.settings.deferredTotal 1 } }

/-- Go through the candidates in order: defer those that fail the bound test, dispatch the first that passes everything. -/
def State.dispatchFirst (s : State) (d t : Nat) (k : UnitKind) : List (Morsel × Job × Stage) → State
  | [] => s
  | (m, j, st) :: rest =>
    match s.verdict d t k j st m with
    | .no => s.dispatchFirst d t k rest
    | .defer => (s.defer d m).dispatchFirst d t k rest
    | v => s.dispatch d j st m v

/-- The time of fixed-unit cycle `t` of the running frame; time does not go back. -/
def State.atCycle (s : State) (t : Nat) : State :=
  s.elapse (s.frame.startNs + t * 1000 / Config.unitMHz - s.power.uptimeNs)

/-- MORSEL_DISPATCH: at fixed-unit cycle `t`, the best eligible ready morsel of die `d` for a kind of unit is dispatched (R179). -/
def execMorselDispatch (die : Nat) (kind : UnitKind) (t : Nat) (s : State) : Host.Outcome State Fault Refusal :=
  if !s.unitsLive die || s.unitCycles ≤ t then .next s
  else
    let s1 := s.atCycle t
    .next (s1.dispatchFirst die t kind (s1.candidates die kind))

-- SAVE, RESUME, RESTORE (R51, R52, R180, R235) -----------------------------------------------------------------------------------------------------

/-- Evict the morsel that a Forager holds parked into the saved-morsel area; a full area fails the job with MEM_FAULT (R52). -/
def State.evict (s : State) (f : FId) : State :=
  match s.fgr? f with
  | none => s
  | some g =>
    match g.morsel with
    | none => s
    | some m =>
      let gone := s.modFgr f (·.discard)
      if Config.savedMorsels ≤ (s.dieD f.die).saved.length then gone.failPart m.jid f.die m.stage Config.stMemFault []
      else gone.modDie f.die fun d => { d with saved := d.saved ++ [{ morsel := m, regs := g.save, ldm := g.ldm }] }

/-- MORSEL_SAVE: a preempted Forager whose instructions have drained delivers a pending arithmetic trap, or saves its registers and parks its
morsel; a morsel due for eviction leaves at once (R51, R52, R235). -/
def execMorselSave (f : FId) (s : State) : Host.Outcome State Fault Refusal :=
  match s.fgr? f with
  | none => .next s
  | some g =>
    if g.run != .preempted || !s.unitsLive f.die then .next s
    else if g.regs.pend.isSome then .next (s.takeArith f g.regs)
    else
      let s1 := s.modFgr f fun h => { h with save := h.regs, regs := h.regs.setMode 1, entryPc := h.regs.pc, run := .parked }
      .next (if g.evictNext then s1.evict f else s1)

/-- The instance runs, and the job is alive under the generation in force. -/
def State.resumable (s : State) (m : Morsel) : Bool :=
  (s.instD m.inst).state.runs && match s.jobOf m with
    | none => false
    | some j => j.alive

def State.countResumed (s : State) (d n : Nat) : State := s.modInstStat d n fun b => { b with resumed := satAdd 32 b.resumed 1 }

/-- The logical Forager that a physical one serves. -/
def Die.logicalOf (d : Die) (p : Nat) : Option Nat := d.map.idxOf? (some p)

/-- A Forager runs a morsel again: its registers stand as they were saved. -/
def State.resumeFgr (s : State) (f : FId) (m : Morsel) (regs : FRegs) (ldm : List Host.Cell) : State :=
  ((s.modFgr f fun h => { h with
      regs := regs
      save := FRegs.reset
      ldm := ldm
      morsel := some m
      run := .running
      evictNext := false }).countResumed f.die m.inst).modStat f.die fun x =>
    { x with ran := match (s.dieD f.die).logicalOf f.fgr with
      | none => x.ran
      | some l => (l, m.inst) :: x.ran }

/-- MORSEL_RESUME: a parked morsel resumes on its Forager (R51). -/
def execMorselResume (f : FId) (s : State) : Host.Outcome State Fault Refusal :=
  match s.fgr? f with
  | none => .next s
  | some g =>
    match g.morsel with
    | none => .next s
    | some m =>
      if g.run != .parked || !s.unitsLive f.die || !s.resumable m then .next s
      else .next (s.resumeFgr f m g.save g.ldm)

/-- The evicted morsel that an idle Forager takes: the earliest whose instance runs, holds a free slot and has nothing parked (R52, R180). -/
def State.nextSaved (s : State) (d : Nat) : Option Saved :=
  (s.dieD d).saved.find? fun x => s.resumable x.morsel && s.slotFree d x.morsel.inst &&
    !(s.dieD d).fgrs.any fun g => g.run == .parked && g.morsel.elim false (·.inst == x.morsel.inst)

/-- EVICTED_RESTORE: an evicted morsel resumes on an idle mapped Forager (R52, R180). -/
def execEvictedRestore (f : FId) (s : State) : Host.Outcome State Fault Refusal :=
  if !s.unitsLive f.die || !(s.dieD f.die).idleFgrs.any (·.2 == f.fgr) then .next s
  else match s.nextSaved f.die with
    | none => .next s
    | some x =>
      let s1 := s.modDie f.die fun d => { d with saved := d.saved.filter (·.morsel.mid != x.morsel.mid) }
      .next (s1.resumeFgr f x.morsel x.regs x.ldm)

/-- OVERRUN_LIMIT_REACHED: a morsel that has overrun OVERRUN_LIMIT boundaries in a row is stopped, and its job fails with BOUND_EXCEEDED (R54). -/
def execOverrunLimitReached (die jid stage : Nat) (s : State) : Host.Outcome State Fault Refusal :=
  let hit := fun (m : Morsel) => m.jid == jid && m.stage == stage && decide (s.frame.overrunLimit ≤ m.overruns)
  let x := s.dieD die
  if !(x.fgrs.any fun g => g.morsel.elim false hit) && !(x.units.any fun u => u.morsel.elim false hit) then .next s
  else
    let s1 := s.modDie die fun d => { d with
      fgrs := d.fgrs.map fun g => if g.morsel.elim false hit then g.discard else g
      units := d.units.map fun u => if u.morsel.elim false hit then { u with morsel := none } else u }
    .next ((s1.failPart jid die stage Config.stBoundExceeded []).raise Config.evBoundExceeded)

end Sys2Proof.Machine
end

