-- ==== Sys2Proof/Machine/QueueOps.lean ====
section
/-!
DEFINITION. What the queues share: MMIO access rules (R8, R332), the queue records of an instance, completions (R341, R345, R356), the place
of a queue entry in host memory (R335), and the admin queues' enable and disable (R336).
-/

namespace Sys2Proof.Machine

-- MMIO (R8, R330 to R332) --------------------------------------------------------------------------------------------------------------------------

/-- A reserved write of function `fn`: counted in RSVD_WR, and event RSVD_WRITE (R8, R333). -/
def State.rsvdWrite (s : State) (fn : Nat) : State :=
  (s.modInst fn fun i => { i with rsvdWr := satAdd 32 i.rsvdWr 1 }).raise Config.evRsvdWrite

/-- A function that exists on the link: the PF, or a VF that SR-IOV has enabled (R365), on a powered part out of reset. -/
def State.fnLive (s : State) (fn : Nat) : Bool :=
  s.power.mainPower && !s.power.perst && (fn == 0 || (s.power.vfEnable && decide (fn ≤ s.power.numVfs) && decide (fn < 256)))

/-- A 4-byte or 8-byte access, naturally aligned (R332). -/
def mmioSize (off size : Nat) : Bool := (size == 4 || size == 8) && off % size == 0

/-- The bits that a write of a size to the low part of a register carries. -/
def lowPart (size : Nat) (v : W64) : Nat := if size = 4 then v.toNat % 2 ^ 32 else v.toNat

/-- Count a reserved write when `bad` holds. -/
def State.rsvdIf (s : State) (fn : Nat) (bad : Bool) : State := if bad then s.rsvdWrite fn else s

/-- A write of a register of function `fn`: dropped while the device boots, outside the dictionary window (R494); dropped and counted while the
instance resets (R374); reserved when its size or alignment is none of R332. -/
def State.mmioWrite (s : State) (fn off size : Nat) (window : Bool) (k : State → State) : State :=
  if !s.fnLive fn || (!window && s.power.devState == .booting) then s
  else if (s.instD fn).state == .resetting then s.modInst fn fun i => { i with rsvdWr := satAdd 32 i.rsvdWr 1 }
  else if !mmioSize off size then s.rsvdWrite fn
  else k s

/-- MSI-X vectors of a function (R363). -/
def State.vectors (s : State) (fn : Nat) : Nat := if fn = 0 then 64 else s.power.vfVectors

-- QUEUES (R334 to R337) -----------------------------------------------------------------------------------------------------------------------------

def Inst.sq? (i : Inst) (q : Nat) : Option Sq := i.sqs.find? (·.qid == q)
def Inst.cq? (i : Inst) (q : Nat) : Option Cq := i.cqs.find? (·.qid == q)

def State.modSq (s : State) (n q : Nat) (f : Sq → Sq) : State :=
  s.modInst n fun i => { i with sqs := i.sqs.map fun x => if x.qid = q then f x else x }

def State.modCq (s : State) (n q : Nat) (f : Cq → Cq) : State :=
  s.modInst n fun i => { i with cqs := i.cqs.map fun x => if x.qid = q then f x else x }

def Sq.depth (q : Sq) : Nat := 2 ^ q.depthLog2
def Cq.depth (q : Cq) : Nat := 2 ^ q.depthLog2

/-- (`a` − `b`) mod D. -/
def ringDist (d a b : Nat) : Nat := (a + d - b % d) % d

/-- Entries between HEAD and TAIL. -/
def Sq.waiting (q : Sq) : Nat := ringDist q.depth q.tail q.head

/-- Entries not yet freed (R341). -/
def Cq.used (q : Cq) : Nat := ringDist q.depth q.tail q.head

/-- Free completion slots (R345). -/
def Cq.free (q : Cq) : Nat := q.depth - 1 - q.used - q.reserved

/-- A queue goes to ERROR, and QUEUE_ERROR is raised (R340, R341). -/
def State.sqError (s : State) (n q : Nat) : State := (s.modSq n q fun x => { x with state := .error }).raise Config.evQueueError
def State.cqError (s : State) (n q : Nat) : State := (s.modCq n q fun x => { x with state := .error }).raise Config.evQueueError

/-- The key of an I/O virtual address of instance `n` in `State.mem`. -/
def hostKey (n iova : Nat) : Nat := 0x1000000000000 * (1 + n) + iova

/-- Entry `i` of a submission queue of instance `n` (R335). -/
def State.sqEntry (s : State) (n : Nat) (q : Sq) (i : Nat) : List Byte := memRead s.mem (hostKey n (q.base + 128 * (i % q.depth))) 128

-- ENTRIES (R349) ---------------------------------------------------------------------------------------------------------------------------------------

def entOpcode (e : List Byte) : Nat := byteAt e 0
def entFirst (e : List Byte) : Bool := bit (byteAt e 1) 0
def entLast (e : List Byte) : Bool := bit (byteAt e 1) 1
def entCid (e : List Byte) : Nat := field e 2 2

/-- The first entry of a chain. -/
def Chain.entry (c : Chain) : List Byte := c.entries.headD []

-- COMPLETIONS (R344, R356) -------------------------------------------------------------------------------------------------------------------------------

/-- Queue the completion of a chain of instance `n` for the next boundary. -/
def State.complete (s : State) (n : Nat) (c : Chain) (status : Nat) (result : Nat) (detail : Nat) (newSq : Option Sq) (newCq : Option Cq) :
    State :=
  { s with cpls := s.cpls ++
      [{ inst := n
         gen := (s.instD n).gen
         sqid := c.sqid
         sqHead := c.sqHead
         cqid := (((s.instD n).sq? c.sqid).elim 0 (·.cqid))
         cid := c.cid
         status := status
         result := BitVec.ofNat 64 result
         detail := detail
         flags := 0
         newSq := newSq
         newCq := newCq
         esr := none }] }

/-- The completion of an admin chain, or of one that waited, by its CID and SQ head. -/
def State.completeAdmin (s : State) (n : Nat) (w : Nat × Nat) (status result : Nat) : State :=
  s.complete n { sqid := 0, sqHead := w.2, cid := w.1, opcode := 0, entries := [] } status result 0 none none

-- THE ADMIN QUEUES (R336) ------------------------------------------------------------------------------------------------------------------------------------

/-- Enable both admin queues with the registers as they stand. -/
def Inst.openAdmin (i : Inst) : Inst :=
  { i with
    aq := { i.aq with en := true, enablePending := false, disabling := false }
    sqs := { qid := 0, cqid := 0, depthLog2 := i.aq.sqLog2, cls := 0, base := i.aq.sqBase.toNat, state := .active, head := 0, tail := 0,
             held := false, deleters := [] } :: i.sqs.filter (·.qid != 0)
    cqs := { qid := 0, depthLog2 := i.aq.cqLog2, base := i.aq.cqBase.toNat, vector := i.aq.vector, intEn := i.aq.intEn,
             shadowEn := i.aq.shadowEn, shadow := i.aq.shadow.toNat, state := .active, head := 0, tail := 0, reserved := 0, stall := 0,
             stallRaised := false, deleters := [] } :: i.cqs.filter (·.qid != 0) }

/-- The admin disable has completed: indices at 0, ERROR and DISABLING clear, a latched enable applies (R11, R336). -/
def Inst.closeAdmin (i : Inst) : Inst :=
  let j := { i with
    aq := { i.aq with en := false, disabling := false, enablePending := false }
    sqs := i.sqs.filter (·.qid != 0)
    cqs := i.cqs.filter (·.qid != 0) }
  if i.aq.enablePending then j.openAdmin else j

end Sys2Proof.Machine
end

