-- ==== Sys2Proof/Machine/Queues.lean ====
section
/-!
DEFINITION. The queue registers (R336 to R341), the fetch of chains (R346, R351), the admin commands on queues (R350), aborts and status
pages (R360, R361).
-/

namespace Sys2Proof.Machine

-- DOORBELLS (R338 to R341) -----------------------------------------------------------------------------------------------------------------------------

/-- Count a dropped doorbell write (R333). -/
def State.dropDoorbell (s : State) (fn : Nat) : State := s.modInst fn fun i => { i with dbDrop := satAdd 16 i.dbDrop 1 }

/-- A doorbell write of 4 or 8 bytes: reserved bits [31:16] and [63:52] are counted, then the new index is taken. -/
def doorbell (fn q size : Nat) (value : W64) (take : Nat → State → State) (s : State) : State :=
  s.mmioWrite fn 0 size false fun s =>
    let v := lowPart size value
    if 4096 ≤ q then s.rsvdIf fn (v != 0)
    else take (v % 65536) (s.rsvdIf fn (bits v 31 16 != 0 || bits v 63 52 != 0))

/-- SQ_TAIL_DOORBELL (R340). -/
def execSqTailDoorbell (fn q size : Nat) (value : W64) (s : State) : Host.Outcome State Fault Refusal :=
  .next (doorbell fn q size value (fun t s =>
    match (s.instD fn).sq? q with
    | none => s.dropDoorbell fn
    | some x =>
      if x.state != .active || (q == 0 && (s.instD fn).aq.disabling) then s.dropDoorbell fn
      else if x.depth ≤ t then s.sqError fn q
      else if t = x.tail then s
      else if ringDist x.depth t x.head < x.waiting then s.sqError fn q
      else s.modSq fn q fun x => { x with tail := t }) s)

/-- CQ_HEAD_DOORBELL (R341). -/
def execCqHeadDoorbell (fn q size : Nat) (value : W64) (s : State) : Host.Outcome State Fault Refusal :=
  .next (doorbell fn q size value (fun h s =>
    match (s.instD fn).cq? q with
    | none => s.dropDoorbell fn
    | some x =>
      if x.state != .active || (q == 0 && (s.instD fn).aq.disabling) then s.dropDoorbell fn
      else if x.depth ≤ h ∨ x.used < ringDist x.depth h x.head then s.cqError fn q
      else s.modCq fn q fun x => { x with head := h }) s)

-- AQ_CFG (R336) --------------------------------------------------------------------------------------------------------------------------------------------

/-- The fields of AQ_CFG that a write of value `v` sets while EN = 0; an unlisted VECTOR or size is left (R8). -/
def AdminRegs.config (a : AdminRegs) (v vectors : Nat) : AdminRegs :=
  let lg := fun (x old : Nat) => if 1 ≤ x ∧ x ≤ 16 then x else old
  { a with
    vector := if bits v 27 16 < vectors then bits v 27 16 else a.vector
    shadowEn := bit v 14
    intEn := bit v 13
    cqLog2 := lg (bits v 12 8) a.cqLog2
    sqLog2 := lg (bits v 4 0) a.sqLog2 }

/-- A reserved bit or an unlisted value of AQ_CFG. -/
def aqCfgBad (v vectors : Nat) : Bool :=
  bits v 63 35 != 0 || bits v 30 28 != 0 || bit v 15 || bits v 7 5 != 0 || decide (vectors ≤ bits v 27 16) ||
  !(1 ≤ bits v 12 8 && bits v 12 8 ≤ 16) || !(1 ≤ bits v 4 0 && bits v 4 0 ≤ 16)

/-- The fields of a write differ from those in force. -/
def AdminRegs.differs (a : AdminRegs) (v : Nat) : Bool :=
  bits v 27 16 != a.vector || bit v 14 != a.shadowEn || bit v 13 != a.intEn || bits v 12 8 != a.cqLog2 || bits v 4 0 != a.sqLog2

/-- AQ_CFG: while EN = 1 a change of the other fields is dropped and counted; EN = 0 shuts both admin queues down, EN = 1 enables them or is latched
(R10 to R12, R336). -/
def execAqCfg (fn size : Nat) (value : W64) (s : State) : Host.Outcome State Fault Refusal :=
  .next (s.mmioWrite fn 0 size false fun s =>
    let v := lowPart size value
    let a := (s.instD fn).aq
    let vs := s.vectors fn
    let en := bit v 31
    if a.en then
      let s1 := s.rsvdIf fn (bits v 63 35 != 0 || bits v 30 28 != 0 || bit v 15 || bits v 7 5 != 0 || a.differs v)
      (if en then s1
        else s1.modInst fn fun i => { i with
          aq := { i.aq with en := false, disabling := true }
          sqs := i.sqs.map fun x => if x.qid = 0 then { x with state := .deleting } else x
          cqs := i.cqs.map fun x => if x.qid = 0 ∧ x.state = .active then { x with state := .deleting } else x })
    else
      let s1 := (s.rsvdIf fn (aqCfgBad v vs)).modInst fn fun i => { i with aq := i.aq.config v vs }
      s1.modInst fn fun i =>
        if i.aq.disabling then { i with aq := { i.aq with enablePending := en } }
        else if en then i.openAdmin else i)

/-- ADMIN_DISABLE_DONE: the admitted admin commands have completed (R336). -/
def execAdminDisableDone (fn : Nat) (s : State) : Host.Outcome State Fault Refusal :=
  let i := s.instD fn
  if !i.aq.disabling || (i.cq? 0).elim false (·.reserved != 0) then .next s
  else .next (s.modInst fn (·.closeAdmin))

/-- CQ_STALL: at the CQ_STALL_FRAMES-th stall boundary in a row the event is raised, once (R345). -/
def execCqStall (n q : Nat) (s : State) : Host.Outcome State Fault Refusal :=
  match (s.instD n).cq? q with
  | none => .next s
  | some x =>
    if x.stallRaised || x.stall < s.settings.cqStallFrames then .next s
    else .next ((s.modCq n q fun x => { x with stallRaised := true }).raise Config.evCqStall)

-- FETCHING (R346, R351) -----------------------------------------------------------------------------------------------------------------------------------------

/-- An instance from whose queues the Crest die admits: it runs and is not freezing toward or in a freeze or reset, its function is in D0, and it is not
DISABLING (R346, R366, R328). -/
def Inst.admits (i : Inst) : Bool := i.state == .enabled && !i.d3hot

/-- An SQ is servable (R346). -/
def Inst.servable (i : Inst) (q : Sq) : Bool :=
  q.state == .active && q.waiting != 0 && !q.held &&
  match i.cq? q.cqid with
  | none => false
  | some c => c.state == .active && c.free != 0

/-- The SQ that an instance serves next: admin SQ 0, then the classes in order, each round-robin in ascending queue ID (R346). -/
def Inst.nextSq (i : Inst) : Option Sq :=
  let ready := i.sqs.filter i.servable
  match ready.find? (·.qid == 0) with
  | some q => some q
  | none => (List.range 4).findSome? fun c =>
    let mine := sortBy (fun a b => a.qid ≤ b.qid) (ready.filter fun q => q.cls == c && q.qid != 0)
    match mine.find? fun q => i.served.getD c 0 < q.qid with
    | some q => some q
    | none => mine.head?

/-- How many entries a chain takes, and whether it is broken (R351): `es` are the pending entries. -/
def chainTake (es : List (List Byte)) : Nat × Bool :=
  match es with
  | [] => (0, true)
  | e :: rest =>
    if !entFirst e then
      if entLast e then (1, true)
      else match rest.zipIdx.find? fun x => entLast x.1 || entFirst x.1 with
        | none => (es.length, true)
        | some x => (x.2 + if entFirst x.1 then 1 else 2, true)
    else if entLast e then (1, false)
    else match (rest.take 63).zipIdx.find? fun x => entFirst x.1 || entOpcode x.1 != entOpcode e || entCid x.1 != entCid e || entLast x.1 with
      | none => (min 64 es.length, true)
      | some x =>
        if entFirst x.1 then (x.2 + 1, true)
        else (x.2 + 2, entOpcode x.1 != entOpcode e || entCid x.1 != entCid e)

/-- Opcodes of R349. -/
def adminOpcode (o : Nat) : Bool := 1 ≤ o && o ≤ 8

def rest0 (e : List Byte) (o : Nat) : Bool := allZero (e.drop o)
def gap0 (e : List Byte) (o n : Nat) : Bool := allZero (slice e o n)

/-- A queue address: aligned to 4 KiB and below 2^47 (R335). -/
def baseOk (a : Nat) : Bool := a % 4096 == 0 && a < 0x800000000000

/-- Reserved fields are 0 and values listed in an admin entry (R347, R350). -/
def adminFields (e : List Byte) (vectors : Nat) : Bool :=
  byteAt e 1 == 3 &&
  match entOpcode e with
  | 1 =>
    1 ≤ field e 4 2 && field e 4 2 ≤ 4095 && 1 ≤ byteAt e 8 && byteAt e 8 ≤ 16 && byteAt e 9 ≤ 3 && gap0 e 10 6 && baseOk (field e 16 8) && rest0 e 24
  | 2 | 4 => rest0 e 6
  | 3 =>
    1 ≤ field e 4 2 && field e 4 2 ≤ 4095 && field e 6 2 < vectors && 1 ≤ byteAt e 8 && byteAt e 8 ≤ 16 && byteAt e 9 < 4 && gap0 e 10 6 &&
    baseOk (field e 16 8) && field e 24 8 % 8 == 0 && field e 24 8 < 0x800000000000 && (decide (field e 24 8 = 0) == !bit (byteAt e 9) 1) &&
    rest0 e 32
  | 5 => gap0 e 4 4 && field e 8 8 % 64 == 0 && gap0 e 24 8 && rest0 e 64
  | 6 => rest0 e 8
  | 7 => ((1 ≤ field e 4 2 && field e 4 2 ≤ 4095) || field e 4 2 == 0xFFFF) && rest0 e 16
  | 8 => 1 ≤ byteAt e 4 && byteAt e 4 ≤ 3 && gap0 e 5 3 && rest0 e 20
  | _ => false

-- ADMIN COMMANDS ON QUEUES (R350) ------------------------------------------------------------------------------------------------------------------------------

/-- The admin command that instance `n` executes next, if it has an opcode: its admin commands are executed in the order in which they were fetched,
and none of a frozen or resetting instance. -/
def State.adminNext (s : State) (n opcode : Nat) : Option Chain :=
  let i := s.instD n
  if !i.state.runs then none
  else (i.fetched.find? (·.sqid == 0)).filter (·.opcode == opcode)

/-- Take a chain from the list of fetched chains. -/
def State.takeChain (s : State) (n : Nat) (c : Chain) : State :=
  s.modInst n fun i => { i with fetched := i.fetched.erase c }

/-- Queues that completions about to be written will create. -/
def State.newSqs (s : State) (n : Nat) : List Sq := s.cpls.filterMap fun c => if c.inst = n then c.newSq else none
def State.newCqs (s : State) (n : Nat) : List Cq := s.cpls.filterMap fun c => if c.inst = n then c.newCq else none

def State.sqExists (s : State) (n q : Nat) : Bool := (s.instD n).sqs.any (·.qid == q) || (s.newSqs n).any (·.qid == q)
def State.cqExists (s : State) (n q : Nat) : Bool := (s.instD n).cqs.any (·.qid == q) || (s.newCqs n).any (·.qid == q)

/-- I/O queues of an instance, those about to be created included (R334). -/
def State.sqCount (s : State) (n : Nat) : Nat := ((s.instD n).sqs.filter (·.qid != 0)).length + (s.newSqs n).length
def State.cqCount (s : State) (n : Nat) : Nat := ((s.instD n).cqs.filter (·.qid != 0)).length + (s.newCqs n).length

/-- CREATE_SQ (R350). -/
def execCreateSq (n : Nat) (s : State) : Host.Outcome State Fault Refusal :=
  match s.adminNext n 1 with
  | none => .next s
  | some c =>
    let e := c.entry
    let s1 := s.takeChain n c
    let fail := fun (st : Nat) => Host.Outcome.next (s1.complete n c st 0 0 none none)
    let cq := field e 6 2
    if s.sqExists n (field e 4 2) || cq == 0 || !((s.instD n).cq? cq).elim false (·.state == .active) then fail Config.stInvalidQueue
    else if (s.instD n).alloc.sqQuota ≤ s.sqCount n then fail Config.stQueueQuota
    else .next (s1.complete n c Config.stSuccess 0 0
      (some { qid := field e 4 2, cqid := cq, depthLog2 := byteAt e 8, cls := byteAt e 9, base := field e 16 8, state := .active, head := 0,
              tail := 0, held := false, deleters := [] }) none)

/-- CREATE_CQ (R350). -/
def execCreateCq (n : Nat) (s : State) : Host.Outcome State Fault Refusal :=
  match s.adminNext n 3 with
  | none => .next s
  | some c =>
    let e := c.entry
    let s1 := s.takeChain n c
    let fail := fun (st : Nat) => Host.Outcome.next (s1.complete n c st 0 0 none none)
    if s.cqExists n (field e 4 2) then fail Config.stInvalidQueue
    else if (s.instD n).alloc.cqQuota ≤ s.cqCount n then fail Config.stQueueQuota
    else .next (s1.complete n c Config.stSuccess 0 0 none
      (some { qid := field e 4 2, depthLog2 := byteAt e 8, base := field e 16 8, vector := field e 6 2, intEn := bit (byteAt e 9) 0,
              shadowEn := bit (byteAt e 9) 1, shadow := field e 24 8, state := .active, head := 0, tail := 0, reserved := 0, stall := 0,
              stallRaised := false, deleters := [] }))

/-- Nothing of an SQ remains: no job, no fetched chain (R350). -/
def State.sqDrained (s : State) (n q : Nat) : Bool :=
  !(s.jobs.any fun j => j.inst == n && j.sqid == q) && !((s.instD n).fetched.any (·.sqid == q))

/-- The DELETE_SQ commands of a drained SQ complete, and the SQ is gone (R350). -/
def State.finishSqDelete (s : State) (n q : Nat) : State :=
  match (s.instD n).sq? q with
  | none => s
  | some x =>
    if q = 0 ∨ x.state ≠ .deleting ∨ !s.sqDrained n q then s
    else
      let s1 := s.modInst n fun i => { i with sqs := i.sqs.filter (·.qid != q) }
      x.deleters.foldl (fun s w => s.completeAdmin n w Config.stSuccess 0) s1

/-- DELETE_SQ (R350): a queue that is already DELETING completes both commands together (R12). -/
def execDeleteSq (n : Nat) (s : State) : Host.Outcome State Fault Refusal :=
  match s.adminNext n 2 with
  | none => .next s
  | some c =>
    let q := field c.entry 4 2
    let s1 := s.takeChain n c
    match (s.instD n).sq? q with
    | none => .next (s1.complete n c Config.stInvalidQueue 0 0 none none)
    | some _ =>
      if q = 0 then .next (s1.complete n c Config.stInvalidQueue 0 0 none none)
      else .next (s1.modSq n q fun x => { x with state := .deleting, head := x.tail, deleters := x.deleters ++ [(c.cid, c.sqHead)] })

/-- SQ_DELETE_COMPLETE (R350). -/
def execSqDeleteComplete (n q : Nat) (s : State) : Host.Outcome State Fault Refusal := .next (s.finishSqDelete n q)

/-- DELETE_CQ (R350): the CQ is DELETING until its completion is written. -/
def execDeleteCq (n : Nat) (s : State) : Host.Outcome State Fault Refusal :=
  match s.adminNext n 4 with
  | none => .next s
  | some c =>
    let q := field c.entry 4 2
    let s1 := s.takeChain n c
    match (s.instD n).cq? q with
    | none => .next (s1.complete n c Config.stInvalidQueue 0 0 none none)
    | some _ =>
      if q = 0 then .next (s1.complete n c Config.stInvalidQueue 0 0 none none)
      else if ((s.instD n).sqs ++ s.newSqs n).any (·.cqid == q) then .next (s1.complete n c Config.stQueueBusy 0 0 none none)
      else .next ((s1.modCq n q fun x => { x with state := .deleting }).complete n c Config.stSuccess 0 0 none none)

-- ABORT_JOB (R89, R360) ----------------------------------------------------------------------------------------------------------------------------------------------

/-- ABORT_JOB: every admitted, uncompleted match is aborted; JOB_DONE where every match has completed; else JOB_UNKNOWN. -/
def execAbortJob (n : Nat) (s : State) : Host.Outcome State Fault Refusal :=
  match s.adminNext n 7 with
  | none => .next s
  | some c =>
    let e := c.entry
    let s1 := s.takeChain n c
    let whole := field e 4 2 == 0xFFFF
    let hit := fun (sq cid djid : Nat) => if whole then djid != 0 && djid == field e 8 8 else sq == field e 4 2 && cid == field e 6 2
    let mine := fun (j : Job) => j.inst == n && j.state == .running && hit j.sqid j.cid (j.dist.elim 0 (·.djid.toNat))
    let k := (s.jobs.filter mine).length
    if 0 < k then
      .next (({ s1 with jobs := s1.jobs.map fun j => if mine j then { j with abort := true } else j }).complete n c Config.stSuccess k 0 none none)
    else if (s.instD n).ended.any fun x => hit x.1 x.2.1 x.2.2 then .next (s1.complete n c Config.stJobDone 0 0 none none)
    else .next (s1.complete n c Config.stJobUnknown 0 0 none none)

-- GET_STATUS_PAGE (R361) ------------------------------------------------------------------------------------------------------------------------------------------------

def QState.code : QState → Nat
  | .active => 1
  | .error => 2
  | .deleting => 3

def Sq.pageEntry (q : Sq) : List Byte :=
  leBytes 2 q.qid ++ leBytes 1 0 ++ leBytes 1 q.state.code ++ leBytes 1 q.depthLog2 ++ leBytes 1 (if q.qid = 0 then 0 else q.cls) ++
  leBytes 2 q.cqid ++ leBytes 2 q.head ++ leBytes 2 q.tail ++ leBytes 4 0

def Cq.pageEntry (q : Cq) : List Byte :=
  leBytes 2 q.qid ++ leBytes 1 1 ++ leBytes 1 q.state.code ++ leBytes 1 q.depthLog2 ++ leBytes 1 0 ++ leBytes 2 q.vector ++ leBytes 2 q.head ++
  leBytes 2 q.tail ++ leBytes 4 q.reserved

/-- Admitted jobs that name an image. -/
def State.imageJobs (s : State) (n : Nat) (h : W32) : Nat := (s.jobs.filter fun j => j.inst == n && j.handle == h && j.state != .waiting).length

def State.slotEntry (s : State) (n k : Nat) : List Byte :=
  match (s.instD n).images.find? fun x => x.slot == k && !x.loading with
  | none => zeros 16
  | some x =>
    leBytes 4 x.handle.toNat ++ leBytes 4 x.image.bytes.length ++ leBytes 4 (s.imageJobs n x.handle) ++ leBytes 1 (if x.unloading then 2 else 1) ++ zeros 3

def JobSt.code : JobSt → Nat
  | .waiting => 0
  | .running => 1
  | .ending => 2

def Job.pageEntry (j : Job) : List Byte :=
  leBytes 2 j.sqid ++ leBytes 2 j.cid ++ leBytes 4 j.handle.toNat ++ leBytes 8 j.admitFrame.toNat ++ leBytes 8 (j.dist.elim 0 (·.djid.toNat)) ++
  leBytes 1 (if j.alive then j.state.code else 2) ++ zeros 7

/-- The entries of a status page. -/
def State.statusPage (s : State) (n page : Nat) : List (List Byte) :=
  match page with
  | 1 => (s.instD n).sqs.map Sq.pageEntry ++ (s.instD n).cqs.map Cq.pageEntry
  | 2 => (List.range 64).map (s.slotEntry n)
  | _ => (s.jobs.filter (·.inst == n)).map Job.pageEntry

/-- GET_STATUS_PAGE: the header and the whole entries that fit; an unwritable page is MEM_FAULT. -/
def execGetStatusPage (n : Nat) (s : State) : Host.Outcome State Fault Refusal :=
  match s.adminNext n 8 with
  | none => .next s
  | some c =>
    let e := c.entry
    let s1 := s.takeChain n c
    let es := s.statusPage n (byteAt e 4)
    let size := (es.headD []).length
    let cap := field e 16 4
    let k := if cap < 16 then 0 else if size = 0 then 0 else min es.length ((cap - 16) / size)
    let bytes := if cap < 16 then [] else
      leBytes 1 (byteAt e 4) ++ zeros 3 ++ leBytes 4 k ++ leBytes 8 s.frame.number.toNat ++ (es.take k).flatten
    match s1.writeInst n (field e 8 8) bytes with
    | none => .next (s1.complete n c Config.stMemFault 0 (16 + size * es.length) none none)
    | some t => .next (t.complete n c Config.stSuccess bytes.length (16 + size * es.length) none none)

end Sys2Proof.Machine
end

