-- ==== Sys2Proof/Machine/JobChecks.lean ====
section
/-!
DEFINITION. The admission checks of a JOB chain (R347, R352 to R355), with the table, area and bound rules of R48, R132 to R135, R141, R149,
R152, R156, R163, R289 and R417, and the job that a chain which passes them becomes.
-/

namespace Sys2Proof.Machine

-- THE FIELDS OF THE CHAIN (R352, R353) ---------------------------------------------------------------------------------------------------------------

def jobHandle (e : List Byte) : Nat := field e 4 4
def jobFlags (e : List Byte) : Nat := field e 8 2
def jobDistributed (e : List Byte) : Bool := bit (jobFlags e) 2
def jobInputs (e : List Byte) : Nat := byteAt e 0x0A
def jobTables (e : List Byte) : Nat := byteAt e 0x0B
def jobAreas (e : List Byte) : Nat := byteAt e 0x0C
def jobResults (e : List Byte) : Nat := byteAt e 0x0D
def jobStatus (e : List Byte) : Nat := field e 0x10 8
def jobArenaBytes (e : List Byte) : Nat := 65536 * field e 0x1C 4
def jobArena (e : List Byte) (d : Nat) : Nat := field e (0x20 + 8 * d) 8
def jobDjid (e : List Byte) : Nat := field e 0x60 8
def jobPartAddr (e : List Byte) : Nat := field e 0x68 8
def jobParts (e : List Byte) : Nat := field e 0x70 2

/-- Bytes of an item of a LIST. -/
def itemBytes (list : Nat) : Nat := if list = 2 then 8 else 16

/-- The items of a LIST over the continuation entries. -/
def items (es : List (List Byte)) (list : Nat) : List (List Byte) :=
  (es.drop 1).flatMap fun e =>
    if byteAt e 4 = list then (List.range (byteAt e 5)).map fun k => slice e (8 + itemBytes list * k) (itemBytes list) else []

/-- Check 3 on the first entry (R352). -/
def firstOk (e : List Byte) (dies : List Nat) : Bool :=
  let d := jobDistributed e
  byteAt e 1 < 4 && jobFlags e < 8 && 1 ≤ jobInputs e && jobInputs e ≤ 8 && jobTables e ≤ 16 && jobAreas e ≤ 4 && jobResults e ≤ 16 &&
  gap0 e 0x0E 2 && jobStatus e % 64 == 0 && decide (256 + 64 * jobResults e + 8 * jobParts e ≤ field e 0x18 4) && 16 ≤ field e 0x1C 4 &&
  field e 0x1C 4 ≤ 65536 && dies.all (fun k => jobArena e k % 65536 == 0) && (decide (jobDjid e ≠ 0) == d) &&
  (if d then jobPartAddr e % 8 == 0 && 2 ≤ jobParts e && jobParts e ≤ 2048 else jobPartAddr e == 0 && jobParts e == 0) && gap0 e 0x72 14

/-- Check 3 on a continuation entry (R353). -/
def contOk (e : List Byte) : Bool :=
  let l := byteAt e 4
  byteAt e 1 < 4 && 1 ≤ l && l ≤ 4 && 1 ≤ byteAt e 5 && byteAt e 5 ≤ (if l = 2 then 15 else 7) && gap0 e 6 2 && rest0 e (8 + itemBytes l * byteAt e 5)

def inputOk (x : List Byte) : Bool :=
  field x 0 8 % 16 == 0 && 1 ≤ field x 8 4 && field x 8 4 ≤ 16777216 && 1 ≤ byteAt x 12 && byteAt x 12 ≤ 32 && rest0 x 13

def resultOk (x : List Byte) : Bool := field x 0 8 % 64 == 0 && field x 8 8 % 64 == 0

/-- The participant list obeys R355. -/
def partsOk (ids : List Nat) (self : Option Nat) : Bool :=
  ids.all (· < 2048) && (ids.zip (ids.drop 1)).all (fun p => decide (p.1 < p.2)) && self.elim false ids.contains

/-- Pages of a range of instance memory are mapped. -/
def State.mapped (s : State) (n a len : Nat) : Bool :=
  (List.range (ceilDiv (a % Config.pageBytes + len) Config.pageBytes)).all fun k => (s.translate n (a / Config.pageBytes * Config.pageBytes + Config.pageBytes * k)).isSome

/-- Each page of a range satisfies a test on its entry and its place. -/
def State.pagesAll (s : State) (n a len : Nat) (p : W64 → Loc → Bool) : Bool :=
  (List.range (ceilDiv (a % Config.pageBytes + len) Config.pageBytes)).all fun k =>
    match s.translate n (a / Config.pageBytes * Config.pageBytes + Config.pageBytes * k) with
    | none => false
    | some (e, l) => p e l

/-- A range is mapped writable (R133, R163). -/
def State.mappedWritable (s : State) (n a len : Nat) : Bool := s.pagesAll n a len fun e _ => pteWrite e

def Loc.onDie (d : Nat) : Loc → Bool
  | .rlm dev => devDie dev == d
  | .host _ => false

def Loc.isHost : Loc → Bool
  | .rlm _ => false
  | .host _ => true

-- TABLES (R132 to R135, R141, R145, R149, R152) --------------------------------------------------------------------------------------------------------

/-- The table that a descriptor of 128 bytes describes. -/
def parseTable (addr : Nat) (d : List Byte) (builds : Bool) : Table where
  addr := addr
  mode := byteAt d 1
  bucketBits := byteAt d 2
  partBits := byteAt d 3
  keyBytes := byteAt d 4
  linkMax := byteAt d 5
  recordQ8 := byteAt d 6
  flags := byteAt d 7
  seed := BitVec.ofNat 64 (field d 8 8)
  poolBytes := field d 0x10 8
  spillBase := field d 0x18 8
  spillBytes := field d 0x20 8
  bases := (List.range 8).map fun k => field d (0x40 + 8 * k) 8
  builds := builds
  sealed := false
  rows := if builds then 0 else field d 0x28 8
  nullKeys := if builds then 0 else field d 0x38 8
  spilled := []
  spillUse := []
  chunks := []
  partRows := []
  layout := none
  drained := false


/-- Bytes of a copy (R133). -/
def Table.copyLen (t : Table) (c : Nat) : Nat := t.poolAddr c + t.poolBytes - t.baseOf c

/-- The fields of R132 and the copies of R133. -/
def State.tableOk (s : State) (n : Nat) (dies : List Nat) (t : Table) (rsv : List Byte) : Bool :=
  let kib64 := fun (a : Nat) => a % 65536 == 0
  t.addr % 64 == 0 && t.mode ≤ 1 && 6 ≤ t.bucketBits && t.bucketBits ≤ 32 && t.partBits ≤ 12 && t.partBits + 2 ≤ t.bucketBits &&
  1 ≤ t.keyBytes && t.keyBytes ≤ (if t.inlined then 5 else 32) && t.linkMax ≤ 15 &&
  (if t.inlined then t.recordQ8 == 0 else 2 ≤ t.recordQ8 && t.recordQ8 ≤ 35) && t.flags < 16 && kib64 t.poolBytes && 65536 ≤ t.poolBytes &&
  t.poolBytes ≤ 0x800000000 && allZero rsv &&
  (if t.dynSpill then t.spillBase % 4096 == 0 && t.spillBytes % 4096 == 0 && t.spillBase != 0 && t.spillBytes != 0 &&
      s.pagesAll n t.spillBase (2 * t.parts * t.spillBytes) (fun _ l => l.isHost)
    else t.spillBase == 0 && t.spillBytes == 0) &&
  (if t.mode = 0 then (t.bases.drop 1).all (· == 0) else true) &&
  (t.copies dies).all fun c => kib64 (t.baseOf c) && s.pagesAll n (t.baseOf c) (t.copyLen c) fun e l => pteWrite e && (t.mode == 0 || l.onDie c)

/-- The end of the record that a BUILD or GROUP stage writes (R141). -/
def recordEnd (t : Table) (p : List Byte) : Nat :=
  if hpOp p = 6 then
    let sizes := (hpAggs p).map fun a => aggSize a.1
    match (aggOffsets t.fieldsAt sizes).getLast?, sizes.getLast? with
    | some o, some z => o + z
    | _, _ => t.fieldsAt
  else t.fieldsAt + ((hpPay p).map fun q => payField q.2).sum

/-- A Hash Probe Engine stage agrees with its table descriptor (R135, R141, R145, R149, R152). -/
def hashStageOk (st : Stage) (t : Table) : Bool :=
  let p := st.param
  let op := hpOp p
  let makes := op == 1 || op == 6
  ((hpKeys p).map (·.bytes)).sum + (if op = 6 then 1 else 0) == t.keyBytes && (!makes || !t.prebuilt) &&
  (!t.inlined || (hpPay p).isEmpty) && (op != 6 || (t.mode == 0 && !t.inlined)) && (!makes || t.inlined || recordEnd t p == 8 * t.recordQ8) &&
  (op != 1 || t.mode == 0 || st.placement == 1) && (makes || t.mode == 0 || st.placement != 3)

-- WHAT THE IMAGE ASKS OF THE JOB (R353) -----------------------------------------------------------------------------------------------------------------------

/-- The sink stages that write a result buffer, ascending. -/
def Image.resultStages (im : Image) : List Nat :=
  (im.stages.zipIdx.filter fun x => x.1.sink && !x.1.isLoad && x.1.kind != .exchange).map (·.2)

/-- The stages that make table `k`. -/
def Image.makers (im : Image) (k : Nat) : Bool := im.stages.any fun st => st.kind == .hash && hpTable st.param == k && (hpOp st.param == 1 || hpOp st.param == 6)

/-- Some stage probes table `k`. -/
def Image.probers (im : Image) (k : Nat) : Bool :=
  im.stages.any fun st => st.kind == .hash && hpTable st.param == k && 2 ≤ hpOp st.param && hpOp st.param ≤ 5

/-- Check 6 of R347. -/
def State.matchesImage (s : State) (n : Nat) (dies : List Nat) (e : List Byte) (im : Image) (tables : List Table) (rsv : List (List Byte))
    (areas : List (Nat × Nat)) : Bool :=
  jobInputs e == (im.stages.filter (·.source)).length && jobResults e == im.resultStages.length &&
  (im.stages.all fun st => match st.kind with
    | .hash => (tables[hpTable st.param]?).elim false (hashStageOk st)
    | .merge => mnArea st.param < areas.length
    | .exchange => byteAt st.param 0 != 4 || field st.param 4 2 < max 1 (jobParts e)
    | _ => true) &&
  (tables.zipIdx.all fun x => s.tableOk n dies x.1 (rsv.getD x.2 []) && (x.1.builds || x.1.prebuilt || !im.probers x.2)) &&
  areas.all fun a => a.1 % 65536 == 0 && a.2 % 65536 == 0 && 65536 ≤ a.2 && a.2 ≤ 0x1000000000 && s.mappedWritable n a.1 a.2

-- COLLISIONS AND SHARES (R48, R156, R289) -------------------------------------------------------------------------------------------------------------------------

/-- Another admitted job of the instance holds the table at an address; with `build`, is building it. -/
def State.tableHeld (s : State) (n addr : Nat) (build : Bool) : Bool :=
  s.jobs.any fun j => j.inst == n && j.state != .waiting && j.tables.any fun t => t.addr == addr && (!build || t.builds)

/-- Table state and use (R156); STATE is read from the descriptor. -/
def State.tableUseOk (s : State) (n : Nat) (t : Table) (st : Nat) : Bool :=
  if t.builds then !s.tableHeld n t.addr false
  else if t.prebuilt then st == tableSealed && !s.tableHeld n t.addr true
  else true

/-- A LOAD stage meets no LOADING region on the job's dies. -/
def State.regionsFree (s : State) (n : Nat) (dies : List Nat) (im : Image) : Bool :=
  !im.stages.any (·.isLoad) || dies.all fun d => (s.instD n).amuState.getD d 0 != 1

/-- A share word of a unit kind, by the changes accepted so far. -/
def State.acceptedShare (s : State) (n : Nat) (k : UnitKind) : W64 :=
  let code := kindCode k
  let now := match k with
    | .streamer => (s.instD n).alloc.shareCs
    | .hash => (s.instD n).alloc.shareHpe
    | .merge => (s.instD n).alloc.shareMn
    | .amu => (s.instD n).alloc.shareAmu
    | .digest => (s.instD n).alloc.shareDg
    | _ => 0
  s.changes.foldl (fun w c => if c.inst = n then
    match c.change with
    | .share x v => if x = code then v else w
    | _ => w
    else w) now

def fixedUnit (k : UnitKind) : Bool := k != .forager && k != .exchange

/-- Every fixed-unit bound fits the instance's nonzero shares (R48). -/
def State.boundsFit (s : State) (n : Nat) (dies : List Nat) (im : Image) : Bool :=
  im.stages.all fun st => !fixedUnit st.kind ||
    dies.all fun d =>
      let x := dieByte (s.acceptedShare n st.kind) d
      x == 0 || decide (st.loadBound ≤ x * s.unitCycles / 64)

-- THE JOB -----------------------------------------------------------------------------------------------------------------------------------------------------------

/-- What a device knows of a participant before its join report. -/
def Peer.fresh (dev : Nat) : Peer :=
  { dev := dev, inst := 0, gen := 0, joined := false, state := .joining, status := 0, failFrame := 0, missing := 0, reported := false,
    sourceDone := [], placed := [], total := [] }

/-- The distributed side of a job at its admission (R412). -/
def State.freshDist (s : State) (djid : Nat) (ids : List Nat) : Dist :=
  let self := s.fabric.deviceIdActive.getD 0xFFFF
  { Dist.alone self with
    djid := BitVec.ofNat 64 djid
    devs := ids
    state := .joining
    peers := (ids.filter (· != self)).map Peer.fresh }

/-- The job of a chain that has passed its checks, waiting for its resources (R348). -/
def State.makeJob (s : State) (n : Nat) (c : Chain) (im : Image) (tables : List Table) (ids : List Nat) : Job :=
  let e := c.entry
  let dies := s.activeDies
  { jid := s.nextJid
    inst := n
    gen := (s.instD n).gen
    sqid := c.sqid
    sqHead := c.sqHead
    cqid := ((s.instD n).sq? c.sqid).elim 0 (·.cqid)
    cid := c.cid
    handle := BitVec.ofNat 32 (jobHandle e)
    image := im
    state := .waiting
    strictLen := bit (jobFlags e) 0
    resultDigest := bit (jobFlags e) 1
    inputs := (items c.entries 1).map fun x => { addr := field x 0 8, groups := field x 8 4, cols := byteAt x 12 }
    tables := tables
    areas := (items c.entries 3).map fun x =>
      { addr := field x 0 8, bytes := field x 8 8, runs := [], merging := none, finished := false, layout := none, emitted := 0 }
    results := ((items c.entries 4).zip im.resultStages).map fun x =>
      { addr := field x.1 0 8, bytes := field x.1 8 8, stage := x.2, off := 0, held := [], complete := [], next := [], nodes := [], hashed := 0,
        root := none }
    arenas := dies.map fun d => { die := d, addr := jobArena e d, bytes := jobArenaBytes e, live := [] }
    statusAddr := jobStatus e
    admitFrame := 0
    order := 0
    dieSet := dies
    parts := dies.map fun d => { die := d, failed := none, stopped := false, morsels := 0, flags := 0 }
    stages := im.stages.map fun _ => { group := 0, row := 0, nextSeq := 0, cutDone := false, done := false, serial := [], nextLoad := [] }
    flows := im.flows.map fun _ => { state := .opened, nextOrigin := 0, nextFrag := 0, held := [], done := false, seq := 0 }
    failure := none
    abort := false
    flags := 0
    dist := if jobDistributed e then some (s.freshDist (jobDjid e) ids) else none
    chain := c.entries }

/-- The loaded image that a handle names (R79). -/
def Inst.imageOf (i : Inst) (h : Nat) : Option Slot := i.images.find? fun x => x.handle == BitVec.ofNat 32 h && !x.loading && !x.unloading

/-- Checks 3 to 8 of R347 on a JOB chain: the job, or the status of the first failure. -/
def State.checkJob (s : State) (n : Nat) (c : Chain) : Except Nat Job := do
  let e := c.entry
  let dies := s.activeDies
  let ins := items c.entries 1
  let tabs := (items c.entries 2).map fun x => field x 0 8
  let areas := (items c.entries 3).map fun x => (field x 0 8, field x 8 8)
  let results := items c.entries 4
  need (firstOk e dies && (c.entries.drop 1).all contOk && ins.length == jobInputs e && tabs.length == jobTables e &&
    areas.length == jobAreas e && results.length == jobResults e && ins.all inputOk && results.all resultOk) Config.stInvalidField
  need (s.mapped n (jobStatus e) (field e 0x18 4) && ins.all (fun x => s.mapped n (field x 0 8) (16 * field x 8 4 * byteAt x 12)) &&
    (!jobDistributed e || s.mapped n (jobPartAddr e) (2 * jobParts e)) && tabs.all (fun a => s.mapped n a 128)) Config.stMemFault
  let list ← s.fetch n (jobPartAddr e) (2 * jobParts e)
  let ids := (List.range (jobParts e)).map fun k => field list (2 * k) 2
  need (!jobDistributed e || partsOk ids s.fabric.deviceIdActive) Config.stInvalidField
  need (dies.all fun d => s.pagesAll n (jobArena e d) (jobArenaBytes e) fun _ l => l.onDie d) Config.stInvalidField
  match (s.instD n).imageOf (jobHandle e) with
  | none => .error Config.stImgHandle
  | some x =>
    let im := x.image
    match s.recheckImage im with
    | some st => .error st
    | none =>
      need (!jobDistributed e || s.keeper.rwp.syncMode == 1) Config.stImgUnsupported
      let descs ← tabs.mapM fun a => s.fetch n a 128
      let tables := (tabs.zip descs).zipIdx.map fun q => parseTable q.1.1 q.1.2 (im.makers q.2)
      need (s.matchesImage n dies e im tables (descs.map fun d => slice d 0x36 2) areas) Config.stInvalidField
      need ((tables.zip descs).all fun q => s.tableUseOk n q.1 (byteAt q.2 0)) Config.stHashTableState
      need (s.regionsFree n dies im) Config.stAmuState
      need (s.boundsFit n dies im) Config.stBoundExceeded
      .ok (s.makeJob n c im tables ids)

-- RESOURCES (R80, R156, R348) ------------------------------------------------------------------------------------------------------------------------------------------

def Job.admitted (j : Job) : Bool := j.state != .waiting

/-- Ordered-flow contexts that a job holds on a die: those of its ordered flows, on the first die of its set (R80, R171). -/
def Job.contextsOn (j : Job) (d : Nat) : Nat := if j.dieSet.head? = some d then (j.image.flows.filter (·.ordered)).length else 0

/-- Entries of the admission table in use: admitted jobs and admin commands (R348). -/
def State.admissionUsed (s : State) : Nat := (s.jobs.filter (·.admitted)).length + (s.insts.map fun i => (i.fetched.filter (·.sqid == 0)).length).sum

/-- Tables in use, each by its instance and descriptor address (R156). -/
def State.tablesInUse (s : State) : List (Nat × Nat) := ((s.jobs.filter (·.admitted)).flatMap fun j => j.tables.map fun t => (j.inst, t.addr)).eraseDups

/-- The resources that a waiting job needs are free (R348). -/
def State.resourcesFree (s : State) (j : Job) : Bool :=
  s.admissionUsed < Config.admissionEntries &&
  (j.dieSet.all fun d => ((s.jobs.filter (·.admitted)).map (·.contextsOn d)).sum + j.contextsOn d ≤ Config.orderedContexts) &&
  ((s.tablesInUse ++ j.tables.map fun t => (j.inst, t.addr)).eraseDups).length ≤ Config.tablesInUse

end Sys2Proof.Machine
end

