-- ==== Sys2Proof/Machine/Admission.lean ====
section
/-!
DEFINITION. The fetch of chains and the admission of jobs (R144, R289, R346 to R348, R351), and the image commands (R77 to R79).
-/

namespace Sys2Proof.Machine

-- CHAIN_FETCH (R346, R347) ---------------------------------------------------------------------------------------------------------------------------------

/-- Instances in the order of R60. -/
def State.byTie (s : State) : List Nat := (List.range 256).map fun k => (s.tbPtr + k) % 256

/-- The first instance of a list that has a servable SQ, with the SQ and what is left of the list. -/
def State.servableIn (s : State) : List Nat → Option (Nat × Sq × List Nat)
  | [] => none
  | n :: rest =>
    let i := s.instD n
    match if i.admits then i.nextSq else none with
    | some q => some (n, q, rest)
    | none => s.servableIn rest

/-- What the fetch serves next: the rest of the running round, or a new round (R346). -/
def State.nextServed (s : State) : Option (Nat × Sq × List Nat) :=
  match s.servableIn s.fetchRound with
  | some x => some x
  | none => s.servableIn s.byTie

/-- The outcome of checks 1 to 8 on a fetched chain: none passes. -/
def State.checkChain (s : State) (n : Nat) (c : Chain) (broken : Bool) : Option Nat :=
  if broken then some Config.stChainBroken
  else if c.sqid = 0 then
    if !adminOpcode c.opcode then some Config.stInvalidOpcode
    else if adminFields c.entry (s.vectors n) then none else some Config.stInvalidField
  else if c.opcode != 0x10 then some Config.stInvalidOpcode
  else match s.checkJob n c with
    | .ok _ => none
    | .error st => some st

/-- CHAIN_FETCH: one chain of the next servable SQ is fetched, takes a slot of its CQ, and is rejected or kept (R345 to R347, R351). A JOB chain that is kept
holds its SQ until it is admitted (R348). -/
def execChainFetch (s : State) : Host.Outcome State Fault Refusal :=
  if !s.power.mainPower || s.power.perst || s.power.devState != .ready then .next s
  else match s.nextServed with
    | none => .next { s with fetchRound := [] }
    | some (n, q, rest) =>
      let es := (List.range q.waiting).map fun k => s.sqEntry n q (q.head + k)
      let take := if q.qid = 0 then (1, false) else chainTake es
      let head := (q.head + take.1) % q.depth
      let e := es.headD []
      let c : Chain := { sqid := q.qid, sqHead := head, cid := entCid e, opcode := entOpcode e, entries := es.take take.1 }
      let s1 := ({ s with fetchRound := rest }.modSq n q.qid fun x => { x with head := head }).modCq n q.cqid fun x =>
        { x with reserved := x.reserved + 1 }
      let s2 := if q.qid = 0 then s1 else s1.modInst n fun i => { i with served := i.served.set q.cls q.qid }
      match s2.checkChain n c take.2 with
      | some st => .next (s2.complete n c st 0 0 none none)
      | none =>
        let s3 := s2.modInst n fun i => { i with fetched := i.fetched ++ [c] }
        .next (if q.qid = 0 then s3 else s3.modSq n q.qid fun x => { x with held := true })

-- JOB AND JOB_ADMIT (R80, R144, R289, R348) ----------------------------------------------------------------------------------------------------------------------

/-- JOB: the first fetched JOB chain of instance `n` becomes a waiting job; what no longer passes the checks is rejected (R347, R352). -/
def execJob (n : Nat) (s : State) : Host.Outcome State Fault Refusal :=
  match (s.instD n).fetched.find? fun c => c.sqid != 0 with
  | none => .next s
  | some c =>
    if !(s.instD n).admits || s.power.devState != .ready then .next s
    else
      let s1 := s.takeChain n c
      match s1.checkJob n c with
      | .error st => .next ((s1.modSq n c.sqid fun x => { x with held := false }).complete n c st 0 0 none none)
      | .ok j => .next { s1 with jobs := s1.jobs ++ [j], nextJid := s1.nextJid + 1 }

/-- The clear morsels of a table that the job builds, on the dies that home their pages (R144). -/
def State.spawnClears (s : State) (j : Job) (ti : Nat) (t : Table) : State :=
  match j.image.stages.zipIdx.find? fun x => x.1.kind == .hash && hpTable x.1.param == ti && (hpOp x.1.param == 1 || hpOp x.1.param == 6) with
  | none => s
  | some x =>
    (t.copies j.dieSet).foldl (fun s c =>
      (List.range (ceilDiv (64 * t.buckets + t.partBytes) Config.pageBytes)).foldl (fun s k =>
        s.spawn j x.2 x.1 (s.homeDie j (t.baseOf c + Config.pageBytes * k)) 0 0 (.clear ti c k)) s) s

/-- What admission starts: tables to BUILDING and their clears, regions to LOADING, and the first source morsels (R144, R289, R348). -/
def State.startJob (s : State) (j : Job) : State :=
  let s1 := j.tables.zipIdx.foldl (fun s x => if x.1.builds then ((s.putTableState j.inst x.1 tableBuilding).spawnClears j x.2 x.1) else s) s
  let s2 := if j.image.stages.any (·.isLoad) then
      s1.modInst j.inst fun i => { i with amuState := j.dieSet.foldl (fun l d => l.set d 1) i.amuState }
    else s1
  s2.settle j.jid

/-- The waiting job of an instance that is admitted next: the earliest whose resources are free and whose instance admits work. -/
def State.admissible (s : State) (n : Nat) : Option Job :=
  if (s.instD n).admits && s.power.devState == .ready then s.jobs.find? fun j => j.inst == n && !j.admitted && s.resourcesFree j else none

/-- The job as it is admitted now: its die set is the active dies of this moment (R80). -/
def State.admittedJob (s : State) (w : Job) : Job :=
  let live := fun (d : Nat) => s.activeDies.contains d
  { w with
    state := .running
    admitFrame := s.frame.number
    order := s.nextMid
    gen := (s.instD w.inst).gen
    dieSet := w.dieSet.filter live
    parts := w.parts.filter fun p => live p.die
    arenas := w.arenas.filter fun a => live a.die
    dist := w.dist.map fun D => { D with admittedNs := s.power.uptimeNs } }

/-- The completion of a waiting job that is rejected. -/
def State.rejectJob (s : State) (w : Job) (st : Nat) : State :=
  { s with jobs := s.jobs.filter (·.jid != w.jid) }.complete w.inst
    { sqid := w.sqid, sqHead := w.sqHead, cid := w.cid, opcode := 0x10, entries := w.chain } st 0 0 none none

/-- JOB_ADMIT: a checked chain that obtains its resources is admitted, its SQ is served again, and its sources are cut (R80, R348). An image that no longer fits
the device rejects it (R79). -/
def execJobAdmit (n : Nat) (s : State) : Host.Outcome State Fault Refusal :=
  match s.admissible n with
  | none => .next s
  | some w =>
    let freed := s.modSq n w.sqid fun x => { x with held := false }
    match s.recheckImage w.image with
    | some st => .next (freed.rejectJob w st)
    | none =>
      let j := s.admittedJob w
      .next ({ freed with jobs := s.jobs.map (fun (x : Job) => if x.jid = j.jid then j else x), nextMid := s.nextMid + 1 }.startJob j)

-- LOAD_IMAGE (R77, R78) ----------------------------------------------------------------------------------------------------------------------------------------------

/-- The bytes of an image slot in the store: of a loading one, the length of its entry. -/
def Slot.bytes (x : Slot) : Nat := if x.req = [] then x.image.bytes.length else field x.req 16 8

def Inst.storeBytes (i : Inst) : Nat := (i.images.map (·.bytes)).sum

/-- Check 2: slots and store space (R77). -/
def State.storeRoom (s : State) (n len : Nat) : Bool :=
  let i := s.instD n
  decide (i.images.length < 64) && decide ((s.insts.map (·.images.length)).sum < 1024) &&
  decide (i.storeBytes + len ≤ i.alloc.imgStore * 0x100000) && decide ((s.insts.map (·.storeBytes)).sum + len ≤ 0x4000000)

/-- LOAD_IMAGE commands whose checks run now (R78). -/
def State.loading (s : State) : Nat := (s.insts.map fun i => (i.images.filter (·.req != [])).length).sum

/-- End a LOAD_IMAGE that failed: its completion and its audit record (R77, R440). -/
def State.failLoad (s : State) (n : Nat) (c : Chain) (st detail : Nat) : State :=
  (s.complete n c st 0 detail none none).auditCommand n 5 st (slice c.entry 32 32)

/-- A free image slot of an instance: any one of them, by a free value. -/
def State.anySlot (s : State) (n : Nat) : Nat :=
  let open_ := (List.range 64).filter fun k => !(s.instD n).images.any (·.slot == k)
  open_.getD (Config.imageSlot s.draw % open_.length) 0

/-- The image of a slot that is still being checked. -/
def Image.empty : Image where
  bytes := []
  digest := []
  stages := []
  flows := []
  sections := []
  minComb := 0
  framePeriod := 0
  requires := 0
  formatMinor := 0
  runtimeMin := 0

/-- LOAD_IMAGE: the checks in order; a pass holds a free slot and its store until the completion (R77, R78). While four are being processed a fifth
waits. -/
def execLoadImage (n : Nat) (s : State) : Host.Outcome State Fault Refusal :=
  match s.adminNext n 5 with
  | none => .next s
  | some c =>
    let e := c.entry
    let len := field e 16 8
    let s1 := s.takeChain n c
    if 4 ≤ s.loading then .next s
    else if len < 256 ∨ 0x1000000 < len then .next (s1.failLoad n c Config.stImgFormat 0)
    else if !s.storeRoom n len then .next (s1.failLoad n c Config.stImgNoSpace 0)
    else match s.firstUnreadable n (field e 8 8) len with
      | some k => .next (s1.failLoad n c Config.stMemFault k)
      | none =>
        let bs := (s.readInst n (field e 8 8) len).getD []
        let computed := sha256 (bs.take (len - 32))
        let p := s1.compareDigests (slice e 32 32) computed
        if !digestsEqual p.2 && slice e 32 32 == computed then .next (p.1.failLoad n c Config.stImgDigest 0xFFFFFFFF)
        else match p.1.checkImage bs (slice e 32 32) with
          | .error x => .next (p.1.failLoad n c x.1 x.2)
          | .ok im =>
            .next (p.1.drawn.modInst n fun i => { i with images := i.images ++
              [{ slot := s.anySlot n, handle := 0, image := im, req := e, loading := true, unloading := false, waiters := [(c.cid, c.sqHead)] }] })

/-- The load counter after one more load (R78). -/
def nextTag (t : Nat) : Nat := if t = 0x3FFFFFF then 1 else t + 1

/-- LOAD_IMAGE_CHECKS_DONE: the earliest load of instance `n` whose checks have passed is copied; IMEAS0 is extended, the handle is issued, and the completion
waits for the boundary (R76, R78). -/
def execLoadImageChecksDone (n : Nat) (s : State) : Host.Outcome State Fault Refusal :=
  match (s.instD n).images.find? (·.req != []) with
  | none => .next s
  | some x =>
    let tag := (s.instD n).loadCtr
    let h : W32 := BitVec.ofNat 32 (64 * tag + x.slot)
    let s1 := s.modInst n fun i => { i with
      loadCtr := nextTag i.loadCtr
      images := i.images.map fun y => if y.slot = x.slot then { y with req := [], handle := h, waiters := [] } else y }
    let s2 := (s1.extendImeas n 0 x.image.digest).auditCommand n 5 Config.stSuccess (slice x.req 32 32)
    .next (x.waiters.foldl (fun s w => s.completeAdmin n w Config.stSuccess h.toNat) s2)

-- UNLOAD_IMAGE (R79) -----------------------------------------------------------------------------------------------------------------------------------------------------

/-- Jobs of the instance that name an image, waiting ones too. -/
def State.imageBusy (s : State) (n : Nat) (h : W32) : Bool := s.jobs.any fun j => j.inst == n && j.handle == h

/-- UNLOAD_IMAGE: the handle names nothing from now on; the slot is freed once no job names it. A second unload waits with the first (R12, R79). -/
def execUnloadImage (n : Nat) (s : State) : Host.Outcome State Fault Refusal :=
  match s.adminNext n 6 with
  | none => .next s
  | some c =>
    let h : W32 := BitVec.ofNat 32 (field c.entry 4 4)
    let s1 := s.takeChain n c
    let log := fun (s : State) (st : Nat) => s.auditCommand n 6 st (oldNew 0 (h.setWidth 64))
    match (s.instD n).images.find? fun x => x.handle == h && !x.loading with
    | none => .next (log (s1.complete n c Config.stImgHandle 0 0 none none) Config.stImgHandle)
    | some x =>
      .next (log (s1.modInst n fun i => { i with images := i.images.map fun y =>
        if y.slot = x.slot then { y with unloading := true, waiters := y.waiters ++ [(c.cid, c.sqHead)] } else y }) Config.stSuccess)

/-- IMAGE_UNLOAD_COMPLETE: the last job naming the image has completed; slot and store are freed and the unloads complete (R79). -/
def execImageUnloadComplete (n slot : Nat) (s : State) : Host.Outcome State Fault Refusal :=
  match (s.instD n).images.find? fun x => x.slot == slot && x.unloading with
  | none => .next s
  | some x =>
    if s.imageBusy n x.handle then .next s
    else
      let s1 := s.modInst n fun i => { i with images := i.images.filter (·.slot != slot) }
      .next (x.waiters.foldl (fun s w => s.completeAdmin n w Config.stSuccess 0) s1)

end Sys2Proof.Machine
end

