-- ==== Sys2Proof/Machine/JobEnd.lean ====
section
/-!
DEFINITION. The end of jobs: the discard of a job's work (R85), decisions and outcomes (R83 to R89), the extended status record (R358,
R359), what a commit or a failure leaves in tables and regions (R146, R156, R289), and the completions of step 1 (R341, R343, R344, R356).
-/

namespace Sys2Proof.Machine

-- DISCARDING A JOB'S WORK (R85, R452) -----------------------------------------------------------------------------------------------------------------

/-- A fixed unit lets go of a morsel that a test picks. -/
def UnitSt.dropIf (u : UnitSt) (p : Morsel → Bool) : UnitSt := if u.morsel.elim false p then { u with morsel := none } else u

/-- A Forager lets go of a morsel that a test picks, with the clear of R249. -/
def Fgr.dropIf (g : Fgr) (p : Morsel → Bool) : Fgr := if g.morsel.elim false p then g.discard else g

/-- A die discards the morsels that a test picks, without an overrun or an eviction. -/
def Die.dropMorsels (d : Die) (p : Morsel → Bool) : Die :=
  { d with
    ready := d.ready.filter (!p ·)
    fgrs := d.fgrs.map (·.dropIf p)
    saved := d.saved.filter (!p ·.morsel)
    units := d.units.map (·.dropIf p) }

/-- The running and parked work of a job is discarded on every die, and its digest contexts are released. -/
def State.dropWork (s : State) (jid : Nat) : State :=
  let mids := (s.jobMorsels jid).map (·.mid)
  { s with dies := s.dies.map fun d => (d.dropMorsels (·.jid == jid)).releaseCtxs fun h => match h with
      | .morsel m => mids.contains m
      | .stage j _ => j == jid
      | .result j => j == jid
      | _ => false }

-- DECISIONS (R83 to R89) -----------------------------------------------------------------------------------------------------------------------------------

/-- The participants of a distributed job whose failure is known: device, status, frame; the device's own once it has been sent. -/
def Dist.failures (D : Dist) (self : Nat) (own : Option Failure) : List (Nat × Nat × Nat) :=
  (D.peers.filter (·.state == .failed)).map (fun p => (p.dev, p.status, p.failFrame)) ++
  (if D.state == .failed && D.decideIn == some 0 then [(self, D.status, own.elim 0 (·.frame))] else [])

/-- Earlier frame, then lower device (R85). -/
def failBefore (a b : Nat × Nat × Nat) : Bool := a.2.2 < b.2.2 || (a.2.2 == b.2.2 && a.1 ≤ b.1)

/-- The outcome of a distributed job, once every report that decides it is known (R88). -/
def Dist.decision (D : Dist) (self : Nat) (own : Option Failure) : Option Nat :=
  match (sortBy failBefore (D.failures self own)).head? with
  | some f => some f.2.1
  | none => if D.state == .done && D.decideIn == some 0 && D.peers.all (·.state == .done) then some Config.stSuccess else none

/-- The status with which a job ends at this boundary, if it does. -/
def State.jobDecision (s : State) (j : Job) : Option Nat :=
  if !j.admitted then none
  else match j.dist with
    | some D => if D.devs.length = 0 then none else D.decision (s.fabric.deviceIdActive.getD 0xFFFF) j.failure
    | none =>
      if j.abort then some Config.stAborted
      else match j.failure with
        | some f => some f.status
        | none => if j.finished then some Config.stSuccess else none

/-- A job that is not distributed; an exchange stage of such a job keeps its wire morsels in a `Dist` of its own. -/
def Job.alone (j : Job) : Bool := match j.dist with
  | none => true
  | some D => D.djid == 0 && D.peers == []

/-- The status with which a job ends at this boundary, if it does (R84, R85, R88, R89). -/
def State.jobOutcome (s : State) (j : Job) : Option Nat := s.jobDecision (if j.alone then { j with dist := none } else j)

-- THE RECORDS (R86, R356, R358, R359) --------------------------------------------------------------------------------------------------------------------------

/-- The outcome mask (R86). -/
def State.outcomeMask (s : State) (j : Job) : Nat :=
  if j.alone then bitmap ((j.parts.filter (·.failed.isSome)).map (·.die))
  else
    let self := s.fabric.deviceIdActive.getD 0
    match j.dist with
    | none => 0
    | some D => bitmap ((((D.peers.filter (·.state == .failed)).map (·.dev)) ++ (if D.state == .failed then [self] else [])).map (· / 32))

/-- A die's entry of 16 bytes. -/
def Job.dieEntry (j : Job) (ok : Bool) (d : Nat) : List Byte :=
  match j.parts.find? (·.die == d) with
  | none => zeros 8 ++ leBytes 2 0xFFFF ++ zeros 6
  | some p =>
    let f := p.failed.getD (0, 0xFFFF, 0)
    leBytes 1 (if ok then 1 else if p.failed.isSome then 2 else 3) ++ leBytes 1 f.1 ++ leBytes 1 (p.flags % 16) ++ zeros 1 ++
    leBytes 4 p.morsels ++ leBytes 2 f.2.1 ++ zeros 2 ++ leBytes 4 f.2.2

/-- A result buffer's entry of 64 bytes. -/
def ResultBuf.entry (r : ResultBuf) (ok : Bool) : List Byte :=
  let root := if ok then r.root else none
  leBytes 8 r.off ++ leBytes 1 (if ok then 1 else 0) ++ leBytes 1 (if root.isSome then 1 else 0) ++ zeros 6 ++ fit 32 (root.getD []) ++ zeros 16

/-- A participant's entry of 8 bytes. -/
def Job.partEntry (j : Job) (ok : Bool) (self dev : Nat) : List Byte :=
  match j.dist with
  | none => zeros 8
  | some D =>
    let x := if dev = self then (D.state == .failed, D.status, j.failure.elim 0 (·.frame))
      else match D.peers.find? (·.dev == dev) with
        | none => (false, 0, 0)
        | some p => (p.state == .failed, p.status, p.failFrame)
    leBytes 2 dev ++ leBytes 1 (if ok then 1 else if x.1 then 2 else 3) ++ leBytes 1 (if x.1 then x.2.1 else 0) ++
    leBytes 4 (if x.1 then x.2.2 else 0)

/-- The participant that failed first, and in which frame. -/
def State.firstPeer (s : State) (j : Job) : Option (Nat × Nat × Nat) :=
  match j.dist with
  | none => none
  | some D => (sortBy failBefore (D.failures (s.fabric.deviceIdActive.getD 0xFFFF) j.failure)).head?

/-- The extended status record at the boundary that opens frame `opens` (R358, R359). -/
def State.statusRecord (s : State) (j : Job) (status : Nat) (opens : W64) : List Byte :=
  let ok := status == Config.stSuccess
  let self := s.fabric.deviceIdActive.getD 0xFFFF
  let far := !j.alone
  let peer := if far then s.firstPeer j else none
  let mine := if ok then none else if peer.elim false (·.1 != self) then none else j.failure
  let devs := if far then j.dist.elim [] (·.devs) else []
  leBytes 2 j.sqid ++ leBytes 2 j.cid ++ leBytes 1 status ++ leBytes 1 (j.flags % 16) ++ leBytes 2 j.gen.toNat ++
  leBytes 8 (if ok then 0 else s.outcomeMask j) ++ leBytes 8 opens.toNat ++
  leBytes 8 (match peer, mine with | some p, _ => p.2.2 | none, some f => f.frame | none, none => 0) ++
  leBytes 2 (mine.elim 0xFFFF (·.stage)) ++ leBytes 1 (mine.elim 0xFF (·.die)) ++ leBytes 1 j.results.length ++
  leBytes 2 (if far ∧ ¬ ok then peer.elim 0xFFFF (·.1) else 0xFFFF) ++ leBytes 2 devs.length ++ leBytes 8 (j.dist.elim 0 (·.djid.toNat)) ++
  fit 32 ((mine.elim [] (·.trap)).flatMap fun w => leBytes 8 w.toNat) ++ zeros 4 ++ zeros 44 ++
  (List.range 8).flatMap (j.dieEntry ok) ++ j.results.flatMap (·.entry ok) ++ devs.flatMap (j.partEntry ok self)

-- ENDING A JOB ------------------------------------------------------------------------------------------------------------------------------------------------------

/-- What a job leaves in its tables: SEALED with its counts at a commit, INVALID at a failure (R146, R156). -/
def State.endTables (s : State) (j : Job) (ok : Bool) : State :=
  (j.tables.filter (·.builds)).foldl (fun s t => if ok then s.commitTable j.inst j.dieSet t else s.putTableState j.inst t tableInvalid) s

/-- What a job with a LOAD stage leaves of the instance's regions: READY or STALE (R289). -/
def State.endRegions (s : State) (j : Job) (ok : Bool) : State :=
  if j.image.stages.any (·.isLoad) then
    s.modInst j.inst fun i => { i with amuState := j.dieSet.foldl (fun l d => l.set d (if ok then 0 else 2)) i.amuState }
  else s

/-- Bytes of instance memory whose contents are undefined: each takes a free value, where it stands anywhere. -/
def State.undefine (s : State) (n a k : Nat) : State :=
  { s with mem := (List.range k).foldl (fun m j => match s.translate n (a + j) with
    | none => m
    | some (_, l) => memSet m (l.key n) (Config.undefinedByte s.draw (a + j))) s.mem }

/-- What a job that does not commit leaves in its result buffers and merge areas: undefined contents (R87, R169). -/
def State.endBuffers (s : State) (j : Job) (ok : Bool) : State :=
  if ok then s
  else
    let s1 := j.results.foldl (fun s r => s.undefine j.inst r.addr r.bytes) s
    (j.areas.foldl (fun s r => s.undefine j.inst r.addr r.bytes) s1).drawn

/-- End a job with a status at the boundary that opens frame `opens`: its record is written, its completion is queued, and the job is gone. -/
def State.endJob (s : State) (j : Job) (status : Nat) (opens : W64) : State :=
  let ok := status == Config.stSuccess
  let s1 := (((s.dropWork j.jid).endBuffers j ok).endTables j ok).endRegions j ok
  let rec_ := s1.statusRecord j status opens
  let written := (s1.writeInst j.inst j.statusAddr rec_)
  let s2 := written.getD s1
  let far := !j.alone
  let s3 := s2.modInst j.inst fun i => { i with ended := i.ended ++ [(j.sqid, j.cid, (j.dist.elim 0 (·.djid.toNat)))] }
  { s3 with
    jobs := s3.jobs.filter (·.jid != j.jid)
    cpls := s3.cpls ++
      [{ inst := j.inst
         gen := j.gen
         sqid := j.sqid
         sqHead := j.sqHead
         cqid := j.cqid
         cid := j.cid
         status := status
         result := BitVec.ofNat 64 (if ok then 0 else s1.outcomeMask j)
         detail := 0
         flags := (if ok then j.flags % 16 else 0) + (if far then 16 else 0) + (if written.isSome then 32 else 0)
         newSq := none
         newCq := none
         esr := some (j.statusAddr, rec_) }] }

/-- The jobs that end at this boundary, in the order of their admission, each with its status. -/
def State.ending (s : State) : List (Job × Nat) :=
  sortBy (fun a b => a.1.order ≤ b.1.order) (s.jobs.filterMap fun j => (s.jobOutcome j).map fun st => (j, st))

/-- Decide the jobs that end, as far as the 2,048 completions of a boundary reach; the others keep their outcome and are counted (R344). -/
def State.decideJobs (s : State) (opens : W64) : State :=
  let all := s.ending
  let room := Config.completionsPerBoundary - s.cpls.length
  let late := all.drop room
  let s1 := (all.take room).foldl (fun s x => s.endJob x.1 x.2 opens) s
  { s1 with
    jobs := s1.jobs.map fun j => if late.any (·.1.jid == j.jid) then { j with state := .ending } else j
    settings := { s1.settings with commitDeferTotal := satAdd 64 s1.settings.commitDeferTotal late.length } }

-- WRITING COMPLETIONS (R341, R343, R356) -------------------------------------------------------------------------------------------------------------------------------

/-- A CQ entry of 32 bytes. -/
def Cpl.bytes (c : Cpl) (opens : W64) : List Byte :=
  leBytes 8 c.result.toNat ++ leBytes 4 c.detail ++ leBytes 2 c.sqid ++ leBytes 2 c.sqHead ++ leBytes 2 c.cid ++ leBytes 1 c.status ++
  leBytes 1 c.flags ++ leBytes 4 opens.toNat ++ leBytes 2 c.gen.toNat ++ zeros 6

/-- Write one completion: a stale one is dropped and counted, one for a CQ in ERROR is discarded and counted (R341, R372); queues that it creates become
ACTIVE (R350). -/
def State.writeCpl (s : State) (opens : W64) (c : Cpl) : State :=
  let i := s.instD c.inst
  if c.gen != i.gen then s.countStale c.inst fun i => { i with staleCpl := satAdd 32 i.staleCpl 1 }
  else
    let s1 := match i.cq? c.cqid with
      | none => s
      | some q =>
        let s0 := s.modCq c.inst c.cqid fun x => { x with reserved := x.reserved - 1 }
        if q.state == QState.error then s0.modInst c.inst fun i => { i with cqDiscard := satAdd 32 i.cqDiscard 1 }
        else { s0 with mem := memWrite s0.mem (hostKey c.inst (q.base + 32 * q.tail)) (c.bytes opens) }.modCq c.inst c.cqid fun x =>
          { x with tail := (x.tail + 1) % x.depth }
    s1.modInst c.inst fun i => { i with sqs := i.sqs ++ c.newSq.toList, cqs := i.cqs ++ c.newCq.toList }

/-- The CQs of the instances, each as instance and queue. -/
def State.allCqs (s : State) : List (Nat × Cq) := s.insts.zipIdx.flatMap fun x => x.1.cqs.map fun q => (x.2, q)

/-- STEP 1 of R55: completions in order, then shadows, tails and one message for each vector (R343). A deleted CQ goes when its completion is written; loaded
images can be named from here on (R78). -/
def State.writeCompletions (s : State) (opens : W64) : State :=
  let batch := s.cpls.take Config.completionsPerBoundary
  let old := s.allCqs
  let s1 := batch.foldl (fun s c => s.writeCpl opens c) { s with cpls := s.cpls.drop Config.completionsPerBoundary }
  let moved := s1.allCqs.filter fun x => x.2.tail != ((old.find? fun y => y.1 == x.1 && y.2.qid == x.2.qid).elim 0 (·.2.tail))
  let s2 := moved.foldl (fun s x =>
    if x.2.shadowEn then { s with mem := memWrite s.mem (hostKey x.1 x.2.shadow) (leBytes 8 x.2.tail) } else s) s1
  let s3 := { s2 with insts := s2.insts.map fun i => { i with
    cqs := i.cqs.filter fun q => !(q.state == .deleting && q.qid != 0)
    images := i.images.map fun x => if x.loading ∧ x.req = [] ∧ x.handle ≠ 0 then { x with loading := false } else x } }
  ((moved.filter (·.2.intEn)).map fun x => (x.1, x.2.vector)).eraseDups.foldl (fun s x => s.sendMsix x.1 x.2) s3

/-- Drained SQs whose deletion waits complete in the same step, after the completions of their jobs (R350). -/
def State.finishSqDeletes (s : State) : State :=
  (s.insts.zipIdx.flatMap fun x => (x.1.sqs.filter (·.state == .deleting)).map fun q => (x.2, q.qid)).foldl (fun s x => s.finishSqDelete x.1 x.2) s

/-- Commits, failures and completions of a boundary. -/
def State.commitStep (s : State) (opens : W64) : State := ((s.decideJobs opens).finishSqDeletes).writeCompletions opens

-- STALL BOUNDARIES (R345) ------------------------------------------------------------------------------------------------------------------------------------------------

/-- A CQ without a free slot while a bound SQ has pending entries. -/
def Inst.stalled (i : Inst) (q : Cq) : Bool := q.free == 0 && i.sqs.any fun x => x.cqid == q.qid && x.waiting != 0

/-- Count stall boundaries; a boundary that is none lets CQ_STALL be raised again. -/
def Inst.countStalls (i : Inst) : Inst :=
  { i with cqs := i.cqs.map fun q => if i.stalled q then { q with stall := q.stall + 1 } else { q with stall := 0, stallRaised := false } }

end Sys2Proof.Machine
end

