-- ==== Sys2Proof/Machine/Resources.lean ====
section
/-!
DEFINITION. Divisible resources: what a write may change (R44, R182, R187, R303 to R311, R334, R370), and what happens at the boundary at which
an accepted change applies (R48, R58, R281, R305, R306, R312, R313, R320, R511).
-/

namespace Sys2Proof.Machine

-- ACCEPTED VALUES (R58, R370) ------------------------------------------------------------------------------------------------------------------------

/-- The share word of a kind: 0 SHARE_CS, 1 SHARE_HPE, 2 SHARE_MN, 3 SHARE_AMU, 4 SHARE_DG. -/
def Alloc.shareWord (a : Alloc) : Nat → W64
  | 0 => a.shareCs
  | 1 => a.shareHpe
  | 2 => a.shareMn
  | 3 => a.shareAmu
  | _ => a.shareDg

def Alloc.setShare (a : Alloc) (kind : Nat) (v : W64) : Alloc :=
  match kind with
  | 0 => { a with shareCs := v }
  | 1 => { a with shareHpe := v }
  | 2 => { a with shareMn := v }
  | 3 => { a with shareAmu := v }
  | _ => { a with shareDg := v }

/-- The allocations after a change. -/
def Alloc.apply (a : Alloc) : Change → Alloc
  | .coreFrames v => { a with coreFrames := v }
  | .share k v => a.setShare k v
  | .fabricShare v => { a with fabricShare := v }
  | .imgStore v => { a with imgStore := v }
  | .readyLimit v => { a with readyLimit := v }
  | .ptPages v => { a with ptPages := v }
  | .ptWrite _ => a
  | .regions v => { a with regions := v }
  | .ccWays hi v => if hi then { a with ccWaysHi := v } else { a with ccWaysLo := v }
  | .sqQuota v => { a with sqQuota := v }
  | .cqQuota v => { a with cqQuota := v }
  | .pasid v => { a with pasid := v }

/-- The allocations of instance `n` as they stand after every accepted change. -/
def State.accepted (s : State) (n : Nat) : Alloc :=
  (s.changes.filter (·.inst == n)).foldl (fun a c => a.apply c.change) (s.instD n).alloc

/-- The accepted values of a number over the other instances, summed. -/
def State.others (s : State) (n : Nat) (get : Alloc → Nat) : Nat := (((List.range 256).filter (· != n)).map fun k => get (s.accepted k)).sum

/-- A write that raises nothing passes; one that raises must keep the sum within its limit (R370). -/
def State.sumOk (s : State) (n : Nat) (get : Alloc → Nat) (limit v : Nat) : Bool :=
  decide (v ≤ get (s.accepted n)) || decide (s.others n get + v ≤ limit)

/-- FGR_STAT.ACTIVE: mapped logical Foragers (R194). -/
def Die.activeFgrs (d : Die) : Nat := (d.map.filter (·.isSome)).length

/-- A die that holds resources: present and not past its fence boundary (R370, R479). -/
def State.dieHolds (s : State) (d : Nat) : Bool := (s.dieD d).present && !(s.dieD d).fence.on

/-- A per-die word: each byte at most 64, 0 on an absent or fenced die, and each raise within its sum (R370). -/
def State.bytesOk (s : State) (n : Nat) (get : Alloc → W64) (limit : Nat → Nat) (v : W64) : Bool :=
  (List.range 8).all fun d =>
    decide (dieByte v d ≤ 64) && (dieByte v d == 0 || s.dieHolds d) && s.sumOk n (fun a => dieByte (get a) d) (limit d) (dieByte v d)

-- PAGE TABLES (R303 to R306, R511) -----------------------------------------------------------------------------------------------------------------------

/-- The RLM pages that page-table entries map, as device page numbers. -/
def rlmPages (pt : List (Nat × W64)) : List Nat :=
  pt.filterMap fun e => if pteValid e.2 && decide (ptePage e.2 * Config.pageBytes < 0x8000000000) then some (ptePage e.2) else none

/-- An entry that names the window of a fenced die applies with VALID = 0 (R306). -/
def State.fenceEntry (s : State) (e : W64) : W64 :=
  let a := ptePage e * Config.pageBytes
  if pteValid e && decide (a < 0x8000000000) && (s.dieD (devDie a)).fence.on then e &&& ~~~(0x8000000000000000#64) else e

/-- PT_PAGES and the table after the changes of one boundary: PT_PAGES first, then the records in order (R511). -/
def State.ptAfter (s : State) (p : Nat × List (Nat × W64)) (cs : List Change) : Nat × List (Nat × W64) :=
  let pages := cs.foldl (fun x c => match c with
    | .ptPages v => v
    | _ => x) p.1
  (pages, cs.foldl (fun pt c => match c with
    | .ptWrite rs => rs.foldl (fun pt r => if r.1 < pages then assocSet r.1 (s.fenceEntry r.2) pt else pt) pt
    | _ => pt) (p.2.filter (·.1 < pages)))

/-- Changes of an instance that apply at the next boundary but `k` - 1. -/
def State.changesAt (s : State) (n k : Nat) : List Change := (s.changes.filter fun c => c.inst == n && c.left == k).map (·.change)

/-- PT_PAGES and the table of instance `n` after every accepted change. -/
def State.ptAccepted (s : State) (n : Nat) : Nat × List (Nat × W64) :=
  s.ptAfter (s.ptAfter ((s.instD n).alloc.ptPages, (s.instD n).pt) (s.changesAt n 1)) (s.changesAt n 2)

/-- The records of a PT_WRITE (R305). -/
def ptRecords (data : List Byte) : List (Nat × W64) :=
  (List.range (data.length / 16)).map fun i => (field data (16 * i) 4, BitVec.ofNat 64 (field data (16 * i + 8) 8))

/-- A PT_WRITE is accepted as a whole (R22, R305). -/
def State.ptWriteOk (s : State) (n : Nat) (data : List Byte) : Bool :=
  let taken := ((List.range 256).filter (· != n)).flatMap fun k => rlmPages (s.ptAccepted k).2
  let pages := (s.ptAccepted n).1
  decide (16 ≤ data.length) && decide (data.length ≤ 16384) && data.length % 16 == 0 &&
  (List.range (data.length / 16)).all (fun i => field data (16 * i + 4) 4 == 0) &&
  (ptRecords data).all fun r =>
    decide (r.1 < pages) && bits r.2.toNat 54 48 == 0 && bits r.2.toNat 20 0 == 0 &&
    (!pteValid r.2 || ((s.locate false (ptePage r.2 * Config.pageBytes)).isSome && !taken.contains (ptePage r.2)))

/-- Put a page table in force: pages that leave the instance are released, pages newly mapped with ZERO = 1 are filled, and ZERO reads 0 where no fill
runs (R304, R305). -/
def State.setPt (s : State) (n pages : Nat) (pt : List (Nat × W64)) : State :=
  let old := rlmPages (s.instD n).pt
  let new := rlmPages pt
  let gone := (old.filter (!new.contains ·)).eraseDups
  let mine := fun (e : W64) => pteValid e && pteZero e && decide (ptePage e * Config.pageBytes < 0x8000000000)
  let fills := ((pt.filter fun e => mine e.2 && !old.contains (ptePage e.2)).map fun e => ptePage e.2).eraseDups
  let fresh := pt.map fun e => (e.1, if mine e.2 && old.contains (ptePage e.2) then e.2 &&& ~~~(0x2000000000000000#64) else e.2)
  { (s.modInst n fun i => { i with pt := fresh, alloc := { i.alloc with ptPages := pages } }) with
    pages := (s.pages.filter fun w => !(w.fill && w.inst == n && gone.contains w.page)) ++
      gone.map (fun p => { page := p, fill := false, inst := n }) ++ fills.map fun p => { page := p, fill := true, inst := n } }

-- COMB CACHE WAYS (R311 to R313, R320) ------------------------------------------------------------------------------------------------------------------------

/-- The ways of die `d` in the two ways words. -/
def Alloc.ways (a : Alloc) (d : Nat) : Nat := if d < 4 then bits a.ccWaysLo.toNat (16 * d + 15) (16 * d) else bits a.ccWaysHi.toNat (16 * d - 49) (16 * d - 64)

/-- Set the ways of die `d`. -/
def Alloc.setWays (a : Alloc) (d w : Nat) : Alloc :=
  let put := fun (x : W64) (k : Nat) => BitVec.ofNat 64 (x.toNat - bits x.toNat (16 * k + 15) (16 * k) * 2 ^ (16 * k) + w * 2 ^ (16 * k))
  if d < 4 then { a with ccWaysLo := put a.ccWaysLo d } else { a with ccWaysHi := put a.ccWaysHi (d - 4) }

/-- A way that is DISABLED, OFF, or on its way to either (R311). -/
def Way.dead (w : Way) : Bool :=
  w.disableAfter || match w.state with
    | .disabling | .disabled | .poweringDown | .off => true
    | _ => false

/-- A write of a ways word is accepted (R311, R326). -/
def State.waysOk (s : State) (n : Nat) (hi : Bool) (v : W64) : Bool :=
  let new := (s.accepted n).apply (.ccWays hi v)
  (List.range 8).all fun d => decide (hi = decide (4 ≤ d)) == false ||
    (List.range 16).all fun w => !bit (new.ways d) w ||
      (s.dieHolds d && !((s.dieD d).cc.ways.getD w Way.reset).dead &&
       ((List.range 256).filter (· != n)).all fun k => !bit ((s.accepted k).ways d) w)

/-- A way while the set of instance `n` changes: `old` and `new` are its sets (R312). -/
def Way.reassign (x : Way) (n : Nat) (inOld inNew : Bool) : Way :=
  if inOld && !inNew then
    match x.state with
    | .cleaning => { x with nextOwner := none }
    | .disabling => { x with owner := none, locked := false, leave := false }
    | _ => { x with state := .cleaning, locked := false, nextOwner := if x.nextOwner = some n then none else x.nextOwner }
  else if inNew && !inOld then
    if x.state = .free then { x with state := .owned, owner := some n } else { x with nextOwner := some n }
  else if inOld && (x.state = .owned || x.state = .sweep) then { x with state := .sweep }
  else x

/-- A new way set of instance `n` takes effect, without the ways that are disabled by now (R312, R320). -/
def CombCache.setWays (c : CombCache) (n : Nat) (want : List Nat) : CombCache :=
  let old := c.assigned n
  let new := want.filter fun w => !(c.ways.getD w Way.reset).dead
  if new = old then c
  else
    { c with
      ways := c.ways.mapIdx fun w x => x.reassign n (old.contains w) (new.contains w)
      sweeping := (c.sweeping.filter (·.1 != n)) ++ (if old.any new.contains then [(n, old)] else []) }

/-- An earlier way change of instance `n` still cleans or sweeps (R313). -/
def CombCache.busy (c : CombCache) (n : Nat) : Bool :=
  c.ways.any fun x => (x.state == .cleaning && (x.owner == some n || x.nextOwner == some n)) || (x.state == .sweep && x.owner == some n)

def State.modCc (s : State) (d : Nat) (f : CombCache → CombCache) : State := s.modDie d fun x => { x with cc := f x.cc }

/-- The first waiting way change of instance `n` on die `d` applies, unless an earlier one still runs (R313). -/
def State.startWays (s : State) (n d : Nat) : State :=
  match (s.instD n).waysPending.find? (·.1 == d) with
  | none => s
  | some p =>
    if (s.dieD d).cc.busy n then s
    else (s.modInst n fun i => { i with waysPending := i.waysPending.erase p }).modCc d fun c =>
      c.setWays n ((List.range 16).filter (bit p.2 ·))

-- CHECK 8 OF A RESOURCE CHANGE (R427) -----------------------------------------------------------------------------------------------------------------------------

/-- A resource change obeys its range and its sums. -/
def State.changeOk (s : State) (n : Nat) : Change → Bool
  | .coreFrames v => s.bytesOk n (·.coreFrames) (fun d => (s.dieD d).activeFgrs) v
  | .share k v => s.bytesOk n (·.shareWord k) (fun _ => 64) v
  | .fabricShare v => decide (v ≤ 64) && s.sumOk n (·.fabricShare) 64 v
  | .imgStore v => decide (v ≤ 64) && s.sumOk n (·.imgStore) 64 v
  | .readyLimit v => decide (v ≤ Config.readyCapacity) && s.sumOk n (·.readyLimit) Config.readyCapacity v
  | .ptPages v => decide (v ≤ Config.ptStore) && s.sumOk n (·.ptPages) Config.ptStore v
  | .ptWrite _ => true
  | .regions v => (List.range 64).all fun r => bits v.toNat (8 * r + 7) (8 * r + 2) == 0
  | .ccWays hi v => s.waysOk n hi v
  | .sqQuota v => decide (v ≤ 4095) && s.sumOk n (·.sqQuota) 4096 v
  | .cqQuota v => decide (v ≤ 4095) && s.sumOk n (·.cqQuota) 4096 v
  | .pasid v => bits v.toNat 31 21 == 0

/-- An accepted change applies at the second boundary from here (R58). -/
def State.acceptChange (s : State) (n : Nat) (c : Change) : State := { s with changes := s.changes ++ [{ left := 2, inst := n, change := c }] }

-- THE ASSOCIATIVE MATCH UNIT'S BLOCKS (R281) ------------------------------------------------------------------------------------------------------------------------

/-- Keep the first `k` logical blocks of instance `n`; the others become free, to be cleared. -/
def Amu.shrink (a : Amu) (n k : Nat) : Amu :=
  let gone := (a.region n).drop k
  { a with blocks := a.blocks.mapIdx fun b x => if gone.contains b then { owner := none, logical := 0, clearing := true } else x }

/-- Append the lowest free blocks until instance `n` holds `k`. -/
def Amu.grow (a : Amu) (n k : Nat) : Amu :=
  let have_ := (a.region n).length
  let free := ((List.range 64).filter fun b => (a.blocks.getD b AmuBlock.reset).owner == none).take (k - have_)
  { a with blocks := free.zipIdx.foldl (fun bs x => bs.set x.1 { owner := some n, logical := have_ + x.2, clearing := true }) a.blocks }

/-- The blocks of every instance follow its share on die `d`: falls first, then rises (R280, R281). -/
def State.setBlocks (s : State) (d : Nat) : State :=
  if !s.dieHolds d then s else
  let shareOf := fun n => dieByte (s.instD n).alloc.shareAmu d
  let holders := (List.range 256).filter fun n => shareOf n != ((s.dieD d).amu.region n).length
  (holders.foldl (fun s n => s.modAmu d (·.grow n (shareOf n))) (holders.foldl (fun s n => s.modAmu d (·.shrink n (shareOf n))) s))

-- APPLYING CHANGES: STEP 2 OF R55 --------------------------------------------------------------------------------------------------------------------------------------

/-- A per-die word without the bytes of dies that hold nothing (R479). -/
def State.heldBytes (s : State) (v : W64) : W64 :=
  BitVec.ofNat 64 (((List.range 8).map fun d => if s.dieHolds d then dieByte v d * 256 ^ d else 0).sum)

/-- A ways word without the ways of fenced dies and those disabled since its acceptance (R320, R479). -/
def State.heldWays (s : State) (a : Alloc) : Alloc :=
  (List.range 8).foldl (fun a d =>
    a.setWays d (if s.dieHolds d then bitmap ((List.range 16).filter fun w => bit (a.ways d) w && !((s.dieD d).cc.ways.getD w Way.reset).dead)
      else 0)) a

/-- Put one change of an instance in force; page tables and ways are put in force apart. -/
def State.applyAlloc (s : State) (n : Nat) (c : Change) : State :=
  match c with
  | .coreFrames v => s.modInst n fun i => { i with alloc := { i.alloc with coreFrames := s.heldBytes v } }
  | .share k v => s.modInst n fun i => { i with alloc := i.alloc.setShare k (s.heldBytes v) }
  | .ptPages _ | .ptWrite _ => s
  | .ccWays hi v =>
    let old := (s.instD n).alloc
    let new := s.heldWays (old.apply (.ccWays hi v))
    let moved := (List.range 8).filter fun d => old.ways d != new.ways d
    s.modInst n fun i => { i with alloc := new, waysPending := i.waysPending ++ moved.map fun d => (d, new.ways d) }
  | _ => s.modInst n fun i => { i with alloc := i.alloc.apply c }

/-- The kinds of unit whose shares are numbered 0 to 4. -/
def shareKind : Nat → UnitKind
  | 0 => .streamer
  | 1 => .hash
  | 2 => .merge
  | 3 => .amu
  | _ => .digest

/-- The ready morsels of instance `n` on die `d` that a share lowered from `old` no longer fits (R48). -/
def State.tooBig (s : State) (old : State) (n d : Nat) : List Morsel :=
  ((s.dieD d).readyOf n).filter fun m =>
    match (s.jobOf m).bind fun j => j.image.stage? m.stage with
    | none => false
    | some st =>
      st.kind != .forager && st.kind != .exchange && s.shareCycles n st.kind d != 0 &&
      decide (s.shareCycles n st.kind d < old.shareCycles n st.kind d) && decide (s.shareCycles n st.kind d < st.morselBound m)

/-- Fail the jobs whose ready morsels a lowered share no longer fits (R48). -/
def State.failTooBig (s old : State) (n : Nat) : State :=
  ((List.range 8).flatMap fun d => (s.tooBig old n d).map fun m => (d, m)).foldl
    (fun s x => s.failPart x.2.jid x.1 x.2.stage Config.stBoundExceeded []) s

/-- Two changes write the same object, of which a later one of the same frame replaces the earlier (R59); PT_WRITE records add up. -/
def Change.replaces : Change → Change → Bool
  | .coreFrames _, .coreFrames _ | .fabricShare _, .fabricShare _ | .imgStore _, .imgStore _ | .readyLimit _, .readyLimit _
  | .ptPages _, .ptPages _ | .regions _, .regions _ | .sqQuota _, .sqQuota _ | .cqQuota _, .cqQuota _ | .pasid _, .pasid _ => true
  | .share a _, .share b _ => a == b
  | .ccWays a _, .ccWays b _ => a == b
  | _, _ => false

/-- Of a list of changes, those that no later one replaces. -/
def lastChanges : List Pending → List Pending
  | [] => []
  | c :: cs => if cs.any fun x => x.inst == c.inst && x.change.replaces c.change then lastChanges cs else c :: lastChanges cs

/-- Apply the resource changes that are due, in order of acceptance (R55, R58). -/
def State.applyChanges (s : State) : State :=
  let due := lastChanges (s.changes.filter (·.left ≤ 1))
  let insts := (due.map (·.inst)).eraseDups
  let s0 := { s with changes := (s.changes.filter (1 < ·.left)).map fun c => { c with left := c.left - 1 } }
  let s1 := due.foldl (fun s c => s.applyAlloc c.inst c.change) s0
  let s2 := insts.foldl (fun t n =>
    let cs := (due.filter (·.inst == n)).map (·.change)
    if cs.any fun c => match c with | .ptPages _ | .ptWrite _ => true | _ => false then
      let p := t.ptAfter ((t.instD n).alloc.ptPages, (t.instD n).pt) cs
      t.setPt n p.1 p.2
    else t) s1
  let s3 := (List.range 8).foldl (fun t d => t.setBlocks d) s2
  insts.foldl (fun t n => t.failTooBig s n) s3

/-- Start the way changes that can start at this boundary (R312, R313). -/
def State.startAllWays (s : State) : State :=
  (s.insts.zipIdx.filter (·.1.waysPending != [])).foldl (fun s x => (List.range 8).foldl (fun s d => s.startWays x.2 d) s) s

end Sys2Proof.Machine
end

