-- ==== Sys2Proof/Machine/MemCtl.lean ====
section
/-!
DEFINITION. RLM and the Comb cache under control: ways (R312, R313, R316 to R318, R320), the drain (R319), locks and range operations (R314,
R315), page hand-over (R305, R306), the patrol scrub and bank sparing (R23, R299 to R302), dirty tracking (R321).
-/

namespace Sys2Proof.Machine

-- THE CLOCKS OF A DIE (R499) --------------------------------------------------------------------------------------------------------------------------------

/-- The engines of a die run: the part is powered with its Comb clocks, and the die holds resources. -/
def State.dieRuns (s : State) (d : Nat) : Bool := s.power.mainPower && !s.power.perst && s.power.combClocks && s.dieHolds d

def State.way (s : State) (d w : Nat) : Way := (s.dieD d).cc.ways.getD w Way.reset

def State.modWay (s : State) (d w : Nat) (f : Way → Way) : State := s.modCc d fun c => { c with ways := c.ways.modify w f }

/-- Every line of a way goes: cleaned and invalidated. -/
def CombCache.emptyWay (c : CombCache) (w : Nat) : CombCache := { c with lines := c.lines.filter (·.way != w) }

/-- An event of way `w` of die `d`, when the way is in state `st`. -/
def wayStep (d w : Nat) (st : WayState) (f : State → State) (s : State) : State :=
  if w < 16 && s.dieRuns d && (s.way d w).state == st then f s else s

-- OWNERSHIP CHANGES (R312) --------------------------------------------------------------------------------------------------------------------------------------

/-- A way is DISABLED: event CC_WAY_DISABLED for the die and an audit record (R317). -/
def State.wayDisabled (s : State) (d : Nat) : State := (s.raiseDie d dcWayDisabled).auditDevice (Config.evDieRepair d)

/-- WAY_CLEAN_DONE: the way joins its new owner's set, is FREE, or is DISABLED where it reached its threshold meanwhile (R312, R320). -/
def execWayCleanDone (die way : Nat) (s : State) : Host.Outcome State Fault Refusal :=
  .next (wayStep die way .cleaning (fun s =>
    let x := s.way die way
    let s1 := s.modCc die (·.emptyWay way)
    if x.disableAfter then
      (s1.modWay die way fun y => { y with
        state := .disabled
        owner := y.nextOwner
        nextOwner := none
        disableAfter := false
        leave := y.nextOwner.isSome }).wayDisabled die
    else s1.modWay die way fun y => { y with
      state := if y.nextOwner.isSome then .owned else .free
      owner := y.nextOwner
      nextOwner := none }) s)

/-- WAY_SWEEP_DONE: the lines that the new assignment places elsewhere are cleaned and invalidated, and the kept ways are OWNED (R312). -/
def execWaySweepDone (die n : Nat) (s : State) : Host.Outcome State Fault Refusal :=
  let c := (s.dieD die).cc
  let mine := fun (w : Nat) => (s.way die w).state == .sweep && (s.way die w).owner == some n
  if !s.dieRuns die || !(List.range 16).any mine then .next s
  else .next (s.modCc die fun c' => { c' with
    lines := c.lines.filter fun l => !(mine l.way && wayOf (c.assigned n) l.addr != some l.way)
    ways := c.ways.map fun x => if x.state = .sweep ∧ x.owner = some n then { x with state := .owned } else x
    sweeping := c.sweeping.filter (·.1 != n) })

-- DISABLED WAYS (R317, R320) --------------------------------------------------------------------------------------------------------------------------------------

/-- CC_WAY_DISABLE: the corrected errors of a way reach WAY_ERR_THRESH; a way that is CLEANING finishes its clean first. -/
def execCcWayDisable (die way : Nat) (s : State) : Host.Outcome State Fault Refusal :=
  let x := s.way die way
  let hit := fun (y : Way) => { y with cerr := max y.cerr s.keeper.rwp.wayErrThresh }
  if !s.dieRuns die || 16 ≤ way then .next s
  else match x.state with
    | .owned | .sweep | .free => .next (s.modWay die way fun y => { (hit y) with state := .disabling })
    | .cleaning => .next (s.modWay die way fun y => { (hit y) with disableAfter := true })
    | _ => .next s

/-- CC_WAY_DISABLED: the clean completes and the way is DISABLED; an owned way leaves its owner at the next boundary; a latched ENABLE applies (R11,
R317, R318). -/
def execCcWayDisabled (die way : Nat) (s : State) : Host.Outcome State Fault Refusal :=
  .next (wayStep die way .disabling (fun s =>
    ((s.modCc die (·.emptyWay way)).modWay die way fun y => { y with
      state := if y.enablePending then .free else .disabled
      cerr := if y.enablePending then 0 else y.cerr
      enablePending := false
      leave := y.owner.isSome }).wayDisabled die) s)

/-- WAY_ERR_WINDOW_END: the corrected-error count of a way starts again (R317). -/
def execWayErrWindowEnd (die way : Nat) (s : State) : Host.Outcome State Fault Refusal :=
  match (s.way die way).state with
  | .owned | .sweep | .cleaning => .next (if s.dieRuns die then s.modWay die way fun y => { y with cerr := 0 } else s)
  | _ => .next s

/-- A disabled way leaves its owner's set, and the owner's kept ways sweep: step 2 of a boundary (R317, R320). -/
def CombCache.leaveWay (c : CombCache) (w n : Nat) : CombCache :=
  let old := c.assigned n
  let kept := old.filter (· != w)
  { c with
    ways := c.ways.mapIdx fun k x =>
      if k = w then { x with owner := none, locked := false, leave := false }
      else if kept.contains k && (x.state = .owned || x.state = .sweep) then { x with state := .sweep }
      else x
    sweeping := (c.sweeping.filter (·.1 != n)) ++ (if kept = [] then [] else [(n, old)]) }

/-- The disabled ways that leave at this boundary. -/
def State.leaveWays (s : State) : State :=
  (List.range 8).foldl (fun s d => (List.range 16).foldl (fun s w =>
    match (s.way d w).owner with
    | some n =>
      if (s.way d w).leave then
        (s.modCc d (·.leaveWay w n)).modInst n fun i => { i with
          alloc := i.alloc.setWays d (bitmap ((List.range 16).filter fun k => bit (i.alloc.ways d) k && k != w)) }
      else s
    | none => s) s) s

-- COMMANDS OF CC_WAY (R318) ------------------------------------------------------------------------------------------------------------------------------------------

/-- A CC_WAY.CMD write reaches way `way` of die `die`: a register of an absent or a fenced die ignores it (R30, R480). -/
def wayCommand (die way : Nat) (f : State → Way → Option Way) (s : State) : State :=
  s.mmioWrite 0 0 8 false fun s =>
    if 16 ≤ way || !s.dieHolds die then s
    else match f s (s.way die way) with
      | some y => s.modWay die way fun _ => y
      | none => s.modCc die fun c => { c with cmdReject := satAdd 32 c.cmdReject 1 }

/-- POWER_DOWN: a FREE way powers down; during POWERING_DOWN it drops a latched POWER_UP and is counted (R12, R318). -/
def execPowerDown (die way : Nat) (s : State) : Host.Outcome State Fault Refusal :=
  let drop := fun (s : State) =>
    if s.dieHolds die && (s.way die way).state == .poweringDown then s.modWay die way fun y => { y with enablePending := false } else s
  .next (wayCommand die way (fun _ x => if x.state = .free ∧ x.owner = none then some { x with state := .poweringDown } else none)
    (s.mmioWrite 0 0 8 false drop))

/-- POWER_UP: an OFF way powers up; during POWERING_DOWN it is latched (R11, R318). -/
def execPowerUp (die way : Nat) (s : State) : Host.Outcome State Fault Refusal :=
  .next (wayCommand die way (fun _ x => match x.state with
    | .off => some { x with state := .poweringUp }
    | .poweringDown => some { x with enablePending := true }
    | _ => none) s)

/-- ENABLE: a DISABLED way becomes FREE with its error count reset; during DISABLING it is latched (R11, R318). -/
def execWayEnable (die way : Nat) (s : State) : Host.Outcome State Fault Refusal :=
  .next (wayCommand die way (fun _ x => match x.state with
    | .disabled => some { x with state := .free, cerr := 0 }
    | .disabling => some { x with enablePending := true }
    | _ => none) s)

/-- POWER_DOWN_DONE: the way is OFF, and a latched POWER_UP starts (R11, R318). -/
def execPowerDownDone (die way : Nat) (s : State) : Host.Outcome State Fault Refusal :=
  .next (wayStep die way .poweringDown (fun s => (s.modCc die (·.emptyWay way)).modWay die way fun y => { y with
    state := if y.enablePending then .poweringUp else .off
    enablePending := false }) s)

/-- POWER_UP_DONE: the way is FREE, empty (R318). -/
def execPowerUpDone (die way : Nat) (s : State) : Host.Outcome State Fault Refusal :=
  .next (wayStep die way .poweringUp (fun s => s.modWay die way fun y => { y with state := .free }) s)

-- THE DRAIN (R319, R322) ---------------------------------------------------------------------------------------------------------------------------------------------

/-- CC_CTL: EN = 0 starts a drain, EN = 1 enables the cache or is latched while it drains (R11, R12, R319). -/
def execCcCtl (die size : Nat) (value : W64) (s : State) : Host.Outcome State Fault Refusal :=
  .next (s.mmioWrite 0 0 size false fun s =>
    if !s.dieHolds die then s
    else
      let v := lowPart size value
      let en := bit v 0
      (s.rsvdIf 0 (v / 2 != 0)).modCc die fun c =>
        if c.draining then { c with en := en, enablePending := en }
        else if en then { c with en := true, enabled := true }
        else if c.enabled then { c with en := false, draining := true }
        else { c with en := false })

/-- CC_DRAIN_DONE: the cache is empty and not enabled, or enabled again by a latched EN = 1; it waits for every clean and sweep (R319, R320). -/
def execCcDrainDone (die : Nat) (s : State) : Host.Outcome State Fault Refusal :=
  let c := (s.dieD die).cc
  if !s.dieRuns die || !c.draining || c.ways.any (fun x => x.state == .cleaning || x.state == .sweep) then .next s
  else .next ((s.modCc die fun c => { c with
    lines := []
    draining := false
    enabled := c.enablePending
    enablePending := false }).raise Config.evCcDrainDone)

-- LOCKS AND RANGE OPERATIONS (R314, R315) ------------------------------------------------------------------------------------------------------------------------------

/-- An instance holds a way of a die that holds resources: it is its owner and the way is not being cleaned for another. -/
def State.holdsWay (s : State) (n d w : Nat) : Bool := s.dieHolds d && (s.way d w).owner == some n && (s.way d w).state != .cleaning

/-- The lock word of an instance: dies 0 to 3, or 4 to 7. -/
def State.lockWord (s : State) (n : Nat) (hi : Bool) : W64 :=
  BitVec.ofNat 64 (bitmap ((List.range 64).filter fun k =>
    let d := k / 16 + (if hi then 4 else 0)
    s.holdsWay n d (k % 16) && (s.way d (k % 16)).locked))

/-- A lock write names only ways that the instance holds (R314, R326). -/
def State.lockOk (s : State) (n : Nat) (hi : Bool) (v : W64) : Bool :=
  (List.range 64).all fun k => !v.getLsbD k || s.holdsWay n (k / 16 + (if hi then 4 else 0)) (k % 16)

/-- A lock write takes effect at once (R314). -/
def State.setLocks (s : State) (n : Nat) (hi : Bool) (v : W64) : State :=
  (List.range 64).foldl (fun s k =>
    let d := k / 16 + (if hi then 4 else 0)
    if s.holdsWay n d (k % 16) then s.modWay d (k % 16) fun x => { x with locked := v.getLsbD k } else s) s

/-- The device pages of a range of instance pages. -/
def Inst.rangePages (i : Inst) (base pages : Nat) : List Nat := rlmPages (i.pt.filter fun e => decide (base ≤ e.1) && decide (e.1 < base + pages))

/-- INVAL_DONE: the range operation has passed over the lines of the instance's pages on every die (R315). -/
def execInvalDone (n : Nat) (s : State) : Host.Outcome State Fault Refusal :=
  match (s.instD n).inval with
  | none => .next s
  | some (inv, base, pages) =>
    let ps := (s.instD n).rangePages base pages
    let hit := fun (l : Line) => l.inst == n && ps.contains (l.addr / Config.pageBytes)
    let pass := fun (c : CombCache) =>
      if inv then { c with lines := c.lines.filter (!hit ·) }
      else { c with lines := c.lines.map fun l => if hit l then { l with dirty := false } else l }
    .next (({ s with dies := s.dies.map fun (d : Die) => { d with cc := pass d.cc } } : State).modInst n fun i => { i with inval := none })

-- PAGES (R305, R306) -----------------------------------------------------------------------------------------------------------------------------------------------------

/-- The home die of a device page. -/
def pageDie (page : Nat) : Nat := devDie (page * Config.pageBytes)

/-- PAGE_RELEASE_CLEAN_DONE: the lines of the instance that released the page are cleaned and invalidated; the page can be used. -/
def execPageReleaseCleanDone (page : Nat) (s : State) : Host.Outcome State Fault Refusal :=
  match s.pages.find? fun w => w.page == page && !w.fill with
  | none => .next s
  | some w =>
    if !s.dieRuns (pageDie page) then .next s
    else .next ({ s with pages := s.pages.erase w }.modCc (pageDie page) fun c =>
      { c with lines := c.lines.filter fun l => !(l.inst == w.inst && l.addr / Config.pageBytes == page) })

/-- ZERO_FILL_DONE: the page is zero, without poison, and its entry's ZERO reads 0 (R300, R304, R305); a page still released by another instance waits. -/
def execZeroFillDone (page : Nat) (s : State) : Host.Outcome State Fault Refusal :=
  match s.pages.find? fun w => w.page == page && w.fill with
  | none => .next s
  | some w =>
    if !s.dieRuns (pageDie page) || s.pages.any (fun x => x.page == page && !x.fill) then .next s
    else
      let a := page * Config.pageBytes
      .next (({ s with
        pages := s.pages.erase w
        mem := memZero s.mem a Config.pageBytes
        poison := s.poison.filter fun g => g < a / 64 || (a + Config.pageBytes) / 64 ≤ g }).modInst w.inst fun i => { i with
          pt := i.pt.map fun (e : Nat × W64) => if pteValid e.2 && ptePage e.2 == page then (e.1, e.2 &&& ~~~(0x2000000000000000#64)) else e })

-- RLM (R23, R299 to R302) ----------------------------------------------------------------------------------------------------------------------------------------------

def State.stack (s : State) (k : Nat) : Stack := (s.dieD (k / 2)).rlm.getD (k % 2) Stack.reset

def State.modStack (s : State) (k : Nat) (f : Stack → Stack) : State := s.modDie (k / 2) fun d => { d with rlm := d.rlm.modify (k % 2) f }

/-- Granules of a stack of 24 GiB. -/
def stackGranules : Nat := 402653184

/-- The device address of granule `g` of stack `k`, in ascending order (R23): of each pair of interleave blocks one lies in either stack. -/
def granuleAddr (k g : Nat) : Nat :=
  let off := g / 4 * 512
  let odd := [13, 18, 23, 28, 33].foldl (fun b i => b != bit off i) (bit k 0)
  (k / 2) * Config.windowBytes + off + (if odd then 256 else 0) + g % 4 * 64

/-- A granule is found uncorrectable: it is poisoned, counted, and RLM_UE is raised for the die (R299). -/
def State.poisonGranule (s : State) (k a : Nat) : State :=
  if s.poison.contains (a / 64) then s
  else
    let s1 := { s with poison := insAsc (a / 64) s.poison, settings := { s.settings with rlmUeTotal := satAdd 64 s.settings.rlmUeTotal 1 } }
    (s1.modStack k fun x => { x with ueCount := satAdd 16 x.ueCount 1, ueNow := true }).raiseDie (k / 2) dcRlmUe

/-- Both stacks of a die have had an uncorrectable granule in the running frame (R476). -/
def State.bothUe (s : State) (d : Nat) : Bool := (s.stack (2 * d)).ueNow && (s.stack (2 * d + 1)).ueNow

/-- BANK_SPARE: a failing bank starts copying to the spare of its channel, or the spares of the channel are exhausted (R302). -/
def execBankSpare (stack channel bank : Nat) (s : State) : Host.Outcome State Fault Refusal :=
  let x := s.stack stack
  if !s.dieRuns (stack / 2) || 16 ≤ channel || 16 ≤ bank || x.remapped.contains (channel, bank) ||
      x.sparing.any (fun y => y.channel == channel && y.bank == bank) then .next s
  else if x.remapped.any (·.1 == channel) || x.sparing.any (·.channel == channel) then .next (s.raise Config.evRlmSpareExhausted)
  else .next (s.modStack stack fun x => { x with sparing := x.sparing ++ [{ channel := channel, bank := bank, copied := false }] })

/-- BANK_SPARE_COPY_DONE: the bank is remapped at the next boundary (R302). -/
def execBankSpareCopyDone (stack channel : Nat) (s : State) : Host.Outcome State Fault Refusal :=
  if !s.dieRuns (stack / 2) then .next s
  else .next (s.modStack stack fun x => { x with sparing := x.sparing.map fun y => if y.channel = channel then { y with copied := true } else y })

/-- Copied banks are remapped, with event RLM_SPARE and an audit record: step 2 of a boundary (R302). -/
def State.remapBanks (s : State) : State :=
  (List.range 16).foldl (fun s k =>
    ((s.stack k).sparing.filter (·.copied)).foldl (fun s y =>
      ((s.modStack k fun x => { x with
        sparing := x.sparing.erase y
        remapped := x.remapped ++ [(y.channel, y.bank)]
        sparesLeft := x.sparesLeft - 1 }).raise Config.evRlmSpare).auditDevice Config.evRlmSpare) s) s

-- DIRTY PAGES (R321) ----------------------------------------------------------------------------------------------------------------------------------------------------

/-- The requested snapshots of the dirty bitmaps, in step 6 of a boundary. -/
def Inst.snapDirty (i : Inst) : Inst :=
  if i.dirtyReq then { i with dirtySnap := i.dirtyLive, dirtyLive := [], dirtySeq := i.dirtySeq + 1, dirtyReq := false } else i

end Sys2Proof.Machine
end

