-- ==== Sys2Proof/Machine/Ctl.lean ====
section
/-!
DEFINITION. The bytes of Range Transport: the packet header with its CRC (R400) and the entries of control packets (R401); the last reports of
a part that is gone (R89, R419).
-/

namespace Sys2Proof.Machine

-- THE HEADER (R400) -----------------------------------------------------------------------------------------------------------------------------

/-- The 48 bytes of a header, with a value in its CRC field; TYPE is 0x01 DATA, 0x02 CONTROL. -/
def rtHeader (p : RtPkt) (control : Bool) (crc : W32) : List Byte :=
  [p.version, if control then 2 else 1, p.flags, p.plane] ++ leBytes 2 p.srcDev.toNat ++ leBytes 2 p.dstDev.toNat ++ leBytes 8 p.frame.toNat ++
  leBytes 8 p.job.toNat ++ [p.dstInst, p.srcInst] ++ leBytes 2 p.dstGen.toNat ++ leBytes 2 p.flow.toNat ++ leBytes 2 p.seq.toNat ++
  leBytes 4 p.morsel.toNat ++ leBytes 4 p.offset.toNat ++ leBytes 4 p.bytes.toNat ++ leBytes 4 crc.toNat

/-- The CRC of a packet: over the header with the field taken as 0, and the payload. -/
def rtCrc (p : RtPkt) (control : Bool) : W32 := crc32c (rtHeader p control 0 ++ p.payload)

/-- A packet with its CRC. -/
def rtSealed (p : RtPkt) (control : Bool) : RtPkt := { p with crc := rtCrc p control }

-- CONTROL ENTRIES (R401) ------------------------------------------------------------------------------------------------------------------------

/-- An entry of a control packet; `bitmap` follows a LOSS entry. -/
structure CtlEntry where
  kind : Nat
  state : Nat := 0
  status : Nat := 0
  inst : Nat := 0
  gen : Nat := 0
  flow : Nat := 0
  job : Nat := 0
  count : Nat := 0
  nbits : Nat := 0
  bitmap : Nat := 0

def ctlReport : Nat := 1
def ctlRequest : Nat := 2
def ctlGrant : Nat := 3
def ctlEcho : Nat := 4
def ctlLoss : Nat := 5

/-- Bytes of the bitmap after an entry, padded to 8. -/
def CtlEntry.mapBytes (e : CtlEntry) : Nat := if e.kind = ctlLoss then 8 * ceilDiv e.nbits 64 else 0

def CtlEntry.bytes (e : CtlEntry) : List Byte :=
  leBytes 1 e.kind ++ leBytes 1 e.state ++ leBytes 1 e.status ++ leBytes 1 e.inst ++ leBytes 2 e.gen ++ leBytes 2 e.flow ++ leBytes 8 e.job ++
  leBytes 4 e.count ++ leBytes 4 e.nbits ++ leBytes e.mapBytes e.bitmap

/-- The codes of REPORT. -/
def PartSt.code : PartSt → Nat
  | .joining => 0
  | .running => 1
  | .done => 2
  | .failed => 3

/-- The REPORT of a part. -/
def reportEntry (st : PartSt) (status n : Nat) (gen : BitVec 16) (djid : W64) : CtlEntry :=
  { kind := ctlReport, state := st.code, status := if st = .failed then status else 0, inst := n, gen := gen.toNat, job := djid.toNat }

/-- The other participants of a distributed job. -/
def Dist.others (D : Dist) : List Nat := D.peers.map (·.dev)

/-- A distributed part goes without waiting for the decision: its participants hear FAIL with a status in the next control packets (R89, R419). -/
def State.sayBye (s : State) (j : Job) (status : Nat) : State :=
  match j.dist with
  | none => s
  | some D =>
    if j.alone then s
    else { s with fabric := { s.fabric with
      byes := s.fabric.byes ++ [(D.others, (reportEntry .failed status j.inst j.gen D.djid).bytes)] } }

end Sys2Proof.Machine
end

