-- ==== Sys2Proof/Machine/Instances.lean ====
section
/-!
DEFINITION. Instance commands (R365 to R368, R515) and what step 3 of a boundary makes of them: resets and removals (R371 to R375), freezes
and their capture (R376 to R379), the reset of a mailbox (R393).
-/

namespace Sys2Proof.Machine

-- TIME (R56, R57) -----------------------------------------------------------------------------------------------------------------------------------

/-- The uptime, in ns, of the next boundary: a stretched frame ends at its alignment (R43). -/
def State.frameEndNs (s : State) : Nat := match s.frame.stretchTo with
  | some x => x.2
  | none => s.frame.startNs + s.periodNs

/-- Boundaries until a freeze, reset, enable or fence accepted now takes effect: the staging cutoff lies 2 µs before the boundary. -/
def State.stagingLeft (s : State) : Nat := if s.power.uptimeNs + 2000 < s.frameEndNs then 1 else 2

/-- Time `t` ns after the boundary that opened the frame; time does not go back. -/
def State.atNs (s : State) (t : Nat) : State := s.elapse (s.frame.startNs + t - s.power.uptimeNs)

-- JUDGING A COMMAND (R367, R368, R515) -----------------------------------------------------------------------------------------------------------------

/-- What a staged command makes of a state, with the state before a freeze. -/
def InstCmd.after (c : InstCmd) (x : InstSt × InstSt) : InstSt × InstSt :=
  match c, x.1 with
  | .enable, .disabled => (.enabled, x.2)
  | .disable, .enabled => (.disabling, x.2)
  | .reset, .absent => x
  | .reset, _ => (.resetting, x.2)
  | .remove, _ => (.resetting, x.2)
  | .freezeDrain, .enabled | .freezeAbort, .enabled => (.freezing, .enabled)
  | .freezeDrain, .disabled | .freezeAbort, .disabled => (.freezing, .disabled)
  | .thaw, .freezing | .thaw, .frozen => (x.2, x.2)
  | .restore, .disabled => (.frozen, x.2)
  | _, _ => x

/-- The state in which a command for `left` boundaries from here is judged: the state in force and every command staged for an earlier boundary. -/
def Inst.judged (i : Inst) (left : Nat) : InstSt :=
  ((i.staged.filter (·.left < left)).foldl (fun x c => c.cmd.after x) (i.state, i.prior)).1

/-- Stage a command: it replaces another INST_CMD staged for the same boundary (R368, R515), never a removal or a restore. -/
def Inst.stage (i : Inst) (left : Nat) (c : InstCmd) : Inst :=
  if i.staged.any fun x => x.left == left && x.cmd == .remove then i
  else { i with staged := (i.staged.filter fun x => x.left != left || x.cmd == .restore) ++ [{ left := left, cmd := c }] }

/-- A latched enable is dropped (R12). -/
def Inst.unlatch (i : Inst) : Inst := { i with enablePending := false }

/-- What an INST_CMD makes of an instance, or none where it aborts with WRONG_STATE (R367, R368). -/
def Inst.command (i : Inst) (left : Nat) (c : InstCmd) : Option Inst :=
  let st := i.judged left
  match c with
  | .enable => match st with
    | .disabled => some (i.stage left c)
    | .enabled => some i
    | .disabling | .resetting => some { i with enablePending := true }
    | _ => none
  | .disable =>
    if st = .enabled then some (i.stage left c)
    else if st = .disabling ∨ st = .resetting ∨ i.enablePending then some i.unlatch
    else none
  | .reset => match st with
    | .absent => none
    | .resetting => some i.unlatch
    | _ => some (i.unlatch.stage left c)
  | .freezeDrain => match st with
    | .enabled | .disabled => some (i.stage left c)
    | .freezing | .frozen => some i
    | _ => none
  | .freezeAbort => match st with
    | .enabled | .disabled | .freezing => some (i.stage left c)
    | .frozen => some i
    | _ => none
  | .thaw => match st with
    | .freezing | .frozen => some (i.stage left c)
    | _ => none
  | .remove | .restore => none

/-- INST_CMD for instance `n`: instance 0 takes RESET only (R367). -/
def State.instCommand (s : State) (n : Nat) (c : InstCmd) : Option State :=
  if n = 0 ∧ c ≠ .reset then none
  else ((s.instD n).command s.stagingLeft c).map fun i => s.modInst n fun _ => i

/-- The command of an INST_CMD code. -/
def instCmdOf : Nat → Option InstCmd
  | 1 => some .enable
  | 2 => some .disable
  | 3 => some .reset
  | 4 => some .freezeDrain
  | 5 => some .freezeAbort
  | 6 => some .thaw
  | _ => none

-- MAILBOXES (R391 to R393) --------------------------------------------------------------------------------------------------------------------------------

/-- One message on a side's VECTOR while INT_EN = 1: the VF of instance `n`, or the PF. -/
def State.mbxSignal (s : State) (n : Nat) (pf : Bool) : State :=
  let m := if pf then (s.instD n).mbxPf else (s.instD n).mbxVf
  if m.intEn then s.sendMsix (if pf then 0 else n) m.vector else s

def MbxSide.cleared (m : MbxSide) : MbxSide := { m with slots := List.replicate 8 0, txFull := 0 }

/-- The instance is reset or removed: slots and FULL bits are zero, PEER_RESET is set, and the PF side is signalled. -/
def State.mbxReset (s : State) (n : Nat) : State :=
  if n = 0 then s
  else (s.modInst n fun i => { i with mbxVf := i.mbxVf.cleared, mbxPf := i.mbxPf.cleared, peerReset := true }).mbxSignal n true

-- RESET AND REMOVAL (R371 to R375) ---------------------------------------------------------------------------------------------------------------------------

/-- Every entry of instance `n` in the array of a die is invalid: its blocks are cleared before they serve again (R281, R289). -/
def Amu.invalidate (a : Amu) (n : Nat) : Amu :=
  { a with blocks := a.blocks.map fun b => if b.owner = some n then { b with clearing := true } else b }

/-- The state that follows a reset (R374). -/
def InstSt.afterReset : InstSt → InstSt
  | .enabled => .enabled
  | .freezing | .frozen => .frozen
  | _ => .disabled

/-- The admitted jobs of instance `n` go without completion (R89, R373, R419). -/
def State.dropJobs (s : State) (n : Nat) : State :=
  let mine := s.jobs.filter (·.inst == n)
  let s1 := mine.foldl (fun s j => (s.sayBye j Config.stAborted).dropWork j.jid) s
  { s1 with jobs := s1.jobs.filter (·.inst != n) }

/-- What a reset clears in an instance (R362, R373, R381). -/
def Inst.cleared (i : Inst) : Inst :=
  { i with
    images := []
    aq := AdminRegs.reset
    sqs := []
    cqs := []
    served := List.replicate 4 0
    fetched := []
    ended := []
    copied := []
    verified := []
    poisoned := []
    image := none
    amuState := List.replicate 8 0 }

/-- A RESET OF INSTANCE `n` in step 3 (R371, R373): what it clears, the next generation, and RESETTING with the state that follows. -/
def State.doReset (s : State) (n : Nat) (next : InstSt) : State :=
  let s1 := ((s.dropJobs n).clearImeas n).mbxReset n
  ({ s1 with dies := s1.dies.map fun (d : Die) => { d with amu := d.amu.invalidate n } } : State).modInst n fun i =>
    { i.cleared with gen := i.gen + 1, state := .resetting, resetTo := next }

/-- A REMOVAL OF INSTANCE `n` in step 3 (R375): a reset, every allocation of R369 to 0, the page table unmapped, the ways leave, and no change stays
pending. -/
def State.doRemove (s : State) (n : Nat) : State :=
  let s1 := (s.doReset n .absent).setPt n 0 []
  let s2 := s1.modInst n fun i => { i.unlatch with
    alloc := { Alloc.reset Part.trv8hA 1 with pasid := i.alloc.pasid }
    waysPending := (List.range 8).map fun d => (d, 0) }
  (List.range 8).foldl (fun s d => s.setBlocks d) { s2 with changes := s2.changes.filter (·.inst != n) }

/-- Nothing of the old generation of instance `n` remains: no completion to write, no block to clear (R374); what a fenced die
held is lost (R294). -/
def State.resetQuiet (s : State) (n : Nat) : Bool :=
  !(s.cpls.any (·.inst == n)) && s.dies.all fun d => d.fence.on || d.amu.blocks.all fun b => !(b.owner == some n && b.clearing)

/-- INST_RESET_DONE: the reset completes, and a latched enable resolves (R366, R368, R374). -/
def execInstResetDone (n : Nat) (s : State) : Host.Outcome State Fault Refusal :=
  if (s.instD n).state != .resetting || !s.resetQuiet n then .next s
  else .next ((s.modInst n fun i => { i with
    state := i.resetTo
    enablePending := i.enablePending && (i.resetTo == .disabled || i.resetTo == .frozen)
    sinceReset := 0 }).raise Config.evInstResetDone)

-- FREEZE (R376 to R379) ------------------------------------------------------------------------------------------------------------------------------------------

/-- A job whose image has REQUIRES.EXCHANGE = 1. -/
def Job.exchanges (j : Job) : Bool := bit j.image.requires 1

/-- Exchange jobs of an instance that are still admitted. -/
def State.exchangeJobs (s : State) (n : Nat) : List Job := s.jobs.filter fun j => j.inst == n && j.exchanges && j.state != .waiting

/-- The exchange jobs of an instance fail with ABORTED (R89). -/
def State.abortExchange (s : State) (n : Nat) : State :=
  { s with jobs := s.jobs.map fun j => if j.inst = n ∧ j.exchanges ∧ j.state = .running then { j with abort := true } else j }

/-- FREEZE_TIMEOUT: at the first boundary FREEZE_TIMEOUT after FREEZING began, the exchange jobs that remain fail with ABORTED, and the event is raised
(R376). -/
def execFreezeTimeout (n : Nat) (s : State) : Host.Outcome State Fault Refusal :=
  let i := s.instD n
  if i.state != .freezing || i.freezeAborts || s.frame.startNs < i.freezingNs + i.freezeTimeout * 1000000 || !(s.exchangeJobs n).any (!·.abort) then
    .next s
  else .next (((s.abortExchange n).modInst n fun i => { i with freezeAborts := true }).raise Config.evFreezeTimeout)

/-- A unit's morsel stops and goes back to its place in the ready list; the buffer that a streamer held is given back, and a LOAD morsel is the next of its
stage again (R377). -/
def State.unitBack (s : State) (d : Nat) (m : Morsel) : State :=
  let s1 := s.modDie d fun x => { x with
    units := x.units.map (·.dropIf (·.mid == m.mid))
    ready := { m with outBytes := 0, outAt := 0 } :: x.ready }
  let s2 := if m.outBytes = 0 then s1 else s1.shrinkBuffer m.jid d m.outAt 0
  match (s.job? m.jid).bind fun j => j.image.stage? m.stage with
  | none => s2
  | some st => if st.isLoad then s2.modStage m.jid m.stage fun x => { x with nextLoad := assocSet d m.seq x.nextLoad } else s2

/-- A Forager that a freeze preempts: it drains and is evicted; one that waits for the Saddle is evicted once the response has arrived (R51, R275, R377). -/
def Fgr.freeze (g : Fgr) : Fgr :=
  match g.run with
  | .running => { g with run := .preempted, evictNext := true }
  | .saddle rd => { g with run := .saddleHeld rd, evictNext := true }
  | .preempted | .saddleHeld _ => { g with evictNext := true }
  | _ => g

/-- Preempt and evict the morsels of a die's Foragers that a test picks; a parked one is evicted at once; each counts as an eviction of the boundary
(R52, R202). -/
def State.evictWhere (s : State) (d : Nat) (p : Morsel → Bool) : State :=
  let hit := fun (g : Fgr) => g.morsel.elim false p
  let parked := ((s.dieD d).fgrs.zipIdx.filter fun x => hit x.1 && x.1.run == .parked).map (·.2)
  let gone := (s.dieD d).fgrs.filterMap fun g => g.morsel.filter p
  let s0 := gone.foldl (fun s m => s.modInstStat d m.inst fun b => { b with evicted := satAdd 16 b.evicted 1 }) s
  let s1 := s0.modDie d fun x => { x with fgrs := x.fgrs.map fun g => if hit g then g.freeze else g }
  parked.foldl (fun s f => s.evict { die := d, fgr := f }) s1

/-- THE CAPTURE: the freeze takes effect at the boundary that opens the running frame (R377). -/
def State.capture (s : State) (n : Nat) : State :=
  let s1 := (List.range 8).foldl (fun s d =>
    let back := (s.dieD d).units.filterMap fun u => u.morsel.filter (·.inst == n)
    back.foldl (fun s m => s.unitBack d m) (s.evictWhere d (·.inst == n))) s
  (s1.modInst n fun i => { i with state := .frozen, freezeFrame := s.frame.number, image := none }).raise Config.evFreezeDone

-- STEP 3 OF R55 -----------------------------------------------------------------------------------------------------------------------------------------------------

/-- A freeze command applies: FREEZING, with the state to which THAW returns. -/
def State.startFreeze (s : State) (n : Nat) (aborts : Bool) : State :=
  let s1 := match (s.instD n).state with
    | .enabled | .disabled => s.modInst n fun i => { i with
        prior := i.state
        state := .freezing
        freezeAborts := aborts
        freezingNs := s.frame.startNs }
    | .freezing => s.modInst n fun i => { i with freezeAborts := i.freezeAborts || aborts }
    | _ => s
  if aborts && (s1.instD n).state == .freezing then s1.abortExchange n else s1

/-- THAW applies: the state before the freeze, or ENABLED with a latched enable (R368, R378). -/
def Inst.thaw (i : Inst) : Inst :=
  match i.state with
  | .freezing => { i with state := i.prior }
  | .frozen => { i with
      state := if i.enablePending then .enabled else i.prior
      enablePending := false
      image := none }
  | _ => i

/-- An INST_CMD or a removal acts on the state then in force; one that this state does not admit is dropped (R515). -/
def State.applyCmd (s : State) (n : Nat) (c : InstCmd) : State :=
  match c with
  | .enable => s.modInst n fun i => match i.state with
    | .disabled => { i.unlatch with state := .enabled }
    | .disabling | .resetting => { i with enablePending := true }
    | _ => i
  | .disable => s.modInst n fun i => match i.state with
    | .enabled => { i with state := .disabling }
    | .disabling | .resetting => i.unlatch
    | _ => i
  | .reset => match (s.instD n).state with
    | .absent | .resetting => s
    | st => s.doReset n st.afterReset
  | .remove => match (s.instD n).state with
    | .absent => s
    | _ => s.doRemove n
  | .freezeDrain => s.startFreeze n false
  | .freezeAbort => s.startFreeze n true
  | .thaw => s.modInst n (·.thaw)
  | .restore => s

end Sys2Proof.Machine
end

