-- ==== Sys2Proof/Machine/Fence.lean ====
section
/-!
DEFINITION. Die fences (R478 to R480), the errors that start them or a warm device reset (R476), the patrol scrub (R299, R301), the Ridge links
(R14 to R18), and the retirement of Foragers (R190 to R192, R370, R477).
-/

namespace Sys2Proof.Machine

-- STARTING A FENCE (R478, R479) ----------------------------------------------------------------------------------------------------------------------------

/-- Active dies that no fence touches. -/
def State.soundDies (s : State) : List Nat := (List.range 8).filter fun d => (s.dieD d).active && (s.dieD d).fence == .none

/-- A DIE-class error, or a DIE_FENCE write, starts a fence of die `d`: nothing on a die that is fenced or being fenced (R12); of the last active die it
is a DEVICE-class error. -/
def State.startFence (s : State) (d : Nat) : State :=
  if !s.soundDies.contains d then s
  else if s.soundDies = [d] then s.deviceError
  else s.modDie d fun x => { x with fence := .staged s.stagingLeft }

-- THE FENCE BOUNDARY (R478, R479) ---------------------------------------------------------------------------------------------------------------------------

/-- An entry names a page of die `d`. -/
def pteOn (d : Nat) (e : W64) : Bool :=
  pteValid e && decide (ptePage e * Config.pageBytes < 0x8000000000) && devDie (ptePage e * Config.pageBytes) == d

/-- A per-die word without the byte of die `d`. -/
def dropByte (v : W64) (d : Nat) : W64 := v &&& ~~~(BitVec.ofNat 64 (0xFF * 256 ^ d))

/-- The allocations of R479 without what they give on die `d`. -/
def Alloc.fenced (a : Alloc) (d : Nat) : Alloc :=
  { a with
    coreFrames := dropByte a.coreFrames d
    shareCs := dropByte a.shareCs d
    shareHpe := dropByte a.shareHpe d
    shareMn := dropByte a.shareMn d
    shareAmu := dropByte a.shareAmu d
    shareDg := dropByte a.shareDg d }.setWays d 0

/-- How many objects of an instance a fence of die `d` changes: a DEVICE record is written for each. -/
def Alloc.fenceCount (a : Alloc) (d : Nat) : Nat :=
  ([a.coreFrames, a.shareCs, a.shareHpe, a.shareMn, a.shareAmu, a.shareDg].filter fun w => dieByte w d != 0).length +
  (if a.ways d = 0 then 0 else 1)

/-- What a die loses at its fence boundary: its morsels, contexts, cache contents, match entries, the requests to its stacks, its statistics. -/
def Die.fenced (x : Die) : Die :=
  { (x.dropMorsels fun _ => true).releaseCtxs (fun _ => true) with
    cc := { x.cc with lines := [], sweeping := [] }
    amu := { x.amu with array := [], badParity := [] }
    retiring := []
    deferred := []
    stat := DieStat.reset
    snap := DieStat.reset }

/-- The part of each admitted job on die `d` fails with DIE_FENCED, and landing data targeted to the die is discarded (R89, R408, R419). -/
def Job.fenceDie (j : Job) (x : Failure) : Job :=
  if j.state != .running || !j.dieSet.contains x.die then j
  else
    let k := j.recordFailure x
    { k with dist := k.dist.map fun D => { D with
      wireIn := D.wireIn.filter fun w => k.dieSet[(w.id + w.dev) % k.dieSet.length]? != some x.die } }

/-- Write `k` DEVICE records for an event source. -/
def State.auditTimes (s : State) (e : Nat) : Nat → State
  | 0 => s
  | k + 1 => (s.auditDevice e).auditTimes e k

/-- THE FENCE BOUNDARY of die `d` (R478 to R480). A down Crest link leaves no traffic, so the fence then completes at once. -/
def State.fenceBoundary (s : State) (d : Nat) : State :=
  let s0 := if (s.dieD d).crestDown then s.raiseDie d dcRidgeDown else s
  let resets := (List.range 256).filter fun n => (s.instD n).pt.any fun e => pteOn d e.2
  let fail : Failure := { frame := s.frame.number.toNat, die := d, stage := 0xFFFF, status := Config.stDieFenced,
                          device := s.fabric.deviceIdActive.getD 0xFFFF, trap := [] }
  let records := ((List.range 256).map fun n => (s.instD n).alloc.fenceCount d).sum
  let s1 : State := { s0 with
    jobs := s0.jobs.map (·.fenceDie fail)
    pages := s0.pages.filter fun w => pageDie w.page != d
    insts := s0.insts.map fun (i : Inst) => { i with
      alloc := i.alloc.fenced d
      waysPending := i.waysPending.filter (·.1 != d)
      pt := i.pt.map fun (e : Nat × W64) => if pteOn d e.2 then (e.1, e.2 &&& ~~~(0x8000000000000000#64)) else e } }
  let s2 := s1.modDie d fun x => { x.fenced with fence := if x.crestDown then .complete resets else .running resets }
  (s2.auditTimes (Config.evDieFence d) records).raise (Config.evDieFence d)

/-- DIE_FENCE_COMPLETE: no traffic to or from the die remains. -/
def execDieFenceComplete (die : Nat) (s : State) : Host.Outcome State Fault Refusal :=
  match (s.dieD die).fence with
  | .running rs => .next (s.modDie die fun x => { x with fence := .complete rs })
  | _ => .next s

/-- Reset the instances that mapped a page of a fenced die; an instance that resets already does so once (R12). -/
def State.fenceResets (s : State) (rs : List Nat) : State := rs.foldl (fun s n => s.applyCmd n .reset) s

/-- One die's fence moves on at a boundary, in step 3. -/
def State.stepFence (s : State) (d : Nat) : State :=
  match (s.dieD d).fence with
  | .none | .fenced => s
  | .staged k => if k ≤ 1 then s.fenceBoundary d else s.modDie d fun x => { x with fence := .staged (k - 1) }
  | .running rs => (s.fenceResets rs).modDie d fun x => { x with fence := .running [] }
  | .complete rs =>
    ((s.fenceResets rs).modDie d fun x => { x with fence := .fenced, active := false }).raise (Config.evDieFence d)

def State.stepFences (s : State) : State := (List.range 8).foldl (fun s d => s.stepFence d) s

-- ERRORS (R476) ------------------------------------------------------------------------------------------------------------------------------------------------

/-- The part is powered and out of reset. -/
def State.powered (s : State) : Bool := s.power.mainPower && !s.power.perst

/-- COMB_UE at time `t`: a DIE-class error (R472, R476). -/
def execCombUe (die t : Nat) (s : State) : Host.Outcome State Fault Refusal :=
  if !s.powered || !s.dieHolds die then .next s else .next (((s.atNs t).raiseDie die dcCombUe).startFence die)

/-- CREST_UE: a DEVICE-class error. -/
def execCrestUe (s : State) : Host.Outcome State Fault Refusal := .next (if s.powered then s.deviceError else s)

/-- DEVICE_CLASS_ERROR (R476, R491). -/
def execDeviceClassError (s : State) : Host.Outcome State Fault Refusal := .next (if s.powered then s.deviceError else s)

/-- PATROL_SCRUB: the next granule of a stack is read (R299 to R301); both stacks of a die in UE at once fence it (R476). -/
def execPatrolScrub (stack : Nat) (found : ScrubFind) (s : State) : Host.Outcome State Fault Refusal :=
  let d := stack / 2
  if !s.dieRuns d then .next s
  else
    let g := (s.stack stack).patrol
    let s1 := match found with
      | .clean => s
      | .corrected => s.modStack stack fun x => { x with ceCount := satAdd 32 x.ceCount 1 }
      | .uncorrectable =>
        let t := s.poisonGranule stack (granuleAddr stack g)
        if t.bothUe d then t.startFence d else t
    let s2 := s1.modStack stack fun x => { x with patrol := (g + 1) % stackGranules }
    .next (if g + 1 = stackGranules then s2.raise Config.evPatrolPass else s2)

-- RIDGE LINKS (R14 to R18) -------------------------------------------------------------------------------------------------------------------------------------

/-- RIDGE_CRC_ERROR: link-level replay loses no data (R17). -/
def execRidgeCrcError (_ : Ridge) (s : State) : Host.Outcome State Fault Refusal := .next s

/-- The die at the other end of ring link `i`. -/
def State.ringNext (s : State) (i : Nat) : Nat := (i + 1) % max 1 s.part.dies

/-- The Crest link of die `d` goes down: the die is fenced (R18). Without a fence to come, RIDGE_DOWN is raised at once. -/
def State.crestGoesDown (s : State) (d : Nat) : State :=
  if (s.dieD d).crestDown || !(s.dieD d).present then s
  else
    let s1 := (s.modDie d fun x => { x with crestDown := true }).startFence d
    match (s1.dieD d).fence with
    | .staged _ => s1
    | _ => s1.raiseDie d dcRidgeDown

/-- CREST_LINK_DOWN at time `t`. -/
def execCrestLinkDown (die t : Nat) (s : State) : Host.Outcome State Fault Refusal :=
  if !s.powered then .next s else .next ((s.atNs t).crestGoesDown die)

/-- The dies from die `a` upward to the next down link. -/
def State.segmentFrom (s : State) (a : Nat) : Nat → List Nat
  | 0 => []
  | k + 1 => a :: if (s.dieD a).ringDown then [] else s.segmentFrom (s.ringNext a) k

/-- The segments of the ring, as far as they hold dies that no fence touches. -/
def State.segments (s : State) : List (List Nat) :=
  let ends := (List.range s.part.dies).filter fun i => (s.dieD i).ringDown
  (ends.map fun i => (s.segmentFrom (s.ringNext i) s.part.dies).filter s.soundDies.contains).filter (· != [])

/-- The segment that goes on: the larger one, or of two as large the one with the lowest-numbered active die (R18). -/
def keepSegment (l : List (List Nat)) : List Nat :=
  l.foldl (fun best x =>
    if best.length < x.length || (best.length == x.length && decide (x.foldl min 8 < best.foldl min 8)) then x else best) []

/-- Ring link `i` goes down: the ring runs as a chain, or every die outside the segment that goes on is fenced (R18). -/
def State.ringGoesDown (s : State) (i : Nat) : State :=
  if s.part.dies ≤ i || (s.dieD i).ringDown then s
  else
    let s1 := ((s.modDie i fun x => { x with ringDown := true }).raiseDie i dcRidgeDown).raiseDie (s.ringNext i) dcRidgeDown
    let kept := keepSegment s1.segments
    (s1.soundDies.filter (!kept.contains ·)).foldl (fun s d => s.startFence d) s1

/-- RING_LINK_DOWN at time `t`. -/
def execRingLinkDown (i t : Nat) (s : State) : Host.Outcome State Fault Refusal :=
  if !s.powered then .next s else .next ((s.atNs t).ringGoesDown i)

/-- RING_REQUEST_TIMEOUT: a request of job `jid` on die `die` cannot complete on the remaining way (R18). -/
def execRingRequestTimeout (jid die : Nat) (s : State) : Host.Outcome State Fault Refusal :=
  match s.job? jid with
  | none => .next s
  | some j =>
    if !s.dies.any (·.ringDown) || j.state != .running || !j.dieSet.contains die then .next s
    else
      let stage := (((s.dieD die).morsels.filter (·.jid == jid)).map (·.stage)).foldl min 0xFFFF
      .next (s.failPart jid die stage Config.stMemFault [])

/-- A spare replaces each failing lane of a die's links: at a boundary, with event RIDGE_LANE_SPARED for the dies of the link (R17, R472). -/
def State.spareLanes (s : State) (d : Nat) : State :=
  let x := s.dieD d
  let s1 := if x.crestFailing = 0 then s
    else (s.modDie d fun y => { y with crestSpares := y.crestSpares - y.crestFailing, crestFailing := 0 }).raiseDie d dcLaneSpared
  if x.ringFailing = 0 then s1
  else ((s1.modDie d fun y => { y with ringSpares := y.ringSpares - y.ringFailing, ringFailing := 0 }).raiseDie d dcLaneSpared).raiseDie
    (s.ringNext d) dcLaneSpared

-- THE SADDLE SITE (R31, R35, R36, R275) ----------------------------------------------------------------------------------------------------------------------------

/-- What a Forager that waits for the Saddle does next: its morsel, or what its mode gives. -/
def Fgr.unwait (g : Fgr) : Fgr :=
  match g.run with
  | .saddleHeld _ => { g with run := .preempted }
  | .saddle _ => { g with run := if g.regs.mode = 2 then .service else if g.morsel.isSome then .running else .idle }
  | _ => g

/-- The operations in flight fail their jobs with MEM_FAULT (R35); a Forager without a morsel goes on. -/
def State.failSaddleOps (s : State) : State :=
  let s1 : State := { s with saddle := { s.saddle with inflight := [] } }
  s.saddle.inflight.foldl (fun s r =>
    match (s.fgr? r.who).bind (·.morsel) with
    | none => s.modFgr r.who (·.unwait)
    | some m => if m.inst = r.inst ∧ m.gen = r.gen then s.failPart m.jid r.who.die m.stage Config.stMemFault [] else s) s1

/-- The site enters the failed state; a disable that runs is completed at the next boundary. -/
def State.saddleFails (s : State) : State :=
  { s.failSaddleOps with saddle := { s.failSaddleOps.saddle with
    state := 3
    training := false
    disableNext := s.saddle.disabling
    disabling := false
    enableNext := false
    fails := satAdd 32 s.saddle.fails 1 } }

/-- SADDLE_CMD (R36): 1 DISABLE, 2 ENABLE; none where it aborts with WRONG_STATE. -/
def State.saddleCommand (s : State) (cmd : Nat) : Option State :=
  let x := s.saddle
  let put := fun (y : Saddle) => some { s with saddle := y }
  if x.state = 0 then none
  else if cmd = 2 then
    if x.disabling ∨ x.disableNext then put { x with enablePending := true }
    else if x.state = 2 then some s
    else put { x with training := true }
  else
    let y := { x with enablePending := false }
    if x.state = 2 ∧ ¬ x.disabling then put { y with disabling := true, disableNext := true }
    else if x.state = 3 then put { y with disableNext := true, training := false, enableNext := false }
    else put y

/-- SADDLE_ENABLE_DONE: training and the report succeed, and MEAS3 is extended, or the site is failed (R36, R465). -/
def execSaddleEnableDone (report : Option (List Byte)) (s : State) : Host.Outcome State Fault Refusal :=
  if !s.powered || !s.saddle.training then .next s
  else match report with
    | none => .next s.saddleFails
    | some r => .next { s.extendMeas 3 (sha256 r) with saddle := { s.saddle with training := false, enableNext := true } }

/-- The port is powered down: the site reads disabled, and a latched enable starts (R11, R36). -/
def Saddle.down (x : Saddle) : Saddle :=
  { x with state := 1, disabling := false, disableNext := false, training := x.enablePending, enablePending := false }

/-- SADDLE_DISABLE_DONE: the operations in flight at the boundary of the disable have completed. -/
def execSaddleDisableDone (s : State) : Host.Outcome State Fault Refusal :=
  if !s.saddle.disabling || s.saddle.disableNext || s.saddle.inflight != [] then .next s
  else .next { s with saddle := s.saddle.down }

/-- SADDLE_PORT_DOWN: more lanes fail than the port has spares (R18, R35). -/
def execSaddlePortDown (s : State) : Host.Outcome State Fault Refusal :=
  if !s.powered || !(s.saddle.state == 2 || s.saddle.training || s.saddle.enableNext) then .next s else .next s.saddleFails

/-- SADDLE_TIMEOUT: an operation has had no answer for 10 µs (R35). -/
def execSaddleTimeout (s : State) : Host.Outcome State Fault Refusal :=
  if !s.powered || s.saddle.state != 2 || s.saddle.inflight == [] then .next s else .next s.saddleFails

/-- SADDLE_RESPONSE: G[RD] takes the value and the instruction retires; an error response fails the job with MEM_FAULT; a stale one is dropped and
counted (R275, R372). -/
def execSaddleResponse (f : FId) (gen : BitVec 16) (value : W64) (err : Bool) (s : State) : Host.Outcome State Fault Refusal :=
  match s.saddle.inflight.find? fun r => r.who == f && r.gen == gen with
  | none => .next s
  | some r =>
    let s1 : State := { s with saddle := { s.saddle with inflight := s.saddle.inflight.erase r } }
    if gen != (s.instD r.inst).gen then .next (s1.countStale r.inst fun i => { i with staleDma := satAdd 32 i.staleDma 1 })
    else match s1.fgr? f with
      | none => .next s1
      | some g =>
        let go := fun (rd : BitVec 5) =>
          match err, g.morsel with
          | true, some m => s1.failPart m.jid f.die m.stage Config.stMemFault []
          | true, none => s1.modFgr f (·.unwait)
          | false, _ => (s1.modFgr f (·.unwait)).finish f g.regs (.done (g.regs.setG rd value))
        match g.run with
        | .saddle rd | .saddleHeld rd => .next (go rd)
        | _ => .next s1

/-- The site at a boundary: an enable takes effect, new opcodes trap from here on, a failed port is powered down (R36). -/
def State.stepSaddle (s : State) : State :=
  let x := s.saddle
  let y := if x.enableNext then { x with state := 2, enableNext := false } else x
  let z := if !y.disableNext then y else if y.state = 3 then y.down else { y with disableNext := false }
  { s with saddle := { z with spares := z.spares - z.failing, failing := 0 } }

/-- RIDGE_LANE_FAIL: the lane waits for a spare; a link that needs more lanes than its spares can supply goes down (R17, R18). -/
def execRidgeLaneFail (l : Ridge) (s : State) : Host.Outcome State Fault Refusal :=
  if !s.powered then .next s
  else match l with
    | .crest d =>
      let x := s.dieD d
      if !x.present || x.crestDown then .next s
      else if x.crestSpares ≤ x.crestFailing then .next (s.crestGoesDown d)
      else .next (s.modDie d fun y => { y with crestFailing := y.crestFailing + 1 })
    | .ring i =>
      let x := s.dieD i
      if !x.present || x.ringDown then .next s
      else if x.ringSpares ≤ x.ringFailing then .next (s.ringGoesDown i)
      else .next (s.modDie i fun y => { y with ringFailing := y.ringFailing + 1 })
    | .saddle =>
      if s.saddle.state = 0 ∨ s.saddle.state = 1 then .next s
      else if s.saddle.spares ≤ s.saddle.failing then .next (if s.saddle.state = 2 then s.saddleFails else s)
      else .next { s with saddle := { s.saddle with failing := s.saddle.failing + 1 } }

-- RETIRING FORAGERS (R190 to R192, R477) -------------------------------------------------------------------------------------------------------------------------------

/-- Healthy unmapped Foragers, ascending. -/
def Die.spares (x : Die) : List Nat := (List.range 68).filter fun p => !x.map.contains (some p) && !x.failed.contains p

/-- A Forager is named for retirement at the next boundary. -/
def State.nameRetire (s : State) (d p : Nat) (status : Option Nat) : State :=
  let x := s.dieD d
  if 68 ≤ p || x.failed.contains p || x.retiring.any (·.1 == p) then s
  else s.modDie d fun x => { x with retiring := x.retiring ++ [(p, status)] }

/-- A RETIRE write (R205): none where it would leave the die with no mapped Forager. -/
def State.retireCommand (s : State) (d p : Nat) : Option State :=
  let x := s.dieD d
  if x.failed.contains p || x.retiring.any (·.1 == p) then some s
  else
    let going := (x.retiring.map (·.1) ++ [p]).filter fun q => x.map.contains (some q)
    let left := x.activeFgrs + (x.spares.filter fun q => !(x.retiring.map (·.1) ++ [p]).contains q).length
    if x.map.contains (some p) && left ≤ going.length then none else some (s.nameRetire d p none)

/-- FORAGER_ERR_THRESH: the corrected errors of a Forager reach FGR_ERR_THRESH within one frame-hour (R476). -/
def execForagerErrThresh (f : FId) (s : State) : Host.Outcome State Fault Refusal :=
  if !s.dieRuns f.die || 68 ≤ f.fgr then .next s
  else .next ((s.modFgr f fun g => { g with cerr := max g.cerr s.keeper.rwp.fgrErrThresh }).nameRetire f.die f.fgr none)

/-- FORAGER_UE: the part of the morsel on the Forager fails with MEM_FAULT, and the Forager stops and is retired (R476, R477). -/
def execForagerUe (f : FId) (s : State) : Host.Outcome State Fault Refusal :=
  if !s.dieRuns f.die then .next s
  else match s.fgr? f with
    | none => .next s
    | some g =>
      let s1 := ((s.raiseDie f.die dcForagerUe).nameRetire f.die f.fgr (some Config.stMemFault)).modFgr f fun h => { h with run := .stopped }
      match g.morsel with
      | none => .next s1
      | some m => .next (s1.failPart m.jid f.die m.stage Config.stMemFault [])

/-- Core-frames above ACTIVE are removed one at a time, each from the instance that holds the most on the die, the highest-numbered of several; Keeper
makes each change itself and records it (R192, R370, R440). -/
def State.trimCores (s : State) (d : Nat) : Nat → State
  | 0 => s
  | k + 1 =>
    let held := fun n => dieByte (s.instD n).alloc.coreFrames d
    if ((List.range 256).map held).sum ≤ (s.dieD d).activeFgrs then s
    else
      let n := (List.range 256).foldl (fun best n => if held best ≤ held n then n else best) 0
      ((s.modInst n fun i => { i with alloc := { i.alloc with
        coreFrames := dropByte i.alloc.coreFrames d ||| BitVec.ofNat 64 ((dieByte i.alloc.coreFrames d - 1) * 256 ^ d) } }).auditDevice (Config.evDieRepair d)).trimCores d k

/-- The map without a physical Forager: the lowest healthy spare takes its place, or the highest mapped logical Forager moves down (R191, R192). -/
def Die.unmap (x : Die) (p : Nat) : Die :=
  match x.map.idxOf? (some p) with
  | none => x
  | some l =>
    match x.spares.find? fun q => !x.retiring.any (·.1 == q) with
    | some q => { x with map := x.map.set l (some q) }
    | none =>
      let top := x.activeFgrs - 1
      { x with map := (x.map.set l (x.map.getD top none)).set top none }

/-- Physical Forager `p` of die `d` is retired, in step 2: its morsel is discarded with its failed job, or preempted and evicted (R191, R477). -/
def State.retireFgr1 (s : State) (d p : Nat) (status : Option Nat) : State :=
  let mid := ((s.fgr? { die := d, fgr := p }).bind (·.morsel)).map (·.mid)
  let s1 := match status, mid with
    | _, none => s
    | some _, some _ => s.modFgr { die := d, fgr := p } (·.discard)
    | none, some m => s.evictWhere d (·.mid == m)
  let s2 := s1.modDie d fun x => { x.unmap p with failed := insAsc p x.failed }
  let s3 := (s2.raiseDie d dcForagerRetired).auditDevice (Config.evDieRepair d)
  if (s1.dieD d).spares.length != 0 && (s3.dieD d).spares.length == 0 then s3.raiseDie d dcSparesExhausted else s3

/-- Every retirement that is due on die `d`, and the core-frames that go with it. -/
def State.retireDue (s : State) (d : Nat) : State :=
  let due := (s.dieD d).retiring
  let s1 := due.foldl (fun s x => s.retireFgr1 d x.1 x.2) s
  (s1.modDie d fun x => { x with retiring := [] }).trimCores d 16384

end Sys2Proof.Machine
end

