-- ==== Sys2Proof/Machine/Migrate.lean ====
section
/-!
DEFINITION. Migration: copies of pages and images (R380 to R383), the state image (R384 to R387), and the restore of one (R388, R389).
-/

namespace Sys2Proof.Machine

-- THE CAPTURED STATE (R377, R386) ---------------------------------------------------------------------------------------------------------------------------

/-- What sections 0x0001 and 0x0005 to 0x000C of a state image carry. -/
structure Captured where
  loadCtr : Nat
  enablePending : Bool
  freezeAborts : Bool
  aq : AdminRegs
  sqs : List Sq
  cqs : List Cq
  served : List Nat
  fetched : List Chain
  images : List Slot
  jobs : List Job
  /-- by die: saved morsels, ready morsels in order, digest contexts -/
  saved : List (Nat × Saved)
  ready : List (Nat × Morsel)
  ctxs : List (Nat × Ctx)
  /-- by die: the region state, and the entries by instance address -/
  amu : List (Nat × Nat × List (Nat × AmuEntry))
  mbxVf : MbxSide
  mbxPf : MbxSide
  deriving DecidableEq, Repr

end Sys2Proof.Machine

namespace Sys2Proof.Config
open Sys2Proof.Machine

/-- The bytes of a section that the Keeper firmware family lays out (R386): its type, and what is captured. DESIGN CHOICE, notes/assumptions/24.md. -/
opaque stateSection : Nat → Captured → List Byte

/-- What the Keeper firmware family reads from sections 0x0001 and 0x0005 to 0x000C, in that order; none where they are not in its layout (R386).
DESIGN CHOICE, notes/assumptions/24.md. -/
opaque readSections : List (List Byte) → Option Captured

/-- MIG_STATUS.ERROR of a copy whose instance has left the states that R380 admits for the record (no rule gives it), drawn with the counter.
DESIGN CHOICE, notes/assumptions/24.md. -/
opaque migStateError : Nat → BitVec 8

end Sys2Proof.Config

namespace Sys2Proof.Machine

/-- The morsels that instance `n` has on Foragers of a die, as they will stand in the saved-morsel area once they have drained. -/
def Die.drainingOf (x : Die) (n : Nat) : List Saved := x.fgrs.filterMap fun g =>
  (g.morsel.filter (·.inst == n)).map fun m => { morsel := m, regs := if g.run = .parked then g.save else g.regs, ldm := g.ldm }

/-- The entries of instance `n` in a die's array, by instance address. -/
def Amu.entriesOf (a : Amu) (n : Nat) : List (Nat × AmuEntry) :=
  (a.region n).zipIdx.flatMap fun b => (a.array.filter fun e => e.1 / amuBlock == b.1 && !a.clearing e.1).map fun e =>
    (b.2 * amuBlock + e.1 % amuBlock, e.2)

/-- What a freeze of instance `n` has captured. -/
def State.captured (s : State) (n : Nat) : Captured :=
  let i := s.instD n
  let dies := List.range 8
  { loadCtr := i.loadCtr
    enablePending := i.enablePending
    freezeAborts := i.freezeAborts
    aq := i.aq
    sqs := i.sqs
    cqs := i.cqs
    served := i.served
    fetched := i.fetched
    images := i.images
    jobs := s.jobs.filter (·.inst == n)
    saved := dies.flatMap fun d => ((s.dieD d).saved.filter (·.morsel.inst == n) ++ (s.dieD d).drainingOf n).map fun x => (d, x)
    ready := dies.flatMap fun d => ((s.dieD d).readyOf n).map fun m => (d, m)
    ctxs := dies.flatMap fun d => ((s.dieD d).ctxs.filter fun c => c.holder != .free && c.inst == n).map fun c => (d, c)
    amu := dies.map fun d => (d, i.amuState.getD d 0, (s.dieD d).amu.entriesOf n)
    mbxVf := i.mbxVf
    mbxPf := i.mbxPf }

-- THE STATE IMAGE (R384 to R387) --------------------------------------------------------------------------------------------------------------------------------

/-- The address that a host-aperture entry maps (R24). -/
def pteIova (e : W64) : Nat := ptePage e * Config.pageBytes - 0x800000000000

/-- An entry maps RLM. -/
def pteRlm (e : W64) : Bool := decide (ptePage e * Config.pageBytes < 0x8000000000)

/-- The valid entries of an instance's page table. -/
def Inst.validPt (i : Inst) : List (Nat × W64) := i.pt.filter fun e => pteValid e.2 && decide (e.1 < i.alloc.ptPages)

def digestOf (l : List (Nat × List Byte)) (p : Nat) : List Byte := ((l.find? (·.1 == p)).elim [] (·.2))

/-- A PAGES entry (R387). -/
def Inst.pageEntry (i : Inst) (x : Nat × W64) : List Byte :=
  let rlm := pteRlm x.2
  leBytes 4 x.1 ++ leBytes 1 ((if rlm then 1 else 0) + (if pteWrite x.2 then 2 else 0)) ++ leBytes 1 (pteRegion x.2) ++
  leBytes 1 (if rlm then devDie (ptePage x.2 * Config.pageBytes) else 0xFF) ++ zeros 1 ++ leBytes 8 (if rlm then 0 else pteIova x.2) ++
  fit 32 (if rlm then digestOf i.copied x.1 else [])

/-- Ways that an instance holds on a die. -/
def Alloc.wayCount (a : Alloc) (d : Nat) : Nat := ((List.range 16).filter (bit (a.ways d) ·)).length

/-- Section RESOURCES (R386). -/
def Alloc.resourceBytes (a : Alloc) : List Byte :=
  leBytes 8 a.coreFrames.toNat ++ (List.range 5).flatMap (fun k => leBytes 8 (a.shareWord k).toNat) ++ leBytes 1 a.fabricShare ++
  leBytes 1 a.imgStore ++ leBytes 4 a.readyLimit ++ leBytes 4 a.ptPages ++ leBytes 2 a.sqQuota ++ leBytes 2 a.cqQuota ++
  leBytes 64 a.regions.toNat ++ (List.range 8).flatMap fun d => leBytes 1 (a.wayCount d)

/-- A section with its type and ENTRY_COUNT. -/
def State.stateSections (s : State) (n : Nat) : List (Nat × Nat × List Byte) :=
  let i := s.instD n
  let c := s.captured n
  let pages := i.validPt
  (List.range 12).map fun k => match k + 1 with
    | 2 => (2, 0, i.alloc.resourceBytes)
    | 3 => (3, pages.length, pages.flatMap i.pageEntry)
    | 4 => (4, i.poisoned.length, i.poisoned.flatMap fun x => leBytes 4 x.1 ++ leBytes 4 x.2)
    | t => (t, 0, Config.stateSection t c)

/-- Lay sections out from an offset: the section table and the sections. -/
def laySections : Nat → List (Nat × Nat × List Byte) → List Byte × List Byte
  | _, [] => ([], [])
  | off, (t, k, bs) :: rest =>
    let body := pad64 bs
    let r := laySections (off + body.length) rest
    (leBytes 2 t ++ zeros 2 ++ leBytes 4 k ++ leBytes 8 off ++ leBytes 8 bs.length ++ zeros 8 ++ r.1, body ++ r.2)

/-- Bitmap of the active dies. -/
def State.dieActive (s : State) : Nat := bitmap ((List.range 8).filter fun d => (s.dieD d).active)

/-- FCLK as DEVICE_TOPO gives it (R31). -/
def State.fclkField (s : State) : Nat := s.part.fclkMHz / 100

/-- The header (R385). -/
def State.stateHeader (s : State) (n size : Nat) : List Byte :=
  let i := s.instD n
  ascii "OVISTATE" ++ leBytes 2 1 ++ leBytes 2 0 ++ leBytes 2 128 ++ leBytes 2 12 ++ leBytes 8 size ++ leBytes 1 s.frame.periodActive ++
  leBytes 1 s.fclkField ++ leBytes 1 s.dieActive ++ leBytes 1 n ++ leBytes 2 i.gen.toNat ++ leBytes 2 s.keeper.keeperFamily.toNat ++
  leBytes 2 s.keeper.runtimeFamily.toNat ++ leBytes 1 (if i.prior = .enabled then 2 else 1) ++ zeros 5 ++ leBytes 8 i.freezeFrame.toNat ++ zeros 80

/-- The state image of instance `n`. -/
def State.stateImage (s : State) (n : Nat) : List Byte :=
  let p := laySections (128 + 12 * 32) (s.stateSections n)
  let size := 128 + p.1.length + p.2.length + 32
  let body := s.stateHeader n size ++ p.1 ++ p.2
  body ++ sha256 body

/-- The image, taken when it is first read after the freeze took effect. -/
def State.takeImage (s : State) (n : Nat) : State × List Byte :=
  match (s.instD n).image with
  | some b => (s, b)
  | none =>
    let b := s.stateImage n
    (s.modInst n fun i => { i with image := some b }, b)

/-- IMAGE_BYTES (R384, R394). -/
def State.imageBytes (s : State) (n : Nat) : Nat := if (s.instD n).state = .frozen then (s.takeImage n).2.length else 0

-- MIG_COPY (R380 to R383) -----------------------------------------------------------------------------------------------------------------------------------------

def recKind (r : List Byte) : Nat := byteAt r 0

/-- A record obeys its layout (R380). -/
def migRecOk (r : List Byte) : Bool :=
  let k := recKind r
  let page := k == 1 || k == 2
  1 ≤ k && k ≤ 4 && allZero (slice r 1 3) && (page || field r 4 4 == 0) && field r 8 8 % 4096 == 0 && decide (field r 8 8 < 0x800000000000) &&
  (!page || field r 0x10 8 == 0) && allZero (slice r 0x18 8) && (k == 2 || allZero (slice r 0x20 32))

def parseMigRec (r : List Byte) : MigRec :=
  { kind := recKind r, page := field r 4 4, host := field r 8 8, bytes := field r 0x10 8, digest := slice r 0x20 32 }

def migRecords (data : List Byte) : List (List Byte) := (List.range (data.length / 64)).map fun k => slice data (64 * k) 64

/-- A MIG_COPY write obeys its range. -/
def migOk (data : List Byte) : Bool := data.length % 64 == 0 && 64 ≤ data.length && data.length ≤ 16384 && (migRecords data).all migRecOk

/-- Jobs of an instance that are admitted. -/
def State.hasAdmitted (s : State) (n : Nat) : Bool := s.jobs.any fun j => j.inst == n && j.admitted

/-- The state of instance `n` admits a record of a kind (R380). -/
def State.migAdmits (s : State) (n kind : Nat) : Bool :=
  let st := (s.instD n).state
  match kind with
  | 1 => st != .absent && st != .resetting
  | 3 => st == .frozen
  | _ => st == .disabled && !s.hasAdmitted n

/-- A MIG_COPY write is accepted. -/
def State.startMig (s : State) (n : Nat) (data : List Byte) : State :=
  s.modInst n fun i => { i with mig := { recs := (migRecords data).map parseMigRec, next := 0, done := 0, failIndex := 0, error := 0, busy := true } }

/-- MIG_STATUS (R383). -/
def Mig.status (m : Mig) : Nat := m.failIndex * 2 ^ 32 + m.done * 2 ^ 16 + m.error * 2 ^ 8 + (if m.busy then 1 else 0)

/-- The record that runs next, if it is of a kind. -/
def Inst.migNext (i : Inst) (kind : Nat) : Option MigRec :=
  if i.mig.busy && i.mig.error == 0 then (i.mig.recs[i.mig.next]?).filter (·.kind == kind) else none

/-- The record completes, or stops the copy with an error. -/
def State.migDone (s : State) (n : Nat) : State := s.modInst n fun i => { i with mig := { i.mig with next := i.mig.next + 1, done := i.mig.done + 1 } }
def State.migFail (s : State) (n err : Nat) : State := s.modInst n fun i => { i with mig := { i.mig with error := err, failIndex := i.mig.next } }

/-- RUN A RECORD of a kind, where the state of the instance admits it; the page kinds wait while instance 0 has no digest share on the page's die (R381). -/
def migStep (n kind : Nat) (run : MigRec → State → State) (s : State) : Host.Outcome State Fault Refusal :=
  match (s.instD n).migNext kind with
  | none => .next s
  | some r =>
    if !s.powered then .next s
    else if !s.migAdmits n kind then .next (s.drawn.migFail n (Config.migStateError s.draw).toNat)
    else .next (run r s)

/-- The RLM page of an instance page, as a device address. -/
def Inst.rlmPage (i : Inst) (p : Nat) : Option Nat :=
  (i.entry (p * Config.pageBytes)).bind fun e => if pteRlm e then some (ptePage e * Config.pageBytes) else none

/-- A page as it is copied out: each poisoned granule as 64 zero bytes (R382). -/
def State.pageOutBytes (s : State) (a : Nat) : List Byte :=
  (List.range (Config.pageBytes / 64)).flatMap fun g => if s.poison.contains (a / 64 + g) then zeros 64 else memRead s.mem (a + 64 * g) 64

/-- PAGE_OUT (R381, R382). -/
def execPageOut (n : Nat) (s : State) : Host.Outcome State Fault Refusal :=
  migStep n 1 (fun r s =>
    match (s.instD n).rlmPage r.page with
    | none => s.migFail n 1
    | some a =>
      if dieByte (s.instD 0).alloc.shareDg (devDie a) = 0 then s
      else
        let bs := s.pageOutBytes a
        let bad := (s.poison.filter fun g => decide (a / 64 ≤ g) && decide (g < (a + Config.pageBytes) / 64)).map fun g => (r.page, g - a / 64)
        ((({ s with mem := memWrite s.mem (hostKey 0 r.host) bs } : State).modInst n fun i => { i with
          copied := assocSet r.page (sha256 bs) i.copied
          poisoned := (i.poisoned.filter fun (x : Nat × Nat) => x.1 != r.page) ++ bad }).migDone n)) s

/-- PAGE_IN (R321, R381). -/
def execPageIn (n : Nat) (s : State) : Host.Outcome State Fault Refusal :=
  migStep n 2 (fun r s =>
    match (s.instD n).rlmPage r.page with
    | none => s.migFail n 1
    | some a =>
      if dieByte (s.instD 0).alloc.shareDg (devDie a) = 0 then s
      else
        let bs := memRead s.mem (hostKey 0 r.host) Config.pageBytes
        let s1 : State := { s with
          mem := memWrite s.mem a bs
          poison := s.poison.filter fun g => decide (g < a / 64) || decide ((a + Config.pageBytes) / 64 ≤ g) }
        let s2 := (s1.modCc (devDie a) fun c => { c with
          lines := c.lines.filter fun l => !(l.inst == n && l.addr / Config.pageBytes == a / Config.pageBytes) }).modInst n fun i => { i with
            dirtyLive := insAsc r.page i.dirtyLive
            copied := i.copied.filter (·.1 != r.page)
            verified := i.verified.filter (·.1 != r.page) }
        let p := s2.compareDigests (sha256 bs) r.digest
        if digestsEqual p.2 then (p.1.modInst n fun i => { i with verified := assocSet r.page r.digest i.verified }).migDone n
        else p.1.migFail n 3) s

/-- IMAGE_OUT (R383, R384, R387). -/
def execImageOut (n : Nat) (s : State) : Host.Outcome State Fault Refusal :=
  migStep n 3 (fun r s =>
    let i := s.instD n
    if i.validPt.any fun e => pteRlm e.2 && !i.copied.any (·.1 == e.1) then s.migFail n 4
    else
      let p := s.takeImage n
      if r.bytes < p.2.length then p.1.migFail n 5
      else { p.1 with mem := memWrite p.1.mem (hostKey 0 r.host) p.2 }.migDone n) s

/-- 2 GiB. -/
def imageMax : Nat := 0x80000000

/-- The checks of a restore begin (R388). -/
def State.startRestore (s : State) (n : Nat) (bs : List Byte) : State :=
  s.modInst n fun i => { i with restoreStatus := 1, restore := some { image := bs, accepted := false } }

/-- IMAGE_IN (R383, R388). -/
def execImageIn (n : Nat) (s : State) : Host.Outcome State Fault Refusal :=
  migStep n 4 (fun r s =>
    if imageMax < r.bytes then s.migFail n 5
    else (s.startRestore n (memRead s.mem (hostKey 0 r.host) r.bytes)).migDone n) s

/-- MIG_COPY_DONE: no record is left, or one has failed (R383, R471). -/
def execMigCopyDone (n : Nat) (s : State) : Host.Outcome State Fault Refusal :=
  let m := (s.instD n).mig
  if !m.busy || (m.error == 0 && decide (m.next < m.recs.length)) then .next s
  else .next ((s.modInst n fun i => { i with mig := { i.mig with busy := false } }).raise Config.evMigCopyDone)

/-- PAGE_STATE_MAP: the COPIED and VERIFIED pages (R381). -/
def Inst.pageStateMap (i : Inst) : Nat := bitmap (((i.copied ++ i.verified).map (·.1)).filter (· < i.alloc.ptPages))

-- RESTORE: THE CHECKS (R388) -------------------------------------------------------------------------------------------------------------------------------------------

/-- The section table of a state image: type, count, offset, size. -/
def stateSecs (bs : List Byte) : List (Nat × Nat × Nat × Nat) :=
  (List.range 12).map fun k => let o := 128 + 32 * k; (field bs o 2, field bs (o + 4) 4, field bs (o + 8) 8, field bs (o + 16) 8)

/-- The content of a section. -/
def stateSec (bs : List Byte) (t : Nat) : List Byte := match (stateSecs bs).find? (·.1 == t) with
  | none => []
  | some x => slice bs x.2.2.1 x.2.2.2

def chunks (bs : List Byte) (w : Nat) : List (List Byte) := (List.range (bs.length / w)).map fun k => slice bs (w * k) w

/-- What the firmware's sections hold. -/
def stateCaptured (bs : List Byte) : Option Captured := Config.readSections ([1, 5, 6, 7, 8, 9, 10, 11, 12].map (stateSec bs))

/-- Check 2: header and section table (R384 to R387). -/
def stateFormatOk (bs : List Byte) : Bool :=
  let secs := stateSecs bs
  let sealAt := bs.length - 32
  let inSec := fun (i : Nat) => secs.any fun x => decide (x.2.2.1 ≤ i) && decide (i < x.2.2.1 + x.2.2.2)
  544 ≤ bs.length && bs.length ≤ imageMax && slice bs 0 8 == ascii "OVISTATE" && field bs 8 2 == 1 && field bs 0x0C 2 == 128 &&
  field bs 0x0E 2 == 12 && field bs 0x10 8 == bs.length && (byteAt bs 0x22 == 1 || byteAt bs 0x22 == 2) && allZero (slice bs 0x23 5) &&
  allZero (slice bs 0x30 80) &&
  (List.range 12).all (fun k => (secs.filter (·.1 == k + 1)).length == 1) &&
  (List.range 12).all (fun k => allZero (slice bs (130 + 32 * k) 2) && allZero (slice bs (152 + 32 * k) 8)) &&
  secs.all (fun x => x.2.2.1 % 64 == 0 && decide (512 ≤ x.2.2.1) && decide (x.2.2.1 + x.2.2.2 ≤ sealAt)) &&
  secs.zipIdx.all (fun x => (secs.take x.2).all fun y => decide (x.1.2.2.1 + x.1.2.2.2 ≤ y.2.2.1) || decide (y.2.2.1 + y.2.2.2 ≤ x.1.2.2.1)) &&
  (List.range sealAt).all (fun i => decide (i < 512) || inSec i || byteAt bs i == 0) &&
  (stateSec bs 2).length == 134 && (stateSec bs 3).length % 48 == 0 && (stateSec bs 4).length % 8 == 0 &&
  (chunks (stateSec bs 3) 48).all (fun e => byteAt e 4 < 4 && byteAt e 7 == 0 && byteAt e 5 < 64) &&
  (chunks (stateSec bs 4) 8).all (fun e => field e 4 4 < 32768) && (stateCaptured bs).isSome

/-- The target die of source die `d`. -/
def Inst.dieTo (i : Inst) (d : Nat) : Nat := bits i.dieMap.toNat (4 * d + 3) (4 * d)

/-- Source dies of an image. -/
def sourceDies (bs : List Byte) : List Nat := (List.range 8).filter (bit (byteAt bs 0x1A) ·)

/-- Check 6: dies and resources. -/
def State.restoreFits (s : State) (n : Nat) (bs : List Byte) : Bool :=
  let i := s.instD n
  let a := i.alloc
  let r := stateSec bs 2
  let ds := sourceDies bs
  let targets := ds.map i.dieTo
  targets.all (s.activeDies.contains ·) && targets.eraseDups.length == ds.length &&
  (ds.all fun d =>
    let t := i.dieTo d
    dieByte (BitVec.ofNat 64 (field r 0 8)) d ≤ dieByte a.coreFrames t &&
    ((List.range 5).all fun k => dieByte (BitVec.ofNat 64 (field r (8 + 8 * k) 8)) d ≤ dieByte (a.shareWord k) t) &&
    byteAt r (126 + d) ≤ a.wayCount t) &&
  byteAt r 48 ≤ a.fabricShare && byteAt r 49 ≤ a.imgStore && field r 50 4 ≤ a.readyLimit && field r 54 4 ≤ a.ptPages && field r 58 2 ≤ a.sqQuota &&
  field r 60 2 ≤ a.cqQuota && field r 62 64 == a.regions.toNat

/-- Check 7: pages. -/
def State.restorePages (s : State) (n : Nat) (bs : List Byte) : Bool :=
  let i := s.instD n
  (chunks (stateSec bs 3) 48).all fun e =>
    match i.entry (field e 0 4 * Config.pageBytes) with
    | none => false
    | some x =>
      if bit (byteAt e 4) 0 then
        pteRlm x && devDie (ptePage x * Config.pageBytes) == i.dieTo (byteAt e 6) && i.verified.any fun v => v.1 == field e 0 4 && v.2 == slice e 16 32
      else !pteRlm x && pteIova x == field e 8 8

/-- Check 8: room for what the image brings. -/
def State.restoreRoom (s : State) (n : Nat) (c : Captured) : Bool :=
  let i := s.instD n
  let mine := c.jobs.filter (·.admitted)
  ((List.range 8).all fun t =>
    (s.dieD t).saved.length + (c.saved.filter fun x => i.dieTo x.1 == t).length ≤ Config.savedMorsels &&
    ((s.jobs.filter (·.admitted)).map (·.contextsOn t)).sum +
      (mine.map fun j => if (j.dieSet.map i.dieTo).head? = some t then (j.image.flows.filter (·.ordered)).length else 0).sum ≤ Config.orderedContexts) &&
  ((s.tablesInUse ++ mine.flatMap fun j => j.tables.map fun t => (n, t.addr)).eraseDups).length ≤ Config.tablesInUse &&
  s.admissionUsed + mine.length + (c.fetched.filter (·.sqid == 0)).length ≤ Config.admissionEntries

/-- The first failing code of checks 2 to 9, or 0. -/
def State.restoreCode (s : State) (n : Nat) (bs : List Byte) : Nat :=
  let i := s.instD n
  if !stateFormatOk bs then 3
  else if s.keeper.keeperFamily.toNat < field bs 0x1E 2 || s.keeper.runtimeFamily.toNat < field bs 0x20 2 || field bs 0x0A 2 != 0 then 4
  else if byteAt bs 0x18 != s.frame.periodActive then 5
  else if i.state != .disabled || s.hasAdmitted n || i.images != [] || i.sinceReset < 16 then 6
  else if !s.restoreFits n bs then 7
  else if !s.restorePages n bs then 8
  else match stateCaptured bs with
    | none => 3
    | some c =>
      if !s.restoreRoom n c then 9
      else if c.images.any fun x => (s.recheckImage x.image).isSome then 10
      else 0

/-- RESTORE_CHECKS_DONE: RESTORE_STATUS takes the first failing code; an accepted restore applies at a boundary (R57, R388, R389). -/
def execRestoreChecksDone (n : Nat) (s : State) : Host.Outcome State Fault Refusal :=
  match (s.instD n).restore with
  | none => .next s
  | some r =>
    if r.accepted || !s.powered then .next s
    else
      let p := s.compareDigests (r.image.drop (r.image.length - 32)) (sha256 (r.image.take (r.image.length - 32)))
      let code := if digestsEqual p.2 then p.1.restoreCode n r.image else 2
      .next (p.1.modInst n fun i =>
        if code = 0 then { i with
          restoreStatus := 0
          restore := some { r with accepted := true }
          staged := i.staged ++ [{ left := s.stagingLeft, cmd := .restore }] }
        else { i with restoreStatus := code, restore := none })

-- RESTORE: WHAT IT PUTS IN PLACE (R389) ------------------------------------------------------------------------------------------------------------------------------------

/-- How captured names become this device's: dies, jobs, morsels, instance, generation. -/
structure Rename where
  die : Nat → Nat
  jid : Nat
  mid : Nat
  inst : Nat
  gen : BitVec 16

def Rename.morsel (r : Rename) (m : Morsel) : Morsel :=
  { m with
    mid := m.mid + r.mid
    jid := m.jid + r.jid
    inst := r.inst
    gen := r.gen
    bufs := m.bufs.map fun b => (r.die b.1, b.2) }

def Rename.holder (r : Rename) : Holder → Holder
  | .free => .free
  | .morsel m => .morsel (m + r.mid)
  | .stage j i => .stage (j + r.jid) i
  | .result j => .result (j + r.jid)
  | .keeper => .keeper

/-- A REPLICATED table keeps its copies by die (R145). -/
def Rename.table (r : Rename) (t : Table) : Table :=
  if t.mode != 1 then t
  else { t with
    bases := (List.range 8).map fun d => (((List.range 8).find? fun x => r.die x == d).elim 0 fun x => t.bases.getD x 0)
    chunks := t.chunks.map fun c => (r.die c.1, c.2) }

def Rename.job (r : Rename) (j : Job) : Job :=
  { j with
    jid := j.jid + r.jid
    inst := r.inst
    gen := r.gen
    dieSet := j.dieSet.map r.die
    parts := j.parts.map fun p => { p with die := r.die p.die }
    arenas := j.arenas.map fun a => { a with die := r.die a.die }
    tables := j.tables.map r.table
    stages := j.stages.map fun x => { x with nextLoad := x.nextLoad.map fun y => (r.die y.1, y.2) }
    flows := j.flows.map fun f => { f with held := f.held.map r.morsel } }

/-- Put captured work on the dies. -/
def State.placeCaptured (s : State) (r : Rename) (c : Captured) : State :=
  let s1 := c.saved.foldl (fun s x => s.modDie (r.die x.1) fun d => { d with saved := d.saved ++ [{ x.2 with morsel := r.morsel x.2.morsel }] }) s
  let s2 := c.ready.foldl (fun s x => s.modDie (r.die x.1) fun d => { d with ready := d.ready ++ [r.morsel x.2] }) s1
  let s3 := c.ctxs.foldl (fun s x => match firstBelow 64 fun k => ((s.dieD (r.die x.1)).ctxs.getD k Ctx.reset).holder == .free with
    | none => s
    | some k => s.setCtx (r.die x.1) k { x.2 with inst := r.inst, holder := r.holder x.2.holder }) s2
  c.amu.foldl (fun s x =>
    let d := r.die x.1
    x.2.2.foldl (fun s e => match (s.dieD d).amu.physical r.inst e.1 with
      | none => s
      | some k => s.amuWrite d k e.2) (s.setAmuState r.inst d x.2.1)) s3

/-- AN ACCEPTED RESTORE APPLIES in step 3: INST_GEN, poison, images, IMEAS, and the captured state on the mapped dies; the instance is FROZEN (R389). -/
def State.doRestore (s : State) (n : Nat) : State :=
  let i := s.instD n
  match i.restore with
  | none => s
  | some x =>
    match i.state, stateCaptured x.image with
    | .disabled, some c =>
      let bs := x.image
      let gen := BitVec.ofNat 16 (field bs 0x1C 2)
      let r : Rename := { die := i.dieTo, jid := s.nextJid, mid := s.nextMid, inst := n, gen := gen }
      let bad := (chunks (stateSec bs 4) 8).filterMap fun e => (i.rlmPage (field e 0 4)).map fun a => a / 64 + field e 4 4
      let jobs := c.jobs.map r.job
      let mids := (c.saved.map (·.2.morsel) ++ c.ready.map (·.2) ++ c.jobs.flatMap fun j => j.flows.flatMap (·.held)).map (·.mid)
      let s1 : State := { s with
        poison := bad.foldl (fun l g => insAsc g l) s.poison
        jobs := s.jobs ++ jobs
        nextJid := s.nextJid + (c.jobs.map (·.jid)).foldl max 0 + 1
        nextMid := s.nextMid + mids.foldl max 0 + 1 }
      let s2 := (s1.placeCaptured r c).clearImeas n
      let slots := sortBy (fun a b => a.slot ≤ b.slot) c.images
      let s3 := slots.foldl (fun s y => s.extendImeas n 0 y.image.digest) s2
      let s4 := s3.extendImeas n 7 (bs.drop (bs.length - 32))
      (s4.modInst n fun i => { i with
        state := .frozen
        prior := if byteAt bs 0x22 = 2 then .enabled else .disabled
        gen := gen
        restore := none
        image := none
        freezeFrame := BitVec.ofNat 64 (field bs 0x28 8)
        loadCtr := c.loadCtr
        enablePending := c.enablePending
        freezeAborts := c.freezeAborts
        aq := c.aq
        sqs := c.sqs
        cqs := c.cqs
        served := c.served
        fetched := c.fetched
        images := c.images
        mbxVf := c.mbxVf
        mbxPf := c.mbxPf }).raise Config.evRestoreDone
    | _, _ => s.modInst n fun i => { i with restore := none }

end Sys2Proof.Machine
end

