-- ==== Sys2Proof/Machine/RegRead.lean ====
section
/-!
DEFINITION. What a read of each register returns (R6, R30 to R32, R62 to R64, R193 to R203, R322 to R324, R330 to R339, R390, R391, R429, R472, R473). A read has
no effect but those of FRAME_NUMBER, FRAME_NOW and KDW_DATA; it reads as a plain function of the state.
-/

namespace Sys2Proof.Machine

-- COMPOSITION AND FRAMES (R31, R62 to R64) -------------------------------------------------------------------------------------------------------------

/-- DIE_PRESENT. -/
def State.diePresent (s : State) : Nat := bitmap ((List.range 8).filter fun d => (s.dieD d).present)

/-- Ring links that are down, ascending. -/
def State.ringDownLinks (s : State) : List Nat := (List.range s.part.dies).filter fun i => (s.dieD i).ringDown

/-- DEVICE_TOPO (R31). -/
def State.deviceTopo (s : State) : W64 :=
  BitVec.ofNat 64 (s.dieActive * 2 ^ 40 + s.diePresent * 2 ^ 32 + s.part.dies * 2 ^ 24 + 2 * 2 ^ 20 +
    (if s.ringDownLinks = [] then 0 else 2 ^ 19) + s.saddle.state.toNat * 2 ^ 16 + 48 * 2 ^ 8 + s.fclkField)

def SyncSt.code : SyncSt → Nat
  | .free => 0
  | .locking => 1
  | .locked => 2
  | .holdover => 3
  | .alignLost => 4

/-- OFFSET_NS: saturated, 0 in FREE (R63). -/
def FrameGen.offsetField (f : FrameGen) : Nat :=
  if f.sync = .free then 0 else ucode 16 (max (-32767) (min 32767 f.offsetLast))

/-- FRAME_STAT of function `fn` (R63). -/
def State.frameStat (s : State) (fn : Nat) : W64 :=
  BitVec.ofNat 64 (s.tbPtr * 2 ^ 56 + s.frame.periodActive * 2 ^ 40 + s.frame.sync.code * 2 ^ 32 + s.frame.offsetField * 2 ^ 16 +
    (if fn = 0 then s.frame.overrunLast else (s.instD fn).overrunLast))

/-- The live value of FRAME_NOW.ELAPSED_NS (R64). -/
def State.elapsedNs (s : State) : Nat := (s.power.uptimeNs - s.frame.startNs) % 2 ^ 20

/-- FRAME_NOW of function `fn`: the latched value if there is one. -/
def State.frameNowReg (s : State) (fn : Nat) : W64 :=
  match (s.instD fn).frameNow with
  | some v => v.setWidth 64
  | none => BitVec.ofNat 64 s.elapsedNs

-- HOST PORT (R333, R336, R338, R339) ---------------------------------------------------------------------------------------------------------------------

/-- HOST_STAT of function `fn` (R333). -/
def State.hostStat (s : State) (fn : Nat) : W64 :=
  BitVec.ofNat 64 ((s.instD fn).rsvdWr * 2 ^ 32 + (s.instD fn).dbDrop * 2 ^ 16 + s.power.width * 2 ^ 4 + s.power.speed)

/-- AQ_CFG (R336). -/
def Inst.aqCfg (i : Inst) : W64 :=
  let a := i.aq
  let err := (i.sqs.any fun q => q.qid == 0 && q.state == QState.error) || (i.cqs.any fun q => q.qid == 0 && q.state == QState.error)
  let b := fun (c : Bool) (k : Nat) => if c then 2 ^ k else 0
  BitVec.ofNat 64 (b a.enablePending 34 + b a.disabling 33 + b err 32 + b a.en 31 + a.vector * 2 ^ 16 + b a.shadowEn 14 + b a.intEn 13 +
    a.cqLog2 * 2 ^ 8 + a.sqLog2)

/-- SQ tail doorbell `q` (R338). -/
def Inst.sqDoorbell (i : Inst) (q : Nat) : W64 :=
  match i.sq? q with
  | none => 0
  | some x => BitVec.ofNat 64 (x.state.code * 2 ^ 48 + x.head * 2 ^ 32 + x.tail)

/-- CQ head doorbell `q` (R339). -/
def Inst.cqDoorbell (i : Inst) (q : Nat) : W64 :=
  match i.cq? q with
  | none => 0
  | some x => BitVec.ofNat 64 (x.state.code * 2 ^ 48 + x.tail * 2 ^ 32 + x.head)

-- FORAGER MAPS (R193 to R195) ------------------------------------------------------------------------------------------------------------------------------

/-- FGR_MAPn of a die (R193). -/
def Die.fgrMap (x : Die) (n : Nat) : W64 :=
  BitVec.ofNat 64 (((List.range 8).map fun j => match x.map.getD (8 * n + j) none with
    | none => 0
    | some p => (128 + p) * 256 ^ j).sum)

/-- FGR_FAIL_LO (R194). -/
def Die.failLo (x : Die) : W64 := BitVec.ofNat 64 (bitmap (x.failed.filter (· < 64)))

/-- FGR_STAT (R194). -/
def Die.fgrStat (x : Die) : W64 :=
  BitVec.ofNat 64 (x.spares.length * 2 ^ 16 + x.activeFgrs * 2 ^ 8 + bitmap ((x.failed.filter (64 ≤ ·)).map (· - 64)))

/-- BROOD_STAT (R195). -/
def Die.broodStat (x : Die) : W64 :=
  let exc := (x.ready.filter (·.excess)).length
  BitVec.ofNat 64 (exc * 2 ^ 32 + (x.ready.length - exc))

-- COMB CACHE AND RLM (R322 to R324) --------------------------------------------------------------------------------------------------------------------------

def WayState.code : WayState → Nat
  | .free => 0
  | .owned => 1
  | .cleaning => 2
  | .sweep => 3
  | .disabling => 4
  | .disabled => 5
  | .poweringDown => 6
  | .off => 7
  | .poweringUp => 8

/-- The instance that holds a way: none while the way is cleaned for another (R312, R323). -/
def Way.holder (w : Way) : Option Nat := if w.state = .cleaning then none else w.owner

/-- CC_STAT (R322). -/
def CombCache.stat (c : CombCache) : W64 :=
  let b := fun (v : Bool) (k : Nat) => if v then 2 ^ k else 0
  let ws := fun (st : WayState) => bitmap ((c.ways.zipIdx.filter fun x => x.1.state == st).map (·.2))
  BitVec.ofNat 64 ((c.lines.filter (·.dirty)).length * 2 ^ 35 + b c.enablePending 34 + b c.draining 33 + b c.enabled 32 +
    ws .off * 2 ^ 16 + ws .disabled)

/-- CC_WAYw (R323). -/
def Way.reg (w : Way) : W64 :=
  let b := fun (v : Bool) (k : Nat) => if v then 2 ^ k else 0
  BitVec.ofNat 64 (w.cerr * 2 ^ 24 + b w.enablePending 16 + w.state.code * 2 ^ 12 + b w.locked 9 + b w.holder.isSome 8 + w.holder.getD 0)

/-- RLM_STATs (R324). -/
def Stack.reg (x : Stack) : W64 :=
  BitVec.ofNat 64 (x.sparesLeft * 2 ^ 51 + (if x.sparing = [] then 0 else 2 ^ 49) + x.ueCount * 2 ^ 32 + x.ceCount)

-- MAILBOXES (R390, R391) --------------------------------------------------------------------------------------------------------------------------------------

/-- MBX_CTRL. -/
def MbxSide.ctrl (m : MbxSide) : W64 := BitVec.ofNat 64 ((if m.intEn then 2 ^ 16 else 0) + m.vector)

/-- MBX_STAT of a side of instance `i`'s mailbox. -/
def Inst.mbxStat (i : Inst) (pf : Bool) : W64 :=
  let me := if pf then i.mbxPf else i.mbxVf
  let peer := if pf then i.mbxVf else i.mbxPf
  BitVec.ofNat 64 (me.drop * 2 ^ 24 + (if i.state = .frozen then 2 ^ 17 else 0) + (if pf && i.peerReset then 2 ^ 16 else 0) +
    me.txFull.toNat * 2 ^ 8 + peer.txFull.toNat)

/-- Eight bytes of a send slot. -/
def MbxSide.slotWord (m : MbxSide) (off : Nat) : W64 := ((m.slots.getD (off / 64) 0).extractLsb' (8 * (off % 64)) 64)

-- THE DICTIONARY WINDOW (R429) ---------------------------------------------------------------------------------------------------------------------------------

def KdwState.code : KdwState → Nat
  | .idle => 0
  | .busy => 1
  | .done => 2
  | .aborted => 3
  | .segRead => 4
  | .segWrite => 5

/-- KDW_INDEX. -/
def Kdw.indexReg (k : Kdw) : W64 := BitVec.ofNat 64 (k.index.toNat * 256 + k.sub.toNat)
/-- KDW_CTRL. -/
def Kdw.ctrlReg (k : Kdw) : W64 := BitVec.ofNat 64 (k.arg.toNat * 2 ^ 32)
/-- KDW_STATUS. -/
def Kdw.statusReg (k : Kdw) : W64 :=
  BitVec.ofNat 64 (k.crc.toNat * 2 ^ 32 + k.abort * 2 ^ 24 + (if k.overrun then 2 ^ 20 else 0) + k.state.code * 2 ^ 16)

-- EVENTS (R472, R473) --------------------------------------------------------------------------------------------------------------------------------------------

/-- EVT_PENDn. -/
def Events.pendReg (e : Events) (n : Nat) : W64 := e.pend.extractLsb' (64 * n) 64
/-- EVT_MASKn. -/
def State.maskReg (s : State) (n : Nat) : W64 := (s.events.mask ||| s.maskFixed).extractLsb' (64 * n) 64

-- STATISTICS (R200 to R203) ----------------------------------------------------------------------------------------------------------------------------------------

/-- An instance block (R202). -/
def InstStat.bytes (b : InstStat) : List Byte :=
  leBytes 4 b.readyNow ++ leBytes 4 b.readyMax ++ leBytes 4 b.dispatchF ++ leBytes 4 b.dispatchU ++ leBytes 4 b.resumed ++ leBytes 2 b.overrun ++
  leBytes 2 b.evicted ++ leBytes 4 b.boundExcess ++ leBytes 4 b.deferred ++ leBytes 4 b.foragerBusy ++ leBytes 2 b.slots ++ leBytes 2 b.gen.toNat ++
  leBytes 4 b.excessNow ++ zeros 4 ++ fit 32 (b.unitCycles.flatMap (leBytes 4 ·)) ++ fit 64 (b.waitHist.flatMap (leBytes 4 ·)) ++ zeros 112

/-- A die block (R203). -/
def DieStat.bytes (b : DieStat) : List Byte :=
  fit 128 (b.levels.flatMap fun l => leBytes 4 l.1 ++ leBytes 4 l.2.1 ++ leBytes 4 l.2.2 ++ zeros 4) ++ fit 64 (b.waitHist.flatMap (leBytes 4 ·)) ++
  leBytes 4 b.readyNow ++ leBytes 4 b.readyMax ++ leBytes 4 b.excessNow ++ leBytes 2 b.active ++ leBytes 2 b.overrun ++ leBytes 4 b.boundExcess ++
  leBytes 4 b.readyOverflow ++ zeros 40 ++ fit 256 (b.foragerBusy.flatMap (leBytes 4 ·)) ++ fit 128 (b.unitBusy.flatMap (leBytes 4 ·)) ++ zeros 384

/-- The block of instance `n` in a die's snapshot; zero where there is none. -/
def DieStat.instBlock (b : DieStat) (n : Nat) : List Byte :=
  match b.insts.find? (·.inst == n) with
  | none => zeros 256
  | some x => x.bytes

/-- The block of instance `n` on die `d` in a snapshot. -/
def instBlockOf (snap : List DieStat) (n d : Nat) : List Byte := match snap[d]? with
  | none => zeros 256
  | some b => b.instBlock n

/-- STAT_CTL. -/
def StatWin.ctl (w : StatWin) : W64 :=
  BitVec.ofNat 64 (w.holdLeft * 2 ^ 16 + (if w.holdExpired then 4 else 0) + (if w.holdActive then 2 else 0) + (if w.hold then 1 else 0))

/-- The header of a window that shows frame `frame`. -/
def StatWin.header (w : StatWin) (frame : W64) : List Byte := leBytes 8 frame.toNat ++ leBytes 8 w.seq.toNat ++ leBytes 8 w.ctl.toNat

/-- The bytes of the PF window up to its last block (R200, R201). -/
def pfWindow (header : List Byte) (snap : List DieStat) : List Byte :=
  fit 0x1000 header ++ fit 0xF000 ((List.range 8).flatMap fun d => match snap[d]? with
    | none => zeros 1024
    | some b => b.bytes) ++
  (List.range 256).flatMap fun n => (List.range 8).flatMap fun d => instBlockOf snap n d

/-- The bytes of a VF window up to its last block. -/
def vfWindow (header : List Byte) (snap : List DieStat) (n : Nat) : List Byte :=
  fit 0x800 header ++ (List.range 8).flatMap fun d => instBlockOf snap n d

/-- The latest snapshot, one block per die. -/
def State.latestSnap (s : State) : List DieStat := s.dies.map (·.snap)

/-- STAT_SNAPSHOT in the layout of function `fn`'s window (R205). -/
def State.statSnapshot (s : State) (fn : Nat) : List Byte :=
  let h := (s.instD fn).stat.header s.frame.closed
  if fn = 0 then pfWindow h s.latestSnap else vfWindow h s.latestSnap fn

/-- The word at an offset of the shown window of function `fn`. -/
def State.statWord (s : State) (fn off : Nat) : W64 :=
  let w := (s.instD fn).stat
  let bytes := if fn = 0 then pfWindow (w.header w.frame) w.shown else vfWindow (w.header w.frame) w.shown fn
  BitVec.ofNat 64 (field bytes off 8)

-- MSI-X (R330, R331, R363) ---------------------------------------------------------------------------------------------------------------------------------------------

/-- Eight bytes of the MSI-X table, after PCIe: address, data, and the mask bit of the vector control word. -/
def Msix.word (m : Msix) (off : Nat) : W64 :=
  let v := off / 16
  if off % 16 < 8 then BitVec.ofNat 64 (leNat (memRead m.table (16 * v) 8))
  else BitVec.ofNat 64 (leNat (memRead m.table (16 * v + 8) 4) + (if m.masked.contains v then 2 ^ 32 else 0))

/-- Eight bytes of the PBA. -/
def Msix.pbaWord (m : Msix) (off : Nat) : W64 := BitVec.ofNat 64 (bits (bitmap m.pba) (8 * off + 63) (8 * off))

-- BAR0 (R330, R331) ------------------------------------------------------------------------------------------------------------------------------------------------------

/-- The registers that the PF and a VF have at the same offsets below 0x1000. -/
def State.globalReg (s : State) (fn off : Nat) : Option W64 :=
  let i := s.instD fn
  if off = 0x40 then some s.deviceTopo
  else if off = 0x80 then some s.frame.number
  else if off = 0x88 then some (s.frameStat fn)
  else if off = 0x90 then some (s.frameNowReg fn)
  else if off = 0x100 then some i.aq.sqBase
  else if off = 0x108 then some i.aq.cqBase
  else if off = 0x110 then some i.aq.shadow
  else if off = 0x118 then some i.aqCfg
  else if off = 0x200 then some (s.hostStat fn)
  else none

/-- A register of the dictionary window, by its offset in the window. -/
def Kdw.reg (k : Kdw) (off : Nat) : Option W64 :=
  if off = 0 then some k.indexReg
  else if off = 8 then some k.ctrlReg
  else if off = 0x10 then some k.data
  else if off = 0x18 then some k.statusReg
  else none

/-- A register of a mailbox window, by side: control, status, or MBX_POST, which reads TX_FULL. -/
def Inst.mbxReg (i : Inst) (pf : Bool) (k : Nat) : Option W64 :=
  let me := if pf then i.mbxPf else i.mbxVf
  if k = 0 then some me.ctrl
  else if k = 8 then some (i.mbxStat pf)
  else if k = 0x10 then some (me.txFull.setWidth 64)
  else none

/-- A per-die register of the PF, or none at a reserved offset. -/
def State.dieReg (s : State) (off : Nat) : Option W64 :=
  if 0x2000 ≤ off ∧ off < 0x2800 then
    let x := s.dieD ((off - 0x2000) / 0x100)
    let o := off % 0x100
    if o < 0x40 then some (x.fgrMap (o / 8))
    else if o = 0x40 then some x.failLo
    else if o = 0x48 then some x.fgrStat
    else if o = 0x50 then some x.broodStat
    else none
  else if 0x4000 ≤ off ∧ off < 0x5000 then
    let x := s.dieD ((off - 0x4000) / 0x200)
    let o := off % 0x200
    if o = 0 then some (if x.present && x.cc.en then 1 else 0)
    else if o = 8 then some (if x.present then x.cc.stat else 0)
    else if 0x80 ≤ o ∧ o < 0x100 then some (if x.present then (x.cc.ways.getD ((o - 0x80) / 8) Way.reset).reg else 0)
    else none
  else if 0x6000 ≤ off ∧ off < 0x6080 then
    let k := (off - 0x6000) / 8
    some (if (s.dieD (k / 2)).present then (s.stack k).reg else 0)
  else if 0x2C100 ≤ off ∧ off < 0x2C140 then some (s.dieD ((off - 0x2C100) / 8)).cause
  else none

/-- The eight bytes that the PF reads at an aligned offset of its BAR0; none at a reserved offset. -/
def State.pfReg (s : State) (off : Nat) : Option W64 :=
  if off < 0x1000 then s.globalReg 0 off
  else if 0x10000 ≤ off ∧ off < 0x10020 then (s.instD 0).kdw.reg (off - 0x10000)
  else if 0x20000 ≤ off ∧ off < 0x20400 then some ((s.instD 0).msix.word (off - 0x20000))
  else if off = 0x28000 then some ((s.instD 0).msix.pbaWord 0)
  else if 0x2C000 ≤ off ∧ off < 0x2C020 then some (s.events.pendReg ((off - 0x2C000) / 8))
  else if 0x2C020 ≤ off ∧ off < 0x2C040 then some (s.maskReg ((off - 0x2C020) / 8))
  else if off = 0x2C040 then some s.events.vec
  else if 0x100000 ≤ off ∧ off < 0x108000 then some ((s.instD 0).sqDoorbell ((off - 0x100000) / 8))
  else if 0x180000 ≤ off ∧ off < 0x188000 then some ((s.instD 0).cqDoorbell ((off - 0x180000) / 8))
  else if 0x200400 ≤ off ∧ off < 0x240000 then
    let i := s.instD ((off - 0x200000) / 0x400)
    let o := off % 0x400
    some (if o < 0x200 then i.mbxVf.slotWord o else i.mbxPf.slotWord (o - 0x200))
  else if 0x240020 ≤ off ∧ off < 0x242000 then (s.instD ((off - 0x240000) / 0x20)).mbxReg true (off % 0x20)
  else if 0x300000 ≤ off ∧ off < 0x390000 then some (s.statWord 0 (off - 0x300000))
  else s.dieReg off

/-- The eight bytes that VF `n` reads at an aligned offset of its BAR0; none at a reserved offset. -/
def State.vfReg (s : State) (n off : Nat) : Option W64 :=
  let i := s.instD n
  if 0x1000 ≤ off ∧ off < 0x9000 then some (i.sqDoorbell ((off - 0x1000) / 8))
  else if 0x9000 ≤ off ∧ off < 0x11000 then some (i.cqDoorbell ((off - 0x9000) / 8))
  else if 0x18000 ≤ off ∧ off < 0x18000 + 16 * s.power.vfVectors then some (i.msix.word (off - 0x18000))
  else if off = 0x1C000 then some (i.msix.pbaWord 0)
  else if 0x20000 ≤ off ∧ off < 0x20200 then some (i.mbxVf.slotWord (off - 0x20000))
  else if 0x20200 ≤ off ∧ off < 0x20400 then some (i.mbxPf.slotWord (off - 0x20200))
  else if 0x20400 ≤ off ∧ off < 0x20418 then i.mbxReg false (off - 0x20400)
  else if 0x30000 ≤ off ∧ off < 0x30020 then i.kdw.reg (off - 0x30000)
  else if 0x38000 ≤ off ∧ off < 0x39000 then some (s.statWord n (off - 0x38000))
  else if off < 0x1000 then s.globalReg n off
  else none

/-- Reads of function `fn` outside the dictionary window return 0: the device boots, or the instance resets (R374, R494). -/
def State.readsZero (s : State) (fn : Nat) : Bool := !s.fnLive fn || s.power.devState == .booting || (s.instD fn).state == .resetting

/-- An offset in the dictionary window of function `fn`. -/
def inKdw (fn off : Nat) : Bool := if fn = 0 then decide (0x10000 ≤ off) && decide (off < 0x10020) else decide (0x30000 ≤ off) && decide (off < 0x30020)

/-- A READ of a register by function `fn`: 0 at a reserved offset, and for a size or alignment that R332 does not list. -/
def State.mmioRead (s : State) (fn off size : Nat) : Nat :=
  if !mmioSize off size || (s.readsZero fn && !(inKdw fn off && s.fnLive fn && (s.instD fn).state != .resetting)) then 0
  else
    let a := off / 8 * 8
    let w := ((if fn = 0 then s.pfReg a else s.vfReg fn a).getD 0).toNat
    if size = 8 then w else w / 2 ^ (8 * (off - a)) % 2 ^ 32

-- READS OF FRAME_NUMBER (R62) -------------------------------------------------------------------------------------------------------------------------------------------------

/-- FRAME_NUMBER_READ at time `t`: it returns the frame number and latches FRAME_NOW (R62, R64). -/
def execFrameNumberRead (fn t : Nat) (s : State) : Host.Outcome State Fault Refusal :=
  if !s.fnLive fn then .next s
  else if s.readsZero fn then .next ((s.atNs t).emit (.readData fn 0))
  else
    let s1 := s.atNs t
    .next ((s1.modInst fn fun i => { i with frameNow := some (BitVec.ofNat 20 s1.elapsedNs) }).emit (.readData fn s1.frame.number))

end Sys2Proof.Machine
end

