-- ==== Sys2Proof/Machine/FabricOps.lean ====
section
/-!
DEFINITION. The planes, quotas and landing space of the Range fabric (R396, R399, R404, R408, R410), and the addresses of a device (R397).
-/

namespace Sys2Proof.Machine

-- PLANES (R395, R396, R415) -------------------------------------------------------------------------------------------------------------------------------

/-- P: the ports of the mode in force. -/
def Fabric.portCount (f : Fabric) : Nat := if f.portModeActive = 0 then 8 else 16

def Fabric.port (f : Fabric) (p : Nat) : Port := f.ports.getD p Port.reset

/-- The port's link is up: it sends and receives, also while a disable runs. -/
def Port.linked (x : Port) : Bool := x.state == .up || x.state == .disabling

/-- Planes that are up, ascending. -/
def Fabric.planes (f : Fabric) : List Nat := (List.range f.portCount).filter fun p => (f.port p).linked

/-- PLANES_UP. -/
def Fabric.planesUp (f : Fabric) : Nat := bitmap f.planes

def State.modPort (s : State) (p : Nat) (g : Port → Port) : State := { s with fabric := { s.fabric with ports := s.fabric.ports.modify p g } }

/-- The VLAN word of a plane. -/
def Rwp.vlanOf (r : Rwp) (p : Nat) : Nat := field r.vlan (2 * p) 2

-- QUOTAS (R404, R410) ---------------------------------------------------------------------------------------------------------------------------------------

/-- B: the wire bytes of a port's frame. -/
def State.frameBytes (s : State) : Nat := s.periodNs * (if s.fabric.portModeActive = 0 then 50 else 25)

/-- CTRL_EXCESS. -/
def Fabric.ctrlExcess (f : Fabric) : Nat := f.excess.foldl max 0

/-- Wire bytes of a full DATA packet on a plane. -/
def State.packetBytes (s : State) (p : Nat) : Nat := if s.keeper.rwp.vlanOf p = 0 then 8326 else 8330

/-- N of a plane without the lowering of R410. -/
def State.planeFull (s : State) (p : Nat) : Nat := 9 * s.frameBytes / (10 * s.packetBytes p)

/-- N of a plane. -/
def State.planePackets (s : State) (p : Nat) : Nat := s.planeFull p - ceilDiv s.fabric.ctrlExcess 8326

/-- Q: a port that is being disabled carries no new grant. -/
def State.quanta (s : State) : Nat :=
  2 * (((List.range s.fabric.portCount).filter fun p => (s.fabric.port p).state == .up).map s.planePackets).sum

/-- E of an instance. -/
def State.instQuanta (s : State) (n : Nat) : Nat := 2 * (s.quanta * (s.instD n).alloc.fabricShare / 128)

-- LANDING (R408) ----------------------------------------------------------------------------------------------------------------------------------------------

/-- The quanta that a length takes. -/
def quantaOf (bytes : Nat) : Nat := ceilDiv bytes 4096

/-- Landing quanta of the device. -/
def State.landingTotal (s : State) : Nat := 8192 + 32768 * s.activeDies.length

/-- Landing quanta that a job holds: those of grants whose data has not arrived, and those that have landed. -/
def Dist.landed (D : Dist) : Nat :=
  (D.grantsOut.map fun g => g.quanta - g.got).sum + (D.wireIn.map fun w => (w.pieces.map fun x => quantaOf x.2.2.length).sum).sum

def Job.landed (j : Job) : Nat := match j.dist with
  | none => 0
  | some D => D.landed

/-- LANDING_FREE. -/
def State.landingFree (s : State) : Nat := s.landingTotal - (s.jobs.map (·.landed)).sum

/-- Landing quanta that an instance holds, and those that it may hold. -/
def State.instLanded (s : State) (n : Nat) : Nat := ((s.jobs.filter (·.inst == n)).map (·.landed)).sum
def State.instLanding (s : State) (n : Nat) : Nat := s.landingTotal * (s.instD n).alloc.fabricShare / 64

/-- Quanta in the landing buffer, which comes before the spills. -/
def State.landingBuffered (s : State) : Nat :=
  (s.jobs.map fun j => match j.dist with
    | none => 0
    | some D => (D.wireIn.map fun w => ((w.pieces.filter fun x => !x.2.1).map fun x => quantaOf x.2.2.length).sum).sum).sum

-- EXCHANGE (R399) -----------------------------------------------------------------------------------------------------------------------------------------------

/-- Every condition of R399 holds. -/
def State.mayExchange (s : State) : Bool :=
  s.keeper.rwp.syncMode == 1 && (s.frame.sync == .locked || s.frame.sync == .holdover) && s.fabric.deviceIdActive.isSome && s.fabric.planes != []

-- ADDRESSES (R397) -------------------------------------------------------------------------------------------------------------------------------------------------

/-- The interface identifier of device `d`: IID_BASE with bits [10:0] replaced. -/
def Rwp.iid (r : Rwp) (d : Nat) : Nat := r.iidBase.toNat / 2048 * 2048 + d % 2048

/-- The address of the device on a plane; PLANE_PREFIX is in network order. -/
def State.planeAddr (s : State) (p : Nat) : Option (BitVec 128) :=
  s.fabric.deviceIdActive.map fun d => BitVec.ofNat 128 (beNat (slice s.keeper.rwp.planePrefix (8 * p) 8) * 2 ^ 64 + s.keeper.rwp.iid d)

end Sys2Proof.Machine
end

