-- ==== Sys2Proof/Machine/Security.lean ====
section
/-!
DEFINITION. RWP objects as bytes and the serialisation that MEAS2 takes (R465, R517); firmware images, their checks and their slots (R462 to R464, R482,
R495); quotes (R469).
-/

namespace Sys2Proof.Machine

-- RWP OBJECTS (R424, R517) --------------------------------------------------------------------------------------------------------------------------------

/-- The value of RWP object `i`:`sub` in its type's size; none where there is no such RWP object. -/
def Rwp.get (r : Rwp) (i sub : Nat) : Option (List Byte) :=
  match i, sub with
  | 0x1000, 8 => some r.assetTag
  | 0x1010, 4 => some (leBytes 1 r.vfVectors)
  | 0x1020, 2 => some (leBytes 1 r.oobRights)
  | 0x1020, 3 => some r.oobAddr
  | 0x1020, 4 => some r.oobPeers
  | 0x2000, 1 => some (leBytes 1 r.framePeriod)
  | 0x2000, 4 => some (leBytes 1 r.syncMode)
  | 0x2000, 5 => some (leBytes 8 r.t0TaiNs.toNat)
  | 0x4000, 1 => some (leBytes 1 r.patrolHours)
  | 0x4000, 2 => some (leBytes 2 r.bankErrThresh)
  | 0x4000, 3 => some (leBytes 2 r.wayErrThresh)
  | 0x4000, 4 => some (leBytes 1 r.wayErrWindow)
  | 0x6000, 1 => some (leBytes 2 r.deviceId)
  | 0x6000, 3 => some (leBytes 1 r.portMode)
  | 0x6000, 4 => some (leBytes 2 r.rtUdpPort)
  | 0x6000, 5 => some (leBytes 8 r.iidBase.toNat)
  | 0x6000, 6 => some r.planePrefix
  | 0x6000, 7 => some r.nexthopMac
  | 0x6000, 8 => some r.vlan
  | 0x6000, 9 => some (leBytes 1 r.dscpData)
  | 0x6000, 10 => some (leBytes 1 r.dscpCtrl)
  | 0x6000, 11 => some (leBytes 1 r.ptpTransport)
  | 0x6000, 12 => some (leBytes 1 r.ptpDomain)
  | 0x6000, 13 => some (leBytes 1 r.ptpPlane)
  | 0x7000, 5 => some (leBytes 1 r.bootPref)
  | 0x8000, 5 => some (leBytes 2 r.fgrErrThresh)
  | 0x9000, 4 => some (leBytes 1 r.throttleC)
  | 0x9000, 5 => some (leBytes 1 r.critC)
  | 0xA000, 1 => some (leBytes 1 r.logMode)
  | 0xA010, 2 => some (leBytes 2 (ucode 16 r.utcOffset))
  | 0xA010, 3 => some (leBytes 1 r.utcSrc)
  | i, 3 => if 0x6010 ≤ i ∧ i < 0x6020 then some (leBytes 1 (r.portMedia.getD (i - 0x6010) 0)) else none
  | _, _ => none

/-- RWP object `i`:`sub` takes a value. -/
def Rwp.put (r : Rwp) (i sub : Nat) (v : List Byte) : Rwp :=
  let n := leNat v
  match i, sub with
  | 0x1000, 8 => { r with assetTag := v }
  | 0x1010, 4 => { r with vfVectors := n }
  | 0x1020, 2 => { r with oobRights := n }
  | 0x1020, 3 => { r with oobAddr := v }
  | 0x1020, 4 => { r with oobPeers := v }
  | 0x2000, 1 => { r with framePeriod := n }
  | 0x2000, 4 => { r with syncMode := n }
  | 0x2000, 5 => { r with t0TaiNs := BitVec.ofNat 64 n }
  | 0x4000, 1 => { r with patrolHours := n }
  | 0x4000, 2 => { r with bankErrThresh := n }
  | 0x4000, 3 => { r with wayErrThresh := n }
  | 0x4000, 4 => { r with wayErrWindow := n }
  | 0x6000, 1 => { r with deviceId := n, deviceIdSet := true }
  | 0x6000, 3 => { r with portMode := n }
  | 0x6000, 4 => { r with rtUdpPort := n }
  | 0x6000, 5 => { r with iidBase := BitVec.ofNat 64 n }
  | 0x6000, 6 => { r with planePrefix := v }
  | 0x6000, 7 => { r with nexthopMac := v }
  | 0x6000, 8 => { r with vlan := v }
  | 0x6000, 9 => { r with dscpData := n }
  | 0x6000, 10 => { r with dscpCtrl := n }
  | 0x6000, 11 => { r with ptpTransport := n }
  | 0x6000, 12 => { r with ptpDomain := n }
  | 0x6000, 13 => { r with ptpPlane := n }
  | 0x7000, 5 => { r with bootPref := n }
  | 0x8000, 5 => { r with fgrErrThresh := n }
  | 0x9000, 4 => { r with throttleC := n }
  | 0x9000, 5 => { r with critC := n }
  | 0xA000, 1 => { r with logMode := n }
  | 0xA010, 2 => { r with utcOffset := sint 16 n }
  | 0xA010, 3 => { r with utcSrc := n }
  | i, 3 => if 0x6010 ≤ i ∧ i < 0x6020 then { r with portMedia := r.portMedia.set (i - 0x6010) n } else r
  | _, _ => r

/-- The RWP objects in ascending index and subindex, with the ports of a mode (R421, R517). -/
def rwpObjects (ports : Nat) : List (Nat × Nat) :=
  [(0x1000, 8), (0x1010, 4), (0x1020, 2), (0x1020, 3), (0x1020, 4), (0x2000, 1), (0x2000, 4), (0x2000, 5), (0x4000, 1), (0x4000, 2), (0x4000, 3),
   (0x4000, 4), (0x6000, 1), (0x6000, 3), (0x6000, 4), (0x6000, 5), (0x6000, 6), (0x6000, 7), (0x6000, 8), (0x6000, 9), (0x6000, 10), (0x6000, 11),
   (0x6000, 12), (0x6000, 13)] ++
  (List.range ports).map (fun p => (0x6010 + p, 3)) ++
  [(0x7000, 5), (0x8000, 5), (0x9000, 4), (0x9000, 5), (0xA000, 1), (0xA010, 2), (0xA010, 3)]

/-- A record of the serialisation (R517). -/
def rwpRecord (i sub : Nat) (v : List Byte) : List Byte :=
  leBytes 2 i ++ leBytes 1 sub ++ zeros 1 ++ leBytes 4 v.length ++ fit (alignUp 8 v.length) v

/-- The RWP serialisation (R517). -/
def Rwp.serial (r : Rwp) (ports : Nat) : List Byte :=
  (rwpObjects ports).flatMap fun x => rwpRecord x.1 x.2 ((r.get x.1 x.2).getD [])

-- FIRMWARE (R462 to R464) ------------------------------------------------------------------------------------------------------------------------------------

def fwKind (b : List Byte) : Nat := byteAt b 8
def fwFamily (b : List Byte) : Nat := field b 0x0A 2
def fwSvn (b : List Byte) : Nat := field b 0x0C 4
def fwBody (b : List Byte) : Nat := field b 0x10 8
/-- The digest of an image's header. -/
def fwHeaderDigest (b : List Byte) : List Byte := sha256 (slice b 0 0x80)

/-- The layout of R462 and checks 1 to 3 of R463, for an image of a kind. -/
def fwHeaderOk (b : List Byte) (kind minSvn : Nat) : Bool :=
  slice b 0 8 == ascii "OVFWIMG1" && fwKind b == kind && byteAt b 9 == 0 && allZero (slice b 0x38 72) && decide (fwSvn b ≤ 255) &&
  decide (1 ≤ fwBody b) && decide (fwBody b ≤ 16769024) && allZero (slice b 0x1F30 208) && b.length == 0x2000 + fwBody b &&
  decide (minSvn ≤ fwSvn b) && Config.slhVerify (slice b 0 0x80) (slice b 0x80 7856)

/-- The checks of R463: the header's, then the body's digest under the complementary compare. -/
def State.fwCheck (s : State) (b : List Byte) (kind : Nat) : State × Bool :=
  if !fwHeaderOk b kind s.propolis.minSvn then (s, false)
  else
    let p := s.compareDigests (sha256 (b.drop 0x2000)) (slice b 0x18 32)
    (p.1, digestsEqual p.2)

def Propolis.slot (p : Propolis) (k : Nat) : FlashSlot := if k = 0 then p.flashA else p.flashB
def Propolis.setSlot (p : Propolis) (k : Nat) (f : FlashSlot) : Propolis := if k = 0 then { p with flashA := f } else { p with flashB := f }

/-- The slot that a staged image goes to: the one that does not run, slot A in recovery (R482, R495). -/
def State.stageSlot (s : State) : Nat := if s.power.recovery then 0 else 1 - s.propolis.runSlot

/-- Both images of a slot pass the checks. -/
def State.fwPair (s : State) (k : Nat) : State × Bool :=
  let f := s.propolis.slot k
  let a := s.fwCheck f.keeper 1
  if !f.valid || !a.2 then (a.1, false)
  else a.1.fwCheck f.runtime 2

/-- A FW_STAGE write of an image: the slot takes it, or is marked invalid with event FW_STAGE_REJECT (R482). Both images of slot A verified end a
recovery: the ROM runs step 2 again (R495). -/
def State.fwStage (s : State) (b : List Byte) : State × Bool :=
  let k := s.stageSlot
  let f := s.propolis.slot k
  let c := s.fwCheck b (fwKind b)
  let listed := fwKind b == 1 || fwKind b == 2
  if !listed || !c.2 then
    (({ c.1 with propolis := { c.1.propolis.setSlot k { f with valid := false } with fwState := 0 } } : State).raise Config.evFwStageReject, false)
  else
    let g : FlashSlot := if fwKind b = 1 then { f with keeper := b, valid := true } else { f with runtime := b, valid := true }
    let s1 : State := { c.1 with propolis := c.1.propolis.setSlot k g }
    let p := s1.fwPair k
    let s2 : State := { p.1 with propolis := { p.1.propolis with fwState := if p.2 then 1 else 0 } }
    (if p.2 && s.power.recovery then
      { s2 with power := { s2.power with
        recovery := false
        devState := .booting
        failCause := 0
        step := 2 } }
    else s2, true)

/-- The greatest MIN_SVN that the running images allow (R464). -/
def State.svnLimit (s : State) : Nat :=
  let f := s.propolis.slot s.propolis.runSlot
  min 255 (min (fwSvn f.keeper) (fwSvn f.runtime))

/-- SVN_RAISE: MIN_SVN rises, with event SVN_RAISED; a value at or below it changes nothing (R464). -/
def State.svnRaise (s : State) (v : Nat) : State :=
  if v ≤ s.propolis.minSvn then s
  else ({ s with propolis := { s.propolis with minSvn := v } } : State).raise Config.evSvnRaised

-- QUOTES (R469) -------------------------------------------------------------------------------------------------------------------------------------------------

/-- The bytes of a quote before its signature. -/
def State.quoteBody (s : State) (n : Nat) (req : List Byte) : List Byte :=
  let i := s.instD n
  let mask := field req 32 4
  let flags := byteAt req 36
  ascii "OVQUOTE1" ++ fit 16 (Config.identity 0) ++ slice req 0 32 ++ leBytes 8 s.frame.number.toNat ++ leBytes 8 s.keeper.calTime.toNat ++
  leBytes 4 mask ++ leBytes 1 n ++ leBytes 1 flags ++ leBytes 2 i.gen.toNat ++ leBytes 2 s.keeper.keeperFamily.toNat ++
  leBytes 2 s.keeper.runtimeFamily.toNat ++ leBytes 4 s.propolis.minSvn ++ leBytes 8 s.deviceTopo.toNat ++ leBytes 4 s.keeper.log.head.toNat ++ zeros 4 ++
  leBytes 8 s.keeper.log.tip.toNat ++ (if bit flags 0 then i.imeas.flatMap (fit 32 ·) else zeros 256) ++
  ((List.range 32).filter (bit mask ·)).flatMap fun k => fit 32 (s.propolis.meas.getD k [])

/-- QUOTE_REQ: the snapshot is taken and signing starts. -/
def State.quoteStart (s : State) (n : Nat) (req : List Byte) : State :=
  ({ s with propolis := { s.propolis with signing := some (n, s.quoteBody n req) } } : State).modInst n fun i => { i with quoteState := 1, quote := [] }

/-- QUOTE_SIGNED: signing completes and the quote is ready. -/
def execQuoteSigned (s : State) : Host.Outcome State Fault Refusal :=
  match s.propolis.signing with
  | none => .next s
  | some x => .next (({ s with propolis := { s.propolis with signing := none } } : State).modInst x.1 fun i =>
      { i with quoteState := 2, quote := x.2 ++ fit 17088 (Config.slhSign x.2) })

end Sys2Proof.Machine
end

