-- ==== Sys2Proof/Machine/Objects.lean ====
section
/-!
DEFINITION. The objects of the dictionary (R422 to R424, R449): their types and access classes, which of them exist, and what a read of each
returns.
-/

namespace Sys2Proof.Machine

-- TYPES AND CLASSES (R423, R424) -------------------------------------------------------------------------------------------------------------------

inductive OTy where
  /-- a number of so many bytes; TIME is one of 8 -/
  | num (bytes : Nat) (signed : Bool)
  | str
  | domain
  deriving DecidableEq, Repr

inductive OAcc where
  | const | ro | rw | wo | rwp
  deriving DecidableEq, Repr

structure ObjMeta where
  ty : OTy
  acc : OAcc
  deriving DecidableEq, Repr

/-- An unsigned number of `k` bytes. -/
def oU (k : Nat) (a : OAcc) : ObjMeta := { ty := .num k false, acc := a }
/-- A signed number of `k` bytes. -/
def oS (k : Nat) (a : OAcc) : ObjMeta := { ty := .num k true, acc := a }
def oStr (a : OAcc) : ObjMeta := { ty := .str, acc := a }
def oDom (a : OAcc) : ObjMeta := { ty := .domain, acc := a }

/-- The indices of R449 with content, each with the die, instance or port it names. -/
inductive OIx where
  | id | state | topo | saddle | hostq | comm | hostqInst (n : Nat)
  | frame
  | inst (n : Nat)
  | mem | ccDie (d : Nat) | instMem (n : Nat)
  | sched | snap | fgr (d : Nat) | amu (d : Nat) | instSched (n : Nat) | amuState (n : Nat)
  | fabric | port (p : Nat)
  | prop | dg (d : Nat) | instProp (n : Nat)
  | rel | fw
  | pwr
  | log | cal | persist
  deriving DecidableEq, Repr

/-- The index of a number (R449). -/
def objIndex (i : Nat) : Option OIx :=
  if i = 0x1000 then some .id
  else if i = 0x1001 then some .state
  else if i = 0x1008 then some .topo
  else if i = 0x1009 then some .saddle
  else if i = 0x1010 then some .hostq
  else if i = 0x1020 then some .comm
  else if 0x1100 ≤ i ∧ i < 0x1200 then some (.hostqInst (i - 0x1100))
  else if i = 0x2000 then some .frame
  else if 0x3000 ≤ i ∧ i < 0x3100 then some (.inst (i - 0x3000))
  else if i = 0x4000 then some .mem
  else if 0x4010 ≤ i ∧ i < 0x4018 then some (.ccDie (i - 0x4010))
  else if 0x4100 ≤ i ∧ i < 0x4200 then some (.instMem (i - 0x4100))
  else if i = 0x5000 then some .sched
  else if i = 0x5001 then some .snap
  else if 0x5010 ≤ i ∧ i < 0x5018 then some (.fgr (i - 0x5010))
  else if 0x5020 ≤ i ∧ i < 0x5028 then some (.amu (i - 0x5020))
  else if 0x5100 ≤ i ∧ i < 0x5200 then some (.instSched (i - 0x5100))
  else if 0x5200 ≤ i ∧ i < 0x5300 then some (.amuState (i - 0x5200))
  else if i = 0x6000 then some .fabric
  else if 0x6010 ≤ i ∧ i < 0x6020 then some (.port (i - 0x6010))
  else if i = 0x7000 then some .prop
  else if 0x7010 ≤ i ∧ i < 0x7018 then some (.dg (i - 0x7010))
  else if 0x7100 ≤ i ∧ i < 0x7200 then some (.instProp (i - 0x7100))
  else if i = 0x8000 then some .rel
  else if i = 0x8010 then some .fw
  else if i = 0x9000 then some .pwr
  else if i = 0xA000 then some .log
  else if i = 0xA010 then some .cal
  else if i = 0xA020 then some .persist
  else none

/-- The objects from subindex 1 on. -/
def OIx.objs : OIx → List ObjMeta
  | .id => [oStr .const, oStr .const, oStr .const, oU 2 .const, oU 2 .ro, oU 2 .ro, oU 2 .const, oStr .rwp, oU 2 .const, oU 2 .const, oU 2 .const]
  | .state => [oU 1 .ro, oU 8 .ro]
  | .topo => [oU 1 .const, oU 1 .const, oU 1 .ro, oU 1 .ro, oU 1 .ro, oU 1 .ro, oU 2 .const]
  | .saddle => [oU 1 .wo, oU 1 .ro, oU 4 .ro]
  | .hostq => [oU 2 .ro, oU 2 .ro, oU 2 .rw, oU 1 .rwp, oU 2 .ro, oU 2 .ro, oU 8 .ro, oU 8 .ro]
  | .comm => [oU 1 .ro, oU 1 .rwp, oDom .rwp, oDom .rwp, oU 2 .rw, oU 2 .const, oU 8 .ro, oU 4 .ro]
  | .hostqInst _ => [oU 2 .rw, oU 2 .rw, oU 4 .rw, oU 2 .ro, oU 2 .ro, oU 4 .ro]
  | .frame => [oU 1 .rwp, oU 1 .ro, oU 8 .ro, oU 1 .rwp, oU 8 .rwp, oU 1 .ro, oU 1 .rw, oU 4 .ro, oU 4 .ro, oU 8 .ro, oU 4 .ro, oU 8 .ro]
  | .inst _ => [oU 2 .ro, oU 1 .wo, oU 2 .ro, oU 8 .rw, oU 8 .rw, oU 8 .rw, oU 8 .rw, oU 8 .rw, oU 8 .rw, oU 1 .rw, oU 1 .rw, oU 4 .rw,
      oU 4 .ro, oU 4 .ro, oU 4 .ro, oU 4 .ro, oDom .wo, oU 8 .ro, oDom .ro, oDom .rw, oU 4 .rw, oU 1 .ro, oU 8 .ro]
  | .mem => [oU 1 .rwp, oU 2 .rwp, oU 2 .rwp, oU 1 .rwp, oU 4 .ro, oU 8 .ro]
  | .ccDie _ => [oU 4 .ro, oDom .ro]
  | .instMem _ => [oU 4 .rw, oDom .wo, oDom .ro, oDom .rw, oU 8 .rw, oU 8 .rw, oU 8 .rw, oU 8 .rw, oU 4 .rw, oU 4 .rw, oU 1 .wo, oU 1 .ro,
      oU 1 .wo, oDom .ro, oU 4 .ro]
  | .sched => [oU 2 .rw, oU 4 .const, oU 2 .const, oU 1 .rw, oU 8 .ro, oU 8 .ro]
  | .snap => [oDom .ro]
  | .fgr _ => [oU 1 .ro, oU 1 .ro, oU 8 .ro, oU 1 .ro, oU 1 .wo]
  | .amu _ => [oU 4 .const, oU 8 .ro, oU 8 .ro, oU 8 .ro, oU 4 .ro, oDom .ro]
  | .instSched _ => [oU 4 .rw]
  | .amuState _ => List.replicate 8 (oU 1 .ro)
  | .fabric => [oU 2 .rwp, oU 2 .ro, oU 1 .rwp, oU 2 .rwp, oU 8 .rwp, oDom .rwp, oDom .rwp, oDom .rwp, oU 1 .rwp, oU 1 .rwp, oU 1 .rwp, oU 1 .rwp,
      oU 1 .rwp, oU 4 .rw, oU 1 .ro, oU 2 .ro, oU 2 .ro, oU 4 .ro, oU 4 .ro, oU 8 .ro, oU 4 .ro]
  | .port _ => [oU 1 .wo, oU 1 .ro, oU 1 .rwp, oU 8 .ro, oU 8 .ro, oU 8 .ro, oDom .ro, oU 8 .ro, oU 8 .ro, oU 8 .const]
  | .prop => [oDom .ro, oDom .wo, oU 4 .ro, oU 4 .wo, oU 1 .rwp, oDom .const, oDom .const, oU 1 .ro, oU 4 .ro]
  | .dg _ => [oU 1 .ro, oU 4 .ro]
  | .instProp _ => [oDom .ro, oDom .wo, oDom .wo, oDom .ro, oU 1 .ro]
  | .rel => [oDom .ro, oDom .wo, oDom .rw, oDom .ro, oU 2 .rwp, oU 1 .wo, oU 8 .ro, oU 4 .ro]
  | .fw => [oDom .wo, oU 1 .wo, oU 1 .ro]
  | .pwr => [oU 1 .wo, oU 1 .ro, oU 1 .ro, oU 1 .rwp, oU 1 .rwp, oS 2 .ro, oDom .ro, oU 2 .ro, oU 8 .ro, oU 8 .ro, oU 4 .ro, oU 2 .ro]
  | .log => [oU 1 .rwp, oU 4 .ro, oU 4 .ro, oU 4 .rw, oDom .ro, oU 4 .wo, oU 4 .ro, oU 4 .ro, oU 8 .ro]
  | .cal => [oU 8 .rw, oS 2 .rwp, oU 1 .rwp, oStr .ro, oU 1 .rw]
  | .persist => [oU 4 .ro, oU 1 .ro, oU 8 .ro]

/-- The object at a subindex: subindex 0 is the CONST U8 of R422. -/
def OIx.obj (x : OIx) (sub : Nat) : Option ObjMeta := if sub = 0 then some (oU 1 .const) else x.objs[sub - 1]?

/-- The die that an object belongs to. -/
def OIx.die (x : OIx) (sub : Nat) : Option Nat :=
  match x with
  | .ccDie d | .fgr d | .amu d | .dg d => some d
  | .amuState _ => if sub = 0 then none else some (sub - 1)
  | _ => none

/-- An object of an absent die, or of a port that the mode lacks, does not exist (R30, R421). -/
def State.objExists (s : State) (x : OIx) (sub : Nat) : Bool :=
  (x.die sub).elim true (fun d => (s.dieD d).present) &&
  match x with
  | .port p => decide (p < s.fabric.portCount)
  | _ => true

-- VALUES ------------------------------------------------------------------------------------------------------------------------------------------------

def DevSt.code : DevSt → Nat
  | .booting => 0
  | .ready => 1
  | .failed => 2

def InstSt.code : InstSt → Nat
  | .absent => 0
  | .disabled => 1
  | .enabled => 2
  | .disabling => 3
  | .resetting => 4
  | .freezing => 5
  | .frozen => 6

def PortSt.code : PortSt → Nat
  | .down => 0
  | .training => 1
  | .up => 2
  | .disabling => 3
  | .disabled => 4

/-- PART_CODE (R2, R4). -/
def Part.code (p : Part) : List Byte :=
  ascii "TRV-" ++ ascii (if p.dies = 8 then "8H" else if p.dies = 4 then "4H" else "2H") ++ ascii (if p.fclkMHz = 2400 then "-A" else "-B") ++
  (if p.g then ascii "G" else [])

/-- INST_STATE (R394). -/
def Inst.stateReg (i : Inst) : Nat :=
  i.state.code + (if i.enablePending then 16 else 0) + (if i.staged.any (·.cmd != .remove) then 32 else 0)

/-- SADDLE_STATUS (R36). -/
def Saddle.statusReg (x : Saddle) : Nat := x.state.toNat + (if x.disabling || x.disableNext then 4 else 0) + (if x.enablePending then 8 else 0)

/-- The civil date of a day count from 1970-01-01: year, month, day. -/
def civil (days : Int) : Int × Int × Int :=
  let z := days + 719468
  let era := z / 146097
  let doe := z - era * 146097
  let yoe := (doe - doe / 1460 + doe / 36524 - doe / 146096) / 365
  let doy := doe - (365 * yoe + yoe / 4 - yoe / 100)
  let mp := (5 * doy + 2) / 153
  let day := doy - (153 * mp + 2) / 5 + 1
  let month := if mp < 10 then mp + 3 else mp - 9
  (yoe + era * 400 + (if month ≤ 2 then 1 else 0), month, day)

/-- `k` decimal digits of a number. -/
def digits : Nat → Nat → List Byte
  | 0, _ => []
  | k + 1, n => digits k (n / 10) ++ [BitVec.ofNat 8 (0x30 + n % 10)]

/-- CAL_UTC (R445). -/
def Keeper.calUtc (k : Keeper) : List Byte :=
  let t : Int := (k.calTime.toNat / 32768 : Nat) - k.rwp.utcOffset
  let c := civil (t / 86400)
  let sec := (t % 86400).toNat
  digits 4 c.1.toNat ++ ascii "-" ++ digits 2 c.2.1.toNat ++ ascii "-" ++ digits 2 c.2.2.toNat ++ ascii "T" ++ digits 2 (sec / 3600) ++ ascii ":" ++
  digits 2 (sec / 60 % 60) ++ ascii ":" ++ digits 2 (sec % 60) ++ ascii "Z"

/-- Owners as 16-bit numbers, 0xFFFF for none. -/
def ownerBytes (l : List (Option Nat)) : List Byte := l.flatMap fun o => leBytes 2 (o.getD 0xFFFF)

/-- The page-table entries in force, 8 bytes each (PT_READ). -/
def Inst.ptBytes (i : Inst) : List Byte := (List.range i.alloc.ptPages).flatMap fun p => leBytes 8 ((assocGet p i.pt).getD 0).toNat

/-- A bitmap of the pages of an instance. -/
def Inst.pageMap (i : Inst) (m : Nat) : List Byte := leBytes (ceilDiv i.alloc.ptPages 8) m

/-- A way change of the instance has not finished (WAYS_PENDING, R313). -/
def State.waysPending (s : State) (n : Nat) : Bool := (s.instD n).waysPending != [] || s.dies.any fun d => d.cc.busy n

/-- LOG_READ: at most 1,024 records from the cursor, and the cursor after them (R443). -/
def AuditLog.read (l : AuditLog) : List AuditRec × W32 :=
  let start := if seqBefore l.cursor l.oldest then l.oldest else l.cursor
  let rs := (l.recs.drop (start - l.oldest).toNat).take 1024
  (rs, start + BitVec.ofNat 32 rs.length)

/-- Values of identity, state, topology, communication and queues. -/
def State.objA (s : State) (x : OIx) (sub : Nat) : List Byte :=
  match x, sub with
  | .id, 1 => ascii "Ovcen"
  | .id, 2 => s.part.code
  | .id, 3 => fit 16 (Config.identity 0)
  | .id, 4 => leBytes 2 s.part.siliconRev.toNat
  | .id, 5 => leBytes 2 s.keeper.keeperFamily.toNat
  | .id, 6 => leBytes 2 s.keeper.runtimeFamily.toNat
  | .id, 7 => leBytes 2 0x0100
  | .id, 8 => s.keeper.rwp.assetTag
  | .id, 9 => leBytes 2 s.part.vendorPci.toNat
  | .id, _ => leBytes 2 0
  | .state, 1 => leBytes 1 s.power.devState.code
  | .state, _ => leBytes 8 s.power.bootTime.toNat
  | .topo, 1 => leBytes 1 s.part.dies
  | .topo, 2 => leBytes 1 s.diePresent
  | .topo, 3 => leBytes 1 s.dieActive
  | .topo, 4 => leBytes 1 (if s.ringDownLinks = [] then 0 else 1)
  | .topo, 5 => leBytes 1 (s.ringDownLinks.headD 0xFF)
  | .topo, 6 => leBytes 1 s.saddle.state.toNat
  | .topo, _ => leBytes 2 s.part.fclkMHz
  | .saddle, 2 => leBytes 1 s.saddle.statusReg
  | .saddle, _ => leBytes 4 s.saddle.fails
  | .hostq, 1 => leBytes 2 (4096 - (((List.range 256).map fun k => (s.accepted k).sqQuota).sum))
  | .hostq, 2 => leBytes 2 (4096 - (((List.range 256).map fun k => (s.accepted k).cqQuota).sum))
  | .hostq, 3 => leBytes 2 s.settings.cqStallFrames
  | .hostq, 4 => leBytes 1 s.keeper.rwp.vfVectors
  | .hostq, 5 => leBytes 2 (min 255 (1984 / s.power.vfVectors))
  | .hostq, 6 => leBytes 2 (Config.admissionEntries - s.admissionUsed)
  | .hostq, 7 => leBytes 8 s.settings.commitDeferTotal
  | .hostq, _ => leBytes 8 ((s.insts.map (·.cqDiscard)).sum)
  | .hostqInst n, 1 => leBytes 2 (s.accepted n).sqQuota
  | .hostqInst n, 2 => leBytes 2 (s.accepted n).cqQuota
  | .hostqInst n, 3 => leBytes 4 (s.accepted n).pasid.toNat
  | .hostqInst n, 4 => leBytes 2 (((s.instD n).sqs.filter (·.qid != 0)).length)
  | .hostqInst n, 5 => leBytes 2 (((s.instD n).cqs.filter (·.qid != 0)).length)
  | .hostqInst n, _ => leBytes 4 (s.instD n).cqDiscard
  | .comm, 1 => leBytes 1 s.keeper.mctpEid
  | .comm, 5 => leBytes 2 s.keeper.kdwIdleMs
  | .comm, 6 => leBytes 2 1024
  | .comm, 7 => leBytes 8 s.keeper.abortTotal
  | .comm, 8 => leBytes 4 s.keeper.oobDrop
  | .comm, k => (s.keeper.rwp.get 0x1020 k).getD []
  | .frame, 2 => leBytes 1 s.frame.periodActive
  | .frame, 3 => leBytes 8 s.frame.number.toNat
  | .frame, 6 => leBytes 1 s.frame.sync.code
  | .frame, 7 => leBytes 1 s.frame.overrunLimit
  | .frame, 8 => leBytes 4 s.cyclesPerFrame
  | .frame, 9 => leBytes 4 s.unitCycles
  | .frame, 10 => leBytes 8 s.frame.overrunTotal
  | .frame, 11 => leBytes 4 s.frame.stretchCount
  | .frame, 12 => leBytes 8 s.frame.boundExcessTotal
  | .frame, k => (s.keeper.rwp.get 0x2000 k).getD []
  | _, _ => []

/-- Values of instances and memory. -/
def State.objB (s : State) (x : OIx) (sub : Nat) : List Byte :=
  match x, sub with
  | .inst n, 1 => leBytes 2 (s.instD n).stateReg
  | .inst n, 3 => leBytes 2 (s.instD n).gen.toNat
  | .inst n, 4 => leBytes 8 (s.accepted n).coreFrames.toNat
  | .inst n, 10 => leBytes 1 (s.accepted n).fabricShare
  | .inst n, 11 => leBytes 1 (s.accepted n).imgStore
  | .inst n, 12 => leBytes 4 (s.instD n).freezeTimeout
  | .inst n, 13 => leBytes 4 (s.instD n).staleJob
  | .inst n, 14 => leBytes 4 (s.instD n).staleDma
  | .inst n, 15 => leBytes 4 (s.instD n).staleCpl
  | .inst n, 16 => leBytes 4 (s.instD n).staleFabric
  | .inst n, 18 => leBytes 8 (s.instD n).mig.status
  | .inst n, 19 => (s.instD n).pageMap (s.instD n).pageStateMap
  | .inst n, 20 => (s.takeImage n).2
  | .inst n, 21 => leBytes 4 (s.instD n).dieMap.toNat
  | .inst n, 22 => leBytes 1 (s.instD n).restoreStatus
  | .inst n, 23 => leBytes 8 (s.imageBytes n)
  | .inst n, k => if 5 ≤ k ∧ k ≤ 9 then leBytes 8 ((s.accepted n).shareWord (k - 5)).toNat else []
  | .mem, 5 => leBytes 4 (Config.ptStore - (((List.range 256).map fun k => (s.accepted k).ptPages).sum))
  | .mem, 6 => leBytes 8 s.settings.rlmUeTotal
  | .mem, k => (s.keeper.rwp.get 0x4000 k).getD []
  | .ccDie d, 1 => leBytes 4 (s.dieD d).cc.cmdReject
  | .ccDie d, _ => ownerBytes ((s.dieD d).cc.ways.map (·.holder))
  | .instMem n, 1 => leBytes 4 (s.accepted n).ptPages
  | .instMem n, 3 => (s.instD n).ptBytes
  | .instMem n, 4 => leBytes 64 (s.accepted n).regions.toNat
  | .instMem n, 5 => leBytes 8 (s.accepted n).ccWaysLo.toNat
  | .instMem n, 6 => leBytes 8 (s.accepted n).ccWaysHi.toNat
  | .instMem n, 7 => leBytes 8 (s.lockWord n false).toNat
  | .instMem n, 8 => leBytes 8 (s.lockWord n true).toNat
  | .instMem n, 9 => leBytes 4 (s.instD n).invalBase
  | .instMem n, 10 => leBytes 4 (s.instD n).invalPages
  | .instMem n, 12 => leBytes 1 (if (s.instD n).inval.isSome then 1 else 0)
  | .instMem n, 14 => (s.instD n).pageMap (bitmap ((s.instD n).dirtySnap.filter (· < (s.instD n).alloc.ptPages)))
  | .instMem n, 15 => leBytes 4 ((s.instD n).dirtySeq.toNat * 256 + (if s.waysPending n then 1 else 0))
  | _, _ => []

/-- Values of the scheduler, the Associative Match Unit, the fabric and Propolis. -/
def State.objC (s : State) (x : OIx) (fn sub : Nat) : List Byte :=
  match x, sub with
  | .sched, 1 => leBytes 2 s.settings.statHoldMax
  | .sched, 2 => leBytes 4 Config.readyCapacity
  | .sched, 3 => leBytes 2 Config.excessPerInstance
  | .sched, 4 => leBytes 1 s.settings.sourceAhead
  | .sched, 5 => leBytes 8 s.settings.readyOverflowTotal
  | .sched, _ => leBytes 8 s.settings.deferredTotal
  | .snap, _ => s.statSnapshot fn
  | .fgr d, 1 => leBytes 1 (s.dieD d).activeFgrs
  | .fgr d, 2 => leBytes 1 (s.dieD d).spares.length
  | .fgr d, 3 => leBytes 8 (s.dieD d).failLo.toNat
  | .fgr d, _ => leBytes 1 (bitmap (((s.dieD d).failed.filter (64 ≤ ·)).map (· - 64)))
  | .amu _, 1 => leBytes 4 1572864
  | .amu d, 2 => leBytes 8 (s.dieD d).amu.sweepPasses
  | .amu d, 3 => leBytes 8 (s.dieD d).amu.sweepFix
  | .amu d, 4 => leBytes 8 (s.dieD d).amu.parityFix
  | .amu d, 5 => leBytes 4 (s.dieD d).amu.shadowFaults
  | .amu d, _ => ownerBytes ((s.dieD d).amu.blocks.map (·.owner))
  | .instSched n, _ => leBytes 4 (s.accepted n).readyLimit
  | .amuState n, k => leBytes 1 ((s.instD n).amuState.getD (k - 1) 0)
  | .fabric, 2 => leBytes 2 (s.fabric.deviceIdActive.getD 0xFFFF)
  | .fabric, 14 => leBytes 4 s.fabric.joinTimeout
  | .fabric, 15 => leBytes 1 (if s.fabric.exchange then 1 else 0)
  | .fabric, 16 => leBytes 2 s.fabric.planesUp
  | .fabric, 17 => leBytes 2 s.quanta
  | .fabric, 18 => leBytes 4 s.fabric.ctrlExcess
  | .fabric, 19 => leBytes 4 s.landingFree
  | .fabric, 20 => leBytes 8 s.fabric.lossTotal
  | .fabric, 21 => leBytes 4 s.fabric.splitTotal
  | .fabric, k => (s.keeper.rwp.get 0x6000 k).getD []
  | .port p, 2 => leBytes 1 ((s.fabric.port p).state.code + (if (s.fabric.port p).enablePending then 128 else 0))
  | .port p, 4 => leBytes 8 (s.fabric.port p).tx
  | .port p, 5 => leBytes 8 (s.fabric.port p).rx
  | .port p, 6 => leBytes 8 (s.fabric.port p).resent
  | .port p, 7 => (s.fabric.port p).drop.flatMap (leBytes 4 ·)
  | .port p, 8 => leBytes 8 (s.fabric.port p).fecCorrected
  | .port p, 9 => leBytes 8 (s.fabric.port p).fecUncorrected
  | .port p, 10 => fit 8 (fit 6 (Config.identity (3 + p)))
  | .port p, k => (s.keeper.rwp.get (0x6010 + p) k).getD []
  | .prop, 1 => s.propolis.meas.flatMap (fit 32 ·)
  | .prop, 3 => leBytes 4 s.propolis.minSvn
  | .prop, 5 => leBytes 1 s.keeper.rwp.bootPref
  | .prop, 6 => fit 32 (Config.identity 1)
  | .prop, 7 => (Config.identity 2).take 32768
  | .prop, 8 => leBytes 1 s.propolis.bootSlot
  | .prop, _ => leBytes 4 s.propolis.cmpFault
  | .dg d, 1 => leBytes 1 (((s.dieD d).ctxs.filter (·.holder != .free)).length)
  | .dg d, _ => leBytes 4 (s.dieD d).busyTotal
  | .instProp n, 1 => (s.instD n).imeas.flatMap (fit 32 ·)
  | .instProp n, 4 => (s.instD n).quote
  | .instProp n, _ => leBytes 1 (s.instD n).quoteState
  | _, _ => []

/-- Values of reliability, firmware, power, the log, the calendar and persistence. -/
def State.objD (s : State) (x : OIx) (sub : Nat) : List Byte :=
  match x, sub with
  | .rel, 1 => leBytes 32 s.events.pend.toNat
  | .rel, 3 => leBytes 32 (s.events.mask ||| s.maskFixed).toNat
  | .rel, 4 => s.events.count.flatMap (leBytes 4 ·)
  | .rel, 5 => leBytes 2 s.keeper.rwp.fgrErrThresh
  | .rel, 7 => leBytes 8 (s.power.unavailNs / 1000000)
  | .rel, _ => leBytes 4 s.keeper.restarts
  | .fw, _ => leBytes 1 s.propolis.fwState
  | .pwr, 2 => leBytes 1 s.power.bootCause
  | .pwr, 3 => leBytes 1 s.power.failCause
  | .pwr, 6 => leBytes 2 (ucode 16 s.power.tempMax)
  | .pwr, 7 => s.power.temps.flatMap fun t => leBytes 2 (ucode 16 t)
  | .pwr, 8 => leBytes 2 s.power.fclkNow
  | .pwr, 9 => leBytes 8 s.power.throttleFrames
  | .pwr, 10 => leBytes 8 s.power.throttleOverrun
  | .pwr, 11 => leBytes 4 s.power.warmResets
  | .pwr, 12 => leBytes 2 s.power.railStatus.toNat
  | .pwr, k => (s.keeper.rwp.get 0x9000 k).getD []
  | .log, 1 => leBytes 1 s.keeper.rwp.logMode
  | .log, 2 => leBytes 4 s.keeper.log.head.toNat
  | .log, 3 => leBytes 4 s.keeper.log.oldest.toNat
  | .log, 4 => leBytes 4 s.keeper.log.cursor.toNat
  | .log, 5 => s.keeper.log.read.1.flatMap (·.bytes)
  | .log, 7 => leBytes 4 s.keeper.log.free
  | .log, 8 => leBytes 4 s.keeper.log.lost
  | .log, _ => leBytes 8 s.keeper.log.tip.toNat
  | .cal, 1 => leBytes 8 s.keeper.calTime.toNat
  | .cal, 4 => s.keeper.calUtc
  | .cal, 5 => leBytes 1 ((if s.keeper.calValid then 1 else 0) + (if s.keeper.disciplined then 2 else 0) + (if s.keeper.vbatLost then 4 else 0))
  | .cal, k => (s.keeper.rwp.get 0xA010 k).getD []
  | .persist, 1 => leBytes 4 s.keeper.copyA.seq.toNat
  | .persist, 2 => leBytes 1 s.keeper.persistCase
  | .persist, _ => leBytes 8 s.keeper.persistCommits
  | _, _ => []

/-- The value of an object, in its type's size, as function `fn` or a manager reads it (R424). -/
def State.objValue (s : State) (fn : Nat) (x : OIx) (sub : Nat) : List Byte :=
  if sub = 0 then leBytes 1 x.objs.length
  else match x with
    | .id | .state | .topo | .saddle | .hostq | .hostqInst _ | .comm | .frame => s.objA x sub
    | .inst _ | .mem | .ccDie _ | .instMem _ => s.objB x sub
    | .sched | .snap | .fgr _ | .amu _ | .instSched _ | .amuState _ | .fabric | .port _ | .prop | .dg _ | .instProp _ => s.objC x fn sub
    | .rel | .fw | .pwr | .log | .cal | .persist => s.objD x sub

end Sys2Proof.Machine
end

