-- ==== Sys2Proof/Machine/Dict.lean ====
section
/-!
DEFINITION. Keeper's checks of a dictionary access (R425 to R428), what an accepted write does to its object, the commit that an RWP write waits for (R437),
and the answers.
-/

namespace Sys2Proof.Machine

-- KEEPER (R448, R492, R495) ----------------------------------------------------------------------------------------------------------------------------

/-- Keeper, or the boot ROM in recovery, serves requests: it has been started and the part is powered out of reset. -/
def State.keeperUp (s : State) : Bool :=
  s.power.mainPower && !s.power.perst && (s.power.step == 0 || decide (3 ≤ s.power.step) || s.power.recovery)

/-- New requests are held: Keeper restarts, or a firmware switch has put the new Keeper in charge (R448, R481, R483). -/
def State.keeperHolds (s : State) : Bool := s.keeper.restarting || s.propolis.switch == .newKeeper

-- RIGHTS (R426) ------------------------------------------------------------------------------------------------------------------------------------------

/-- What VF `n` may read. -/
def vfReads (n : Nat) (x : OIx) (sub : Nat) : Bool :=
  match x with
  | .id | .state | .topo | .frame | .snap => true
  | .prop => sub == 1 || sub == 6 || sub == 7
  | .instMem k | .hostqInst k | .instSched k | .amuState k | .instProp k => k == n
  | .inst k => k == n && (sub == 1 || sub == 3 || (13 ≤ sub && sub ≤ 16))
  | _ => false

/-- What VF `n` may write: the locks, the range operation, dirty tracking and the security objects of its instance (R326, R470). -/
def vfWrites (n : Nat) (x : OIx) (sub : Nat) : Bool :=
  match x with
  | .instMem k => k == n && (sub == 7 || sub == 8 || sub == 9 || sub == 10 || sub == 11 || sub == 13)
  | .instProp k => k == n
  | _ => false

/-- What an out-of-band origin never writes: OOB_RIGHTS, the log's mode and position, and over Ethernet OOB_PEERS (R426, R444). -/
def oobBarred (eth : Bool) (x : OIx) (sub : Nat) : Bool :=
  match x with
  | .comm => sub == 2 || (eth && sub == 4)
  | .log => sub == 1 || sub == 4 || sub == 6
  | _ => false

/-- The origin has the right to a read, or to a write (R426). -/
def State.hasRight (s : State) (o : Origin) (wr : Bool) (x : OIx) (sub : Nat) : Bool :=
  let r := s.keeper.rwp.oobRights
  match o with
  | .loc | .hostPf => true
  | .hostVf n => if wr then vfWrites n x sub else vfReads n x sub
  | .oobMctp _ _ => if wr then bit r 1 && !oobBarred false x sub else bit r 0
  | .oobEth _ => if wr then bit r 3 && !oobBarred true x sub else bit r 2

-- CHECKS 2 TO 5 (R427, R494, R495) --------------------------------------------------------------------------------------------------------------------------

/-- Check 2. -/
def State.objReady (s : State) (x : OIx) (sub : Nat) : Bool :=
  let always := x == .id || x == .state
  if s.power.recovery then always || x == .fw && (sub == 1 || sub == 3) || x == .pwr && sub == 3
  else match s.power.devState with
    | .ready => true
    | .booting => always
    | .failed => always || x == .rel || x == .fw || x == .pwr

/-- Check 2 for an index that is none of R449. -/
def State.noObject (s : State) : Nat := if s.power.devState = .ready then Config.abNoObject else Config.abNotReady

/-- Checks 2 to 5 on an access by `o`: the object, or the abort code. -/
def State.access (s : State) (o : Origin) (wr : Bool) (i sub : Nat) : Except Nat (OIx × ObjMeta) :=
  match objIndex i with
  | none => .error s.noObject
  | some x =>
    if !s.objReady x sub then .error Config.abNotReady
    else match x.obj sub with
      | none => .error Config.abNoObject
      | some m =>
        if !s.objExists x sub then .error Config.abNoObject
        else if !s.hasRight o wr x sub then .error (match o with
          | .hostVf _ => Config.abNoObject
          | _ => Config.abAccess)
        else if wr && (m.acc == .const || m.acc == .ro) then .error Config.abReadOnly
        else if !wr && m.acc == .wo then .error Config.abWriteOnly
        else .ok (x, m)

/-- The function whose window layout a reader sees. -/
def originFn : Origin → Nat
  | .hostVf n => n
  | _ => 0

/-- A read: checks 2 to 5 and 9, then the value; LOG_READ moves the cursor, and STATE_IMAGE is taken by its first read (R384, R443). -/
def State.readObject (s : State) (o : Origin) (i sub : Nat) : Except Nat (State × ObjMeta × List Byte) :=
  match s.access o false i sub with
  | .error c => .error c
  | .ok (x, m) =>
    match x, sub with
    | .inst n, 20 =>
      if (s.instD n).state = .frozen then
        let p := s.takeImage n
        .ok (p.1, m, p.2)
      else .error Config.abWrongState
    | .instProp n, 4 => if (s.instD n).quoteState = 2 then .ok (s, m, (s.instD n).quote) else .error Config.abWrongState
    | .log, 5 =>
      let p := s.keeper.log.read
      .ok (s.modLog fun l => { l with cursor := p.2 }, m, p.1.flatMap (·.bytes))
    | _, _ => .ok (s, m, s.objValue (originFn o) x sub)

-- EVENTS THROUGH THE DICTIONARY AND THE REGISTERS (R473 to R475) ------------------------------------------------------------------------------------------------------

/-- Clear the pending bits that are written as 1. -/
def State.ackEvents (s : State) (m : BitVec 256) : State := { s with events := { s.events with pend := s.events.pend &&& ~~~m } }

/-- Replace the mask; a group with a pending source that is unmasked now signals once. -/
def State.setMask (s : State) (m : BitVec 256) : State :=
  let new := m ||| s.maskFixed
  let opened := s.events.pend &&& s.events.mask &&& ~~~new
  let s1 : State := { s with events := { s.events with mask := new } }
  (List.range 8).foldl (fun s g => if opened.extractLsb' (32 * g) 32 == 0 then s else s.signalGroup g) s1

-- CHECKS 8 AND 9 (R427) ------------------------------------------------------------------------------------------------------------------------------------------

/-- The resource change that a write asks for (R369). -/
def changeOf (x : OIx) (sub : Nat) (data : List Byte) : Option (Nat × Change) :=
  let v := leNat data
  match x, sub with
  | .inst n, 4 => some (n, .coreFrames (BitVec.ofNat 64 v))
  | .inst n, 10 => some (n, .fabricShare v)
  | .inst n, 11 => some (n, .imgStore v)
  | .inst n, k => if 5 ≤ k ∧ k ≤ 9 then some (n, .share (k - 5) (BitVec.ofNat 64 v)) else none
  | .instMem n, 1 => some (n, .ptPages v)
  | .instMem n, 2 => some (n, .ptWrite (ptRecords data))
  | .instMem n, 4 => some (n, .regions (BitVec.ofNat 512 v))
  | .instMem n, 5 => some (n, .ccWays false (BitVec.ofNat 64 v))
  | .instMem n, 6 => some (n, .ccWays true (BitVec.ofNat 64 v))
  | .hostqInst n, 1 => some (n, .sqQuota v)
  | .hostqInst n, 2 => some (n, .cqQuota v)
  | .hostqInst n, 3 => some (n, .pasid (BitVec.ofNat 32 v))
  | .instSched n, 1 => some (n, .readyLimit v)
  | _, _ => none

/-- The value of an object with a plain range obeys it. -/
def State.inRange (s : State) (x : OIx) (sub : Nat) (data : List Byte) : Bool :=
  let v := leNat data
  let len := data.length
  match x, sub with
  | .id, 8 => decide (len ≤ 32)
  | .saddle, 1 => v == 1 || v == 2
  | .hostq, 3 => 1 ≤ v
  | .hostq, 4 => 1 ≤ v && v ≤ 31
  | .comm, 2 => v ≤ 15
  | .comm, 3 => len == 16
  | .comm, 4 => len == 128
  | .comm, 5 => 10 ≤ v && v ≤ 60000
  | .frame, 1 => 8 ≤ v && v ≤ 128
  | .frame, 4 => v ≤ 1
  | .frame, 7 => 1 ≤ v
  | .inst _, 2 => 1 ≤ v && v ≤ 6
  | .inst _, 12 => 1 ≤ v && v ≤ 60000
  | .inst _, 17 => migOk data
  | .inst _, 21 => (List.range 8).all fun d => bits v (4 * d + 3) (4 * d) ≤ 7 || bits v (4 * d + 3) (4 * d) == 15
  | .mem, 1 => 1 ≤ v && v ≤ 168
  | .mem, 2 | .mem, 3 => 1 ≤ v
  | .mem, 4 => 16 ≤ v && v ≤ 40
  | .instMem n, 2 => s.ptWriteOk n data
  | .instMem _, 4 => len == 64
  | .instMem n, 7 => s.lockOk n false (BitVec.ofNat 64 v)
  | .instMem n, 8 => s.lockOk n true (BitVec.ofNat 64 v)
  | .instMem n, 10 => 1 ≤ v && decide ((s.instD n).invalBase + v ≤ (s.instD n).alloc.ptPages)
  | .instMem n, 11 =>
    let i := s.instD n
    (v == 1 || v == 2) && i.inval.isNone && 1 ≤ i.invalPages && decide (i.invalBase + i.invalPages ≤ i.alloc.ptPages)
  | .instMem _, 13 => v == 1
  | .sched, 1 => 1 ≤ v && v ≤ 4096
  | .sched, 4 => 8 ≤ v
  | .fgr d, 5 => v < 68 && ((s.dieD d).fence.on || (s.retireCommand d v).isSome)
  | .fabric, 1 => v < 2048
  | .fabric, 3 => v ≤ 1
  | .fabric, 4 => 1024 ≤ v
  | .fabric, 5 => v % 2048 == 0
  | .fabric, 6 | .fabric, 7 => len == 128
  | .fabric, 8 => len == 32 && (List.range 16).all fun p => !bit (field data (2 * p) 2) 12
  | .fabric, 9 | .fabric, 10 => v < 64
  | .fabric, 11 => v ≤ 1
  | .fabric, 12 => v < 128
  | .fabric, 13 => v < s.fabric.portCount
  | .fabric, 14 => 1 ≤ v && v ≤ 60000
  | .port _, 1 => v == 1 || v == 2
  | .port _, 3 => v ≤ 1
  | .prop, 2 => len == 33 && 8 ≤ byteAt data 0 && byteAt data 0 ≤ 23
  | .prop, 4 => v ≤ s.svnLimit || v ≤ s.propolis.minSvn
  | .prop, 5 => v ≤ 1
  | .instProp _, 2 => len == 33 && 1 ≤ byteAt data 0 && byteAt data 0 ≤ 6
  | .instProp _, 3 => len == 48 && byteAt data 36 < 2 && allZero (data.drop 37)
  | .rel, 2 | .rel, 3 => len == 32
  | .rel, 5 => 1 ≤ v
  | .rel, 6 => v < 8 && (s.dieD v).present
  | .fw, 1 => 8193 ≤ len && len ≤ 16777216
  | .fw, 2 => v == 1
  | .pwr, 1 => v == 0x5A
  | .pwr, 4 => 85 ≤ v && v ≤ 110 && decide (v + 5 ≤ s.keeper.rwp.critC)
  | .pwr, 5 => decide (s.keeper.rwp.throttleC + 5 ≤ v) && v ≤ 120
  | .log, 1 => v ≤ 1
  | .log, 4 => !seqBefore (BitVec.ofNat 32 v) s.keeper.log.oldest && !seqBefore s.keeper.log.head (BitVec.ofNat 32 v)
  | .log, 6 => !seqBefore (BitVec.ofNat 32 v) s.keeper.log.ackedSeq && !seqBefore s.keeper.log.head (BitVec.ofNat 32 v)
  | .cal, 2 => v ≤ 255
  | .cal, 3 => v ≤ 1
  | .cal, 5 => v < 8
  | _, _ => true

/-- The state of an object admits the write. -/
def State.inState (s : State) (x : OIx) (sub : Nat) (data : List Byte) : Bool :=
  let v := leNat data
  (x.die sub).elim true (fun d => !(s.dieD d).fence.on) &&
  match x, sub with
  | .saddle, 1 => (s.saddleCommand v).isSome
  | .frame, 5 => s.frame.sync == .free
  | .inst n, 2 => (instCmdOf v).elim false fun c => (s.instCommand n c).isSome
  | .inst n, 17 => !(s.instD n).mig.busy && (migRecords data).all fun r => s.migAdmits n (recKind r)
  | .inst n, 20 => (s.instD n).state == .disabled && (s.instD n).restore.isNone
  | .fw, 2 => s.propolis.fwState == 1 && s.propolis.switch == .none
  | .cal, 1 => !s.keeper.disciplined
  | _, _ => true

/-- Checks 8 and 9 on a write; a quote that is signing makes another BUSY (R469). -/
def State.valueCheck (s : State) (x : OIx) (sub : Nat) (data : List Byte) : Option Nat :=
  let ok := s.inRange x sub data && match changeOf x sub data with
    | none => true
    | some c => s.changeOk c.1 c.2
  if !ok then some Config.abValueRange
  else if !s.inState x sub data then some Config.abWrongState
  else match x, sub with
    | .instProp _, 3 => if s.propolis.signing.isSome then some Config.abBusy else none
    | _, _ => none

-- WHAT AN ACCEPTED WRITE DOES ---------------------------------------------------------------------------------------------------------------------------------------

/-- PORT_CMD (R11, R12, R415): 1 DISABLE, 2 ENABLE. -/
def Port.command (x : Port) (cmd : Nat) : Port :=
  if cmd = 1 then
    match x.state with
    | .up => { x with state := .disabling, enablePending := false }
    | .disabling => { x with enablePending := false }
    | .down | .training | .disabled => { x with state := .disabled, enablePending := false }
  else
    match x.state with
    | .disabled => { x with state := .training }
    | .disabling => { x with enablePending := true }
    | _ => x

/-- SYNC_MODE takes a value: 1 in FREE enters LOCKING (R43); a move to FREE waits for the boundary. -/
def State.setSyncMode (s : State) (v : Nat) : State :=
  if v = 1 ∧ s.frame.sync = .free then { s with frame := { s.frame with sync := .locking, good := 0 } } else s

/-- An RWP object takes a value in force, with what follows at once. -/
def State.putRwp (s : State) (i sub : Nat) (data : List Byte) : State :=
  let s1 : State := { s with keeper := { s.keeper with rwp := s.keeper.rwp.put i sub data } }
  if i = 0x2000 ∧ sub = 4 then s1.setSyncMode (leNat data) else s1

/-- The effect of an accepted write on an object that is neither RWP nor a divided resource. -/
def State.objAct (s : State) (x : OIx) (sub : Nat) (data : List Byte) : State :=
  let v := leNat data
  match x, sub with
  | .saddle, 1 => (s.saddleCommand v).getD s
  | .hostq, 3 => { s with settings := { s.settings with cqStallFrames := v } }
  | .comm, 5 => { s with keeper := { s.keeper with kdwIdleMs := v } }
  | .frame, 7 => { s with frame := { s.frame with overrunLimit := v } }
  | .inst n, 2 => ((instCmdOf v).bind fun c => s.instCommand n c).getD s
  | .inst n, 12 => s.modInst n fun i => { i with freezeTimeout := v }
  | .inst n, 17 => s.startMig n data
  | .inst n, 20 => s.startRestore n data
  | .inst n, 21 => s.modInst n fun i => { i with dieMap := BitVec.ofNat 32 v }
  | .instMem n, 7 => s.setLocks n false (BitVec.ofNat 64 v)
  | .instMem n, 8 => s.setLocks n true (BitVec.ofNat 64 v)
  | .instMem n, 9 => s.modInst n fun i => { i with invalBase := v }
  | .instMem n, 10 => s.modInst n fun i => { i with invalPages := v }
  | .instMem n, 11 => s.modInst n fun i => { i with inval := some (v == 2, i.invalBase, i.invalPages) }
  | .instMem n, 13 => s.modInst n fun i => { i with dirtyReq := true }
  | .sched, 1 => { s with settings := { s.settings with statHoldMax := v } }
  | .sched, 4 => { s with settings := { s.settings with sourceAhead := v } }
  | .fgr d, 5 => (s.retireCommand d v).getD s
  | .fabric, 14 => { s with fabric := { s.fabric with joinTimeout := v } }
  | .port p, 1 => s.modPort p (·.command v)
  | .prop, 2 => s.extendMeas (byteAt data 0) (data.drop 1)
  | .prop, 4 => s.svnRaise v
  | .instProp n, 2 => s.extendImeas n (byteAt data 0) (data.drop 1)
  | .instProp n, 3 => s.quoteStart n data
  | .rel, 2 => s.ackEvents (BitVec.ofNat 256 v)
  | .rel, 3 => s.setMask (BitVec.ofNat 256 v)
  | .rel, 6 => s.startFence v
  | .fw, 2 => { s with propolis := { s.propolis with switch := .accepted, fwState := 2 } }
  | .pwr, 1 => { s with power := { s.power with warmPending := some (s.power.warmPending.getD 2) } }
  | .log, 4 => s.modLog fun l => { l with cursor := BitVec.ofNat 32 v }
  | .log, 6 => s.modLog fun l =>
      let l1 := { l with acked := BitVec.ofNat 32 v }
      { l1 with holdFull := s.keeper.rwp.logMode == 1 && decide (l1.free ≤ 256) }
  | .cal, 1 => { s with keeper := { s.keeper with calTime := BitVec.ofNat 64 v, calFrac := 0, calValid := true } }
  | .cal, 5 => { s with keeper := { s.keeper with vbatLost := s.keeper.vbatLost && !bit v 2 } }
  | _, _ => s

/-- The effect of an accepted write (R428): a divided resource waits for its boundary. -/
def State.objApply (s : State) (x : OIx) (m : ObjMeta) (i sub : Nat) (data : List Byte) : State :=
  if m.acc = .rwp then s.putRwp i sub data
  else match changeOf x sub data with
    | some c => s.acceptChange c.1 c.2
    | none => s.objAct x sub data

-- ANSWERS ------------------------------------------------------------------------------------------------------------------------------------------------------------

/-- An aborted access counts in ABORT_TOTAL (R427). -/
def State.countAbort (s : State) (code : Nat) : State :=
  if code = 0 then s else { s with keeper := { s.keeper with abortTotal := satAdd 64 s.keeper.abortTotal 1 } }

def State.modKdw (s : State) (fn : Nat) (f : Kdw → Kdw) : State := s.modInst fn fun i => { i with kdw := f i.kdw }

/-- The bytes of a KDP response (R432). -/
def kdpBytes (op : Nat) (m : KdpMsg) (status arg : Nat) (body : List Byte) : List Byte :=
  leBytes 1 1 ++ leBytes 1 (op + 0x80) ++ [m.tag] ++ leBytes 1 status ++ leBytes 2 m.index.toNat ++ [m.sub] ++ zeros 1 ++ leBytes 4 arg ++ body

/-- Keep a response: one for each TAG, the last 16 of a peer (R434). -/
def keepResponse (l : List Kept) (k : Kept) : List Kept :=
  let others := l.filter fun x => !(x.who == k.who && x.msg.tag == k.msg.tag)
  let mine := (others.filter (·.who == k.who)).length
  let room := if mine < 16 then others else match others.find? (·.who == k.who) with
    | none => others
    | some x => others.erase x
  room ++ [k]

/-- Answer a KDP request. -/
def State.kdpReply (s : State) (o : Origin) (op : Nat) (m : KdpMsg) (status arg : Nat) (body : List Byte) : State :=
  let bytes := kdpBytes op m status arg body
  let s1 := (s.countAbort status).emit (.kdp o bytes)
  { s1 with keeper := { s1.keeper with kept := keepResponse s1.keeper.kept { who := o, op := op, msg := m, resp := bytes } } }

/-- The answer to a write, by the way it came. -/
def State.answer (s : State) (who : Asker) (code : Nat) : State :=
  match who with
  | .plain o => (s.countAbort code).emit (.answer o code)
  | .window fn => (s.countAbort code).modKdw fn fun k => { k with state := if code = 0 then .done else .aborted, abort := code }
  | .kdp o op m => s.kdpReply o op m code 0 []

-- WRITES (R427, R428) --------------------------------------------------------------------------------------------------------------------------------------------------

/-- The VALUE of an audit record of a write (R439): OLD and NEW of a number, or the digest of the new content. -/
def State.writeValue (s : State) (x : OIx) (m : ObjMeta) (sub : Nat) (data : List Byte) : List Byte :=
  match m.ty with
  | .num k sg => oldNew (if m.acc = .wo then 0 else extend64 sg (fit k (s.objValue 0 x sub))) (extend64 sg data)
  | _ => sha256 data

/-- Writes of LOG_CURSOR and LOG_ACK are not logged (R440). -/
def OIx.unlogged (x : OIx) (sub : Nat) : Bool := x == .log && (sub == 4 || sub == 6)

/-- Check 10: a write that needs a record finds room, or it is a write of LOG_MODE (R442). -/
def State.logRoom (s : State) (x : OIx) (sub : Nat) : Bool := x.unlogged sub || (x == .log && sub == 1) || !s.logFull

/-- The write is accepted: it is logged, the object takes the value, and an RWP write waits for a commit. -/
def State.acceptWrite (s : State) (who : Asker) (o : Origin) (x : OIx) (m : ObjMeta) (i sub : Nat) (data : List Byte) : State :=
  let s1 := if x.unlogged sub then s else s.auditWrite o i sub (s.writeValue x m sub data)
  let s2 := s1.objApply x m i sub data
  if m.acc = .rwp then
    let free := !(s2.keeper.waiting.any (·.running))
    { s2 with keeper := { s2.keeper with waiting := s2.keeper.waiting ++ [{ who := who, index := i, sub := sub, data := data, running := free }] } }
  else s2.answer who 0

/-- Checks 8 to 10 on a value, then the write. A rejected FW_STAGE still marks its slot (R482). -/
def State.finishWrite (s : State) (who : Asker) (o : Origin) (x : OIx) (m : ObjMeta) (i sub : Nat) (data : List Byte) : State :=
  match s.valueCheck x sub data with
  | some c => s.answer who c
  | none =>
    let staged := if x = .fw ∧ sub = 1 then s.fwStage data else (s, true)
    if !staged.2 then staged.1.answer who Config.abValueRange
    else if !s.logRoom x sub then s.answer who Config.abLogFull
    else staged.1.acceptWrite who o x m i sub data

/-- A write has the size of its type (check 6). -/
def ObjMeta.sizeOk (m : ObjMeta) (len : Nat) : Bool :=
  match m.ty with
  | .num k _ => len == k
  | .str => decide (len ≤ 255)
  | .domain => true

/-- A WRITE of a whole value: every check of R427 in order. -/
def State.writeObject (s : State) (who : Asker) (o : Origin) (i sub : Nat) (data : List Byte) : State :=
  match s.access o true i sub with
  | .error c => s.answer who c
  | .ok (x, m) => if !m.sizeOk data.length then s.answer who Config.abTypeLength else s.finishWrite who o x m i sub data

end Sys2Proof.Machine
end

