-- ==== Sys2Proof/Machine/DictIo.lean ====
section
/-!
DEFINITION. The ways into the dictionary: the windows of the functions (R429 to R431), the Keeper Dictionary Protocol (R432 to R436), the MCTP control messages, what
Keeper holds while it restarts (R448), and the MRAM commit (R437).
-/

namespace Sys2Proof.Machine

-- WINDOWS: SEGMENTED TRANSFERS (R431) ----------------------------------------------------------------------------------------------------------------------

/-- Words of a transfer of `len` bytes. -/
def wordsOf (len : Nat) : Nat := ceilDiv len 4

/-- Words and CRC after so many words have moved. -/
def Kdw.moved (k : Kdw) (words : Nat) : Kdw := { k with words := words, crc := crc32c (k.bytes.take (min (4 * words) k.len)) }

/-- A segmented read opens on a snapshot. -/
def Kdw.openRead (k : Kdw) (bs : List Byte) : Kdw :=
  { k with
    state := if bs = [] then .done else .segRead
    bytes := bs
    len := bs.length
    arg := BitVec.ofNat 32 bs.length
    data := 0
    words := 0
    crc := 0
    abort := 0 }

/-- A segmented write opens for `len` bytes. -/
def Kdw.openWrite (k : Kdw) (len : Nat) : Kdw :=
  { k with
    state := .segWrite
    bytes := []
    len := len
    words := 0
    crc := 0
    abort := 0 }

/-- The next words are read: STATE becomes DONE after the last. -/
def Kdw.readWords (k : Kdw) (n : Nat) : Kdw × Nat :=
  let v := field k.bytes (4 * k.words) (4 * n)
  let k1 := k.moved (min (k.words + n) (wordsOf k.len))
  ({ k1 with state := if wordsOf k.len ≤ k1.words then .done else .segRead }, v)

/-- The next words are written; those beyond the announced length are discarded. -/
def Kdw.writeWords (k : Kdw) (n v : Nat) : Kdw :=
  let room := wordsOf k.len - k.words
  let m := min n room
  { k with bytes := k.bytes ++ leBytes (4 * m) v }.moved (k.words + m)

/-- Check 7 on a segmented write: the announced length, then the CRC. -/
def segCheck (words len : Nat) (bytes : List Byte) (crc : W32) : Option Nat :=
  if words != wordsOf len then some Config.abLength
  else if crc32c (bytes.take len) != crc then some Config.abCrc
  else none

/-- The low bytes of KDW_DATA for a number of `k` bytes, when the bits above are zero or the sign extension. -/
def Kdw.scalar (x : Kdw) (k : Nat) (signed : Bool) : Option (List Byte) :=
  let bs := leBytes k x.data.toNat
  if extend64 signed bs = x.data ∨ extend64 false bs = x.data then some bs else none

-- WINDOWS: OPERATIONS (R430) ---------------------------------------------------------------------------------------------------------------------------------

/-- An operation of the window of function `fn` ends with an abort code. -/
def State.kdwAbort (s : State) (fn code : Nat) : State := s.answer (.window fn) code

/-- Keeper works on an operation of a window: 1 READ, 2 WRITE, 3 SEG_READ, 4 SEG_WRITE, 5 END of a SEG_WRITE. -/
def State.serveWindow (s : State) (fn op : Nat) (arg : W32) : State :=
  let o := fnOrigin fn
  let k := (s.instD fn).kdw
  let i := k.index.toNat
  let sub := k.sub.toNat
  match op with
  | 1 => match s.readObject o i sub with
    | .error c => s.kdwAbort fn c
    | .ok (_, { ty := .num _ sg, acc := _ }, bs) => (s.modKdw fn fun k => { k with data := extend64 sg bs }).answer (.window fn) 0
    | .ok _ => s.kdwAbort fn Config.abTypeLength
  | 2 => match s.access o true i sub with
    | .error c => s.kdwAbort fn c
    | .ok (x, m) => match m.ty with
      | .num b sg => match k.scalar b sg with
        | none => s.kdwAbort fn Config.abTypeLength
        | some bs => s.finishWrite (.window fn) o x m i sub bs
      | _ => s.kdwAbort fn Config.abTypeLength
  | 3 => match s.readObject o i sub with
    | .error c => s.kdwAbort fn c
    | .ok (s1, _, bs) => s1.modKdw fn (·.openRead bs)
  | 4 => match s.access o true i sub with
    | .error c => s.kdwAbort fn c
    | .ok _ => s.modKdw fn (·.openWrite arg.toNat)
  | _ => match s.access o true i sub with
    | .error c => s.kdwAbort fn c
    | .ok (x, m) =>
      if !m.sizeOk k.len then s.kdwAbort fn Config.abTypeLength
      else match segCheck k.words k.len k.bytes arg with
        | some c => s.kdwAbort fn c
        | none => s.finishWrite (.window fn) o x m i sub (k.bytes.take k.len)

-- KDP (R432 to R434) --------------------------------------------------------------------------------------------------------------------------------------------

/-- A peer of the out-of-band channels: any EID over MCTP, a listed peer over Ethernet. -/
def State.isPeer (s : State) : Origin → Bool
  | .oobMctp _ _ => true
  | .oobEth p => decide (p < 8) && !allZero (slice s.keeper.rwp.oobPeers (16 * p) 16)
  | _ => false

/-- Check 1: the header's fixed fields, and ARG and body where the operation has none. -/
def kdpMsgOk (op : Nat) (m : KdpMsg) : Bool :=
  let arg0 := m.arg == 0
  let body0 := m.body == []
  m.version == 1 && m.status == 0 && m.rsv == 0 &&
  match op with
  | 1 => arg0 && body0
  | 2 => arg0
  | 3 => arg0 && body0
  | 4 => body0
  | 5 => true
  | 6 => body0
  | _ => arg0 && body0

/-- The session of a peer on an object. -/
def State.session (s : State) (o : Origin) (m : KdpMsg) : Option Session :=
  s.keeper.sessions.find? fun x => x.who == o && x.index == m.index && x.sub == m.sub

def State.dropSession (s : State) (o : Origin) (m : KdpMsg) : State :=
  { s with keeper := { s.keeper with sessions := s.keeper.sessions.filter fun x => !(x.who == o && x.index == m.index && x.sub == m.sub) } }

def State.putSession (s : State) (o : Origin) (m : KdpMsg) (x : Session) : State :=
  let s1 := s.dropSession o m
  { s1 with keeper := { s1.keeper with sessions := s1.keeper.sessions ++ [x] } }

/-- A start finds eight sessions open, none of them its own. -/
def State.sessionsFull (s : State) (o : Origin) (m : KdpMsg) : Bool := (s.session o m).isNone && decide (8 ≤ s.keeper.sessions.length)

/-- A segment of a read session: SEG_MAX bytes from an offset. -/
def State.segRead (s : State) (o : Origin) (m : KdpMsg) (x : Session) : State :=
  let off := m.arg.toNat
  if m.body != [] then s.kdpReply o 5 m Config.abBadRequest 0 []
  else if off % 4 = 0 ∧ off < x.len then s.kdpReply o 5 m 0 0 (slice x.bytes off 1024)
  else (s.dropSession o m).kdpReply o 5 m Config.abSequence 0 []

/-- A segment of a write session: the next one is taken, the one before is acknowledged again, and any other offset ends the session. -/
def State.segWrite (s : State) (o : Origin) (m : KdpMsg) (x : Session) : State :=
  let off := m.arg.toNat
  let n := m.body.length
  let got := x.bytes.length
  if n = 0 ∨ 1024 < n ∨ (n % 4 != 0 ∧ off + n < x.len) then s.kdpReply o 5 m Config.abBadRequest 0 []
  else if off = got then
    (s.putSession o m { x with bytes := x.bytes ++ m.body, lastOff := off }).kdpReply o 5 m 0 (got + n) []
  else if off = x.lastOff then s.kdpReply o 5 m 0 got []
  else (s.dropSession o m).kdpReply o 5 m Config.abSequence 0 []

/-- Keeper executes a KDP request: 1 READ, 2 WRITE, 3 SEG_READ_START, 4 SEG_WRITE_START, 5 SEG_DATA, 6 SEG_END, 7 SEG_ABORT. -/
def State.serveKdp (s : State) (o : Origin) (op : Nat) (m : KdpMsg) : State :=
  let i := m.index.toNat
  let sub := m.sub.toNat
  let no := fun (c : Nat) => s.kdpReply o op m c 0 []
  if !kdpMsgOk op m then no Config.abBadRequest
  else match op with
  | 1 => match s.readObject o i sub with
    | .error c => no c
    | .ok (_, { ty := .num _ _, acc := _ }, bs) => s.kdpReply o op m 0 0 bs
    | .ok _ => no Config.abTypeLength
  | 2 => match s.access o true i sub with
    | .error c => no c
    | .ok (x, mt) => match mt.ty with
      | .num k _ => if m.body.length = k then s.finishWrite (.kdp o op m) o x mt i sub m.body else no Config.abTypeLength
      | _ => no Config.abTypeLength
  | 3 => match s.readObject o i sub with
    | .error c => no c
    | .ok (s1, _, bs) =>
      if s.sessionsFull o m then no Config.abBusy
      else (s1.putSession o m { who := o, index := m.index, sub := m.sub, isWrite := false, len := bs.length, bytes := bs, lastOff := 0 }).kdpReply
        o op m 0 bs.length []
  | 4 => match s.access o true i sub with
    | .error c => no c
    | .ok _ =>
      if s.sessionsFull o m then no Config.abBusy
      else (s.putSession o m { who := o, index := m.index, sub := m.sub, isWrite := true, len := m.arg.toNat, bytes := [], lastOff := 0 }).kdpReply
        o op m 0 0 []
  | 5 => match s.session o m with
    | none => no Config.abSequence
    | some x => if x.isWrite then s.segWrite o m x else s.segRead o m x
  | 6 => match s.session o m with
    | none => no Config.abSequence
    | some x =>
      let s1 := s.dropSession o m
      if !x.isWrite then
        if m.arg != 0 then no Config.abBadRequest else s1.kdpReply o op m 0 (crc32c x.bytes).toNat []
      else match s.access o true i sub with
        | .error c => s1.kdpReply o op m c 0 []
        | .ok (ix, mt) =>
          if !mt.sizeOk x.len then s1.kdpReply o op m Config.abTypeLength 0 []
          else if x.bytes.length != x.len then s1.kdpReply o op m Config.abLength 0 []
          else if crc32c x.bytes != m.arg then s1.kdpReply o op m Config.abCrc 0 []
          else s1.finishWrite (.kdp o op m) o ix mt i sub x.bytes
  | _ => (s.dropSession o m).kdpReply o op m Config.abAborted 0 []

-- KEEPER'S QUEUE (R448) ---------------------------------------------------------------------------------------------------------------------------------------------

/-- Keeper serves a request. -/
def State.serve (s : State) : Req → State
  | .read o i sub => match s.readObject o i sub with
    | .error c => s.answer (.plain o) c
    | .ok (t, _, bs) => t.emit (.value o bs)
  | .write o i sub data => s.writeObject (.plain o) o i sub data
  | .window fn op arg => s.serveWindow fn op arg
  | .kdp o op m => s.serveKdp o op m

/-- A request reaches Keeper: it is served, or held while Keeper restarts or switches (R448). -/
def State.submit (s : State) (r : Req) : State :=
  if !s.keeperUp then s
  else if s.keeperHolds then { s with keeper := { s.keeper with held := s.keeper.held ++ [r] } }
  else s.serve r

/-- Keeper answers what it has held, in order. -/
def State.serveHeld (s : State) : State :=
  let rs := s.keeper.held
  rs.foldl (fun s r => s.serve r) ({ s with keeper := { s.keeper with held := [] } } : State)

/-- Every open session and transfer ends with ABORTED (R448, R481). -/
def State.abortSessions (s : State) : State :=
  let fns := (List.range 256).filter fun fn => (s.instD fn).kdw.state == .segRead || (s.instD fn).kdw.state == .segWrite
  let s1 := fns.foldl (fun s fn => s.kdwAbort fn Config.abAborted) s
  let n := s1.keeper.sessions.length
  { s1 with keeper := { s1.keeper with sessions := [], abortTotal := satAdd 64 s1.keeper.abortTotal n } }

/-- A write of object `i`:`sub` by an origin, on the way of that origin. -/
def dictCmd (o : Origin) (i sub : Nat) (data : List Byte) (s : State) : Host.Outcome State Fault Refusal := .next (s.submit (.write o i sub data))

-- WINDOW COMMANDS (R430) ----------------------------------------------------------------------------------------------------------------------------------------------

/-- A write of KDW_CTRL with an operation, by the state of the window. -/
def State.kdwCommand (s : State) (fn op : Nat) (arg : W32) : State :=
  let k := (s.instD fn).kdw
  let busy := s.modKdw fn fun k => { k with overrun := true }
  let start := fun (t : State) => (t.modKdw fn fun k => { k with state := .busy, abort := 0 }).submit (.window fn op arg)
  let withArg := s.modKdw fn fun k => { k with arg := arg }
  match k.state with
  | .idle | .done | .aborted => if op = 5 ∨ op = 6 then withArg else start withArg
  | .busy =>
    if op = 6 ∧ s.keeper.held.any (fun r => match r with
        | .window f q _ => f == fn && 3 ≤ q
        | _ => false) then
      ({ s with keeper := { s.keeper with held := s.keeper.held.filter fun r => match r with
          | .window f _ _ => f != fn
          | _ => true } } : State).kdwAbort fn Config.abAborted
    else busy
  | .segRead =>
    if op = 5 then s.modKdw fn fun k => { k with state := .done }
    else if op = 6 then s.kdwAbort fn Config.abAborted
    else busy
  | .segWrite =>
    if op = 5 then start withArg
    else if op = 6 then withArg.kdwAbort fn Config.abAborted
    else busy

/-- The window of a function takes a command: the function is on the link. -/
def kdwOp (fn op : Nat) (arg : W32) (s : State) : Host.Outcome State Fault Refusal := .next (s.mmioWrite fn 8 8 true (·.kdwCommand fn op arg))

/-- READ. -/
def execRead (fn : Nat) (arg : W32) (s : State) : Host.Outcome State Fault Refusal := kdwOp fn 1 arg s
/-- WRITE. -/
def execWrite (fn : Nat) (arg : W32) (s : State) : Host.Outcome State Fault Refusal := kdwOp fn 2 arg s
/-- SEG_READ. -/
def execSegRead (fn : Nat) (arg : W32) (s : State) : Host.Outcome State Fault Refusal := kdwOp fn 3 arg s
/-- SEG_WRITE. -/
def execSegWrite (fn : Nat) (arg : W32) (s : State) : Host.Outcome State Fault Refusal := kdwOp fn 4 arg s
/-- END. -/
def execEndXfer (fn : Nat) (arg : W32) (s : State) : Host.Outcome State Fault Refusal := kdwOp fn 5 arg s
/-- ABORT. -/
def execAbort (fn : Nat) (arg : W32) (s : State) : Host.Outcome State Fault Refusal := kdwOp fn 6 arg s

/-- KDW_DATA_WRITE: the next word or two words of a SEG_WRITE; else the register takes the value, but not while BUSY (R429, R431). -/
def execKdwDataWrite (fn size : Nat) (value : W64) (s : State) : Host.Outcome State Fault Refusal :=
  .next (s.mmioWrite fn 0 size true fun s =>
    match (s.instD fn).kdw.state with
    | .busy => s.modKdw fn fun k => { k with overrun := true }
    | .segWrite => s.modKdw fn (·.writeWords (size / 4) (lowPart size value))
    | _ => s.modKdw fn fun k => { k with data := if size = 4 then k.data &&& 0xFFFFFFFF00000000 ||| BitVec.ofNat 64 (lowPart 4 value) else value })

/-- KDW_DATA_READ: the next word or two words of a SEG_READ; else the register (R431). -/
def execKdwDataRead (fn size : Nat) (s : State) : Host.Outcome State Fault Refusal :=
  if !s.fnLive fn then .next s
  else if !(size == 4 || size == 8) || (s.instD fn).state == .resetting then .next (s.emit (.readData fn 0))
  else
    let k := (s.instD fn).kdw
    if k.state = .segRead then
      let p := k.readWords (size / 4)
      .next ((s.modKdw fn fun _ => p.1).emit (.readData fn (BitVec.ofNat 64 p.2)))
    else .next (s.emit (.readData fn (BitVec.ofNat 64 (lowPart size k.data))))

-- KDP COMMANDS ---------------------------------------------------------------------------------------------------------------------------------------------------------

/-- The request is under way: held, or waiting for its commit. -/
def State.underWay (s : State) (o : Origin) (op : Nat) (m : KdpMsg) : Bool :=
  s.keeper.held.contains (.kdp o op m) || s.keeper.waiting.any (·.who == .kdp o op m)

/-- A KDP request arrives: from no peer it is dropped and counted, a repeat gets the kept response, and any other is executed (R434, R436). -/
def kdpOp (o : Origin) (op : Nat) (m : KdpMsg) (s : State) : Host.Outcome State Fault Refusal :=
  match o with
  | .oobMctp _ _ | .oobEth _ =>
    if !s.keeperUp || (s.power.recovery && (match o with | .oobEth _ => true | _ => false)) then .next s
    else if !s.isPeer o then .next { s with keeper := { s.keeper with oobDrop := satAdd 32 s.keeper.oobDrop 1 } }
    else match s.keeper.kept.find? fun x => x.who == o && x.op == op && x.msg == m with
      | some x => .next (s.emit (.kdp o x.resp))
      | none => .next (if s.underWay o op m then s else s.submit (.kdp o op m))
  | _ => .next s

/-- KDP READ. -/
def execKdpRead (o : Origin) (m : KdpMsg) (s : State) : Host.Outcome State Fault Refusal := kdpOp o 1 m s
/-- KDP WRITE. -/
def execKdpWrite (o : Origin) (m : KdpMsg) (s : State) : Host.Outcome State Fault Refusal := kdpOp o 2 m s
/-- SEG_READ_START. -/
def execSegReadStart (o : Origin) (m : KdpMsg) (s : State) : Host.Outcome State Fault Refusal := kdpOp o 3 m s
/-- SEG_WRITE_START. -/
def execSegWriteStart (o : Origin) (m : KdpMsg) (s : State) : Host.Outcome State Fault Refusal := kdpOp o 4 m s
/-- SEG_DATA. -/
def execSegData (o : Origin) (m : KdpMsg) (s : State) : Host.Outcome State Fault Refusal := kdpOp o 5 m s
/-- SEG_END. -/
def execSegEnd (o : Origin) (m : KdpMsg) (s : State) : Host.Outcome State Fault Refusal := kdpOp o 6 m s
/-- SEG_ABORT. -/
def execSegAbort (o : Origin) (m : KdpMsg) (s : State) : Host.Outcome State Fault Refusal := kdpOp o 7 m s

/-- SEG_TIMEOUT: an idle transfer or session aborts with TIMEOUT (R431, R434). -/
def execSegTimeout (h : SegHolder) (s : State) : Host.Outcome State Fault Refusal :=
  match h with
  | .window fn =>
    let st := (s.instD fn).kdw.state
    if st = .segRead ∨ st = .segWrite then .next (s.kdwAbort fn Config.abTimeout) else .next s
  | .session i =>
    match s.keeper.sessions[i]? with
    | none => .next s
    | some _ => .next (({ s with keeper := { s.keeper with sessions := s.keeper.sessions.eraseIdx i } } : State).countAbort Config.abTimeout)

/-- KDP_RESPONSE_EXPIRY: a kept response is discarded (R434). -/
def execKdpResponseExpiry (o : Origin) (tag : Nat) (s : State) : Host.Outcome State Fault Refusal :=
  .next { s with keeper := { s.keeper with kept := s.keeper.kept.filter fun x => !(x.who == o && x.msg.tag.toNat == tag) } }

-- MCTP CONTROL MESSAGES (R435) --------------------------------------------------------------------------------------------------------------------------------------------

/-- Keeper answers an MCTP control message with a completion code and data, after DSP0236. -/
def mctpAnswer (eid binding cmd : Nat) (data : List Byte) (s : State) : Host.Outcome State Fault Refusal :=
  .next (if s.keeperUp then s.emit (.mctp eid binding cmd data) else s)

/-- SET_ENDPOINT_ID: MCTP_EID takes the bus owner's value; 0 and 0xFF are no endpoint ID. -/
def execSetEndpointId (eid binding newEid : Nat) (s : State) : Host.Outcome State Fault Refusal :=
  if !s.keeperUp then .next s
  else if newEid = 0 ∨ 0xFF ≤ newEid then mctpAnswer eid binding 1 [0x02] s
  else mctpAnswer eid binding 1 [0x00, 0x00, BitVec.ofNat 8 newEid, 0x00] { s with keeper := { s.keeper with mctpEid := newEid } }

/-- GET_ENDPOINT_ID. -/
def execGetEndpointId (eid binding : Nat) (s : State) : Host.Outcome State Fault Refusal :=
  mctpAnswer eid binding 2 [0x00, BitVec.ofNat 8 s.keeper.mctpEid, 0x00, 0x00] s

/-- GET_MCTP_VERSION_SUPPORT: the versions are a free value; a message type that Keeper does not have is refused. -/
def execGetMctpVersionSupport (eid binding msgType : Nat) (s : State) : Host.Outcome State Fault Refusal :=
  if msgType = 0xFF ∨ msgType = 0x00 ∨ msgType = 0x7E then mctpAnswer eid binding 4 (0x00 :: Config.mctpVersions msgType) s
  else mctpAnswer eid binding 4 [0x80] s

/-- GET_MESSAGE_TYPE_SUPPORT: type 0x7E. -/
def execGetMessageTypeSupport (eid binding : Nat) (s : State) : Host.Outcome State Fault Refusal := mctpAnswer eid binding 5 [0x00, 0x01, 0x7E] s

/-- GET_VENDOR_DEFINED_MESSAGE_SUPPORT: the one set, under VENDOR_PCI_ID; its version is a free value. -/
def execGetVendorDefinedMessageSupport (eid binding selector : Nat) (s : State) : Host.Outcome State Fault Refusal :=
  if selector = 0 then mctpAnswer eid binding 6 ([0x00, 0xFF, 0x00] ++ beBytes 2 s.part.vendorPci.toNat ++ fit 2 Config.vendorSet) s
  else mctpAnswer eid binding 6 [0x02] s

-- THE COMMIT (R437) --------------------------------------------------------------------------------------------------------------------------------------------------------

/-- The writes of the commit that runs, and those that wait for the next. -/
def Keeper.running (k : Keeper) : List Waiter := k.waiting.filter (·.running)
def Keeper.queued (k : Keeper) : List Waiter := k.waiting.filter (!·.running)

/-- The values of a list of RWP writes, put into a content in order. -/
def applyWaiters (r : Rwp) (ws : List Waiter) : Rwp := ws.foldl (fun r w => r.put w.index w.sub w.data) r

/-- Both copies take a content with the next sequence number. -/
def Keeper.commit (k : Keeper) (r : Rwp) : Keeper :=
  let c : MramCopy := { valid := true, seq := k.copyA.seq + 1, content := r }
  { k with copyA := c, copyB := c, persistCommits := satAdd 64 k.persistCommits 1 }

/-- The next commit follows at once with the writes that have waited. -/
def Keeper.nextBatch (k : Keeper) : Keeper := { k with waiting := k.queued.map fun w => { w with running := true } }

/-- The objects of a failed commit keep their old values; those that later writes have set keep the later ones. -/
def State.revert (s : State) : State :=
  let old := s.keeper.copyA.content
  let s1 := s.keeper.running.foldl (fun (s : State) w => s.putRwp w.index w.sub ((old.get w.index w.sub).getD [])) s
  let s2 : State := { s1 with keeper := { s1.keeper with rwp := { s1.keeper.rwp with deviceIdSet := old.deviceIdSet } } }
  s.keeper.queued.foldl (fun (s : State) w => s.putRwp w.index w.sub w.data) s2

/-- PERSIST_COMMIT: both copies are written and the writes are answered; a commit that MRAM fails to verify aborts them with PERSIST, with event PERSIST_FAULT. -/
def execPersistCommit (verified : Bool) (s : State) : Host.Outcome State Fault Refusal :=
  let run := s.keeper.running
  if !s.keeperUp || s.keeper.restarting || run = [] then .next s
  else if verified then
    let k := s.keeper.commit (applyWaiters s.keeper.copyA.content run)
    .next (run.foldl (fun (s : State) w => s.answer w.who 0) { s with keeper := k.nextBatch })
  else
    let s1 := s.revert
    let s2 := run.foldl (fun (s : State) w => s.answer w.who Config.abPersist) { s1 with keeper := s1.keeper.nextBatch }
    .next (s2.raise Config.evPersistFault)

end Sys2Proof.Machine
end

