-- ==== Sys2Proof/Machine/DictRows.lean ====
section
/-!
DEFINITION. The commands that are writes of one dictionary object, each under its own row, and the write of any other object (R428).
-/

namespace Sys2Proof.Machine

-- FRAMES (R38, R42, R43) ----------------------------------------------------------------------------------------------------------------------------

/-- FRAME_PERIOD: stored, and in force after the next device reset (R38). -/
def execFramePeriod (o : Origin) (data : List Byte) (s : State) : Host.Outcome State Fault Refusal := dictCmd o 0x2000 1 data s

/-- SYNC_MODE = 1 (R43). -/
def execSyncModeSet (o : Origin) (s : State) : Host.Outcome State Fault Refusal := dictCmd o 0x2000 4 [1] s

/-- SYNC_MODE = 0: FREE at the next boundary, if the value still stands there (R43). -/
def execSyncModeClear (o : Origin) (s : State) : Host.Outcome State Fault Refusal := dictCmd o 0x2000 4 [0] s

/-- T0_TAI_NS: only in FREE (R42). -/
def execT0TaiNs (o : Origin) (data : List Byte) (s : State) : Host.Outcome State Fault Refusal := dictCmd o 0x2000 5 data s

-- RESOURCES (R58, R369) --------------------------------------------------------------------------------------------------------------------------------

/-- A write of an object of instance `n`, at a base index; there are 256 instances. -/
def instCmd (base n sub : Nat) (o : Origin) (data : List Byte) (s : State) : Host.Outcome State Fault Refusal :=
  if n < 256 then dictCmd o (base + n) sub data s else .next s

/-- READY_LIMIT (R182). -/
def execReadyLimit (n : Nat) (o : Origin) (data : List Byte) (s : State) : Host.Outcome State Fault Refusal := instCmd 0x5100 n 1 o data s

/-- CORE_FRAMES (R44, R369). -/
def execCoreFrames (n : Nat) (o : Origin) (data : List Byte) (s : State) : Host.Outcome State Fault Refusal := instCmd 0x3000 n 4 o data s

/-- SHARE_CS, SHARE_HPE, SHARE_MN, SHARE_AMU or SHARE_DG, by kind 0 to 4 (R187, R369). -/
def execShare (n kind : Nat) (o : Origin) (data : List Byte) (s : State) : Host.Outcome State Fault Refusal :=
  if kind < 5 then instCmd 0x3000 n (5 + kind) o data s else .next s

/-- FABRIC_SHARE (R404). -/
def execFabricShare (n : Nat) (o : Origin) (data : List Byte) (s : State) : Host.Outcome State Fault Refusal := instCmd 0x3000 n 10 o data s

/-- IMG_STORE (R369). -/
def execImgStore (n : Nat) (o : Origin) (data : List Byte) (s : State) : Host.Outcome State Fault Refusal := instCmd 0x3000 n 11 o data s

/-- SQ_QUOTA (R334). -/
def execSqQuota (n : Nat) (o : Origin) (data : List Byte) (s : State) : Host.Outcome State Fault Refusal := instCmd 0x1100 n 1 o data s

/-- CQ_QUOTA (R334). -/
def execCqQuota (n : Nat) (o : Origin) (data : List Byte) (s : State) : Host.Outcome State Fault Refusal := instCmd 0x1100 n 2 o data s

/-- PASID (R329). -/
def execPasid (n : Nat) (o : Origin) (data : List Byte) (s : State) : Host.Outcome State Fault Refusal := instCmd 0x1100 n 3 o data s

/-- PT_PAGES (R303). -/
def execPtPages (n : Nat) (o : Origin) (data : List Byte) (s : State) : Host.Outcome State Fault Refusal := instCmd 0x4100 n 1 o data s

/-- PT_WRITE (R305). -/
def execPtWrite (n : Nat) (o : Origin) (data : List Byte) (s : State) : Host.Outcome State Fault Refusal := instCmd 0x4100 n 2 o data s

/-- REGIONS (R307). -/
def execRegions (n : Nat) (o : Origin) (data : List Byte) (s : State) : Host.Outcome State Fault Refusal := instCmd 0x4100 n 4 o data s

/-- CC_WAYS_LO or CC_WAYS_HI (R311). -/
def execCcWays (n : Nat) (hi : Bool) (o : Origin) (data : List Byte) (s : State) : Host.Outcome State Fault Refusal :=
  instCmd 0x4100 n (if hi then 6 else 5) o data s

-- CACHE AND DIRTY PAGES (R314, R315, R321) -------------------------------------------------------------------------------------------------------------------

/-- CC_LOCK_LO or CC_LOCK_HI: at once (R314). -/
def execCcLock (n : Nat) (hi : Bool) (o : Origin) (data : List Byte) (s : State) : Host.Outcome State Fault Refusal :=
  instCmd 0x4100 n (if hi then 8 else 7) o data s

/-- INVAL_OP CLEAN (R315). -/
def execClean (n : Nat) (o : Origin) (s : State) : Host.Outcome State Fault Refusal := instCmd 0x4100 n 11 o [1] s

/-- INVAL_OP CLEAN_INVAL (R315). -/
def execCleanInval (n : Nat) (o : Origin) (s : State) : Host.Outcome State Fault Refusal := instCmd 0x4100 n 11 o [2] s

/-- DIRTY_CTL: a snapshot at the next boundary (R321). -/
def execDirtyCtl (n : Nat) (o : Origin) (data : List Byte) (s : State) : Host.Outcome State Fault Refusal := instCmd 0x4100 n 13 o data s

-- INSTANCES (R367, R388) ---------------------------------------------------------------------------------------------------------------------------------------

/-- An INST_CMD at time `t`. -/
def instCmdAt (n code : Nat) (o : Origin) (t : Nat) (s : State) : Host.Outcome State Fault Refusal :=
  instCmd 0x3000 n 2 o [BitVec.ofNat 8 code] (s.atNs t)

/-- INST_CMD ENABLE. -/
def execEnable (n : Nat) (o : Origin) (t : Nat) (s : State) : Host.Outcome State Fault Refusal := instCmdAt n 1 o t s
/-- INST_CMD DISABLE. -/
def execDisable (n : Nat) (o : Origin) (t : Nat) (s : State) : Host.Outcome State Fault Refusal := instCmdAt n 2 o t s
/-- INST_CMD RESET. -/
def execReset (n : Nat) (o : Origin) (t : Nat) (s : State) : Host.Outcome State Fault Refusal := instCmdAt n 3 o t s
/-- INST_CMD FREEZE_DRAIN. -/
def execFreezeDrain (n : Nat) (o : Origin) (t : Nat) (s : State) : Host.Outcome State Fault Refusal := instCmdAt n 4 o t s
/-- INST_CMD FREEZE_ABORT. -/
def execFreezeAbort (n : Nat) (o : Origin) (t : Nat) (s : State) : Host.Outcome State Fault Refusal := instCmdAt n 5 o t s
/-- INST_CMD THAW. -/
def execThaw (n : Nat) (o : Origin) (t : Nat) (s : State) : Host.Outcome State Fault Refusal := instCmdAt n 6 o t s

/-- STATE_IMAGE: a state image for a DISABLED instance (R388). -/
def execStateImage (n : Nat) (o : Origin) (data : List Byte) (s : State) : Host.Outcome State Fault Refusal := instCmd 0x3000 n 20 o data s

-- PARTS OF THE PACKAGE ------------------------------------------------------------------------------------------------------------------------------------------------

/-- RETIRE (R205). -/
def execRetire (die : Nat) (o : Origin) (data : List Byte) (s : State) : Host.Outcome State Fault Refusal :=
  if die < 8 then dictCmd o (0x5010 + die) 5 data s else .next s

/-- SADDLE_CMD ENABLE (R36). -/
def execSaddleEnable (o : Origin) (s : State) : Host.Outcome State Fault Refusal := dictCmd o 0x1009 1 [2] s

/-- SADDLE_CMD DISABLE (R36). -/
def execSaddleDisable (o : Origin) (s : State) : Host.Outcome State Fault Refusal := dictCmd o 0x1009 1 [1] s

/-- DIE_FENCE at time `t` (R478). -/
def execDieFence (o : Origin) (data : List Byte) (t : Nat) (s : State) : Host.Outcome State Fault Refusal := dictCmd o 0x8000 6 data (s.atNs t)

/-- A PORT_CMD write. -/
def portCmd (port cmd : Nat) (o : Origin) (s : State) : Host.Outcome State Fault Refusal :=
  if port < 16 then dictCmd o (0x6010 + port) 1 [BitVec.ofNat 8 cmd] s else .next s

/-- PORT_CMD DISABLE (R415). -/
def execPortDisable (port : Nat) (o : Origin) (s : State) : Host.Outcome State Fault Refusal := portCmd port 1 o s

/-- PORT_CMD ENABLE (R415). -/
def execPortEnable (port : Nat) (o : Origin) (s : State) : Host.Outcome State Fault Refusal := portCmd port 2 o s

/-- DEVICE_ID: in force after the next device reset (R419). -/
def execDeviceId (o : Origin) (data : List Byte) (s : State) : Host.Outcome State Fault Refusal := dictCmd o 0x6000 1 data s

/-- PORT_MODE: in force after the next device reset (R419). -/
def execPortMode (o : Origin) (data : List Byte) (s : State) : Host.Outcome State Fault Refusal := dictCmd o 0x6000 3 data s

/-- VF_VECTORS: in force after the next device reset (R363). -/
def execVfVectors (o : Origin) (data : List Byte) (s : State) : Host.Outcome State Fault Refusal := dictCmd o 0x1010 4 data s

-- THE LOG AND THE CALENDAR (R442 to R447) ---------------------------------------------------------------------------------------------------------------------------------

/-- LOG_ACK (R442). -/
def execLogAck (o : Origin) (data : List Byte) (s : State) : Host.Outcome State Fault Refusal := dictCmd o 0xA000 6 data s

/-- LOG_MODE (R442). -/
def execLogMode (o : Origin) (data : List Byte) (s : State) : Host.Outcome State Fault Refusal := dictCmd o 0xA000 1 data s

/-- LOG_READ: records from the cursor, which moves past them (R443). -/
def execLogRead (o : Origin) (s : State) : Host.Outcome State Fault Refusal :=
  .next (s.submit (.read o 0xA000 5))

/-- CAL_TIME (R446). -/
def execCalTime (o : Origin) (data : List Byte) (s : State) : Host.Outcome State Fault Refusal := dictCmd o 0xA010 1 data s

/-- CAL_STATE (R447). -/
def execCalState (o : Origin) (data : List Byte) (s : State) : Host.Outcome State Fault Refusal := dictCmd o 0xA010 5 data s

-- PROPOLIS AND FIRMWARE (R464 to R469, R482, R483) ----------------------------------------------------------------------------------------------------------------------------

/-- QUOTE_REQ (R469). -/
def execQuoteReq (n : Nat) (o : Origin) (data : List Byte) (s : State) : Host.Outcome State Fault Refusal := instCmd 0x7100 n 3 o data s

/-- MEAS_EXTEND (R465). -/
def execMeasExtend (o : Origin) (data : List Byte) (s : State) : Host.Outcome State Fault Refusal := dictCmd o 0x7000 2 data s

/-- IMEAS_EXTEND (R466). -/
def execImeasExtend (n : Nat) (o : Origin) (data : List Byte) (s : State) : Host.Outcome State Fault Refusal := instCmd 0x7100 n 2 o data s

/-- SVN_RAISE (R464). -/
def execSvnRaise (o : Origin) (data : List Byte) (s : State) : Host.Outcome State Fault Refusal := dictCmd o 0x7000 4 data s

/-- FW_STAGE (R482). -/
def execFwStage (o : Origin) (data : List Byte) (s : State) : Host.Outcome State Fault Refusal := dictCmd o 0x8010 1 data s

/-- FW_SWITCH (R483). -/
def execFwSwitch (o : Origin) (data : List Byte) (s : State) : Host.Outcome State Fault Refusal := dictCmd o 0x8010 2 data s

/-- WARM_RESET (R490). -/
def execWarmReset (o : Origin) (data : List Byte) (s : State) : Host.Outcome State Fault Refusal := dictCmd o 0x9000 1 data s

-- EVENTS (R474, R475) ----------------------------------------------------------------------------------------------------------------------------------------------------------

/-- EVT_ACK through the dictionary, or a W1C write of EVT_PENDn by the PF (R475). -/
def execEvtAck (c : EvtCh) (s : State) : Host.Outcome State Fault Refusal :=
  match c with
  | .dict o data => dictCmd o 0x8000 2 data s
  | .reg n value =>
    if n < 4 then .next (s.mmioWrite 0 (0x2C000 + 8 * n) 8 false fun s => s.ackEvents (value.setWidth 256 <<< (64 * n))) else .next s

/-- EVT_MASK through the dictionary, or a write of EVT_MASKn by the PF (R474, R475). -/
def execEvtMask (c : EvtCh) (s : State) : Host.Outcome State Fault Refusal :=
  match c with
  | .dict o data => dictCmd o 0x8000 3 data s
  | .reg n value =>
    if n < 4 then
      .next (s.mmioWrite 0 (0x2C020 + 8 * n) 8 false fun s =>
        s.setMask ((s.events.mask &&& ~~~((BitVec.allOnes 64).setWidth 256 <<< (64 * n))) ||| (value.setWidth 256 <<< (64 * n))))
    else .next s

/-- EVENT_HOLDOFF_END: 1 µs after a group's message, its merged transitions send one (R474). -/
def execEventHoldoffEnd (g : Nat) (s : State) : Host.Outcome State Fault Refusal :=
  if 8 ≤ g || !s.events.holdoff.getLsbD g then .next s
  else
    let b := 1#8 <<< g
    let s1 : State := { s with events := { s.events with holdoff := s.events.holdoff &&& ~~~b, merged := s.events.merged &&& ~~~b } }
    .next (if s.events.merged.getLsbD g then s1.signalGroup g else s1)

-- ANY OTHER OBJECT (R428) --------------------------------------------------------------------------------------------------------------------------------------------------------

/-- DICT_WRITE at time `t`: a write of any object. -/
def execDictWrite (o : Origin) (index sub : Nat) (data : List Byte) (t : Nat) (s : State) : Host.Outcome State Fault Refusal :=
  if index < 65536 ∧ sub < 256 then dictCmd o index sub data (s.atNs t) else .next s

end Sys2Proof.Machine
end

