-- ==== Sys2Proof/Machine/FabricTx.lean ====
section
/-!
DEFINITION. What the device sends at a boundary: the parts of distributed jobs move on (R88, R411 to R413), wire morsels close and are placed (R408, R418),
granted data goes out (R407), requests and grants are made (R405, R406), control packets (R401, R403, R410, R413) and resends (R409).
-/

namespace Sys2Proof.Machine

-- DISTRIBUTED JOBS -----------------------------------------------------------------------------------------------------------------------------------------

/-- The distributed jobs that the device holds, each with its distributed side, in ascending DIST_JOB_ID. -/
def State.distJobs (s : State) : List (Job × Dist) :=
  sortBy (fun a b => a.2.djid.toNat ≤ b.2.djid.toNat)
    (s.jobs.filterMap fun j => if j.alone || j.state == .waiting then none else j.dist.map fun D => (j, D))

def State.modDist (s : State) (jid : Nat) (f : Dist → Dist) : State := s.modJob jid fun j => { j with dist := j.dist.map f }

/-- The device's own number. -/
def State.selfDev (s : State) : Nat := s.fabric.deviceIdActive.getD 0xFFFF

/-- A distributed part fails without a die of its own failing; the failure stands in frame `k`. -/
def Job.failFar (j : Job) (k stage status device : Nat) : Job :=
  j.recordFailure { frame := k, die := 0xFF, stage := stage, status := status, device := device, trap := [] }

/-- Where a part stands at a boundary (R88, R412): RUNNING with every join report, FAIL or DONE with what the closing frame brought; the report goes with
this boundary's control packets, and the decision falls one boundary later. -/
def Dist.advance (D : Dist) (fail : Option Nat) (finished : Bool) : Dist :=
  let D1 := { D with
    state := if D.state = .joining ∧ D.peers.all (·.joined) then .running else D.state
    decideIn := D.decideIn.map (· - 1)
    peers := D.peers.map fun p => { p with missing := if p.reported || D.state == .joining then 0 else p.missing + 1 } }
  match fail with
  | some st => if D1.state = .failed then D1 else { D1 with state := .failed, status := st, decideIn := some 1 }
  | none => if D1.state = .running ∧ finished then { D1 with state := .done, decideIn := some 1 } else D1

/-- The status with which a part has failed on its own account. -/
def Job.ownFailure (j : Job) : Option Nat := if j.abort then some Config.stAborted else j.failure.map (·.status)

/-- This boundary decides, as far as the device can tell: a failure is known everywhere, or every report that has arrived is final. -/
def Dist.decides (D : Dist) : Bool :=
  D.peers.any (·.state == .failed) ||
  (D.decideIn == some 0 && (D.state == .failed || D.peers.all fun p => !p.reported || p.state == .done))

/-- The participants whose report of the closing frame is missing (R413). -/
def Dist.silent (D : Dist) : List Peer := D.peers.filter fun p => p.joined && !p.reported && p.state != .failed

/-- A decision boundary without some participant's report: the device fails its own part with FABRIC_LOSS (R413). -/
def State.splitCheck (s : State) (j : Job) (D : Dist) : State :=
  if !s.fabric.exchange || !D.decides || D.silent == [] then s
  else
    let k := s.frame.number.toNat
    let gone := D.silent.map (·.dev)
    let s1 := s.modJob j.jid fun x => { x.failFar k 0xFFFF Config.stFabricLoss s.selfDev with
      dist := some { D with
        state := .failed
        status := if D.state = .failed then D.status else Config.stFabricLoss
        decideIn := some 0
        peers := D.peers.map fun p => if gone.contains p.dev then
          { p with state := .failed, status := Config.stFabricLoss, failFrame := k } else p } }
    let s2 : State := { s1 with fabric := { s1.fabric with splitTotal := satAdd 32 s1.fabric.splitTotal 1 } }
    (s2.sayBye j Config.stFabricLoss).raise Config.evFabricSplit

/-- Every distributed part moves on at a boundary, before step 1. -/
def State.advanceParts (s : State) : State :=
  let s1 : State := { s with jobs := s.jobs.map fun (j : Job) =>
    if j.alone || j.state == .waiting then j
    else { j with dist := j.dist.map fun D => D.advance j.ownFailure j.finished } }
  let s2 := s1.distJobs.foldl (fun s x => s.splitCheck x.1 x.2) s1
  { s2 with jobs := s2.jobs.map fun (j : Job) => { j with
      dist := j.dist.map fun D => { D with peers := D.peers.map fun p => { p with reported := false } } } }

-- WIRE MORSELS (R408, R418) --------------------------------------------------------------------------------------------------------------------------------

/-- A job whose exchange stages go on. -/
def State.exchanging (s : State) (j : Job) : Bool := j.alive && j.state == .running && (s.instD j.inst).state.runs

/-- No producer morsel of a flow is running, and the flow is empty. -/
def State.flowIdle (s : State) (j : Job) (fi : Nat) : Bool :=
  (j.flows[fi]?.elim true fun f => f.held == []) &&
  match j.image.flow? fi with
  | none => true
  | some f => !(s.dies.any fun d =>
      (d.fgrs.filterMap (·.morsel) ++ d.saved.map (·.morsel) ++ d.units.filterMap (·.morsel)).any fun m =>
        m.jid == j.jid && m.stage == f.producer)

/-- The open wire morsels of an idle input flow close (R418). -/
def State.closeIdle (s : State) (j : Job) : State :=
  let idle := fun (i : Nat) => (j.image.stage? i).elim false fun st => st.ins.all fun fi => s.flowIdle j fi
  s.modDist j.jid fun D => { D with wireOut := D.wireOut.map fun w => if !w.closed && idle w.stage then s.closeWire j false w else w }

/-- The descriptor of a wire morsel whose bytes stand at address `a`: addresses for offsets, and no SOURCE_DONE. -/
def landedDesc (a : Nat) (bs : List Byte) : List Byte :=
  let c := byteAt bs 0x0C
  let fix := fun (d : List Byte) (off : Nat) => if field d off 8 = 0 then d else patch d off (leBytes 8 (a + field d off 8))
  let d := slice bs 0 (descBytes c)
  let d1 := patch d 0x0D (leBytes 1 (byteAt d 0x0D % flagSourceDone))
  ((List.range c).flatMap fun k => [descBytes k, descBytes k + 8, descBytes k + 16]).foldl fix d1

/-- Place the bytes of wire morsel `id` of source `dev` in the output flow of exchange stage `i`; none while the flow or the arena has no room (R408). -/
def State.placeWire (s : State) (j : Job) (i dev id : Nat) (bs : List Byte) : Option State :=
  match j.image.stage? i with
  | none => none
  | some st =>
    match st.outs.head?, j.dieSet[(id + dev) % j.dieSet.length]? with
    | some fi, some d =>
      if ((j.image.flow? fi).elim 0 (·.depth)) ≤ s.flowCount j fi then none
      else match s.takeBuffer j.jid d bs.length with
        | .error _ => none
        | .ok p => match p.1.writeInst j.inst p.2.2 bs with
          | none => some (s.failPart j.jid d i Config.stMemFault [])
          | some t =>
            let desc := landedDesc p.2.2 bs
            some (t.placeFlow j.jid fi d i
              { origin := descSeq desc, frag := 0, last := true, rows := descRows desc, heap := descHeap desc, desc := desc, bufs := [(d, p.2.1)] })
    | _, _ => none

/-- A wire morsel in landing has all its bytes. -/
def WireIn.whole (w : WireIn) : Bool := decide (w.len ≤ (w.pieces.map (·.2.2.length)).sum)

/-- Its bytes, in the order of their offsets. -/
def WireIn.bytes (w : WireIn) : List Byte :=
  ((sortBy (fun (a b : Nat × Bool × List Byte) => a.1 ≤ b.1) w.pieces).flatMap (·.2.2)).take w.len

/-- What a participant's placed wire morsel says of its source: the number placed, and SOURCE_DONE once every one before it is placed (R418). -/
def Peer.arrived (p : Peer) (i id : Nat) (last : Bool) : Peer :=
  let n := (assocGet i p.placed).getD 0 + 1
  let total := if last then assocSet i (id + 1) p.total else p.total
  { p with
    placed := assocSet i n p.placed
    total := total
    sourceDone := if assocGet i total = some n then i :: p.sourceDone else p.sourceDone }

/-- Place what the device's own partition has closed, and what has landed whole, in order of arrival (R408, R417). -/
def State.placeJob (s : State) (jid : Nat) : State :=
  match s.job? jid with
  | none => s
  | some j => match j.dist with
    | none => s
    | some D =>
      if !s.exchanging j then s
      else
        let self := j.selfIndex s
        let own := D.wireOut.filter fun w => w.closed && w.dest == self
        let s1 := own.foldl (fun s w => match s.placeWire ((s.job? jid).getD j) w.stage s.selfDev w.id w.bytes with
          | none => s
          | some t => t.modDist jid fun D => { D with wireOut := D.wireOut.filter fun x => !(x.stage == w.stage && x.dest == self && x.id == w.id) }) s
        let s2 := (D.wireIn.filter (·.whole)).foldl (fun s w =>
          let bs := w.bytes
          match s.placeWire ((s.job? jid).getD j) w.stage w.dev w.id bs with
          | none => s
          | some t => t.modDist jid fun D => { D with
            wireIn := D.wireIn.filter fun x => !(x.dev == w.dev && x.stage == w.stage && x.id == w.id)
            peers := D.peers.map fun p =>
              if p.dev = w.dev then p.arrived w.stage w.id (bit (byteAt bs 0x0D) 3) else p }) s1
        s2.settle jid

/-- Every exchange at a boundary: idle wire morsels close, whole ones are placed. -/
def State.stepWires (s : State) : State :=
  (s.jobs.filter (·.dist.isSome)).foldl (fun s j =>
    let s1 := if s.exchanging j then s.closeIdle j else s
    s1.placeJob j.jid) s

-- DEALING QUANTA (R405, R406) --------------------------------------------------------------------------------------------------------------------------------

/-- Quanta that an exchange stage of a job wants of, or for, a device, and has got so far. -/
structure Claim where
  inst : Nat
  jid : Nat
  djid : Nat
  dev : Nat
  stage : Nat
  want : Nat
  got : Nat
  deriving DecidableEq, Repr

/-- Devices ascend from `start`, wrapping; then jobs, then stages. -/
def claimBefore (start : Nat) (a b : Claim) : Bool :=
  let key := fun (c : Claim) => [(c.dev + 2048 - start % 2048) % 2048, c.djid, c.stage]
  decide (key a ≤ key b)

/-- One round: two quanta to each claim, within what is left of the device's total and of each instance's. -/
def dealRound : List Claim → Nat → List (Nat × Nat) → List Claim × Nat × List (Nat × Nat)
  | [], b, is => ([], b, is)
  | c :: cs, b, is =>
    let mine := (assocGet c.inst is).getD 0
    let q := min (min 2 (c.want - c.got)) (min b mine)
    let p := dealRound cs (b - q) (assocSet c.inst (mine - q) is)
    ({ c with got := c.got + q } :: p.1, p.2)

/-- Rounds until nothing more is handed out. -/
def deal (cs : List Claim) (b : Nat) (is : List (Nat × Nat)) : Nat → List Claim
  | 0 => cs
  | k + 1 =>
    let p := dealRound cs b is
    if p.2.1 = b then cs else deal p.1 p.2.1 p.2.2 k

/-- The claims that got something. -/
def dealt (cs : List Claim) (b : Nat) (is : List (Nat × Nat)) : List Claim := (deal cs b is b).filter (·.got != 0)

/-- The instances of some claims, each with a number. -/
def perInst (cs : List Claim) (f : Nat → Nat) : List (Nat × Nat) := (cs.map (·.inst)).eraseDups.map fun n => (n, f n)

/-- Parts that exchange data: joined, and not failed. -/
def PartSt.exchanges : PartSt → Bool
  | .running | .done => true
  | _ => false

/-- A wire morsel's quanta that have not been sent. -/
def WireOut.left (w : WireOut) : Nat := quantaOf w.bytes.length - w.sent

/-- What the device has to send: closed wire morsels for other devices, without what is granted already (R405). -/
def State.wants (s : State) : List Claim :=
  s.distJobs.flatMap fun x =>
    if !x.2.state.exchanges || !x.1.alive then []
    else
      let D := x.2
      let keys := ((D.wireOut.filter (·.closed)).map fun w => (D.devs.getD w.dest 0xFFFF, w.dest, w.stage)).eraseDups.filter (·.1 != s.selfDev)
      keys.map fun k =>
        let all := ((D.wireOut.filter fun w => w.closed && w.dest == k.2.1 && w.stage == k.2.2).map (·.left)).sum
        let given := ((D.grantsIn.filter fun g => g.dev == k.1 && g.stage == k.2.2).map (·.quanta)).sum
        { inst := x.1.inst, jid := x.1.jid, djid := D.djid.toNat, dev := k.1, stage := k.2.2, want := all - given, got := 0 }

/-- The requests of this boundary (R405). -/
def State.requests (s : State) : List Claim :=
  let cs := sortBy (claimBefore (s.selfDev + s.frame.number.toNat)) s.wants
  dealt cs s.quanta (perInst cs s.instQuanta)

/-- What other devices have asked for in time. -/
def State.asked (s : State) : List Claim :=
  s.distJobs.flatMap fun x =>
    if !x.2.state.exchanges || !x.1.alive then []
    else x.2.reqIn.map fun r =>
      { inst := x.1.inst, jid := x.1.jid, djid := x.2.djid.toNat, dev := r.1, stage := r.2.1, want := r.2.2, got := 0 }

/-- The grants of step 5 (R406). -/
def State.grants (s : State) : List Claim :=
  let cs := sortBy (claimBefore s.frame.number.toNat) s.asked
  dealt cs (min s.quanta s.landingFree) (perInst cs fun n => min (s.instQuanta n) (s.instLanding n - s.instLanded n))

/-- Record the grants: landing space is reserved, and the packets of the data frame are expected (R406, R409). -/
def State.issueGrants (s : State) (gs : List Claim) : State :=
  let f := s.frame.number.toNat + 1
  let s1 := gs.foldl (fun s g => s.modDist g.jid fun D => { D with
    grantsOut := D.grantsOut ++ [{ dev := g.dev, stage := g.stage, frame := f, quanta := g.got, got := 0 }] }) s
  let fresh := (gs.map (·.dev)).eraseDups.map fun d =>
    ({ dev := d, frame := f, granted := ((gs.filter (·.dev == d)).map fun g => ceilDiv g.got 2).sum, parts := 0, echo := [], seqs := [] } : RxFrame)
  { s1 with
    fabric := { s1.fabric with rx := s1.fabric.rx ++ fresh }
    jobs := s1.jobs.map fun (j : Job) => { j with dist := j.dist.map fun D => { D with reqIn := [] } } }

-- PACKETS (R397, R400, R407) -----------------------------------------------------------------------------------------------------------------------------------

/-- Wire bytes of a packet on a plane. -/
def State.wireBytes (s : State) (p len : Nat) : Nat := 134 + len + (if s.keeper.rwp.vlanOf p = 0 then 0 else 4)

/-- How a packet to device `d` is addressed on a plane (R395, R397). -/
def State.rtAddr (s : State) (p d : Nat) (control : Bool) : RtAddr :=
  let r := s.keeper.rwp
  let pre := beNat (slice r.planePrefix (8 * p) 8) * 2 ^ 64
  let flow := s.selfDev * 2048 + d
  { mac := field r.nexthopMac (8 * p) 6
    vlan := r.vlanOf p
    dscp := if control then r.dscpCtrl else r.dscpData
    flowLabel := flow % 2 ^ 20
    hopLimit := 64
    src := BitVec.ofNat 128 (pre + r.iid s.selfDev)
    dst := BitVec.ofNat 128 (pre + r.iid d)
    srcPort := 49152 + flow % 16384
    dstPort := r.rtUdpPort }

/-- A packet leaves on a plane. -/
def State.sendRt (s : State) (p : Nat) (control : Bool) (x : RtPkt) : State :=
  (s.modPort p fun y => { y with tx := satAdd 64 y.tx 1 }).emit (.rt p control (s.rtAddr p x.dstDev.toNat control) x)

/-- A packet without what its type adds. -/
def State.blankPkt (s : State) (d : Nat) (plane : Nat) : RtPkt where
  macOk := true
  version := 1
  flags := 0
  plane := BitVec.ofNat 8 plane
  srcDev := BitVec.ofNat 16 s.selfDev
  dstDev := BitVec.ofNat 16 d
  frame := s.frame.number
  job := 0
  dstInst := 0
  srcInst := 0
  dstGen := 0
  flow := 0
  seq := 0
  morsel := 0
  offset := 0
  bytes := 0
  crc := 0
  payload := []

/-- The packets of a granted number of quanta, at most one for two, cut from wire morsels in order: wire morsel number, length, byte offset and payload. -/
def cutPackets (here : WireOut → Bool) : List WireOut → Nat → Nat → List WireOut × List (Nat × Nat × Nat × List Byte)
  | [], _, _ => ([], [])
  | w :: ws, k, q =>
    if !here w then
      let p := cutPackets here ws k q
      (w :: p.1, p.2)
    else
      let t := min w.left (min q (2 * k))
      let n := ceilDiv t 2
      let mine := (List.range n).map fun i =>
        (w.id, w.bytes.length, 4096 * (w.sent + 2 * i), slice w.bytes (4096 * (w.sent + 2 * i)) (4096 * min 2 (t - 2 * i)))
      let p := cutPackets here ws (k - n) (q - t)
      ({ w with sent := w.sent + t } :: p.1, mine ++ p.2)

/-- The grants of the opening frame, in the order of R405. -/
def State.dueGrants (s : State) : List Claim :=
  let k := s.frame.number.toNat
  sortBy (claimBefore (s.selfDev + k)) (s.distJobs.flatMap fun x =>
    if !x.1.alive then []
    else (x.2.grantsIn.filter (·.frame == k)).map fun g =>
      { inst := x.1.inst, jid := x.1.jid, djid := x.2.djid.toNat, dev := g.dev, stage := g.stage, want := g.quanta, got := 0 })

/-- A DATA packet of a job, without SEQ, plane and CRC. -/
def State.dataPkt (s : State) (j : Job) (D : Dist) (g : Claim) (x : Nat × Nat × Nat × List Byte) : RtPkt :=
  let peer := D.peers.find? (·.dev == g.dev)
  { s.blankPkt g.dev 0 with
    job := D.djid
    dstInst := BitVec.ofNat 8 (peer.elim 0 (·.inst))
    srcInst := BitVec.ofNat 8 j.inst
    dstGen := peer.elim 0 (·.gen)
    flow := BitVec.ofNat 16 g.stage
    morsel := BitVec.ofNat 32 x.1
    bytes := BitVec.ofNat 32 x.2.1
    offset := BitVec.ofNat 32 x.2.2.1
    payload := x.2.2.2 }

/-- Cut the packets of one grant: the packets, and what its ECHO counts (R407, R409). -/
def State.takeGrant (s : State) (g : Claim) : State × List RtPkt × Claim :=
  match (s.distJobs.find? fun x => x.1.jid == g.jid) with
  | none => (s, [], g)
  | some (j, D) =>
    let dest := (D.devs.idxOf? g.dev).getD 0
    let n := ceilDiv g.want 2
    let p := cutPackets (fun w => w.closed && w.dest == dest && w.stage == g.stage) D.wireOut n g.want
    let sent := if p.2.length = n then g.want else 2 * p.2.length
    (s.modDist g.jid fun D => { D with
      wireOut := p.1.filter fun w => !(w.closed && w.dest == dest && w.stage == g.stage && w.left == 0)
      grantsIn := D.grantsIn.filter fun x => !(x.dev == g.dev && x.stage == g.stage && x.frame == s.frame.number.toNat) },
      p.2.map (s.dataPkt j D g), { g with got := sent })

/-- SEQ counts from 0 per destination (R407). -/
def numberPkts (ps : List RtPkt) : List RtPkt :=
  ps.zipIdx.map fun x => { x.1 with seq := BitVec.ofNat 16 ((ps.take x.2).filter (·.dstDev == x.1.dstDev)).length }

/-- The planes that are up, from plane (DEVICE_ID_ACTIVE + FRAME_NUMBER) mod P on, wrapping. -/
def State.planesFrom (s : State) (start : Nat) : List Nat :=
  let n := s.fabric.portCount
  ((List.range n).map fun i => (start + i) % n).filter fun p => (s.fabric.port p).linked

/-- The scheduled packets on their planes, and whether each goes out now: no plane carries more than N, less what the control excess displaces (R407, R410). -/
def State.spread (s : State) (excess : Nat → Nat) (ps : List RtPkt) : List (Nat × Bool × RtPkt) :=
  let planes := s.planesFrom (s.selfDev + s.frame.number.toNat)
  ps.zipIdx.filterMap fun x =>
    match planes[x.2 % planes.length]? with
    | none => none
    | some p =>
      let pkt := rtSealed { x.1 with plane := BitVec.ofNat 8 p } false
      some (p, decide (x.2 / planes.length < s.planeFull p - ceilDiv (excess p) (s.packetBytes p)), pkt)

-- CONTROL PACKETS (R401, R403, R409, R413) -----------------------------------------------------------------------------------------------------------------------

/-- The packets that a receiver expects of a data frame: what the ECHO promises, or its own grant (R409). -/
def RxFrame.expected (x : RxFrame) : Nat :=
  if x.parts = 0 ∨ x.echo.length < x.parts then x.granted else (x.echo.map (·.2)).sum

/-- The SEQ numbers of a data frame that are missing. -/
def RxFrame.missing (x : RxFrame) : List Nat := (List.range x.expected).filter fun q => !x.seqs.contains q

/-- The LOSS entries for a device: data frames that have closed with packets missing. -/
def State.lossEntries (s : State) (d : Nat) : List CtlEntry :=
  (s.fabric.rx.filter fun x => x.dev == d && decide (x.frame < s.frame.number.toNat) && x.missing != []).map fun x =>
    { kind := ctlLoss, count := x.frame % 2 ^ 32, nbits := x.expected, bitmap := bitmap x.missing }

/-- The entries of claims for a device, of one kind. -/
def claimEntries (kind d jid : Nat) (cs : List Claim) : List CtlEntry :=
  (cs.filter fun c => c.dev == d && c.jid == jid).map fun c => { kind := kind, flow := c.stage, job := c.djid, count := c.got }

/-- What the control packet to device `d` carries: for each job REPORT, REQUEST, GRANT and ECHO; then LOSS; then the reports of parts that are gone. -/
def State.entriesFor (s : State) (reqs gs es : List Claim) (d : Nat) : List (List Byte) :=
  let jobs := s.distJobs.filter fun x => x.2.others.contains d
  (jobs.flatMap fun x =>
    reportEntry x.2.state x.2.status x.1.inst x.1.gen x.2.djid :: (claimEntries ctlRequest d x.1.jid reqs ++ claimEntries ctlGrant d x.1.jid gs ++
      claimEntries ctlEcho d x.1.jid es)).map (·.bytes) ++
  (s.lossEntries d).map (·.bytes) ++ (s.fabric.byes.filter (·.1.contains d)).map (·.2)

/-- Entries in parts whose payload stays within 8,192 bytes. -/
def packParts : List (List Byte) → List (List Byte) → List (List (List Byte))
  | [], cur => if cur = [] then [] else [cur]
  | e :: es, cur =>
    if cur = [] ∨ 16 + (cur.map (·.length)).sum + e.length ≤ 8192 then packParts es (cur ++ [e])
    else cur :: packParts es [e]

/-- The control packets of some entries to device `d` on a plane. -/
def State.controlPkts (s : State) (d p : Nat) (es : List (List Byte)) : List RtPkt :=
  let parts := packParts es []
  parts.zipIdx.map fun x => rtSealed { s.blankPkt d p with
    flags := if x.2 + 1 = parts.length then 2 else 0
    seq := BitVec.ofNat 16 x.2
    payload := leBytes 1 s.frame.periodActive ++ leBytes 1 s.fabric.portModeActive ++ leBytes 2 s.fabric.planesUp ++ leBytes 2 x.1.length ++
      leBytes 1 parts.length ++ zeros 9 ++ x.1.flatten } true

/-- The planes to device `d`, from plane (d + FRAME_NUMBER) mod P on: those up at both ends. -/
def State.planesTo (s : State) (d : Nat) : List Nat :=
  (s.planesFrom (d + s.frame.number.toNat)).filter fun p => (assocGet d s.fabric.peerPlanes).elim true fun m => bit m p

/-- A first REPORT of DONE or FAIL goes to device `d` at this boundary (R413). -/
def State.firstReport (s : State) (d : Nat) : Bool :=
  s.distJobs.any (fun x => x.2.others.contains d && x.2.decideIn == some 1) || s.fabric.byes.any (·.1.contains d)

/-- The devices that get a control packet (R403), and those that parts now gone report to. -/
def State.listeners (s : State) : List Nat :=
  sortBy (· ≤ ·) (s.distJobs.flatMap (·.2.others) ++ s.fabric.byes.flatMap (·.1)).eraseDups

/-- Every control packet of this boundary, each with its plane. -/
def State.controlOut (s : State) (reqs gs es : List Claim) : List (Nat × RtPkt) :=
  s.listeners.flatMap fun d =>
    let entries := s.entriesFor reqs gs es d
    let planes := s.planesTo d
    (planes.take (if s.firstReport d then 2 else 1)).flatMap fun p => (s.controlPkts d p entries).map fun x => (p, x)

-- RESENDS (R409, R410) -------------------------------------------------------------------------------------------------------------------------------------------------

/-- The plane of a resend: that of the packet while it is up, else the next that is. -/
def State.resendPlane (s : State) (p : Nat) : Option Nat := (s.planesFrom p).head?

/-- Resend one listed packet, if it is still kept and its port's slack has room. -/
def State.resendOne (s : State) (r : Nat × Nat × Nat) : State :=
  let drop := fun (s : State) => ({ s with fabric := { s.fabric with resends := s.fabric.resends.erase r } } : State)
  match s.fabric.kept.find? fun x => x.dev == r.1 && x.frame == r.2.1 && x.seq == r.2.2 with
  | none => drop s
  | some x => match s.resendPlane x.pkt.plane.toNat with
    | none => s
    | some p =>
      let b := s.wireBytes p x.pkt.payload.length
      if s.fabric.room.getD p 0 < b then s
      else
        let s1 := drop s
        let s2 : State := { s1 with fabric := { s1.fabric with room := s1.fabric.room.modify p (· - b) } }
        (s2.modPort p fun y => { y with resent := satAdd 64 y.resent 1 }).sendRt p false
          (rtSealed { x.pkt with flags := 1, plane := BitVec.ofNat 8 p } false)

/-- Resends, oldest data frame first, as far as the slack goes. -/
def State.resendDue (s : State) : State :=
  (sortBy (fun (a b : Nat × Nat × Nat) => a.2.1 ≤ b.2.1) s.fabric.resends).foldl (fun s r => s.resendOne r) s

-- THE BOUNDARY --------------------------------------------------------------------------------------------------------------------------------------------------------

/-- A grant of a job still expects data. -/
def Dist.expects (D : Dist) (d f : Nat) : Bool := D.grantsOut.any fun g => g.dev == d && g.frame == f

/-- What is over: a data frame whose expected packets have all arrived frees what its grants still reserve; packets and frames older than eight frames
go. -/
def State.ageFabric (s : State) : State :=
  let k := s.frame.number.toNat
  let whole := fun (d f : Nat) => s.fabric.rx.any fun x => x.dev == d && x.frame == f && x.missing == []
  let s1 : State := { s with jobs := s.jobs.map fun (j : Job) => { j with
    dist := j.dist.map fun D => { D with
      grantsOut := D.grantsOut.filter fun g => k ≤ g.frame || !whole g.dev g.frame
      grantsIn := D.grantsIn.filter fun g => k ≤ g.frame } } }
  let open_ := fun (x : RxFrame) => s1.jobs.any fun j => j.alive && j.dist.elim false fun D => D.expects x.dev x.frame
  { s1 with fabric := { s1.fabric with
    rx := s1.fabric.rx.filter fun x => k ≤ x.frame + 8 || (x.missing != [] && open_ x)
    kept := s1.fabric.kept.filter fun x => k ≤ x.frame + 8 } }

/-- Wire bytes of the control packets on a plane beyond its slack, and what is left of the slack. -/
def State.ctrlBytes (s : State) (out : List (Nat × RtPkt)) (p : Nat) : Nat :=
  ((out.filter (·.1 == p)).map fun x => s.wireBytes p x.2.payload.length).sum

/-- STEP 5 OF R55 while in exchange: data, requests, grants, control packets, resends (R403 to R410). -/
def State.stepFabric (s : State) : State :=
  let s0 := s.ageFabric
  let cut := s0.dueGrants.foldl (fun (acc : State × List RtPkt × List Claim) g =>
    let t := acc.1.takeGrant g
    (t.1, acc.2.1 ++ t.2.1, acc.2.2 ++ [t.2.2])) (s0, [], [])
  let s1 := cut.1
  let reqs := s1.requests
  let gs := s1.grants
  let s2 := s1.issueGrants gs
  let ctl := s2.controlOut reqs gs cut.2.2
  let slack := s2.frameBytes / 10
  let beyond := fun (p : Nat) => s2.ctrlBytes ctl p - slack
  let data := s2.spread beyond (numberPkts cut.2.1)
  let worst := ((List.range 16).map beyond).foldl max 0
  let heavy := s2.fabric.ctrlExcess == 0 && worst != 0
  let s3 : State := { s2 with fabric := { s2.fabric with
    kept := s2.fabric.kept ++ data.map fun x => { dev := x.2.2.dstDev.toNat, frame := s2.frame.number.toNat, seq := x.2.2.seq.toNat, pkt := x.2.2 }
    excess := (worst :: s2.fabric.excess).take 16
    room := (List.range 16).map fun p => slack - s2.ctrlBytes ctl p
    byes := [] } }
  let s4 := (data.filter (·.2.1)).foldl (fun s x => s.sendRt x.1 false x.2.2) s3
  let s5 := ctl.foldl (fun s x => s.sendRt x.1 true x.2) s4
  let s6 := s5.resendDue
  if heavy then s6.raise Config.evFabricCtrlHeavy else s6

/-- The device leaves exchange (R414): its distributed parts fail with SYNC_LOST, FAIL goes out on every plane still up, and what was landing or granted is
discarded. -/
def State.leaveExchange (s : State) : State :=
  let k := s.frame.number.toNat
  let s1 : State := { s with jobs := s.jobs.map fun (j : Job) =>
    if j.alone || j.state == .waiting then j
    else
      let x := j.failFar k 0xFFFF Config.stSyncLost s.selfDev
      { x with dist := j.dist.map fun D =>
        { D with
          state := .failed
          status := if D.state = .failed then D.status else Config.stSyncLost
          decideIn := if D.state = .failed then D.decideIn else some 1
          reqIn := []
          grantsOut := []
          grantsIn := []
          wireIn := [] } } }
  let out := s1.listeners.flatMap fun d =>
    let es := s1.entriesFor [] [] [] d
    s1.fabric.planes.flatMap fun p => (s1.controlPkts d p es).map fun x => (p, x)
  let s2 := out.foldl (fun s x => s.sendRt x.1 true x.2) s1
  { s2 with fabric := { s2.fabric with
    exchange := false
    rx := []
    kept := []
    resends := []
    byes := [] } }.raise Config.evFabricExchangeOut

/-- A disabled port goes down once no issued grant is outstanding (R415); a latched enable then starts (R11). -/
def State.stepPorts (s : State) : State :=
  let k := s.frame.number.toNat
  let busy := s.distJobs.any fun x => x.2.grantsOut.any (fun g => k ≤ g.frame) || x.2.grantsIn.any fun g => k ≤ g.frame
  if busy then s
  else (List.range 16).foldl (fun s p =>
    if (s.fabric.port p).state != .disabling then s
    else (s.modPort p fun y => { y with
      state := if y.enablePending then .training else .disabled
      enablePending := false }).raise Config.evPortDown) s

/-- The fabric at a boundary: the device enters or leaves exchange (R399, R414), and in exchange step 5 runs. -/
def State.fabricBoundary (s : State) : State :=
  let s0 := s.stepPorts
  if s0.fabric.exchange then
    if s0.mayExchange then s0.stepFabric else s0.leaveExchange
  else if s0.mayExchange then
    ({ s0 with fabric := { s0.fabric with exchange := true } } : State).raise Config.evFabricExchangeIn |>.stepFabric
  else { s0 with fabric := { s0.fabric with byes := [] } }

end Sys2Proof.Machine
end

