-- ==== Sys2Proof/Machine/FabricRx.lean ====
section
/-!
DEFINITION. What arrives from the Range fabric: the checks of R402, data in landing (R408, R409), the entries of control packets (R401, R405, R407, R409,
R412), losses and timeouts (R88, R411, R412), ports that go down and come up (R415), and the ICMPv6 answers (R395, R436).
-/

namespace Sys2Proof.Config

/-- The link-local address of the out-of-band port (R436 gives no value). DESIGN CHOICE, notes/assumptions/25.md. -/
opaque oobLinkLocal : BitVec 128

end Sys2Proof.Config

namespace Sys2Proof.Machine

-- THE CHECKS (R402) --------------------------------------------------------------------------------------------------------------------------------------

/-- The counters of RX_DROP. -/
def rdMac : Nat := 0
def rdFormat : Nat := 1
def rdCrc : Nat := 2
def rdUnexpected : Nat := 3
def rdDup : Nat := 4
def rdLate : Nat := 5
def rdOut : Nat := 6

/-- Count in RX_DROP of a port. -/
def State.countDrop (s : State) (p k : Nat) : State := s.modPort p fun y => { y with drop := y.drop.modify k (satAdd 32 · 1) }

/-- A source contradicts the device's configuration: event FABRIC_CONFIG, once per source and cause. -/
def State.configClash (s : State) (dev cause : Nat) : State :=
  if s.fabric.configSeen.contains (dev, cause) then s
  else ({ s with fabric := { s.fabric with configSeen := (dev, cause) :: s.fabric.configSeen } } : State).raise Config.evFabricConfig

/-- Check 2 without the control header: VERSION, and the reserved bits of FLAGS, SRC_DEV and DST_DEV. -/
def RtPkt.formed (p : RtPkt) (control : Bool) : Bool :=
  p.version == 1 && p.flags &&& (if control then 0xFD else 0xFE) == 0 && decide (p.srcDev.toNat < 2048) && decide (p.dstDev.toNat < 2048)

/-- The fields of a control header. -/
def RtPkt.periodUs (p : RtPkt) : Nat := byteAt p.payload 0
def RtPkt.mode (p : RtPkt) : Nat := byteAt p.payload 1
def RtPkt.planes (p : RtPkt) : Nat := field p.payload 2 2
def RtPkt.entryCount (p : RtPkt) : Nat := field p.payload 4 2
def RtPkt.parts (p : RtPkt) : Nat := byteAt p.payload 6

/-- Checks 1 to 5: none where the packet passes them, else the state with the packet dropped. -/
def State.rtDropped (s : State) (port : Nat) (control : Bool) (p : Sys2Proof.RtPkt) : Option State :=
  let dev := p.srcDev.toNat
  if !p.macOk then some (s.countDrop port rdMac)
  else if !RtPkt.formed p control || (control && !allZero (slice p.payload 7 9)) then some (s.countDrop port rdFormat)
  else if control && RtPkt.periodUs p != s.frame.periodActive then some ((s.countDrop port rdFormat).configClash dev 0)
  else if control && RtPkt.mode p != s.fabric.portModeActive then some ((s.countDrop port rdFormat).configClash dev 1)
  else if rtCrc p control != p.crc then some (s.countDrop port rdCrc)
  else if some p.dstDev.toNat != s.fabric.deviceIdActive then some (s.countDrop port rdFormat)
  else if p.srcDev == p.dstDev then some ((s.countDrop port rdFormat).configClash dev 2)
  else if !s.fabric.exchange then some (s.countDrop port rdOut)
  else none

/-- A port receives: it exists in the mode in force and its link is up, on a part that is powered. -/
def State.receives (s : State) (port : Nat) : Bool := s.powered && decide (port < s.fabric.portCount) && (s.fabric.port port).linked

def State.countRx (s : State) (port : Nat) : State := s.modPort port fun y => { y with rx := satAdd 64 y.rx 1 }

-- DATA (R402, R408, R409) ---------------------------------------------------------------------------------------------------------------------------------------

/-- A payload lands: in the buffer, or in the spill of its target die while the buffer is full; its grants count it. -/
def State.land (s : State) (p : Sys2Proof.RtPkt) : State :=
  let dev := p.srcDev.toNat
  let st := p.flow.toNat
  match s.distJobs.find? fun x => x.2.djid == p.job && x.1.inst == p.dstInst.toNat with
  | none => s
  | some (j, _) =>
    if !j.alive then s
    else
      let q := quantaOf p.payload.length
      let spill := decide (8192 < s.landingBuffered + q)
      let piece := (p.offset.toNat, spill, p.payload)
      let here := fun (w : WireIn) => w.dev == dev && w.stage == st && w.id == p.morsel.toNat
      s.modDist j.jid fun D => { D with
        wireIn :=
          if D.wireIn.any here then D.wireIn.map fun w => if here w then { w with pieces := w.pieces ++ [piece] } else w
          else D.wireIn ++ [{ dev := dev, stage := st, id := p.morsel.toNat, len := p.bytes.toNat, pieces := [piece] }]
        grantsOut := D.grantsOut.map fun g =>
          if g.dev = dev ∧ g.stage = st ∧ g.frame = p.frame.toNat then { g with got := g.got + q } else g }

/-- DATA: a packet that passes the checks of R402 is landed; one whose data frame has closed is counted as late, too (R409). -/
def execData (port : Nat) (p : RtPkt) (s : State) : Host.Outcome State Fault Refusal :=
  if !s.receives port then .next s
  else match s.rtDropped port false p with
    | some t => .next t
    | none =>
      let n := p.dstInst.toNat
      let dev := p.srcDev.toNat
      let f := p.frame.toNat
      let here := fun (x : RxFrame) => x.dev == dev && x.frame == f
      if (s.instD n).gen != p.dstGen then .next (s.countStale n fun i => { i with staleFabric := satAdd 32 i.staleFabric 1 })
      else match s.fabric.rx.find? here with
        | none => .next (s.countDrop port rdUnexpected)
        | some x =>
          if x.granted ≤ p.seq.toNat then .next (s.countDrop port rdUnexpected)
          else if x.seqs.contains p.seq.toNat then .next (s.countDrop port rdDup)
          else
            let s1 : State := { s with fabric := { s.fabric with
              rx := s.fabric.rx.map fun y => if here y then { y with seqs := p.seq.toNat :: y.seqs } else y } }
            let s2 := (s1.countRx port).land p
            .next (if f < s.frame.number.toNat then s2.countDrop port rdLate else s2)

-- CONTROL (R401, R405, R407, R409, R412) -----------------------------------------------------------------------------------------------------------------------------

/-- The entry at an offset of a control payload. -/
def ctlEntryAt (bs : List Byte) (off : Nat) : CtlEntry :=
  let e := slice bs off 24
  let base : CtlEntry := { kind := byteAt e 0, state := byteAt e 1, status := byteAt e 2, inst := byteAt e 3, gen := field e 4 2, flow := field e 6 2
                           job := field e 8 8, count := field e 16 4, nbits := field e 20 4 }
  { base with bitmap := field bs (off + 24) base.mapBytes }

/-- The entries of a control payload: `n` from an offset, as far as the payload reaches. -/
def ctlEntries (bs : List Byte) : Nat → Nat → List CtlEntry
  | 0, _ => []
  | n + 1, off =>
    if bs.length < off + 24 then []
    else
      let e := ctlEntryAt bs off
      e :: ctlEntries bs n (off + 24 + e.mapBytes)

/-- The state that a REPORT names. -/
def partStOf : Nat → PartSt
  | 0 => .joining
  | 1 => .running
  | 2 => .done
  | _ => .failed

/-- REPORT: the participant joins, its state is known; another generation than the joined one is FAIL with ABORTED. A FAIL stands (R85, R88, R412). -/
def Peer.report (p : Peer) (e : CtlEntry) (frame : Nat) : Peer :=
  let gen := BitVec.ofNat 16 e.gen
  let p1 := if p.joined then p else { p with joined := true, inst := e.inst, gen := gen }
  let st := if p1.gen = gen then (partStOf e.state, e.status) else (PartSt.failed, Config.stAborted)
  if p1.state = .failed then { p1 with reported := true, missing := 0 }
  else { p1 with
    state := st.1
    status := if st.1 = .failed then st.2 else 0
    failFrame := if st.1 = .failed then frame - 1 else 0
    reported := true
    missing := 0 }

/-- A participant's report: the part is RUNNING once every participant has joined (R412). -/
def Dist.report (D : Dist) (dev : Nat) (e : CtlEntry) (frame : Nat) : Dist :=
  let D1 := { D with peers := D.peers.map fun p => if p.dev = dev then p.report e frame else p }
  if D1.state = .joining ∧ D1.peers.all (·.joined) then
    { D1 with state := .running, peers := D1.peers.map fun p => { p with missing := 0 } }
  else D1

/-- One entry is taken; REQUEST and GRANT only where they are in time (R403). -/
def State.takeEntry (s : State) (dev frame : Nat) (inTime : Bool) (e : CtlEntry) : State :=
  if e.kind = ctlLoss then
    let asked := (s.fabric.kept.filter fun x => x.dev == dev && x.frame % 2 ^ 32 == e.count && decide (x.seq < e.nbits) && bit e.bitmap x.seq).map
      fun x => (x.dev, x.frame, x.seq)
    { s with fabric := { s.fabric with resends := s.fabric.resends ++ asked.filter (!s.fabric.resends.contains ·) } }
  else match s.distJobs.find? fun x => x.2.djid.toNat == e.job && x.2.others.contains dev with
    | none => s
    | some (j, D) =>
      if e.kind = ctlReport then s.modDist j.jid fun D => D.report dev e frame
      else if e.kind = ctlRequest ∧ inTime ∧ D.state.exchanges then
        s.modDist j.jid fun D => { D with reqIn := D.reqIn.filter (fun r => !(r.1 == dev && r.2.1 == e.flow)) ++ [(dev, e.flow, e.count)] }
      else if e.kind = ctlGrant ∧ inTime ∧ D.state.exchanges then
        s.modDist j.jid fun D => { D with
          grantsIn := D.grantsIn.filter (fun g => !(g.dev == dev && g.stage == e.flow && g.frame == frame + 1)) ++
            [{ dev := dev, stage := e.flow, frame := frame + 1, quanta := e.count, got := 0 }] }
      else s

/-- The ECHO entries of one part of the control packet of data frame `frame`: a grant that an undivided packet does not name expects
nothing and frees its landing space (R409, R419). -/
def State.takeEcho (s : State) (dev frame part parts : Nat) (es : List CtlEntry) : State :=
  let echoes := es.filter (·.kind == ctlEcho)
  let n := (echoes.map fun e => ceilDiv e.count 2).sum
  let fresh := fun (x : RxFrame) => x.dev == dev && x.frame == frame && !(x.echo.any fun y => y.1 == part)
  let s1 : State := { s with fabric := { s.fabric with
    rx := s.fabric.rx.map fun x => if fresh x then { x with parts := parts, echo := x.echo ++ [(part, n)] } else x } }
  if parts = 1 then
    { s1 with jobs := s1.jobs.map fun (j : Job) => { j with dist := j.dist.map fun D => { D with
        grantsOut := D.grantsOut.filter fun g => !(g.dev == dev && g.frame == frame) ||
          echoes.any fun e => e.job == D.djid.toNat && e.flow == g.stage } } }
  else s1

/-- CONTROL at time `t`: a packet that passes the checks of R402; its entries are taken, and what it asks for again goes out as far as the slack of this frame
allows (R409). -/
def execControl (port : Nat) (p : RtPkt) (t : Nat) (s : State) : Host.Outcome State Fault Refusal :=
  if !s.receives port then .next s
  else
    let s0 := s.atNs t
    match s0.rtDropped port true p with
    | some u => .next u
    | none =>
      let dev := p.srcDev.toNat
      let frame := p.frame.toNat
      let es := ctlEntries p.payload (RtPkt.entryCount p) 16
      let inTime := p.frame == s0.frame.number && decide (s0.power.uptimeNs + 1000 < s0.frameEndNs)
      let s1 := s0.countRx port
      let s2 : State := { s1 with fabric := { s1.fabric with peerPlanes := assocSet dev (RtPkt.planes p) s1.fabric.peerPlanes } }
      let s3 := es.foldl (fun s e => s.takeEntry dev frame inTime e) s2
      .next (s3.takeEcho dev frame p.seq.toNat (max 1 (RtPkt.parts p)) es).resendDue

-- LOSSES (R88, R411, R412) ---------------------------------------------------------------------------------------------------------------------------------------------

/-- A grant of the job whose data frame is eight frames back has packets missing (R411). -/
def State.lostGrant (s : State) (D : Dist) : Option Grant :=
  D.grantsOut.find? fun g => decide (g.frame + 8 ≤ s.frame.number.toNat) && decide (g.got < g.quanta) &&
    s.fabric.rx.any fun x => x.dev == g.dev && x.frame == g.frame && x.missing != []

/-- FABRIC_LOSS: a packet still missing at the boundary that opens f+8 fails the receiving part. -/
def execFabricLoss (jid : Nat) (s : State) : Host.Outcome State Fault Refusal :=
  match s.distJobs.find? fun x => x.1.jid == jid with
  | none => .next s
  | some (j, D) =>
    if !s.fabric.exchange || !j.alive || j.state != .running then .next s
    else match s.lostGrant D with
      | none => .next s
      | some g =>
        let s1 := s.modJob jid fun j => j.failFar s.frame.number.toNat g.stage Config.stFabricLoss s.selfDev
        .next (({ s1 with fabric := { s1.fabric with lossTotal := satAdd 64 s1.fabric.lossTotal 1 } } : State).raise Config.evFabricLoss)

/-- JOIN_TIMEOUT: a part still JOINING fails: SYNC_LOST out of exchange, else FABRIC_LOSS (R412). -/
def execJoinTimeout (jid : Nat) (s : State) : Host.Outcome State Fault Refusal :=
  match s.distJobs.find? fun x => x.1.jid == jid with
  | none => .next s
  | some (j, D) =>
    if D.state != .joining || !j.alive || j.state != .running || s.power.uptimeNs < D.admittedNs + s.fabric.joinTimeout * 1000000 then .next s
    else .next (s.modJob jid fun j => j.failFar s.frame.number.toNat 0xFFFF
      (if s.fabric.exchange then Config.stFabricLoss else Config.stSyncLost) s.selfDev)

/-- CONTROL_PACKETS_MISSING: a participant has been silent for eight frames: its own bit is set, and the job fails with FABRIC_LOSS (R88). -/
def execControlPacketsMissing (djid : W64) (dev : Nat) (s : State) : Host.Outcome State Fault Refusal :=
  match s.distJobs.find? fun x => x.2.djid == djid with
  | none => .next s
  | some (j, D) =>
    if j.state != .running || D.state == .joining || !(D.peers.any fun p => p.dev == dev && p.state != .failed && decide (8 ≤ p.missing)) then .next s
    else .next (s.modDist j.jid fun D => { D with peers := D.peers.map fun p =>
      if p.dev = dev then { p with state := .failed, status := Config.stFabricLoss, failFrame := s.frame.number.toNat - 1 } else p })

-- PORTS (R399, R415) -----------------------------------------------------------------------------------------------------------------------------------------------------

/-- PORT_DOWN: a port's link is lost; one that is being disabled is disabled, or trains again where an enable is latched. -/
def execPortDown (port : Nat) (s : State) : Host.Outcome State Fault Refusal :=
  let x := s.fabric.port port
  if !s.receives port then .next s
  else .next ((s.modPort port fun y => { y with
    state := if x.state = .up then .down else if x.enablePending then .training else .disabled
    enablePending := false }).raise Config.evPortDown)

/-- PORT_UP: a port that is down or in training comes up as a plane. -/
def execPortUp (port : Nat) (s : State) : Host.Outcome State Fault Refusal :=
  let x := s.fabric.port port
  if !s.powered || s.fabric.portCount ≤ port || !(x.state == .down || x.state == .training) then .next s
  else .next ((s.modPort port fun y => { y with state := .up }).raise Config.evPortUp)

-- ICMPV6 (R395, R436) -------------------------------------------------------------------------------------------------------------------------------------------------------

/-- The port answers for an address: a plane's own, or those of the out-of-band port. -/
def State.answersFor (s : State) (port : Option Nat) (target : BitVec 128) : Bool :=
  match port with
  | some p => s.receives p && s.planeAddr p == some target
  | none => s.keeperUp && !s.power.recovery &&
    (target == Config.oobLinkLocal || (!allZero s.keeper.rwp.oobAddr && target == BitVec.ofNat 128 (beNat s.keeper.rwp.oobAddr)))

/-- NEIGHBOR_SOLICITATION: a Neighbor Advertisement, ICMPv6 type 136. -/
def execNeighborSolicitation (port : Option Nat) (target : BitVec 128) (s : State) : Host.Outcome State Fault Refusal :=
  .next (if s.answersFor port target then s.emit (.icmp port 136 target []) else s)

/-- ECHO_REQUEST: an Echo Reply, ICMPv6 type 129, with the same body. -/
def execEchoRequest (port : Option Nat) (target : BitVec 128) (body : List Byte) (s : State) : Host.Outcome State Fault Refusal :=
  .next (if s.answersFor port target then s.emit (.icmp port 129 target body) else s)

end Sys2Proof.Machine
end

