-- ==== Sys2Proof/Machine/FgrAlu.lean ====
section
/-!
DEFINITION. The scalar integer instructions of the Forager: major opcodes 0x01 to 0x05 (R219, R223, R246, R247).
-/

namespace Sys2Proof.Machine

-- SHARED SHAPES -----------------------------------------------------------------------------------------------------------------

/-- Two sources, no flag, SS and RS reserved. -/
def alu2 (f : FId) (fn : BitVec 6) (x : RegF) (op : W64 → W64 → W64) (s : State) : Host.Outcome State Fault Refusal :=
  runRegs f (regWord 0x01 fn x) (chk5 (badReg {} x)) (fun r => .done (r.setG x.rd (op (r.rg x.ra) (r.rg x.rb)))) s

/-- One source, no flag; RB is reserved too (R247). -/
def alu1 (f : FId) (fn : BitVec 6) (x : RegF) (op : W64 → W64) (s : State) : Host.Outcome State Fault Refusal :=
  runRegs f (regWord 0x01 fn x) (chk5 (badReg { rb := false } x)) (fun r => .done (r.setG x.rd (op (r.rg x.ra)))) s

/-- Two sources under SS (R219). -/
def aluS2 (f : FId) (fn : BitVec 6) (x : RegF) (op : Int → Int → Int) (s : State) : Host.Outcome State Fault Refusal :=
  runRegs f (regWord 0x01 fn x) (chk5 (badReg { ss := true } x))
    (fun r => .done (r.putS x.rd x.ss (op (r.rg x.ra).toInt (r.rg x.rb).toInt))) s

/-- One source under SS (R219, R240). -/
def aluS1 (f : FId) (fn : BitVec 6) (x : RegF) (op : Int → Int) (s : State) : Host.Outcome State Fault Refusal :=
  runRegs f (regWord 0x01 fn x) (chk5 (badReg { ss := true, rb := false } x))
    (fun r => .done (r.putS x.rd x.ss (op (r.rg x.ra).toInt))) s

/-- A carry instruction (R223): `op` gives the exact value of the sum or difference, in which a carry or borrow out shows as a value
outside 0 to 2^64 − 1. -/
def aluCy (f : FId) (fn : BitVec 6) (x : RegF) (op : Bool → Int → Int → Int) (s : State) : Host.Outcome State Fault Refusal :=
  runRegs f (regWord 0x01 fn x) (chk5 (badReg {} x)) (fun r =>
    let v := op r.cy (r.rg x.ra).toNat (r.rg x.rb).toNat
    .done ((r.setG x.rd (BitVec.ofInt 64 v)).setCy (decide (v < 0 ∨ (2 ^ 64 : Nat) ≤ v)))) s

/-- An immediate form: IMM12 sign-extended (R247). -/
def aluImm (f : FId) (fn3 : BitVec 3) (x : ImmF) (op : W64 → W64 → W64) (s : State) : Host.Outcome State Fault Refusal :=
  runRegs f (immWord 0x02 fn3 x) (chk5 false) (fun r => .done (r.setG x.rd (op (r.rg x.ra) (x.imm.signExtend 64)))) s

/-- A shift by an immediate: IMM12[11:6] is reserved (R247, R277). -/
def shiftImm (f : FId) (fn3 : BitVec 3) (x : ImmF) (op : W64 → Nat → W64) (s : State) : Host.Outcome State Fault Refusal :=
  runRegs f (immWord 0x02 fn3 x) (chk5 (x.imm.extractLsb' 6 6 != 0))
    (fun r => .done (r.setG x.rd (op (r.rg x.ra) (x.imm.extractLsb' 0 6).toNat))) s

/-- 1 for true, 0 for false. -/
def flagWord (b : Bool) : W64 := if b then 1 else 0

/-- A shift count: the low six bits (R247). -/
def shiftCount (v : W64) : Nat := v.toNat % 64

/-- Leading zero bits below bit `k` of a word of at least `k` bits. -/
def leadingZeros (n : Nat) : Nat → Nat
  | 0 => 0
  | k + 1 => if bit n k then 0 else leadingZeros n k + 1

/-- Trailing zero bits among `k` bits from bit `i`. -/
def trailingZeros (n i : Nat) : Nat → Nat
  | 0 => 0
  | k + 1 => if bit n i then 0 else trailingZeros n (i + 1) k + 1

/-- Set bits among the low `k` bits. -/
def popCount (n : Nat) : Nat → Nat
  | 0 => 0
  | k + 1 => popCount n k + if bit n k then 1 else 0

/-- The bytes of a word in reverse order. -/
def byteSwap (v : W64) : W64 := BitVec.ofNat 64 (leNat (leBytes 8 v.toNat).reverse)

-- REG -----------------------------------------------------------------------------------------------------------------------------

def execAdd (f : FId) (x : RegF) (s : State) := aluS2 f 0x00 x (· + ·) s
def execSub (f : FId) (x : RegF) (s : State) := aluS2 f 0x01 x (· - ·) s
def execNeg (f : FId) (x : RegF) (s : State) := aluS1 f 0x02 x (- ·) s
def execAbs (f : FId) (x : RegF) (s : State) := aluS1 f 0x03 x (fun a => (a.natAbs : Int)) s
def execAnd (f : FId) (x : RegF) (s : State) := alu2 f 0x04 x (· &&& ·) s
def execOr (f : FId) (x : RegF) (s : State) := alu2 f 0x05 x (· ||| ·) s
def execXor (f : FId) (x : RegF) (s : State) := alu2 f 0x06 x (· ^^^ ·) s
def execAndn (f : FId) (x : RegF) (s : State) := alu2 f 0x07 x (fun a b => a &&& ~~~b) s
def execSll (f : FId) (x : RegF) (s : State) := alu2 f 0x08 x (fun a b => a <<< shiftCount b) s
def execSrl (f : FId) (x : RegF) (s : State) := alu2 f 0x09 x (fun a b => a >>> shiftCount b) s
def execSra (f : FId) (x : RegF) (s : State) := alu2 f 0x0A x (fun a b => a.sshiftRight (shiftCount b)) s
def execRor (f : FId) (x : RegF) (s : State) := alu2 f 0x0B x (fun a b => a.rotateRight (shiftCount b)) s
def execMin (f : FId) (x : RegF) (s : State) := alu2 f 0x0C x (fun a b => if a.sle b then a else b) s
def execMax (f : FId) (x : RegF) (s : State) := alu2 f 0x0D x (fun a b => if a.sle b then b else a) s
def execMinu (f : FId) (x : RegF) (s : State) := alu2 f 0x0E x (fun a b => if a.ule b then a else b) s
def execMaxu (f : FId) (x : RegF) (s : State) := alu2 f 0x0F x (fun a b => if a.ule b then b else a) s
def execSeq (f : FId) (x : RegF) (s : State) := alu2 f 0x10 x (fun a b => flagWord (a == b)) s
def execSlt (f : FId) (x : RegF) (s : State) := alu2 f 0x11 x (fun a b => flagWord (a.slt b)) s
def execSltu (f : FId) (x : RegF) (s : State) := alu2 f 0x12 x (fun a b => flagWord (a.ult b)) s
def execClz (f : FId) (x : RegF) (s : State) := alu1 f 0x13 x (fun a => BitVec.ofNat 64 (leadingZeros a.toNat 64)) s
def execCtz (f : FId) (x : RegF) (s : State) := alu1 f 0x14 x (fun a => BitVec.ofNat 64 (trailingZeros a.toNat 0 64)) s
def execPopc (f : FId) (x : RegF) (s : State) := alu1 f 0x15 x (fun a => BitVec.ofNat 64 (popCount a.toNat 64)) s
def execBswap (f : FId) (x : RegF) (s : State) := alu1 f 0x16 x byteSwap s
def execAddcy (f : FId) (x : RegF) (s : State) := aluCy f 0x18 x (fun _ a b => a + b) s
def execAddc (f : FId) (x : RegF) (s : State) := aluCy f 0x19 x (fun c a b => a + b + if c then 1 else 0) s
def execSubby (f : FId) (x : RegF) (s : State) := aluCy f 0x1A x (fun _ a b => a - b) s
def execSubb (f : FId) (x : RegF) (s : State) := aluCy f 0x1B x (fun c a b => a - b - if c then 1 else 0) s

-- IMM -----------------------------------------------------------------------------------------------------------------------------

def execAddi (f : FId) (x : ImmF) (s : State) := aluImm f 0 x (· + ·) s
def execAndi (f : FId) (x : ImmF) (s : State) := aluImm f 1 x (· &&& ·) s
def execOri (f : FId) (x : ImmF) (s : State) := aluImm f 2 x (· ||| ·) s
def execXori (f : FId) (x : ImmF) (s : State) := aluImm f 3 x (· ^^^ ·) s
def execSlli (f : FId) (x : ImmF) (s : State) := shiftImm f 4 x (· <<< ·) s
def execSrli (f : FId) (x : ImmF) (s : State) := shiftImm f 5 x (· >>> ·) s
def execSrai (f : FId) (x : ImmF) (s : State) := shiftImm f 6 x (fun a k => a.sshiftRight k) s
def execSlti (f : FId) (x : ImmF) (s : State) := aluImm f 7 x (fun a b => flagWord (a.slt b)) s

-- JMP and SHF ----------------------------------------------------------------------------------------------------------------------

/-- IMM20 × 2^12, sign-extended (R247). -/
def upperImm (x : JmpF) : W64 := (x.imm ++ (0 : BitVec 12) : BitVec 32).signExtend 64

def execLui (f : FId) (x : JmpF) (s : State) : Host.Outcome State Fault Refusal :=
  runRegs f (jmpWord 0x03 x) (chk5 false) (fun r => .done (r.setG x.rd (upperImm x))) s

def execAuipc (f : FId) (x : JmpF) (s : State) : Host.Outcome State Fault Refusal :=
  runRegs f (jmpWord 0x04 x) (chk5 false) (fun r => .done (r.setG x.rd (r.pc.setWidth 64 + upperImm x))) s

def execSrar (f : FId) (x : ShfF) (s : State) : Host.Outcome State Fault Refusal :=
  runRegs f (shfWord 0x05 x) (chk5 (badShf { ss := true, rs := true, rb := false } x))
    (fun r => .done (r.putRound x.rd x.ss x.rs (r.rg x.ra).toInt x.sh6.toNat)) s

end Sys2Proof.Machine
end

