-- ==== Sys2Proof/Machine/FgrCtl.lean ====
section
/-!
DEFINITION. Branches, jumps, the zero-overhead loop, the control registers, and the words that no instruction has: major opcodes 0x30
to 0x33 and 0x35 (R212 to R217, R232, R247, R250, R264, R265, R276).
-/

namespace Sys2Proof.Machine

-- BRANCHES AND JUMPS ------------------------------------------------------------------------------------------------------------------

/-- PC + 4 × a signed count of instruction words (R245). -/
def FRegs.relative (r : FRegs) (words : Int) : BitVec 48 := r.pc + BitVec.ofInt 48 (4 * words)

/-- A conditional branch (R247). -/
def branchWith (f : FId) (cnd : BitVec 3) (x : BraF) (test : W64 → W64 → Bool) (s : State) :
    Host.Outcome State Fault Refusal :=
  runRegs f (braWord 0x30 cnd x) (chk5 false)
    (fun r => if test (r.rg x.ra) (r.rg x.rb) then .jump r (r.relative x.off.toInt) else .done r) s

def execBeq (f : FId) (x : BraF) (s : State) := branchWith f 0 x (fun a b => a == b) s
def execBne (f : FId) (x : BraF) (s : State) := branchWith f 1 x (fun a b => a != b) s
def execBlt (f : FId) (x : BraF) (s : State) := branchWith f 2 x (fun a b => a.slt b) s
def execBge (f : FId) (x : BraF) (s : State) := branchWith f 3 x (fun a b => b.sle a) s
def execBltu (f : FId) (x : BraF) (s : State) := branchWith f 4 x (fun a b => a.ult b) s
def execBgeu (f : FId) (x : BraF) (s : State) := branchWith f 5 x (fun a b => b.ule a) s

/-- The return address, PC + 4. -/
def FRegs.link (r : FRegs) : W64 := (r.pc + 4).setWidth 64

def execJal (f : FId) (x : JmpF) (s : State) : Host.Outcome State Fault Refusal :=
  runRegs f (jmpWord 0x31 x) (chk5 false) (fun r => .jump (r.setG x.rd r.link) (r.relative x.imm.toInt)) s

/-- A target with bits [1:0] nonzero raises 0x01 at the JALR, with TVAL the target (R247). -/
def execJalr (f : FId) (x : ImmF) (s : State) : Host.Outcome State Fault Refusal :=
  runRegs f (immWord 0x32 0 x) (chk5 false) (fun r =>
    let t := r.eaImm x
    if t.toNat % 4 ≠ 0 then .trap r 0x01 t else .jump (r.setG x.rd r.link) (t.setWidth 48)) s

/-- LOOP (R265): n from 1 to 4,095, RD reserved. -/
def execLoop (f : FId) (x : ImmF) (s : State) : Host.Outcome State Fault Refusal :=
  runRegs f (immWord 0x33 0 x) (chk5 (x.imm == 0 || x.rd != 0)) (fun r =>
    let n := x.imm.toNat
    if r.rg x.ra = 0 then .jump r (r.relative (n + 1))
    else .jump { r with
        lc := r.rg x.ra
        ls := (r.pc + 4).setWidth 64
        le := (r.relative n).setWidth 64 } (r.pc + 4)) s

-- CONTROL REGISTERS ---------------------------------------------------------------------------------------------------------------------

/-- The control registers (R212). -/
inductive Cr where
  | fxcsr | fxepc | coreCtl | vl | vtype | vstart | lc | ls | le | tepc | tcause | tval | cycle | instret
  deriving DecidableEq, Repr

/-- The register with a number; any other number is unlisted (R212, R213). -/
def crOf (n : Nat) : Option Cr :=
  match n with
  | 0x000 => some .fxcsr
  | 0x001 => some .fxepc
  | 0x002 => some .coreCtl
  | 0x010 => some .vl
  | 0x011 => some .vtype
  | 0x012 => some .vstart
  | 0x020 => some .lc
  | 0x021 => some .ls
  | 0x022 => some .le
  | 0x100 => some .tepc
  | 0x101 => some .tcause
  | 0x102 => some .tval
  | 0x200 => some .cycle
  | 0x201 => some .instret
  | _ => none

def FRegs.readCr (r : FRegs) : Cr → W64
  | .fxcsr => r.fxcsr
  | .fxepc => r.fxepc
  | .coreCtl => r.coreCtl
  | .vl => r.vl
  | .vtype => r.vtype
  | .vstart => r.vstart
  | .lc => r.lc
  | .ls => r.ls
  | .le => r.le
  | .tepc => r.tepc
  | .tcause => r.tcause
  | .tval => r.tval
  | .cycle => r.cycle
  | .instret => r.instret

/-- The element width of a VTYPE value (R250), and VLMAX (R251). -/
def sewOf (vtype : W64) : Nat := 8 * 2 ^ bits vtype.toNat 2 0
def vlMax (vtype : W64) : Nat := 1024 / sewOf vtype

def FRegs.writeCr (r : FRegs) (v : W64) : Cr → FRegs
  | .fxcsr => { r with fxcsr := v }
  | .fxepc => { r with fxepc := v }
  | .coreCtl => { r with coreCtl := v }
  | .vl => { r with vl := v }
  | .vtype => { r with vtype := v, vl := if vlMax v < r.vl.toNat then BitVec.ofNat 64 (vlMax v) else r.vl }
  | .vstart => { r with vstart := v }
  | .lc => { r with lc := v }
  | .ls => { r with ls := v }
  | .le => { r with le := v }
  | .tepc => { r with tepc := v }
  | .tcause => { r with tcause := v }
  | .tval => { r with tval := v }
  | .cycle => { r with cycle := v }
  | .instret => { r with instret := v }

/-- The bits that a register has; every other bit is reserved (R214 to R217, R250, R264). -/
def crBits : Cr → W64
  | .fxcsr => 0x311FF
  | .fxepc => 0x8000FFFFFFFFFFFF
  | .coreCtl => 0xC007
  | .vl => 0xFF
  | .vtype => 0xF
  | .vstart => 0x7F
  | .ls => 0x0000FFFFFFFFFFFC
  | .le => 0x0000FFFFFFFFFFFC
  | .tepc => 0x0000FFFFFFFFFFFF
  | .tcause => 0xBF
  | _ => 0xFFFFFFFFFFFFFFFF

/-- The mode may read the register (R212): Pipeline has no access to the trap registers. -/
def crReadable (mode : Nat) : Cr → Bool
  | .tepc => mode != 0
  | .tcause => mode != 0
  | .tval => mode != 0
  | _ => true

/-- The mode may write this value over the old one (R212, R214, R216): Pipeline writes FXEPC with 0 only, CTM is the one field of
CORE_CTL outside Service mode, MODE is never written, and the counters are written in Service mode only. -/
def crWritable (mode : Nat) (old v : W64) : Cr → Bool
  | .fxepc => mode != 0 || v == 0
  | .coreCtl => (old ^^^ v) &&& (if mode = 2 then 0xC000#64 else 0xC006#64) == 0
  | .cycle => mode == 2
  | .instret => mode == 2
  | c => crReadable mode c

/-- A reserved bit or a reserved value (R213): RM, VL above VLMAX, SEW. -/
def crReserved (r : FRegs) (v : W64) (c : Cr) : Bool :=
  v &&& ~~~ crBits c != 0 ||
  match c with
  | .fxcsr => 6 ≤ bits v.toNat 2 0
  | .vl => vlMax r.vtype < v.toNat
  | .vtype => 5 ≤ bits v.toNat 2 0
  | _ => false

def execRdcr (f : FId) (x : ImmF) (s : State) : Host.Outcome State Fault Refusal :=
  let c := crOf x.imm.toNat
  runRegs f (immWord 0x35 0 x)
    (fun r => firstCause [(c.isNone, 0x02), (x.ra != 0, 0x03), (!(c.elim true (crReadable r.mode)), 0x08)])
    (fun r => match c with
      | none => .wait
      | some c => .done (r.setG x.rd (r.readCr c))) s

/-- OVE or DZE goes from 1 to 0 (R237). -/
def clearsEnable (old new : W64) : Bool := (old &&& ~~~new) &&& 0x30000#64 != 0

/-- WRCR, SETCR and CLRCR: `upd` gives the new value from the old and G[RA] (R213). -/
def crWith (f : FId) (fn3 : BitVec 3) (x : ImmF) (upd : W64 → W64 → W64) (s : State) : Host.Outcome State Fault Refusal :=
  let c := crOf x.imm.toNat
  runRegs f (immWord 0x35 fn3 x)
    (fun r => firstCause [(c.isNone, 0x02), (x.rd != 0, 0x03),
      (match c with
        | none => false
        | some c => !crWritable r.mode (r.readCr c) (upd (r.readCr c) (r.rg x.ra)) c, 0x08),
      (match c with
        | none => false
        | some c => crReserved r (upd (r.readCr c) (r.rg x.ra)) c, 0x03)])
    (fun r => match c with
      | none => .wait
      | some c =>
        let v := upd (r.readCr c) (r.rg x.ra)
        if c = .fxcsr ∧ clearsEnable r.fxcsr v = true then .deliver (r.writeCr v c) else .done (r.writeCr v c)) s

def execWrcr (f : FId) (x : ImmF) (s : State) := crWith f 1 x (fun _ v => v) s
def execSetcr (f : FId) (x : ImmF) (s : State) := crWith f 2 x (fun old v => old ||| v) s
def execClrcr (f : FId) (x : ImmF) (s : State) := crWith f 3 x (fun old v => old &&& ~~~v) s

-- WORDS WITHOUT AN INSTRUCTION ------------------------------------------------------------------------------------------------------------

/-- A trap that a fetch or a word raises: cause and TVAL. -/
def trapWith (f : FId) (cause : Nat) (tval : FRegs → W64) (s : State) : Host.Outcome State Fault Refusal :=
  runRegs f 0 (fun _ => none) (fun r => .trap r cause (tval r)) s

/-- The function codes that R246 assigns to a major opcode, as a test on the whole word; `none`: the major opcode is unassigned. -/
def wordAssigned (w : W32) : Bool :=
  let n := w.toNat
  let fn := bits n 31 26
  let fn3 := bits n 19 17
  let fn2 := bits n 20 19
  match n % 128 with
  | 0x01 => fn ≤ 0x16 || (0x18 ≤ fn && fn ≤ 0x1B)
  | 0x02 | 0x03 | 0x04 | 0x05 | 0x12 | 0x20 | 0x22 | 0x31 | 0x43 | 0x44 => true
  | 0x10 => fn ≤ 4
  | 0x11 => fn ≤ 5
  | 0x13 => fn ≤ 5
  | 0x14 => fn2 ≤ 2
  | 0x15 => fn ≤ 1
  | 0x21 | 0x23 => fn3 ≤ 3 || fn3 == 7
  | 0x24 | 0x25 => fn ≤ 2
  | 0x30 => fn3 ≤ 5
  | 0x32 | 0x33 | 0x40 => fn3 == 0
  | 0x34 => fn ≤ 4
  | 0x35 => fn3 ≤ 3
  | 0x41 => fn ≤ 0x12 && fn != 0x0B
  | 0x42 => fn ≤ 0x12 && fn != 0x0B && fn != 0x02 && fn != 0x03
  | 0x45 => fn ≤ 5 || (0x10 ≤ fn && fn ≤ 0x13)
  | 0x46 => fn ≤ 5
  | 0x47 => fn ≤ 5
  | 0x48 => fn2 == 0
  | 0x49 => fn ≤ 1
  | 0x4A | 0x4B => fn ≤ 3
  | 0x50 => fn3 ≤ 2
  | 0x51 => fn3 ≤ 1
  | 0x52 => fn ≤ 3
  | 0x53 => fn ≤ 4
  | 0x60 | 0x62 => fn ≤ 3
  | 0x61 | 0x63 | 0x64 => fn ≤ 1
  | 0x70 | 0x73 => fn == 0
  | 0x71 => fn ≤ 1
  | 0x72 => fn ≤ 3
  | k => 0x74 ≤ k

/-- A fetched word whose major opcode or function code is unassigned raises 0x02 with TVAL the word (R232, R276). A word that does
have an instruction is no such event: nothing happens. -/
def execIllegalInstruction (f : FId) (word : W32) (s : State) : Host.Outcome State Fault Refusal :=
  if wordAssigned word then .next s else trapWith f 0x02 (fun _ => word.setWidth 64) s

/-- A fetch outside the stage's CODE section or from an unmapped address: 0x01, TVAL the address (R217, R232). -/
def execFetchFault (f : FId) (s : State) : Host.Outcome State Fault Refusal :=
  trapWith f 0x01 (fun r => r.pc.setWidth 64) s

/-- The pending arithmetic trap is delivered once 64 later instructions have completed (R235). -/
def execArithTrapDelivery (f : FId) (s : State) : Host.Outcome State Fault Refusal :=
  match s.fgr? f with
  | none => .next s
  | some g => if s.fgrLive f g && g.regs.due then .next (s.takeArith f g.regs) else .next s

end Sys2Proof.Machine
end

