-- ==== Sys2Proof/Machine/FgrMul.lean ====
section
/-!
DEFINITION. Multiply, divide, the scalar accumulators and the unpacking of binned lanes: major opcodes 0x10 to 0x15 (R225 to R231,
R258).
-/

namespace Sys2Proof.Machine

-- MULTIPLY -------------------------------------------------------------------------------------------------------------------------

/-- A product without flags, written to G or W by `put`. -/
def mulWith (f : FId) (fn : BitVec 6) (x : RegF) (put : FRegs → W64 → W64 → FRegs) (s : State) :
    Host.Outcome State Fault Refusal :=
  runRegs f (regWord 0x10 fn x) (chk5 (badReg {} x)) (fun r => .done (put r (r.rg x.ra) (r.rg x.rb))) s

def execMul (f : FId) (x : RegF) (s : State) : Host.Outcome State Fault Refusal :=
  runRegs f (regWord 0x10 0x00 x) (chk5 (badReg { ss := true } x))
    (fun r => .done (r.putS x.rd x.ss ((r.rg x.ra).toInt * (r.rg x.rb).toInt))) s

def execMulh (f : FId) (x : RegF) (s : State) :=
  mulWith f 0x01 x (fun r a b => r.setG x.rd (BitVec.ofInt 64 (a.toInt * b.toInt / (2 ^ 64 : Nat)))) s
def execMulhu (f : FId) (x : RegF) (s : State) :=
  mulWith f 0x02 x (fun r a b => r.setG x.rd (BitVec.ofNat 64 (a.toNat * b.toNat / 2 ^ 64))) s
def execMulw (f : FId) (x : RegF) (s : State) :=
  mulWith f 0x03 x (fun r a b => r.setW x.rd (BitVec.ofInt 128 (a.toInt * b.toInt))) s
def execMulwu (f : FId) (x : RegF) (s : State) :=
  mulWith f 0x04 x (fun r a b => r.setW x.rd (BitVec.ofNat 128 (a.toNat * b.toNat))) s

def execMulq (f : FId) (x : ShfF) (s : State) : Host.Outcome State Fault Refusal :=
  runRegs f (shfWord 0x12 x) (chk5 (badShf { ss := true, rs := true } x))
    (fun r => .done (r.putRound x.rd x.ss x.rs ((r.rg x.ra).toInt * (r.rg x.rb).toInt) x.sh6.toNat)) s

-- DIVIDE -----------------------------------------------------------------------------------------------------------------------------

/-- The result of a divide: exact quotient (fitted by the instruction), remainder, and whether the divisor was 0. -/
structure DivRes where
  quo : Int
  rem : Int
  dz : Bool

/-- Signed division, truncated toward zero, with the results of a zero divisor (R228); `max` and `min` are the 64-bit edges. -/
def divSigned (a b : Int) : DivRes :=
  if b = 0 then { quo := if 0 ≤ a then (2 ^ 63 : Nat) - 1 else -(2 ^ 63 : Nat), rem := a, dz := true }
  else { quo := a.tdiv b, rem := a.tmod b, dz := false }

/-- Unsigned division (R228). -/
def divUnsigned (a b : Nat) : DivRes :=
  if b = 0 then { quo := (2 ^ 64 : Nat) - 1, rem := a, dz := true }
  else { quo := (a / b : Nat), rem := (a % b : Nat), dz := false }

/-- Cycles of a divide on magnitudes of `w` bits (R229, R230). -/
def divCycles (ctm : Bool) (w a b : Nat) : Nat :=
  if ctm then (if w = 64 then 36 else 68)
  else if b = 0 ∨ a < b then 4
  else 4 + (leadingZeros b w - leadingZeros a w + 2) / 2

/-- Run a divide: `cyc` is its time in the divider, `put` writes the results. -/
def divWith (f : FId) (fn : BitVec 6) (ss : Bool) (x : RegF) (cyc : FRegs → Nat) (put : FRegs → FRegs) (s : State) :
    Host.Outcome State Fault Refusal :=
  runFgr f (regWord 0x11 fn x) (chk5 (badReg { ss := ss } x))
    (fun s g => (s.modFgr f fun h => { h with divCycles := cyc g.regs }, .done (put g.regs))) s

/-- Magnitudes for the timing of the signed forms. -/
def cycS (x : RegF) (r : FRegs) : Nat := divCycles r.ctm 64 (r.rg x.ra).toInt.natAbs (r.rg x.rb).toInt.natAbs
def cycU (x : RegF) (r : FRegs) : Nat := divCycles r.ctm 64 (r.rg x.ra).toNat (r.rg x.rb).toNat

/-- DZ alone: SS does not apply to a divide by zero (R228). -/
def dzFlag (d : DivRes) (fl : FFlags) : FFlags := if d.dz then { dz := true } else fl

def execDiv (f : FId) (x : RegF) (s : State) :=
  divWith f 0x00 true x (cycS x) (fun r =>
    let d := divSigned (r.rg x.ra).toInt (r.rg x.rb).toInt
    let p := fitS 64 (r.saturates x.ss) d.quo
    (r.setG x.rd p.1).flag (dzFlag d p.2)) s

def execDivu (f : FId) (x : RegF) (s : State) :=
  divWith f 0x01 false x (cycU x) (fun r =>
    let d := divUnsigned (r.rg x.ra).toNat (r.rg x.rb).toNat
    (r.setG x.rd (BitVec.ofInt 64 d.quo)).flag (dzFlag d {})) s

def execRem (f : FId) (x : RegF) (s : State) :=
  divWith f 0x02 false x (cycS x) (fun r =>
    let d := divSigned (r.rg x.ra).toInt (r.rg x.rb).toInt
    (r.setG x.rd (BitVec.ofInt 64 d.rem)).flag (dzFlag d {})) s

def execRemu (f : FId) (x : RegF) (s : State) :=
  divWith f 0x03 false x (cycU x) (fun r =>
    let d := divUnsigned (r.rg x.ra).toNat (r.rg x.rb).toNat
    (r.setG x.rd (BitVec.ofInt 64 d.rem)).flag (dzFlag d {})) s

/-- Wd of a wide divide: quotient in [63:0], remainder in [127:64] (R228). -/
def wideResult (q : W64) (rem : Int) : W128 := (BitVec.ofInt 64 rem ++ q : BitVec (64 + 64))

def execDivw (f : FId) (x : RegF) (s : State) :=
  divWith f 0x04 true x (fun r => divCycles r.ctm 128 (r.rw x.ra).toInt.natAbs (r.rg x.rb).toInt.natAbs) (fun r =>
    let d := divSigned (r.rw x.ra).toInt (r.rg x.rb).toInt
    let p := fitS 64 (r.saturates x.ss) d.quo
    (r.setW x.rd (wideResult p.1 d.rem)).flag (dzFlag d p.2)) s

def execDivwu (f : FId) (x : RegF) (s : State) :=
  divWith f 0x05 true x (fun r => divCycles r.ctm 128 (r.rw x.ra).toNat (r.rg x.rb).toNat) (fun r =>
    let d := divUnsigned (r.rw x.ra).toNat (r.rg x.rb).toNat
    let p := fitU 64 (r.saturates x.ss) d.quo
    (r.setW x.rd (wideResult p.1 d.rem)).flag (dzFlag d p.2)) s

-- ACCUMULATORS --------------------------------------------------------------------------------------------------------------------------

/-- Add an exact value into An: it wraps modulo 2^144 and sets OV when the signed result overflows (R227). -/
def FRegs.accumulate (r : FRegs) (n : BitVec 2) (v : Int) : FRegs :=
  let p := fitS 144 false ((r.ra n).toInt + v)
  (r.setA n p.1).flag p.2

/-- An accumulating instruction. -/
def accWith (f : FId) (fn : BitVec 6) (u : Uses) (x : RegF) (body : FRegs → FRegs) (s : State) :
    Host.Outcome State Fault Refusal :=
  runRegs f (regWord 0x13 fn x) (chk5 (badReg u x || badAcc x.rd)) (fun r => .done (body r)) s

def execAccclr (f : FId) (x : RegF) (s : State) :=
  accWith f 0x00 { ra := false, rb := false } x (fun r => r.setA (accOf x.rd) 0) s
def execAccadd (f : FId) (x : RegF) (s : State) :=
  accWith f 0x01 { rb := false } x (fun r => r.accumulate (accOf x.rd) (r.rg x.ra).toInt) s
def execAccaddw (f : FId) (x : RegF) (s : State) :=
  accWith f 0x02 { rb := false } x (fun r => r.accumulate (accOf x.rd) (r.rw x.ra).toInt) s
def execAccmac (f : FId) (x : RegF) (s : State) :=
  accWith f 0x03 {} x (fun r => r.accumulate (accOf x.rd) ((r.rg x.ra).toInt * (r.rg x.rb).toInt)) s
def execAccmsu (f : FId) (x : RegF) (s : State) :=
  accWith f 0x04 {} x (fun r => r.accumulate (accOf x.rd) (-((r.rg x.ra).toInt * (r.rg x.rb).toInt))) s
def execAccwr (f : FId) (x : RegF) (s : State) :=
  accWith f 0x05 {} x (fun r =>
    r.setA (accOf x.rd) ((r.rg x.rb).extractLsb' 0 16 ++ r.rw x.ra : BitVec (16 + 128))) s

/-- Check 5 on format ACR: [16:12] is reserved, SS is not 0b11 (R277). -/
def badAcr (x : AcrF) : Bool := x.rsv != 0 || x.ss == 3

def execAccrd (f : FId) (x : AcrF) (s : State) : Host.Outcome State Fault Refusal :=
  runRegs f (acrWord 0x14 0 x) (chk5 (badAcr x))
    (fun r => .done (r.putRound x.rd x.ss x.rs (r.ra x.an).toInt x.sh7.toNat)) s

def execAccrdw (f : FId) (x : AcrF) (s : State) : Host.Outcome State Fault Refusal :=
  runRegs f (acrWord 0x14 1 x) (chk5 (badAcr x)) (fun r =>
    let q := roundShift (r.rmOf x.rs) (r.ra x.an).toInt x.sh7.toNat
    let p := fitS 128 (r.saturates x.ss) q.1
    .done ((r.setW x.rd p.1).flag { p.2 with inx := q.2 })) s

def execAccrdx (f : FId) (x : AcrF) (s : State) : Host.Outcome State Fault Refusal :=
  runRegs f (acrWord 0x14 2 x) (chk5 (x.rsv != 0 || x.sh7 != 0 || x.rs != 0 || x.ss != 0))
    (fun r => .done (r.setG x.rd (((r.ra x.an).extractLsb' 128 16).signExtend 64))) s

-- BINNED LANES ----------------------------------------------------------------------------------------------------------------------------

/-- The fields of a binned lane (R118). -/
def laneClass (w : W128) : Nat := bits w.toNat 127 126
def laneBin (w : W128) : Nat := bits w.toNat 125 120
def laneNz (w : W128) : Bool := w.getLsbD 119

/-- The mantissa of a binned lane, sign-extended; 0 for −0 and the special classes (R258). -/
def laneValue (w : W128) : W128 :=
  if laneClass w = 0 ∧ !laneNz w then (w.extractLsb' 0 119).signExtend 128 else 0

/-- The bin code of a binned lane (R258). -/
def laneCode (w : W128) : Nat :=
  if laneClass w = 0 then (if laneNz w then 64 else laneBin w) else 64 + laneClass w

/-- INV is set for a NaN or an infinity (R215, R258). -/
def laneFlags (w : W128) : FFlags := { inv := laneClass w != 0 }

def execBina (f : FId) (x : RegF) (s : State) : Host.Outcome State Fault Refusal :=
  runRegs f (regWord 0x15 0x00 x) (chk5 (badReg { rb := false } x))
    (fun r => .done ((r.setW x.rd (laneValue (r.rw x.ra))).flag (laneFlags (r.rw x.ra)))) s

def execBinb (f : FId) (x : RegF) (s : State) : Host.Outcome State Fault Refusal :=
  runRegs f (regWord 0x15 0x01 x) (chk5 (badReg { rb := false } x))
    (fun r => .done ((r.setG x.rd (BitVec.ofNat 64 (laneCode (r.rw x.ra)))).flag (laneFlags (r.rw x.ra)))) s

end Sys2Proof.Machine
end

