-- ==== Sys2Proof/Machine/FgrStr.lean ====
section
/-!
DEFINITION. The string and block instructions of the Forager: major opcodes 0x60 to 0x64 (R266 to R268). An instruction runs whole as
one command; a fault at a byte leaves the registers of that byte's iteration.
-/

namespace Sys2Proof.Machine

/-- What a string instruction keeps in registers: G[RA], G[RA + 1], G[RB] and the result or match register's value. -/
structure StrRegs where
  p : W64
  q : W64
  n : W64
  r : W64

/-- What one iteration comes to. -/
inductive StrStep where
  | next (s : State) (x : StrRegs)
  | stop (s : State) (x : StrRegs)
  | fault (cause : Nat) (a : W64)
  | wait

/-- How the loop ends. -/
inductive StrEnd where
  | finished
  | fault (cause : Nat) (a : W64)
  | wait

/-- Run iterations while the count is nonzero and the body goes on (R267). -/
def strLoop (body : State → StrRegs → StrStep) : Nat → State → StrRegs → State × StrRegs × StrEnd
  | 0, s, x => (s, x, .finished)
  | k + 1, s, x =>
    match body s x with
    | .stop s' x' => (s', x', .finished)
    | .fault c a => (s, x, .fault c a)
    | .wait => (s, x, .wait)
    | .next s' x' => strLoop body k s' x'

/-- One byte of the space that a pointer addresses. -/
def strByte (f : FId) (g : Fgr) (ldm : Bool) (a : W64) (s : State) (k : Byte → State → StrStep) : StrStep :=
  match s.load f ((s.fgr? f).getD g) ldm a.toNat 1 with
  | .bad => .fault 0x05 a
  | .wait => .wait
  | .ok bs t => k (bs.headD 0) t

/-- Store one byte. -/
def strPut (f : FId) (g : Fgr) (ldm : Bool) (a : W64) (b : Byte) (s : State) (k : State → StrStep) : StrStep :=
  match s.store f ((s.fgr? f).getD g) ldm a.toNat [b] with
  | .bad => .fault 0x06 a
  | .wait => .wait
  | .ok _ t => k t

/-- The checks of a string instruction: FN, then the reserved fields and the registers of R266. `pairs`: RA and RA + 1 hold state. -/
def strCheck (fns : Nat) (pairs len : Bool) (more : Bool) (x : StrF) : Option Nat :=
  firstCause [
    (fns ≤ x.fn.toNat, 0x02),
    ((!len && (x.rs != 0 || x.ss != 0)) ||
     (if pairs then x.ra == 0 || x.ra.getLsbD 0 else x.ra == 0) ||
     x.rb == 0 || x.rb == x.ra || (pairs && x.rb == x.ra + 1) || more, 0x03)]

/-- Finish: put the registers back; a fault traps with them, the PC on the instruction (R268). -/
def strFinish (f : FId) (put : FRegs → StrRegs → FRegs) (r : FRegs) (e : State × StrRegs × StrEnd) : State × FRes :=
  let r' := put r e.2.1
  match e.2.2 with
  | .finished => (e.1, .done r')
  | .fault c a => (e.1, .trap r' c a)
  | .wait => (e.1.modFgr f fun g => { g with regs := r' }, .wait)

def execMovs (f : FId) (x : StrF) (s : State) : Host.Outcome State Fault Refusal :=
  runFgr f (strWord 0x60 x) (fun _ => strCheck 4 true false (x.rd != 0) x) (fun s g =>
    let r := g.regs
    strFinish f (fun r y => ((r.setG x.ra y.p).setG (x.ra + 1) y.q).setG x.rb y.n) r
      (strLoop (fun s y =>
        strByte f g (x.fn.getLsbD 1) y.q s fun b t => strPut f g (x.fn.getLsbD 0) y.p b t fun u =>
          .next u { y with p := y.p + 1, q := y.q + 1, n := y.n - 1 })
        (r.rg x.rb).toNat s { p := r.rg x.ra, q := r.rg (x.ra + 1), n := r.rg x.rb, r := 0 })) s

def execFills (f : FId) (x : StrF) (s : State) : Host.Outcome State Fault Refusal :=
  runFgr f (strWord 0x61 x) (fun _ => strCheck 2 false false false x) (fun s g =>
    let r := g.regs
    strFinish f (fun r y => (r.setG x.ra y.p).setG x.rb y.n) r
      (strLoop (fun s y =>
        strPut f g (x.fn.getLsbD 0) y.p ((r.rg x.rd).extractLsb' (8 * (y.p.toNat % 8)) 8) s fun u =>
          .next u { y with p := y.p + 1, n := y.n - 1 })
        (r.rg x.rb).toNat s { p := r.rg x.ra, q := 0, n := r.rg x.rb, r := 0 })) s

def execCmps (f : FId) (x : StrF) (s : State) : Host.Outcome State Fault Refusal :=
  runFgr f (strWord 0x62 x)
    (fun _ => strCheck 4 true false (x.rd == x.ra || x.rd == x.ra + 1 || x.rd == x.rb) x) (fun s g =>
    let r := g.regs
    let onward := fun (t : State) (y : StrRegs) => StrStep.next t { y with p := y.p + 1, q := y.q + 1, n := y.n - 1 }
    strFinish f (fun r y => (((r.setG x.ra y.p).setG (x.ra + 1) y.q).setG x.rb y.n).setG x.rd y.r) r
      (strLoop (fun s y =>
        if y.r ≠ 0 then onward s y
        else strByte f g (x.fn.getLsbD 0) y.p s fun a t => strByte f g (x.fn.getLsbD 1) y.q t fun b u =>
          if a = b then onward u y
          else
            let y' := { y with r := if a.ult b then -1 else 1 }
            if r.ctm then onward u y' else .stop u y')
        (r.rg x.rb).toNat s { p := r.rg x.ra, q := r.rg (x.ra + 1), n := r.rg x.rb, r := r.rg x.rd })) s

/-- A match at a pointer: bit 63 marks it (R267). -/
def matchAt (p : W64) : W64 := p ||| 0x8000000000000000

def execScans (f : FId) (x : StrF) (s : State) : Host.Outcome State Fault Refusal :=
  runFgr f (strWord 0x63 x) (fun _ => strCheck 2 true false false x) (fun s g =>
    let r := g.regs
    let onward := fun (t : State) (y : StrRegs) => StrStep.next t { y with p := y.p + 1, n := y.n - 1 }
    strFinish f (fun r y => ((r.setG x.ra y.p).setG (x.ra + 1) y.r).setG x.rb y.n) r
      (strLoop (fun s y =>
        if y.r ≠ 0 then onward s y
        else strByte f g (x.fn.getLsbD 0) y.p s fun b t =>
          if b ≠ (r.rg x.rd).extractLsb' 0 8 then onward t y
          else
            let y' := { y with r := matchAt y.p }
            if r.ctm then onward t y' else .stop t y')
        (r.rg x.rb).toNat s { p := r.rg x.ra, q := 0, n := r.rg x.rb, r := r.rg (x.ra + 1) })) s

/-- Whether the bytes at a pointer equal a needle; every byte is read. -/
def matchBytes (f : FId) (g : Fgr) (ldm same : Bool) (a : W64) : List Byte → State → (Bool → State → StrStep) → StrStep
  | [], s, k => k same s
  | b :: bs, s, k => strByte f g ldm a s fun c t => matchBytes f g ldm (same && c == b) (a + 1) bs t k

/-- The length of a needle: LEN + 1, LEN in place of RS and SS (R246, R267). -/
def needleLen (x : StrF) : Nat := (x.rs ++ x.ss : BitVec 4).toNat + 1

/-- MATCHS after its loop: under CTM, or with no match, the pointer passes what is left (R267). -/
def matchTail (ctm : Bool) (e : State × StrRegs × StrEnd) : State × StrRegs × StrEnd :=
  match e.2.2 with
  | .finished => if ctm || e.2.1.r == 0 then (e.1, { e.2.1 with p := e.2.1.p + e.2.1.n, n := 0 }, .finished) else e
  | _ => e

def execMatchs (f : FId) (x : StrF) (s : State) : Host.Outcome State Fault Refusal :=
  runFgr f (strWord 0x64 x) (fun _ => strCheck 2 true true false x) (fun s g =>
    let r := g.regs
    let len := needleLen x
    let onward := fun (t : State) (y : StrRegs) => StrStep.next t { y with p := y.p + 1, n := y.n - 1 }
    strFinish f (fun r y => ((r.setG x.ra y.p).setG (x.ra + 1) y.r).setG x.rb y.n) r
      (matchTail r.ctm (strLoop (fun s y =>
        if y.r ≠ 0 then onward s y
        else matchBytes f g (x.fn.getLsbD 0) true y.p (leBytes len (r.rw x.rd).toNat) s fun same t =>
          if !same then onward t y
          else
            let y' := { y with r := matchAt y.p }
            if r.ctm then onward t y' else .stop t y')
        ((r.rg x.rb).toNat + 1 - len) s { p := r.rg x.ra, q := 0, n := r.rg x.rb, r := r.rg (x.ra + 1) }))) s

end Sys2Proof.Machine
end

