-- ==== Sys2Proof/Machine/FgrVec.lean ====
section
/-!
DEFINITION. The vector instructions of the Forager that touch registers only: major opcodes 0x40 to 0x4B (R250 to R259).
-/

namespace Sys2Proof.Machine

-- ELEMENTS -----------------------------------------------------------------------------------------------------------------------------

/-- The element width in force (R250). -/
def FRegs.sew (r : FRegs) : Nat := sewOf r.vtype

/-- Elements VSTART to VL − 1 (R253). -/
def FRegs.active (r : FRegs) : List Nat := (List.range r.vl.toNat).filter fun i => r.vstart.toNat ≤ i

/-- Elements 0 to VL − 1, for the instructions that ignore VSTART (R253). -/
def FRegs.whole (r : FRegs) : List Nat := List.range r.vl.toNat

/-- Element `i` of width `w`, as an unsigned number. -/
def elemAt (v : W1024) (w i : Nat) : Nat := (v.extractLsb' (w * i) w).toNat

/-- Write element `i` of width `w`. -/
def setElem (v : W1024) (w i n : Nat) : W1024 :=
  (v &&& ~~~(BitVec.ofNat 1024 (2 ^ w - 1) <<< (w * i))) ||| (BitVec.ofNat 1024 (n % 2 ^ w) <<< (w * i))

/-- Write several elements. -/
def setElems (v : W1024) (w : Nat) (l : List (Nat × Nat)) : W1024 := l.foldl (fun v p => setElem v w p.1 p.2) v

/-- The instruction completes: VSTART is cleared (R253). -/
def FRegs.vdone (r : FRegs) : FRegs := { r with vstart := 0 }

/-- The scalar operand of a .VX form: G[RB] truncated to SEW bits, or sign-extended for SEW 128 (R254). -/
def fitScalar (w : Nat) (v : W64) : Nat := ucode w v.toInt

/-- The flags of all processed elements (R254). -/
def allFlags (l : List (Nat × Nat × FFlags)) : FFlags := l.foldl (fun a p => a.or p.2.2) {}

/-- An element-wise instruction: `op i` gives the code and the flags of element `i`. -/
def FRegs.vmap (r : FRegs) (rd : BitVec 5) (op : Nat → Nat × FFlags) : FRegs :=
  let l := r.active.map fun i => (i, op i)
  ((r.setV rd (setElems (r.rv rd) r.sew (l.map fun p => (p.1, p.2.1)))).flag (allFlags l)).vdone

-- ELEMENT OPERATIONS (R254) ----------------------------------------------------------------------------------------------------------------

/-- An element operation: width, saturation, the two operands. -/
abbrev ElemOp := Nat → Bool → Nat → Nat → Nat × FFlags

/-- Fit an exact signed value into an element. -/
def fitElem (w : Nat) (sat : Bool) (x : Int) : Nat × FFlags :=
  let p := fitRange w (-(2 ^ (w - 1) : Nat)) ((2 ^ (w - 1) : Nat) - 1) sat x
  (ucode w p.1, p.2)

/-- A flag-free operation on unsigned codes. -/
def plain (op : Nat → Nat → Nat → Nat) : ElemOp := fun w _ a b => (op w a b % 2 ^ w, {})

/-- An operation on signed values under SS. -/
def signedS (op : Int → Int → Int) : ElemOp := fun w sat a b => fitElem w sat (op (sint w a) (sint w b))

def opAdd : ElemOp := signedS (· + ·)
def opSub : ElemOp := signedS (· - ·)
def opNeg : ElemOp := signedS fun a _ => -a
def opAbs : ElemOp := signedS fun a _ => (a.natAbs : Int)
def opAnd : ElemOp := plain fun _ a b => a &&& b
def opOr : ElemOp := plain fun _ a b => a ||| b
def opXor : ElemOp := plain fun _ a b => a ^^^ b
def opAndn : ElemOp := plain fun w a b => a &&& (2 ^ w - 1 - b)
def opSll : ElemOp := plain fun w a b => a * 2 ^ (b % w)
def opSrl : ElemOp := plain fun w a b => a / 2 ^ (b % w)
def opSra : ElemOp := plain fun w a b => ucode w (sint w a / (2 ^ (b % w) : Nat))
def opMin : ElemOp := plain fun w a b => if sint w a ≤ sint w b then a else b
def opMax : ElemOp := plain fun w a b => if sint w a ≤ sint w b then b else a
def opMinu : ElemOp := plain fun _ a b => if a ≤ b then a else b
def opMaxu : ElemOp := plain fun _ a b => if a ≤ b then b else a
def opMul : ElemOp := signedS (· * ·)
def opMulh : ElemOp := plain fun w a b => ucode w (sint w a * sint w b / (2 ^ w : Nat))
def opMulhu : ElemOp := plain fun w a b => a * b / 2 ^ w

/-- Vector–vector, major opcode 0x41. -/
def vvWith (f : FId) (fn : BitVec 6) (u : Uses) (x : RegF) (op : ElemOp) (s : State) : Host.Outcome State Fault Refusal :=
  runRegs f (regWord 0x41 fn x) (chk5 (badReg u x)) (fun r =>
    .done (r.vmap x.rd fun i =>
      op r.sew (r.saturates x.ss) (elemAt (r.rv x.ra) r.sew i) (elemAt (r.rv x.rb) r.sew i))) s

/-- Vector–scalar, major opcode 0x42. -/
def vxWith (f : FId) (fn : BitVec 6) (u : Uses) (x : RegF) (op : ElemOp) (s : State) : Host.Outcome State Fault Refusal :=
  runRegs f (regWord 0x42 fn x) (chk5 (badReg u x)) (fun r =>
    .done (r.vmap x.rd fun i =>
      op r.sew (r.saturates x.ss) (elemAt (r.rv x.ra) r.sew i) (fitScalar r.sew (r.rg x.rb)))) s

def execVadd (f : FId) (x : RegF) (s : State) := vvWith f 0x00 { ss := true } x opAdd s
def execVsub (f : FId) (x : RegF) (s : State) := vvWith f 0x01 { ss := true } x opSub s
def execVneg (f : FId) (x : RegF) (s : State) := vvWith f 0x02 { ss := true, rb := false } x opNeg s
def execVabs (f : FId) (x : RegF) (s : State) := vvWith f 0x03 { ss := true, rb := false } x opAbs s
def execVand (f : FId) (x : RegF) (s : State) := vvWith f 0x04 {} x opAnd s
def execVor (f : FId) (x : RegF) (s : State) := vvWith f 0x05 {} x opOr s
def execVxor (f : FId) (x : RegF) (s : State) := vvWith f 0x06 {} x opXor s
def execVandn (f : FId) (x : RegF) (s : State) := vvWith f 0x07 {} x opAndn s
def execVsll (f : FId) (x : RegF) (s : State) := vvWith f 0x08 {} x opSll s
def execVsrl (f : FId) (x : RegF) (s : State) := vvWith f 0x09 {} x opSrl s
def execVsra (f : FId) (x : RegF) (s : State) := vvWith f 0x0A {} x opSra s
def execVmin (f : FId) (x : RegF) (s : State) := vvWith f 0x0C {} x opMin s
def execVmax (f : FId) (x : RegF) (s : State) := vvWith f 0x0D {} x opMax s
def execVminu (f : FId) (x : RegF) (s : State) := vvWith f 0x0E {} x opMinu s
def execVmaxu (f : FId) (x : RegF) (s : State) := vvWith f 0x0F {} x opMaxu s
def execVmul (f : FId) (x : RegF) (s : State) := vvWith f 0x10 { ss := true } x opMul s
def execVmulh (f : FId) (x : RegF) (s : State) := vvWith f 0x11 {} x opMulh s
def execVmulhu (f : FId) (x : RegF) (s : State) := vvWith f 0x12 {} x opMulhu s

def execVaddVx (f : FId) (x : RegF) (s : State) := vxWith f 0x00 { ss := true } x opAdd s
def execVsubVx (f : FId) (x : RegF) (s : State) := vxWith f 0x01 { ss := true } x opSub s
def execVandVx (f : FId) (x : RegF) (s : State) := vxWith f 0x04 {} x opAnd s
def execVorVx (f : FId) (x : RegF) (s : State) := vxWith f 0x05 {} x opOr s
def execVxorVx (f : FId) (x : RegF) (s : State) := vxWith f 0x06 {} x opXor s
def execVandnVx (f : FId) (x : RegF) (s : State) := vxWith f 0x07 {} x opAndn s
def execVsllVx (f : FId) (x : RegF) (s : State) := vxWith f 0x08 {} x opSll s
def execVsrlVx (f : FId) (x : RegF) (s : State) := vxWith f 0x09 {} x opSrl s
def execVsraVx (f : FId) (x : RegF) (s : State) := vxWith f 0x0A {} x opSra s
def execVminVx (f : FId) (x : RegF) (s : State) := vxWith f 0x0C {} x opMin s
def execVmaxVx (f : FId) (x : RegF) (s : State) := vxWith f 0x0D {} x opMax s
def execVminuVx (f : FId) (x : RegF) (s : State) := vxWith f 0x0E {} x opMinu s
def execVmaxuVx (f : FId) (x : RegF) (s : State) := vxWith f 0x0F {} x opMaxu s
def execVmulVx (f : FId) (x : RegF) (s : State) := vxWith f 0x10 { ss := true } x opMul s
def execVmulhVx (f : FId) (x : RegF) (s : State) := vxWith f 0x11 {} x opMulh s
def execVmulhuVx (f : FId) (x : RegF) (s : State) := vxWith f 0x12 {} x opMulhu s

/-- VMULQ and VSRAR: an exact value of element `i`, shifted by SH6, rounded and fitted; SH6 above SEW − 1 raises 0x03 (R254). -/
def vshfWith (f : FId) (op : BitVec 7) (u : Uses) (x : ShfF) (exact : FRegs → Nat → Int) (s : State) :
    Host.Outcome State Fault Refusal :=
  runRegs f (shfWord op x) (fun r => chk5 (badShf u x || r.sew ≤ x.sh6.toNat) r) (fun r =>
    .done (r.vmap x.rd fun i =>
      let q := roundShift (r.rmOf x.rs) (exact r i) x.sh6.toNat
      let p := fitElem r.sew (r.saturates x.ss) q.1
      (p.1, { p.2 with inx := q.2 }))) s

def execVmulq (f : FId) (x : ShfF) (s : State) :=
  vshfWith f 0x43 { ss := true, rs := true } x
    (fun r i => sint r.sew (elemAt (r.rv x.ra) r.sew i) * sint r.sew (elemAt (r.rv x.rb) r.sew i)) s
def execVsrar (f : FId) (x : ShfF) (s : State) :=
  vshfWith f 0x44 { ss := true, rs := true, rb := false } x (fun r i => sint r.sew (elemAt (r.rv x.ra) r.sew i)) s

-- VSETVL (R252) ------------------------------------------------------------------------------------------------------------------------------

def execVsetvl (f : FId) (x : ImmF) (s : State) : Host.Outcome State Fault Refusal :=
  runRegs f (immWord 0x40 0 x) (chk5 (x.imm.extractLsb' 4 8 != 0 || 5 ≤ (x.imm.extractLsb' 0 3).toNat)) (fun r =>
    let vt := (x.imm.extractLsb' 0 4).setWidth 64
    let vl := if x.ra = 0 then vlMax vt else Nat.min (r.rg x.ra).toNat (vlMax vt)
    .done ({ r with vtype := vt, vl := BitVec.ofNat 64 vl, vstart := 0 }.setG x.rd (BitVec.ofNat 64 vl))) s

-- MASKS (R255) ---------------------------------------------------------------------------------------------------------------------------------

/-- Write mask bits VSTART to VL − 1 and 0 at VL and above; when VSTART ≥ VL, nothing (R253). -/
def FRegs.maskMap (r : FRegs) (rd : BitVec 5) (op : Nat → Bool) : FRegs :=
  if r.active = [] then r.vdone
  else
    let low := r.rv rd &&& BitVec.ofNat 1024 (2 ^ Nat.min r.vstart.toNat r.vl.toNat - 1)
    (r.setV rd (low ||| BitVec.ofNat 1024 (bitmap (r.active.filter op)))).vdone

/-- A compare of elements: `op` on width and codes. -/
def vcmpWith (f : FId) (fn : BitVec 6) (x : RegF) (op : Nat → Nat → Nat → Bool) (s : State) :
    Host.Outcome State Fault Refusal :=
  runRegs f (regWord 0x45 fn x) (chk5 (badReg {} x)) (fun r =>
    .done (r.maskMap x.rd fun i => op r.sew (elemAt (r.rv x.ra) r.sew i) (elemAt (r.rv x.rb) r.sew i))) s

/-- A bitwise operation on mask bits. -/
def vmaskWith (f : FId) (fn : BitVec 6) (x : RegF) (op : Bool → Bool → Bool) (s : State) :
    Host.Outcome State Fault Refusal :=
  runRegs f (regWord 0x45 fn x) (chk5 (badReg {} x)) (fun r =>
    .done (r.maskMap x.rd fun i => op ((r.rv x.ra).getLsbD i) ((r.rv x.rb).getLsbD i))) s

def execVcmpeq (f : FId) (x : RegF) (s : State) := vcmpWith f 0x00 x (fun _ a b => a == b) s
def execVcmpne (f : FId) (x : RegF) (s : State) := vcmpWith f 0x01 x (fun _ a b => a != b) s
def execVcmplt (f : FId) (x : RegF) (s : State) := vcmpWith f 0x02 x (fun w a b => sint w a < sint w b) s
def execVcmple (f : FId) (x : RegF) (s : State) := vcmpWith f 0x03 x (fun w a b => sint w a ≤ sint w b) s
def execVcmpltu (f : FId) (x : RegF) (s : State) := vcmpWith f 0x04 x (fun _ a b => a < b) s
def execVcmpleu (f : FId) (x : RegF) (s : State) := vcmpWith f 0x05 x (fun _ a b => a ≤ b) s
def execVmand (f : FId) (x : RegF) (s : State) := vmaskWith f 0x10 x (fun a b => a && b) s
def execVmor (f : FId) (x : RegF) (s : State) := vmaskWith f 0x11 x (fun a b => a || b) s
def execVmxor (f : FId) (x : RegF) (s : State) := vmaskWith f 0x12 x (fun a b => a ^^ b) s
def execVmandn (f : FId) (x : RegF) (s : State) := vmaskWith f 0x13 x (fun a b => a && !b) s

-- PERMUTATION AND MOVES (R255) --------------------------------------------------------------------------------------------------------------------

/-- A vector instruction on registers. -/
def vregWith (f : FId) (op : BitVec 7) (fn : BitVec 6) (u : Uses) (x : RegF) (body : FRegs → FRegs) (s : State) :
    Host.Outcome State Fault Refusal :=
  runRegs f (regWord op fn x) (chk5 (badReg u x)) (fun r => .done (body r).vdone) s

/-- Elements below VL whose mask bit is set, ascending. -/
def FRegs.masked (r : FRegs) (m : BitVec 5) : List Nat := r.whole.filter fun i => (r.rv m).getLsbD i

def execVcompress (f : FId) (x : RegF) (s : State) :=
  vregWith f 0x46 0x00 {} x (fun r =>
    r.setV x.rd (setElems (r.rv x.rd) r.sew
      ((r.masked x.rb).zipIdx.map fun p => (p.2, elemAt (r.rv x.ra) r.sew p.1)))) s

def execVexpand (f : FId) (x : RegF) (s : State) :=
  vregWith f 0x46 0x01 {} x (fun r =>
    r.setV x.rd (setElems (r.rv x.rd) r.sew
      ((r.masked x.rb).zipIdx.map fun p => (p.1, elemAt (r.rv x.ra) r.sew p.2)))) s

def execVmerge (f : FId) (x : RegF) (s : State) :=
  vregWith f 0x46 0x02 {} x (fun r =>
    r.vmap x.rd fun i => (elemAt (if (r.rv 0).getLsbD i then r.rv x.rb else r.rv x.ra) r.sew i, {})) s

def execVpopc (f : FId) (x : RegF) (s : State) :=
  vregWith f 0x46 0x03 { rb := false } x (fun r => r.setG x.rd (BitVec.ofNat 64 (r.masked x.ra).length)) s

def execVfirst (f : FId) (x : RegF) (s : State) :=
  vregWith f 0x46 0x04 { rb := false } x (fun r =>
    r.setG x.rd (match (r.masked x.ra).head? with
      | some i => BitVec.ofNat 64 i
      | none => 0xFFFFFFFFFFFFFFFF)) s

def execViota (f : FId) (x : RegF) (s : State) :=
  vregWith f 0x46 0x05 { ra := false, rb := false } x (fun r => r.vmap x.rd fun i => (i, {})) s

def execVmv (f : FId) (x : RegF) (s : State) :=
  vregWith f 0x4B 0x00 { rb := false } x (fun r => r.setV x.rd (r.rv x.ra)) s

def execVget (f : FId) (x : RegF) (s : State) :=
  vregWith f 0x4B 0x01 {} x (fun r =>
    let i := (r.rg x.rb).toNat
    r.setG x.rd (if i < vlMax r.vtype then BitVec.ofNat 64 (elemAt (r.rv x.ra) r.sew i) else 0)) s

def execVput (f : FId) (x : RegF) (s : State) :=
  vregWith f 0x4B 0x02 {} x (fun r =>
    let i := (r.rg x.rb).toNat
    if i < vlMax r.vtype then r.setV x.rd (setElem (r.rv x.rd) r.sew i (fitScalar r.sew (r.rg x.ra))) else r) s

def execVsplat (f : FId) (x : RegF) (s : State) :=
  vregWith f 0x4B 0x03 { rb := false } x (fun r => r.vmap x.rd fun _ => (fitScalar r.sew (r.rg x.ra), {})) s

-- VECTOR ACCUMULATORS (R256, R257) ------------------------------------------------------------------------------------------------------------------

/-- The lane width 2w + 16 (R256). -/
def laneWidth (w : Nat) : Nat := 2 * w + 16

/-- Lane `i` of an accumulator under element width `w`, signed (R256). -/
def laneOf (va : WVA) (w i : Nat) : Int := sint (laneWidth w) (va.toNat / 2 ^ (i * laneWidth w))

/-- Write lane `i`. -/
def setLane (va : WVA) (w i n : Nat) : WVA :=
  (va &&& ~~~(BitVec.ofNat 4096 (2 ^ laneWidth w - 1) <<< (i * laneWidth w))) |||
    (BitVec.ofNat 4096 (n % 2 ^ laneWidth w) <<< (i * laneWidth w))

/-- Add to the lanes of the processed elements: lanes wrap, each wrap sets OV (R257). -/
def FRegs.vaccumulate (r : FRegs) (n : BitVec 2) (addend : Nat → Int) : FRegs :=
  let l := r.active.map fun i => (i, fitElem (laneWidth r.sew) false (laneOf (r.rva n) r.sew i + addend i))
  ((r.setVa n (l.foldl (fun va p => setLane va r.sew p.1 p.2.1) (r.rva n))).flag
    (l.foldl (fun a p => a.or p.2.2) {}))

/-- A vector accumulator instruction: VAn in RD[8:7], RD[11:9] reserved (R246). -/
def vaccWith (f : FId) (fn : BitVec 6) (u : Uses) (x : RegF) (body : FRegs → FRegs) (s : State) :
    Host.Outcome State Fault Refusal :=
  runRegs f (regWord 0x47 fn x) (chk5 (badReg u x || badAcc x.rd)) (fun r => .done (body r).vdone) s

def execVacclr (f : FId) (x : RegF) (s : State) :=
  vaccWith f 0x00 { ra := false, rb := false } x (fun r => r.setVa (accOf x.rd) 0) s
def execVacadd (f : FId) (x : RegF) (s : State) :=
  vaccWith f 0x01 { rb := false } x
    (fun r => r.vaccumulate (accOf x.rd) fun i => sint r.sew (elemAt (r.rv x.ra) r.sew i)) s
def execVacaddu (f : FId) (x : RegF) (s : State) :=
  vaccWith f 0x02 { rb := false } x (fun r => r.vaccumulate (accOf x.rd) fun i => (elemAt (r.rv x.ra) r.sew i : Int)) s
def execVacmac (f : FId) (x : RegF) (s : State) :=
  vaccWith f 0x03 {} x (fun r => r.vaccumulate (accOf x.rd) fun i =>
    sint r.sew (elemAt (r.rv x.ra) r.sew i) * sint r.sew (elemAt (r.rv x.rb) r.sew i)) s
def execVacmsu (f : FId) (x : RegF) (s : State) :=
  vaccWith f 0x04 {} x (fun r => r.vaccumulate (accOf x.rd) fun i =>
    -(sint r.sew (elemAt (r.rv x.ra) r.sew i) * sint r.sew (elemAt (r.rv x.rb) r.sew i))) s

/-- The sum of all VLMAX lanes of an accumulator (R257). -/
def FRegs.laneSum (r : FRegs) (n : BitVec 2) : Int :=
  ((List.range (vlMax r.vtype)).map fun i => laneOf (r.rva n) r.sew i).sum

/-- VACSUM: An in RB[18:17], RB[21:19] reserved (R257). -/
def execVacsum (f : FId) (x : RegF) (s : State) : Host.Outcome State Fault Refusal :=
  runRegs f (regWord 0x47 0x05 x) (chk5 (badReg { ra := false } x || badAcc x.rd || badAcc x.rb))
    (fun r => .done (r.accumulate (accOf x.rb) (r.laneSum (accOf x.rd))).vdone) s

/-- VACRD: SH7 above 2w + 15 raises 0x03 (R257). -/
def execVacrd (f : FId) (x : AcrF) (s : State) : Host.Outcome State Fault Refusal :=
  runRegs f (acrWord 0x48 0 x) (fun r => chk5 (badAcr x || 2 * r.sew + 15 < x.sh7.toNat) r) (fun r =>
    .done (r.vmap x.rd fun i =>
      let q := roundShift (r.rmOf x.rs) (laneOf (r.rva x.an) r.sew i) x.sh7.toNat
      let p := fitElem r.sew (r.saturates x.ss) q.1
      (p.1, { p.2 with inx := q.2 }))) s

-- BINNED LANES AND SORTING (R258, R259) -----------------------------------------------------------------------------------------------------------------

/-- An unpack of every binned lane: SEW other than 128 raises 0x03. -/
def vbinWith (f : FId) (fn : BitVec 6) (x : RegF) (value : W128 → Nat) (s : State) : Host.Outcome State Fault Refusal :=
  runRegs f (regWord 0x49 fn x) (fun r => chk5 (badReg { rb := false } x || r.sew != 128) r) (fun r =>
    .done (r.vmap x.rd fun i =>
      let lane := BitVec.ofNat 128 (elemAt (r.rv x.ra) 128 i)
      (value lane, laneFlags lane))) s

def execVbina (f : FId) (x : RegF) (s : State) := vbinWith f 0x00 x (fun l => (laneValue l).toNat) s
def execVbinb (f : FId) (x : RegF) (s : State) := vbinWith f 0x01 x laneCode s

/-- Elements 0 to VL − 1 of a register. -/
def FRegs.elems (r : FRegs) (i : BitVec 5) : List Nat := r.whole.map (elemAt (r.rv i) r.sew)

/-- Write a list to elements 0, 1, … of a register. -/
def FRegs.putElems (r : FRegs) (rd : BitVec 5) (l : List Nat) : FRegs :=
  r.setV rd (setElems (r.rv rd) r.sew (l.zipIdx.map fun p => (p.2, p.1)))

/-- Merge two lists by taking the smaller head each time, the first list's on a tie (R259). -/
def mergeHeads : Nat → List Nat → List Nat → List Nat
  | 0, _, _ => []
  | _ + 1, [], b => b
  | _ + 1, a, [] => a
  | k + 1, x :: a, y :: b => if x ≤ y then x :: mergeHeads k a (y :: b) else y :: mergeHeads k (x :: a) b

/-- The merge of V[RA] and V[RB] below VL. -/
def FRegs.merged (r : FRegs) (a b : BitVec 5) : List Nat := mergeHeads (2 * r.vl.toNat) (r.elems a) (r.elems b)

def execVsort (f : FId) (x : RegF) (s : State) :=
  vregWith f 0x4A 0x00 { rb := false } x (fun r => r.putElems x.rd (sortBy (· ≤ ·) (r.elems x.ra))) s

/-- VSORTP: RD must be even (R259). -/
def execVsortp (f : FId) (x : RegF) (s : State) : Host.Outcome State Fault Refusal :=
  runRegs f (regWord 0x4A 0x01 x) (chk5 (badReg {} x || x.rd.getLsbD 0)) (fun r =>
    let l := sortBy (fun p q => p.1 ≤ q.1) ((r.elems x.ra).zip (r.elems x.rb))
    .done (((r.putElems x.rd (l.map (·.1))).putElems (x.rd + 1) (l.map (·.2))).vdone)) s

def execVmrglo (f : FId) (x : RegF) (s : State) :=
  vregWith f 0x4A 0x02 {} x (fun r => r.putElems x.rd ((r.merged x.ra x.rb).take r.vl.toNat)) s
def execVmrghi (f : FId) (x : RegF) (s : State) :=
  vregWith f 0x4A 0x03 {} x (fun r => r.putElems x.rd ((r.merged x.ra x.rb).drop r.vl.toNat)) s

end Sys2Proof.Machine
end

