-- ==== Sys2Proof/Machine/FgrVmem.lean ====
section
/-!
DEFINITION. The vector memory instructions of the Forager: major opcodes 0x50 to 0x53 (R246, R260 to R262).
-/

namespace Sys2Proof.Machine

/-- The registers that a vector memory instruction leaves when it stops at element `i` (R261). -/
def FRegs.stopAt (r : FRegs) (i : Nat) : FRegs := { r with vstart := BitVec.ofNat 64 i }

/-- It waits at an element: the progress is kept, the PC stays (R261, R305). -/
def State.park (s : State) (f : FId) (r : FRegs) : State × FRes := (s.modFgr f fun g => { g with regs := r }, .wait)

/-- A later element faulted in a fault-only-first load: VL := i, VSTART := 0, no trap (R262). -/
def FRegs.shorten (r : FRegs) (i : Nat) : FRegs := { r with vl := BitVec.ofNat 64 i, vstart := 0 }

/-- The Forager as it stands, for the next element of an access. -/
def State.fgrD (s : State) (f : FId) (g : Fgr) : Fgr := (s.fgr? f).getD g

/-- Load the elements `is` in ascending order into V[rd]; `first` is element VSTART (R260 to R262). -/
def loadElems (f : FId) (g : Fgr) (ldm ff : Bool) (rd : BitVec 5) (ea : Nat → W64) (first : Nat) :
    List Nat → State → FRegs → State × FRes
  | [], s, r => (s, .done r.vdone)
  | i :: is, s, r =>
    let fault := fun (cause : Nat) =>
      if ff && i != first then (s, FRes.done (r.shorten i)) else (s, FRes.trap (r.stopAt i) cause (ea i))
    if (ea i).toNat % (r.sew / 8) ≠ 0 then fault 0x07
    else match s.load f (s.fgrD f g) ldm (ea i).toNat (r.sew / 8) with
      | .bad => fault 0x05
      | .wait => s.park f (r.stopAt i)
      | .ok bs t => loadElems f g ldm ff rd ea first is t (r.setV rd (setElem (r.rv rd) r.sew i (leNat bs)))

/-- Store the elements `is` of V[rd] in ascending order (R260, R261). -/
def storeElems (f : FId) (g : Fgr) (ldm : Bool) (rd : BitVec 5) (ea : Nat → W64) :
    List Nat → State → FRegs → State × FRes
  | [], s, r => (s, .done r.vdone)
  | i :: is, s, r =>
    if (ea i).toNat % (r.sew / 8) ≠ 0 then (s, .trap (r.stopAt i) 0x07 (ea i))
    else match s.store f (s.fgrD f g) ldm (ea i).toNat (leBytes (r.sew / 8) (elemAt (r.rv rd) r.sew i)) with
      | .bad => (s, .trap (r.stopAt i) 0x06 (ea i))
      | .wait => s.park f (r.stopAt i)
      | .ok _ t => storeElems f g ldm rd ea is t r

/-- What a vector memory instruction moves and where: a load, into LDM or instance memory, fault-only-first. -/
structure VKind where
  load : Bool
  ldm : Bool
  ff : Bool := false

/-- The body of a vector memory instruction with element addresses `ea`. -/
def moveElems (f : FId) (k : VKind) (rd : BitVec 5) (ea : FRegs → Nat → W64) (s : State) (g : Fgr) : State × FRes :=
  if k.load then loadElems f g k.ldm k.ff rd (ea g.regs) g.regs.vstart.toNat g.regs.active s g.regs
  else storeElems f g k.ldm rd (ea g.regs) g.regs.active s g.regs

/-- Check 6 of a fault-only-first load: Service mode only (R262). -/
def badFf (k : VKind) (r : FRegs) : Bool := k.ff && r.mode != 2

/-- A unit-stride access, 0x50 or 0x51: G[RA] + IMM12 + i × SEW/8. -/
def vunitWith (f : FId) (fn3 : BitVec 3) (k : VKind) (x : ImmF) (s : State) : Host.Outcome State Fault Refusal :=
  runFgr f (immWord (if k.load then 0x50 else 0x51) fn3 x) (fun r => firstCause [(badFf k r, 0x08)])
    (moveElems f k x.rd fun r i => r.eaImm x + BitVec.ofNat 64 (i * (r.sew / 8))) s

def execVld (f : FId) (x : ImmF) (s : State) := vunitWith f 0 { load := true, ldm := false } x s
def execVldL (f : FId) (x : ImmF) (s : State) := vunitWith f 1 { load := true, ldm := true } x s
def execVldff (f : FId) (x : ImmF) (s : State) := vunitWith f 2 { load := true, ldm := false, ff := true } x s
def execVst (f : FId) (x : ImmF) (s : State) := vunitWith f 0 { load := false, ldm := false } x s
def execVstL (f : FId) (x : ImmF) (s : State) := vunitWith f 1 { load := false, ldm := true } x s

/-- A strided access, 0x52: G[RA] + i × G[RB], a signed stride. -/
def vstrideWith (f : FId) (fn : BitVec 6) (k : VKind) (x : RegF) (s : State) : Host.Outcome State Fault Refusal :=
  runFgr f (regWord 0x52 fn x) (chk5 (badReg {} x))
    (moveElems f k x.rd fun r i => r.rg x.ra + BitVec.ofNat 64 i * r.rg x.rb) s

def execVlds (f : FId) (x : RegF) (s : State) := vstrideWith f 0x00 { load := true, ldm := false } x s
def execVldsL (f : FId) (x : RegF) (s : State) := vstrideWith f 0x01 { load := true, ldm := true } x s
def execVsts (f : FId) (x : RegF) (s : State) := vstrideWith f 0x02 { load := false, ldm := false } x s
def execVstsL (f : FId) (x : RegF) (s : State) := vstrideWith f 0x03 { load := false, ldm := true } x s

/-- The index width IW: VTYPE bit 3 (R250). -/
def FRegs.iw (r : FRegs) : Nat := if r.vtype.getLsbD 3 then 64 else 32

/-- Index i: the unsigned IW-bit element i of the group that starts at V[RB] (R260). -/
def FRegs.indexAt (r : FRegs) (rb : BitVec 5) (i : Nat) : Nat :=
  elemAt (r.rv (rb + BitVec.ofNat 5 (i * r.iw / 1024))) r.iw (i % (1024 / r.iw))

/-- The index group passes V31 (R260, R277). -/
def FRegs.groupPasses (r : FRegs) (rb : BitVec 5) : Bool :=
  r.vl != 0 && decide (31 < rb.toNat + (r.vl.toNat - 1) * r.iw / 1024)

/-- A gather or scatter, 0x53: G[RA] + index i. -/
def vindexWith (f : FId) (fn : BitVec 6) (k : VKind) (x : RegF) (s : State) : Host.Outcome State Fault Refusal :=
  runFgr f (regWord 0x53 fn x)
    (fun r => firstCause [(badReg {} x || r.groupPasses x.rb, 0x03), (badFf k r, 0x08)])
    (moveElems f k x.rd fun r i => r.rg x.ra + BitVec.ofNat 64 (r.indexAt x.rb i)) s

def execVgath (f : FId) (x : RegF) (s : State) := vindexWith f 0x00 { load := true, ldm := false } x s
def execVgathL (f : FId) (x : RegF) (s : State) := vindexWith f 0x01 { load := true, ldm := true } x s
def execVgathff (f : FId) (x : RegF) (s : State) := vindexWith f 0x02 { load := true, ldm := false, ff := true } x s
def execVscat (f : FId) (x : RegF) (s : State) := vindexWith f 0x03 { load := false, ldm := false } x s
def execVscatL (f : FId) (x : RegF) (s : State) := vindexWith f 0x04 { load := false, ldm := true } x s

end Sys2Proof.Machine
end

