-- ==== Sys2Proof/Machine/HostRows.lean ====
section
/-!
DEFINITION. What the host does to the device outside its queues: mailboxes (R390 to R393), the hold of a statistics window (R199), every other register (R8, R330 to R332),
function-level resets and power states (R328), SR-IOV (R375), ATS (R329), the link (R471) and the host's completions (R24, R372).
-/

namespace Sys2Proof.Machine

-- MAILBOXES (R390 to R393) ------------------------------------------------------------------------------------------------------------------------------------

def Inst.mbx (i : Inst) (pf : Bool) : MbxSide := if pf then i.mbxPf else i.mbxVf

def State.modMbx (s : State) (n : Nat) (pf : Bool) (f : MbxSide → MbxSide) : State :=
  s.modInst n fun i => if pf then { i with mbxPf := f i.mbxPf } else { i with mbxVf := f i.mbxVf }

/-- Bits set in a byte. -/
def popc8 (v : BitVec 8) : Nat := ((List.range 8).filter (v.getLsbD ·)).length

/-- Count drops on a side. -/
def State.mbxDrop (s : State) (n : Nat) (pf : Bool) (k : Nat) : State := s.modMbx n pf fun m => { m with drop := satAdd 8 m.drop k }

/-- A side posts send slots: those already FULL are dropped and counted, the peer is signalled (R392, R393). -/
def State.mbxPost (s : State) (n : Nat) (pf : Bool) (v : BitVec 8) : State :=
  let me := (s.instD n).mbx pf
  if (s.instD n).state = .frozen then s.mbxDrop n pf (popc8 v)
  else
    let new := v &&& ~~~me.txFull
    let s1 := (s.mbxDrop n pf (popc8 (v &&& me.txFull))).modMbx n pf fun m => { m with txFull := m.txFull ||| new }
    if new = 0 then s1 else s1.mbxSignal n (!pf)

/-- A side acknowledges receive slots: the sender's slots are free, and the sender is signalled. -/
def State.mbxAck (s : State) (n : Nat) (pf : Bool) (v : BitVec 8) : State :=
  let peer := (s.instD n).mbx (!pf)
  if (s.instD n).state = .frozen then s.mbxDrop n pf (popc8 v)
  else if v &&& peer.txFull = 0 then s
  else (s.modMbx n (!pf) fun m => { m with txFull := m.txFull &&& ~~~v }).mbxSignal n (!pf)

/-- A side writes part of a send slot: a FULL slot, or a frozen instance, drops it (R393). -/
def State.mbxWrite (s : State) (n : Nat) (pf : Bool) (slot : Nat) (mask val : BitVec 512) : State :=
  let me := (s.instD n).mbx pf
  if (s.instD n).state = .frozen ∨ me.txFull.getLsbD slot then s.mbxDrop n pf 1
  else s.modMbx n pf fun m => { m with slots := m.slots.modify slot fun x => (x &&& ~~~mask) ||| (val &&& mask) }

/-- A write of MBX_POST. -/
def State.mbxPostReg (s : State) (fn n : Nat) (v : W64) : State :=
  if n = 0 then s.rsvdIf fn (v != 0)
  else (s.rsvdIf fn (v &&& 0xFFFFFFFFFFFFFF00 != 0)).mbxPost n (fn == 0) (v.setWidth 8)

/-- A write of MBX_STAT: acknowledgements, and PEER_RESET on the PF side. -/
def State.mbxStatReg (s : State) (fn n : Nat) (v : W64) : State :=
  if n = 0 then s.rsvdIf fn (v != 0)
  else
    let s1 := (s.rsvdIf fn (v &&& 0xFFFFFFFF00FC0000 != 0)).mbxAck n (fn == 0) (v.setWidth 8)
    if fn = 0 ∧ v.getLsbD 16 then s1.modInst n fun i => { i with peerReset := false } else s1

/-- A write of MBX_CTRL; a VECTOR outside the function's table is unlisted (R8, R391). -/
def State.mbxCtrlReg (s : State) (fn n : Nat) (mask v : W64) : State :=
  if n = 0 then s.rsvdIf fn (v != 0)
  else
    let vec := bits v.toNat 11 0
    let low := mask.getLsbD 0
    let bad := low && !decide (vec < s.vectors fn)
    (s.rsvdIf fn (bad || v &&& 0xFFFFFFFFFFFEF000 != 0)).modMbx n (fn == 0) fun m =>
      if low then { m with intEn := v.getLsbD 16, vector := if bad then m.vector else vec } else m

/-- The instance whose mailbox a function writes: the PF names it, a VF has its own. -/
def mbxInst (fn n : Nat) : Nat := if fn = 0 then n else fn

/-- MBX_POST: the PF posts to instance `n`, or VF `fn` to the manager. -/
def execMbxPost (fn n size : Nat) (value : W64) (s : State) : Host.Outcome State Fault Refusal :=
  if 256 ≤ n then .next s
  else .next (s.mmioWrite fn 0 size false fun s => s.mbxPostReg fn (mbxInst fn n) (BitVec.ofNat 64 (lowPart size value)))

/-- MBX_ACK: a W1C write of MBX_STAT. -/
def execMbxAck (fn n size : Nat) (value : W64) (s : State) : Host.Outcome State Fault Refusal :=
  if 256 ≤ n then .next s
  else .next (s.mmioWrite fn 0 size false fun s => s.mbxStatReg fn (mbxInst fn n) (BitVec.ofNat 64 (lowPart size value)))

-- STATISTICS (R199, R200) --------------------------------------------------------------------------------------------------------------------------------------

/-- A write of STAT_CTL: HOLD_EXPIRED is W1C, HOLD = 0 releases, and HOLD = 1 takes hold at the next change or keeps a hold that is active (R204). -/
def StatWin.write (w : StatWin) (v : W64) : StatWin :=
  let w1 := if v.getLsbD 2 then { w with holdExpired := false } else w
  if v.getLsbD 0 then { w1 with hold := true } else { w1 with hold := false, holdActive := false, holdLeft := 0 }

/-- STAT_HOLD. -/
def execStatHold (fn : Nat) (value : W64) (s : State) : Host.Outcome State Fault Refusal :=
  .next (s.mmioWrite fn 0x10 8 false fun s =>
    (s.rsvdIf fn (value &&& 0xFFFFFFFF0000FFF8 != 0)).modInst fn fun i => { i with stat := i.stat.write value })

/-- A hold has lasted STAT_HOLD_MAX changes and releases itself. -/
def StatWin.expire (w : StatWin) : StatWin := { w with hold := false, holdActive := false, holdLeft := 0, holdExpired := true }

/-- STAT_HOLD_EXPIRED (R199). -/
def execStatHoldExpired (fn : Nat) (s : State) : Host.Outcome State Fault Refusal :=
  let w := (s.instD fn).stat
  if !w.holdActive || w.holdLeft != 0 then .next s
  else .next ((s.modInst fn fun i => { i with stat := i.stat.expire }).raise Config.evStatHoldExpired)

-- REGISTERS (R8, R330 to R332) ------------------------------------------------------------------------------------------------------------------------------------

/-- The bits of an aligned register that a write covers, and the value in their place. -/
def writeMask (off size : Nat) : W64 := if size = 8 then BitVec.allOnes 64 else if off % 8 = 0 then 0xFFFFFFFF else 0xFFFFFFFF00000000
def writeVal (off size : Nat) (v : W64) : W64 := if size = 8 then v else if off % 8 = 0 then v &&& 0xFFFFFFFF else v <<< 32

/-- A register under a write. -/
def mergeReg (old mask val : W64) : W64 := (old &&& ~~~mask) ||| (val &&& mask)

/-- Reserved bits of the registers that take no write, by offset below 0x1000. -/
def globalRsv (off : Nat) : W64 :=
  if off = 0x40 then 0xFFFF0000F0040000
  else if off = 0x80 then 0
  else if off = 0x88 then 0x00FF00F800000000
  else if off = 0x90 then 0xFFFFFFFFFFF00000
  else if off = 0x200 then 0x000000000000FE00
  else BitVec.allOnes 64

/-- A write of an admin queue address register: dropped and counted while EN = 1 (R336). -/
def State.aqAddr (s : State) (fn : Nat) (rsv mask v : W64) (set : AdminRegs → (W64 → W64) → AdminRegs) : State :=
  if (s.instD fn).aq.en then s.rsvdWrite fn
  else (s.rsvdIf fn (v &&& rsv != 0)).modInst fn fun i => { i with aq := set i.aq fun old => mergeReg old mask (v &&& ~~~rsv) }

/-- A 4-byte write of AQ_CFG's upper half reaches no writable field. -/
def aqCfgHigh (off size : Nat) : Bool := size == 4 && off % 8 == 4

/-- What a meaning leaves. -/
def outState (s : State) : Host.Outcome State Fault Refusal → State
  | .next t => t
  | _ => s

/-- Registers that the PF and a VF have at the same offsets below 0x1000. -/
def State.writeGlobal (s : State) (fn off size : Nat) (value : W64) : State :=
  let a := off / 8 * 8
  let m := writeMask off size
  let v := writeVal off size value
  if a = 0x100 then s.aqAddr fn 0xFFFF800000000FFF m v fun q f => { q with sqBase := f q.sqBase }
  else if a = 0x108 then s.aqAddr fn 0xFFFF800000000FFF m v fun q f => { q with cqBase := f q.cqBase }
  else if a = 0x110 then s.aqAddr fn 0xFFFF800000000007 m v fun q f => { q with shadow := f q.shadow }
  else if a = 0x118 then
    if aqCfgHigh off size then s.rsvdIf fn (v &&& 0xFFFFFFF800000000 != 0) else outState s (execAqCfg fn size value s)
  else s.rsvdIf fn (v &&& globalRsv a != 0)

/-- A write into the dictionary window (R429, R430). -/
def State.writeKdw (s : State) (fn o size : Nat) (value : W64) : State :=
  let a := o / 8 * 8
  let m := writeMask o size
  let v := writeVal o size value
  let k := (s.instD fn).kdw
  if a = 0 then
    if k.state = .busy then s.modKdw fn fun k => { k with overrun := true }
    else
      let w := mergeReg k.indexReg m v
      (s.rsvdIf fn (v &&& 0xFFFFFFFFFF000000 != 0)).modKdw fn fun k => { k with index := w.extractLsb' 8 16, sub := w.setWidth 8 }
  else if a = 8 then
    let s1 := s.rsvdIf fn (v &&& 0xFFFFFFF0 != 0 || decide (6 < bits v.toNat 3 0))
    let arg := if m.getLsbD 63 then v.extractLsb' 32 32 else k.arg
    let op := bits v.toNat 3 0
    if op = 0 ∨ 6 < op then (if m.getLsbD 63 then s1.modKdw fn fun k => { k with arg := arg } else s1) else s1.kdwCommand fn op arg
  else if a = 0x10 then outState s (execKdwDataWrite fn size value s)
  else
    (s.rsvdIf fn (v &&& 0x0000000000E0FFFF != 0)).modKdw fn fun k => { k with overrun := k.overrun && !v.getLsbD 20 }

/-- A write of an MSI-X table entry: a vector that is unmasked with its pending bit set sends its message (R363). -/
def State.writeMsix (s : State) (fn off size : Nat) (value : W64) : State :=
  let a := off / 8 * 8
  let vec := a / 16
  let v := writeVal off size value
  let m := writeMask off size
  if a % 16 = 0 then
    let w := mergeReg ((s.instD fn).msix.word a) m v
    s.modInst fn fun i => { i with msix := { i.msix with table := memWrite i.msix.table (16 * vec) (leBytes 8 w.toNat) } }
  else
    let w := mergeReg ((s.instD fn).msix.word a) m v
    let s1 := s.modInst fn fun i => { i with msix := { i.msix with
      table := memWrite i.msix.table (16 * vec + 8) (leBytes 4 w.toNat)
      masked := if w.getLsbD 32 then insAsc vec i.msix.masked else i.msix.masked.filter (· != vec) } }
    if !w.getLsbD 32 && (s.instD fn).msix.pba.contains vec then
      (s1.modInst fn fun i => { i with msix := { i.msix with pba := i.msix.pba.filter (· != vec) } }).sendMsix fn vec
    else s1

/-- Reserved bits of a per-die register of the PF, none at an offset that is reserved whole. -/
def dieRsv (off : Nat) : Option W64 :=
  if 0x2000 ≤ off ∧ off < 0x2800 then
    let o := off % 0x100
    if o ≤ 0x40 then some 0 else if o = 0x48 then some 0xFFFFFFFFFF0000F0 else if o = 0x50 then some 0xFFF80000FFFE0000 else none
  else if 0x4000 ≤ off ∧ off < 0x5000 then
    let o := off % 0x200
    if o = 0 then some 0xFFFFFFFFFFFFFFFE else if o = 8 then some 0xFF00000000000000
    else if 0x80 ≤ o ∧ o < 0x100 then some 0xFFFFFF0000F00C00 else none
  else if 0x6000 ≤ off ∧ off < 0x6080 then some 0xFF05000000000000
  else if 0x2C100 ≤ off ∧ off < 0x2C140 then some 0xFFFFFFFFFFFFE0C0
  else none

/-- The die of a per-die register. -/
def dieOfReg (off : Nat) : Nat :=
  if off < 0x4000 then (off - 0x2000) / 0x100
  else if off < 0x6000 then (off - 0x4000) / 0x200
  else if off < 0x7000 then (off - 0x6000) / 16
  else (off - 0x2C100) / 8

/-- A write of a per-die register: ignored on an absent or a fenced die (R30, R480). -/
def State.writeDie (s : State) (off size : Nat) (value : W64) : State :=
  let a := off / 8 * 8
  let v := writeVal off size value
  match dieRsv a with
  | none => s.rsvdIf 0 (v != 0)
  | some rsv =>
    let d := dieOfReg a
    if !s.dieHolds d then s
    else if 0x4000 ≤ a ∧ a < 0x5000 ∧ a % 0x200 = 0 then (if off % 8 = 0 then outState s (execCcCtl d size value s) else s.rsvdIf 0 (v != 0))
    else if 0x4000 ≤ a ∧ a < 0x5000 ∧ 0x80 ≤ a % 0x200 then
      let w := (a % 0x200 - 0x80) / 8
      let cmd := bits v.toNat 19 17
      let s1 := s.rsvdIf 0 (v &&& rsv != 0 || decide (3 < cmd))
      if cmd = 1 then outState s1 (execPowerDown d w s1)
      else if cmd = 2 then outState s1 (execPowerUp d w s1)
      else if cmd = 3 then outState s1 (execWayEnable d w s1)
      else s1
    else if 0x2C100 ≤ a then (s.rsvdIf 0 (v &&& rsv != 0)).modDie d fun x => { x with cause := x.cause &&& ~~~v }
    else s.rsvdIf 0 (v &&& rsv != 0)

/-- A write of a mailbox register by offset 0, 8 or 0x10 of its set. -/
def State.writeMbx (s : State) (fn n o off size : Nat) (value : W64) : State :=
  let v := writeVal off size value
  if o = 0 then s.mbxCtrlReg fn n (writeMask off size) v
  else if o = 8 then s.mbxStatReg fn n v
  else if o = 0x10 then s.mbxPostReg fn n v
  else s.rsvdIf fn (v != 0)

/-- A write into the slots of a mailbox: the writer's own send slots take it, the others are read-only. -/
def State.writeSlot (s : State) (n : Nat) (pf : Bool) (o off size : Nat) (value : W64) : State :=
  if (0x200 ≤ o) != pf then s
  else
    let slot := o % 0x200 / 64
    let sh := 8 * (o % 64 / 8 * 8)
    s.mbxWrite n pf slot ((writeMask off size).setWidth 512 <<< sh) ((writeVal off size value).setWidth 512 <<< sh)

/-- A write of the statistics window. -/
def State.writeStat (s : State) (fn o size : Nat) (value : W64) : State :=
  let v := writeVal o size value
  let a := o / 8 * 8
  if a = 0x10 then
    let s1 := s.rsvdIf fn (v &&& 0xFFFFFFFF0000FFF8 != 0)
    if o % 8 = 0 then s1.modInst fn fun i => { i with stat := i.stat.write v } else s1
  else if a = 0 then s
  else if a = 8 then s.rsvdIf fn (v &&& 0xFFFFFFFF00000000 != 0)
  else if a < (if fn = 0 then 0x1000 else 0x800) then s.rsvdIf fn (v != 0)
  else s

/-- A write of BAR0 by the PF. -/
def State.writePf (s : State) (off size : Nat) (value : W64) : State :=
  let a := off / 8 * 8
  let v := writeVal off size value
  let m := writeMask off size
  if off < 0x1000 then s.writeGlobal 0 off size value
  else if 0x10000 ≤ off ∧ off < 0x10020 then s.writeKdw 0 (off - 0x10000) size value
  else if 0x20000 ≤ off ∧ off < 0x20400 then s.writeMsix 0 (off - 0x20000) size value
  else if a = 0x28000 then s
  else if 0x2C000 ≤ off ∧ off < 0x2C020 then s.ackEvents (v.setWidth 256 <<< (64 * ((a - 0x2C000) / 8)))
  else if 0x2C020 ≤ off ∧ off < 0x2C040 then
    let sh := 64 * ((a - 0x2C020) / 8)
    s.setMask ((s.events.mask &&& ~~~(m.setWidth 256 <<< sh)) ||| (v.setWidth 256 <<< sh))
  else if a = 0x2C040 then
    let rsv : W64 := 0x4040404040404040
    { s.rsvdIf 0 (v &&& rsv != 0) with events := { (s.rsvdIf 0 (v &&& rsv != 0)).events with vec := mergeReg s.events.vec m (v &&& ~~~rsv) } }
  else if 0x100000 ≤ off ∧ off < 0x108000 then
    if off % 8 = 0 then outState s (execSqTailDoorbell 0 ((off - 0x100000) / 8) size value s) else s.rsvdIf 0 (v &&& 0xFFF0000000000000 != 0)
  else if 0x180000 ≤ off ∧ off < 0x188000 then
    if off % 8 = 0 then outState s (execCqHeadDoorbell 0 ((off - 0x180000) / 8) size value s) else s.rsvdIf 0 (v &&& 0xFFF0000000000000 != 0)
  else if 0x200400 ≤ off ∧ off < 0x240000 then s.writeSlot ((off - 0x200000) / 0x400) true (a % 0x400) off size value
  else if 0x240020 ≤ off ∧ off < 0x242000 then s.writeMbx 0 ((off - 0x240000) / 0x20) (a % 0x20) off size value
  else if 0x300000 ≤ off ∧ off < 0x390000 then s.writeStat 0 (off - 0x300000) size value
  else s.writeDie off size value

/-- A write of BAR0 by VF `fn`. -/
def State.writeVf (s : State) (fn off size : Nat) (value : W64) : State :=
  let v := writeVal off size value
  if off < 0x1000 then s.writeGlobal fn off size value
  else if off < 0x9000 then
    if off % 8 = 0 then outState s (execSqTailDoorbell fn ((off - 0x1000) / 8) size value s) else s.rsvdIf fn (v &&& 0xFFF0000000000000 != 0)
  else if off < 0x11000 then
    if off % 8 = 0 then outState s (execCqHeadDoorbell fn ((off - 0x9000) / 8) size value s) else s.rsvdIf fn (v &&& 0xFFF0000000000000 != 0)
  else if 0x18000 ≤ off ∧ off < 0x18000 + 16 * s.power.vfVectors then s.writeMsix fn (off - 0x18000) size value
  else if off / 8 * 8 = 0x1C000 then s
  else if 0x20000 ≤ off ∧ off < 0x20400 then s.writeSlot fn false (off / 8 * 8 - 0x20000) off size value
  else if 0x20400 ≤ off ∧ off < 0x20418 then s.writeMbx fn fn (off / 8 * 8 - 0x20400) off size value
  else if 0x30000 ≤ off ∧ off < 0x30020 then s.writeKdw fn (off - 0x30000) size value
  else if 0x38000 ≤ off ∧ off < 0x39000 then s.writeStat fn (off - 0x38000) size value
  else s.rsvdIf fn (v != 0)

/-- REGISTER_WRITE: a write of BAR0 of function `fn` under the field types, reserved bits and sizes of R6, R8 and R332. -/
def execRegisterWrite (fn off size : Nat) (value : W64) (s : State) : Host.Outcome State Fault Refusal :=
  .next (s.mmioWrite fn off size (inKdw fn off) fun s => if fn = 0 then s.writePf off size value else s.writeVf fn off size value)

-- FUNCTION RESETS AND POWER STATES (R328, R333, R391, R430) ----------------------------------------------------------------------------------------------------------------------

/-- What an FLR clears at once in its function. -/
def State.flrFunction (s : State) (fn : Nat) : State :=
  let k := (s.instD fn).kdw.state
  let s1 := if k = .segRead ∨ k = .segWrite then s.kdwAbort fn Config.abAborted else s
  let s2 : State := { s1 with keeper := { s1.keeper with held := s1.keeper.held.filter fun r => match r with
    | .window f _ _ => f != fn
    | _ => true } }
  s2.modInst fn fun i => { i with
    rsvdWr := 0
    dbDrop := 0
    kdw := Kdw.reset
    stat := { i.stat with hold := false, holdActive := false, holdLeft := 0 }
    msix := { masked := List.range 64, pba := [], table := [] }
    frameNow := none
    mbxVf := if fn = 0 then i.mbxVf else { i.mbxVf with drop := 0 } }

/-- An FLR of the PF clears the DROP counters of every PF side (R391). -/
def State.flrMailboxes (s : State) : State := { s with insts := s.insts.map fun i => { i with mbxPf := { i.mbxPf with drop := 0 } } }

/-- The VFs that exist. -/
def State.vfs (s : State) : List Nat := if s.power.vfEnable then (List.range 256).filter fun n => decide (1 ≤ n) && decide (n ≤ s.power.numVfs) else []

/-- The instances of removed VFs go at a boundary under R57 (R375). -/
def State.stageRemovals (s : State) (gone : List Nat) : State :=
  gone.foldl (fun s n => s.modInst n fun i => if i.state = .absent then i else i.stage s.stagingLeft .remove) s

/-- The reset of the instance of a function: accepted on receipt (R57, R328). -/
def State.flrInstance (s : State) (n : Nat) : State := (s.instCommand n .reset).getD s

/-- An FLR of function `fn`: while the device boots, no instance exists and nothing more happens (R496); of the PF, it also removes every VF. -/
def State.flr (s : State) (fn : Nat) : State :=
  let clear := fun (s : State) => if fn = 0 then { s with power := { s.power with vfEnable := false, numVfs := 0 } } else s
  if s.power.devState = .booting then clear s
  else
    let s1 := (s.flrFunction fn).flrInstance fn
    if fn = 0 then clear (s1.flrMailboxes.stageRemovals s.vfs) else s1

/-- FLR at time `t`. -/
def execFlr (fn t : Nat) (s : State) : Host.Outcome State Fault Refusal :=
  if !s.fnLive fn then .next s else .next ((s.atNs t).flr fn)

/-- D3HOT_TO_D0 at time `t`: the transition is an FLR of the function. -/
def execD3hotToD0 (fn t : Nat) (s : State) : Host.Outcome State Fault Refusal :=
  if !s.fnLive fn || !(s.instD fn).d3hot then .next s
  else .next (((s.atNs t).modInst fn fun i => { i with d3hot := false }).flr fn)

/-- D0_TO_D3HOT: nothing more is admitted from the function's queues (R328). -/
def execD0ToD3hot (fn : Nat) (s : State) : Host.Outcome State Fault Refusal :=
  if !s.fnLive fn then .next s else .next (s.modInst fn fun i => { i with d3hot := true })

/-- PCIE_HOT_RESET at time `t`: an FLR of the PF, with every VF (R328, R489). -/
def execPcieHotReset (t : Nat) (s : State) : Host.Outcome State Fault Refusal :=
  if !s.fnLive 0 then .next s
  else
    let s1 := s.atNs t
    .next (s1.vfs.foldl (fun (s : State) n => if s.power.devState = .booting then s else s.flrFunction n) (s1.flr 0))

-- SR-IOV (R365, R375) ------------------------------------------------------------------------------------------------------------------------------------------------------------

/-- A VF appears: an ABSENT instance is DISABLED; one whose removal still resets ends DISABLED. -/
def Inst.appear (i : Inst) : Inst :=
  match i.state with
  | .absent => { i with state := .disabled, d3hot := false }
  | .resetting => if i.resetTo = .absent then { i with resetTo := .disabled } else i
  | _ => i

/-- VF_ENABLE at time `t`: VF Enable and NumVFs take values; VFs that go are removed at a boundary, VFs that appear are DISABLED. -/
def execVfEnable (on : Bool) (numVfs t : Nat) (s : State) : Host.Outcome State Fault Refusal :=
  if !s.fnLive 0 then .next s
  else
    let s1 := s.atNs t
    let total := min 255 (1984 / s1.power.vfVectors)
    let old := s1.vfs
    let s2 : State := { s1 with power := { s1.power with vfEnable := on, numVfs := min numVfs total } }
    let new := s2.vfs
    if s.power.devState = .booting then .next s2
    else .next (((new.filter (!old.contains ·)).foldl (fun s n => s.modInst n (·.appear)) s2).stageRemovals (old.filter (!new.contains ·)))

-- ATS AND THE LINK (R329, R471) --------------------------------------------------------------------------------------------------------------------------------------------------------

/-- ATS_INVALIDATION: the cached translations of a range go, and the invalidation completes; no access is outstanding between commands. -/
def execAtsInvalidation (n iova len : Nat) (s : State) : Host.Outcome State Fault Refusal :=
  if !s.fnLive n then .next s
  else .next (({ s with ats := s.ats.filter fun x => !(x.1 == n && decide (iova / 4096 ≤ x.2) && decide (x.2 * 4096 < iova + len)) } : State).emit (.atsDone n iova len))

/-- LINK_DOWN: the link leaves L0. -/
def execLinkDown (s : State) : Host.Outcome State Fault Refusal :=
  if !s.power.mainPower || s.power.perst || !s.power.linkUp then .next s
  else .next (({ s with power := { s.power with linkUp := false } } : State).raise Config.evLinkDown)

/-- LINK_UP after `ms` milliseconds: the link is in L0 with a width and a speed. -/
def execLinkUp (width speed ms : Nat) (s : State) : Host.Outcome State Fault Refusal :=
  if !s.power.mainPower || s.power.perst || s.power.linkUp || !(width == 1 || width == 4 || width == 8 || width == 16) || speed = 0 || 6 < speed then .next s
  else
    let s1 := s.elapse (ms * 1000000)
    .next (({ s1 with power := { s1.power with linkUp := true, linkWasUp := true, width := width, speed := speed } } : State).raise Config.evLinkUp)

-- THE HOST'S COMPLETIONS (R24, R329, R372) ------------------------------------------------------------------------------------------------------------------------------------------------

/-- A translation enters the cache of 4,096. -/
def atsInsert (l : List (Nat × Nat)) (x : Nat × Nat) : List (Nat × Nat) :=
  let m := l.filter (· != x) ++ [x]
  m.drop (m.length - 4096)

/-- The host refuses an access: the job fails with MEM_FAULT, or the queue is in ERROR. -/
def State.hostRefuses (s : State) (n : Nat) : HostAccess → State
  | .job jid => match s.job? jid with
    | none => s
    | some j =>
      if j.inst != n || j.state != .running then s
      else
        let d := j.dieSet.headD 0
        s.failPart jid d ((((s.dieD d).morsels.filter (·.jid == jid)).map (·.stage)).foldl min 0xFFFF) Config.stMemFault []
  | .sq q => match (s.instD n).sq? q with
    | none => s
    | some x => if x.state = .active then s.sqError n q else s
  | .cq q => match (s.instD n).cq? q with
    | none => s
    | some x => if x.state = .active then s.cqError n q else s

/-- HOST_COMPLETION: read data or a translation returns, or the host refuses; an answer to an access of an old generation is stale. -/
def execHostCompletion (n : Nat) (gen : BitVec 16) (a : HostAccess) (c : HostCpl) (s : State) : Host.Outcome State Fault Refusal :=
  if !s.fnLive n then .next s
  else if gen != (s.instD n).gen then .next (s.countStale n fun i => { i with staleDma := satAdd 32 i.staleDma 1 })
  else match c with
    | .readData => .next s
    | .translation iova => .next { s with ats := atsInsert s.ats (n, iova / 4096) }
    | .refused => .next (s.hostRefuses n a)

end Sys2Proof.Machine
end

