-- ==== Sys2Proof/Machine/Power.lean ====
section
/-!
DEFINITION. Power and resets: PERST# and main power (R486, R489, R496), the cold reset, the warm device reset (R490), the bring-up steps and what they
validate, test and map (R190, R438, R463, R492 to R495), rails, temperatures and the Keeper watchdog (R481, R483, R488, R497, R499), the calendar (R446,
R447).
-/

namespace Sys2Proof.Machine

-- WHAT A RESET KEEPS (R489) -----------------------------------------------------------------------------------------------------------------------------

/-- A way after a reset: a disabled way stays disabled, from its record. -/
def Way.kept (w : Way) : Way := if w.state = .disabled then { Way.reset with state := .disabled, cerr := w.cerr } else Way.reset

/-- A stack after a reset: its spare-bank record stays. -/
def Stack.kept (x : Stack) : Stack := { Stack.reset with sparesLeft := x.sparesLeft, remapped := x.remapped }

/-- A die after a cold reset. -/
def Die.coldKept (p : Part) (d : Nat) (x : Die) : Die :=
  { Die.reset p d with
    cc := { CombCache.reset with ways := x.cc.ways.map (·.kept) }
    rlm := x.rlm.map (·.kept) }

/-- A die after a warm device reset: the counts since cold reset, its causes and its spare lanes stay too. -/
def Die.warmKept (p : Part) (d : Nat) (x : Die) : Die :=
  { Die.coldKept p d x with
    cause := x.cause
    crestSpares := x.crestSpares
    ringSpares := x.ringSpares
    amu := { Amu.reset with
      sweepPasses := x.amu.sweepPasses
      sweepFix := x.amu.sweepFix
      parityFix := x.amu.parityFix
      shadowFaults := x.amu.shadowFaults }
    rlm := x.rlm.map fun (y : Stack) => { y.kept with ueCount := y.ueCount, ceCount := y.ceCount } }

/-- Host memory is no part of the device: it outlasts a reset. -/
def hostCells (m : List Host.Cell) : List Host.Cell := m.filter fun c => decide (2 ^ 48 ≤ c.1)

/-- What MRAM, the calendar and the audit log keep of Keeper; an RWP write that has not been committed is lost. -/
def Keeper.persisted (k : Keeper) : Keeper :=
  { Keeper.reset with
    copyA := k.copyA
    copyB := k.copyB
    log := { k.log with cursor := 0 }
    calTime := k.calTime
    calFrac := k.calFrac
    calValid := k.calValid
    vbatLost := k.vbatLost
    calRunning := k.calRunning }

/-- The model's own counters, the commands that wait, what has been sent, and host memory stay over every reset. -/
def State.outside (s old : State) : State :=
  { s with
    pending := old.pending
    mem := hostCells old.mem
    out := old.out
    nextJid := old.nextJid
    nextMid := old.nextMid
    draw := old.draw }

-- COLD RESET (R489, R492) ----------------------------------------------------------------------------------------------------------------------------------

/-- THE COLD RESET at the deassertion of PERST#. -/
def State.coldReset (s : State) : State :=
  let c := State.cold s.part
  { c.outside s with
    dies := s.dies.mapIdx fun d x => x.coldKept s.part d
    keeper := s.keeper.persisted
    propolis := { c.propolis with minSvn := s.propolis.minSvn, flashA := s.propolis.flashA, flashB := s.propolis.flashB }
    power := { c.power with
      bootCause := s.power.nextCause
      unavailNs := s.power.unavailNs
      uptimeNs := s.power.uptimeNs } }

/-- PERST_ASSERT: a running reset or bring-up is abandoned, and the device waits (R496). -/
def execPerstAssert (s : State) : Host.Outcome State Fault Refusal :=
  if s.power.perst then .next s
  else .next { s with power := { s.power with
    perst := true
    devState := .booting
    step := 0
    recovery := false
    linkUp := false
    warmPending := none
    nextCause := if s.power.nextCause = 4 then 4 else 1 } }

/-- PERST_DEASSERT: the cold reset begins, with step 1 of bring-up (R489, R492). -/
def execPerstDeassert (s : State) : Host.Outcome State Fault Refusal :=
  if s.power.mainPower && s.power.perst then .next s.coldReset else .next s

/-- MAIN_POWER_ON: the rails are up, with PERST# held (R486, R487). -/
def execMainPowerOn (s : State) : Host.Outcome State Fault Refusal :=
  if s.power.mainPower then .next s
  else .next { s with power := { s.power with
    mainPower := true
    perst := true
    nextCause := if s.power.nextCause = 4 then 4 else 0 } }

/-- What a loss of main power leaves of a commit that runs (R437, R438): the write of A is cut, or that of B, which may not have begun. -/
def Keeper.cut (k : Keeper) (cut : CommitCut) (begun : Bool) : Keeper :=
  let new : MramCopy := { valid := true, seq := k.copyA.seq + 1, content := applyWaiters k.copyA.content k.running }
  if k.running = [] then k
  else match cut with
    | .untouched => k
    | .inA => { k with copyA := { k.copyA with valid := false } }
    | .inB => { k with copyA := new, copyB := if begun then { k.copyB with valid := false } else k.copyB }

/-- MAIN_POWER_OFF: the device is off; a commit may be cut short, the calendar runs on, and THERM_TRIP# is released (R437, R445, R486, R499). -/
def execMainPowerOff (cut : CommitCut) (s : State) : Host.Outcome State Fault Refusal :=
  if !s.power.mainPower then .next s
  else
    let s1 := s.drawn
    .next { s1 with
      keeper := { s.keeper.cut cut (Config.cutInCopyB s.draw) with waiting := [] }
      power := { s1.power with
        mainPower := false
        perst := true
        devState := .booting
        step := 0
        recovery := false
        linkUp := false
        warmPending := none
        thermTrip := false } }

/-- CALENDAR_STOP: VBAT falls below its limit while main power is off (R447, R508). -/
def execCalendarStop (s : State) : Host.Outcome State Fault Refusal :=
  if s.power.mainPower then .next s else .next { s with keeper := { s.keeper with calRunning := false } }

-- WARM DEVICE RESET (R489 to R491) ---------------------------------------------------------------------------------------------------------------------------

/-- The instances whose IMEAS registers are not all zero are recorded in MEAS24 and cleared (R466). -/
def State.recordImeas (s : State) : State :=
  ((List.range 256).filter fun n => (s.instD n).imeas.any (!allZero ·)).foldl (fun s n => s.clearImeas n) s

/-- THE WARM DEVICE RESET, after step 1 of a boundary: all work ends without completion, and bring-up runs from step 3 (R490). -/
def State.warmReset (s : State) (cause : Nat) : State :=
  let s1 := s.recordImeas
  let c := State.cold s.part
  { c.outside s1 with
    frame := { c.frame with
      periodActive := s.frame.periodActive
      boundaries := s.frame.boundaries
      overrunTotal := s.frame.overrunTotal
      stretchCount := s.frame.stretchCount
      boundExcessTotal := s.frame.boundExcessTotal
      startNs := s.power.uptimeNs }
    dies := s1.dies.mapIdx fun d x => x.warmKept s.part d
    insts := s1.insts.mapIdx fun n x => { Inst.reset s.part n with msix := x.msix, d3hot := x.d3hot }
    settings := { c.settings with
      readyOverflowTotal := s.settings.readyOverflowTotal
      deferredTotal := s.settings.deferredTotal
      commitDeferTotal := s.settings.commitDeferTotal
      rlmUeTotal := s.settings.rlmUeTotal }
    keeper := { s1.keeper.persisted with
      persistCommits := s.keeper.persistCommits
      abortTotal := s.keeper.abortTotal
      oobDrop := s.keeper.oobDrop
      keeperFamily := s.keeper.keeperFamily
      restarts := s.keeper.restarts
      restartTimes := s.keeper.restartTimes }
    propolis := { c.propolis with
      meas := s1.propolis.meas
      minSvn := s.propolis.minSvn
      bootSlot := s.propolis.runSlot
      runSlot := s.propolis.runSlot
      cmpFault := s.propolis.cmpFault
      cmpFlip := s.propolis.cmpFlip
      flashA := s.propolis.flashA
      flashB := s.propolis.flashB }
    events := { c.events with pend := s.events.pend, count := s.events.count }
    power := { s.power with
      devState := .booting
      step := 3
      recovery := false
      bootCause := cause
      failCause := 0
      warmPending := none
      warmResets := satAdd 32 s.power.warmResets 1
      fclkNow := s.part.fclkMHz
      tempMax := -32768
      frameMax := -32768
      temps := List.replicate 9 (-32768)
      crit := false
      critDrop := false
      sinceStep := 64
      coolFrames := 0 }
    fabric := { c.fabric with
      ports := s.fabric.ports.map fun (p : Port) => { p with state := .down, enablePending := false }
      lossTotal := s.fabric.lossTotal
      splitTotal := s.fabric.splitTotal }
    saddle := { c.saddle with fails := s.saddle.fails, spares := s.saddle.spares } }

-- BRING-UP (R492, R493) -----------------------------------------------------------------------------------------------------------------------------------------

/-- The device enters FAILED with a FAIL_CAUSE. -/
def State.failBringup (s : State) (cause : Nat) : State := { s with power := { s.power with devState := .failed, failCause := cause, step := 0 } }

/-- A die is brought up fenced (R493): it holds no resource, and DIE_FENCE asserts. -/
def State.bringFenced (s : State) (d : Nat) : State :=
  if !(s.dieD d).active then s
  else
    let s1 := s.modDie d fun x => { x with active := false, fence := .fenced }
    ({ s1 with insts := s1.insts.map fun (i : Inst) => { i with alloc := i.alloc.fenced d } } : State).raise (Config.evDieFence d)

/-- Fence the dies of a list; with none left, FAILED; else the next step. -/
def State.fenceFailed (s : State) (ds : List Nat) : State :=
  let s1 := ds.foldl (fun s d => s.bringFenced d) s
  if s1.activeDies = [] then s1.failBringup 3 else s1

/-- Step 2: the ROM runs the first Keeper image that it accepts, of the preferred slot and then of the other (R463, R495). -/
def State.bootKeeper (s : State) : State :=
  let pref := if s.keeper.copyA.valid then s.keeper.copyA.content.bootPref else if s.keeper.copyB.valid then s.keeper.copyB.content.bootPref else 0
  let run := fun (s : State) (k : Nat) =>
    let f := (s.propolis.slot k).keeper
    let s1 := s.extendMeas 0 (fwHeaderDigest f)
    ({ s1 with
      propolis := { s1.propolis with bootSlot := k, runSlot := k }
      keeper := { s1.keeper with keeperFamily := BitVec.ofNat 16 (fwFamily f) } } : State)
  let a := s.fwCheck (s.propolis.slot pref).keeper 1
  if a.2 then run a.1 pref
  else
    let b := a.1.fwCheck (s.propolis.slot (1 - pref)).keeper 1
    if b.2 then (run b.1 (1 - pref)).raise Config.evBootFallback
    else { b.1.failBringup 1 with power := { (b.1.failBringup 1).power with recovery := true } }

/-- The choice between the two MRAM copies: its case, 0 for none, and the copy (R438). -/
def Keeper.validate (k : Keeper) : Nat × MramCopy :=
  match k.copyA.valid, k.copyB.valid with
  | true, true =>
    if k.copyA.seq = k.copyB.seq then (if k.copyA.content = k.copyB.content then 0 else 4, k.copyA)
    else (3, if k.copyB.seq.toNat < k.copyA.seq.toNat then k.copyA else k.copyB)
  | true, false => (1, k.copyA)
  | false, true => (2, k.copyB)
  | false, false => (5, MramCopy.initial)

/-- Both copies hold what the validation chooses, with event PERSIST_RECOVERED and a record of KIND PERSIST where a copy had to be rewritten (R438). -/
def State.validateRwp (s : State) : State :=
  let v := s.keeper.validate
  let seqOf := fun (c : MramCopy) => if c.valid then c.seq.setWidth 64 else 0
  let s1 : State := { s with keeper := { s.keeper with copyA := v.2, copyB := v.2, rwp := v.2.content, persistCase := v.1 } }
  if v.1 = 0 then s1
  else (s1.raise Config.evPersistRecovered).audit 3 0 0 0xA020 v.1 (oldNew (seqOf s.keeper.copyA) (seqOf s.keeper.copyB))

/-- A stopped calendar starts again at 0 (R447). -/
def State.restartCalendar (s : State) : State :=
  if s.keeper.calRunning then s
  else ({ s with keeper := { s.keeper with
    calTime := 0
    calFrac := 0
    calValid := false
    disciplined := false
    vbatLost := true
    calRunning := true } } : State).raise Config.evCalInvalid

/-- Step 3: the RWP values come into force, and MEAS2 is extended (R38, R363, R419, R438, R465, R517). -/
def State.startKeeper (s : State) : State :=
  let s1 := s.validateRwp.restartCalendar
  let r := s1.keeper.rwp
  let s2 : State := { s1 with
    frame := { s1.frame with periodActive := r.framePeriod }
    fabric := { s1.fabric with
      portModeActive := r.portMode
      deviceIdActive := if r.deviceIdSet then some r.deviceId else none }
    power := { s1.power with vfVectors := r.vfVectors } }
  s2.extendMeas 2 (sha256 (r.serial s2.fabric.portCount))

/-- The Saddle site in step 4 (R36). -/
def State.bringSaddle (s : State) (report : Option (List Byte)) : State :=
  if !s.part.g then s
  else match report with
    | some bs => ({ s with saddle := { s.saddle with state := 2 } } : State).extendMeas 3 (sha256 bs)
    | none => { s with saddle := { s.saddle with state := 3, fails := satAdd 32 s.saddle.fails 1 } }

/-- The map of a die: the physical Foragers that pass, ascending (R190). -/
def mapFgrs (failed : List Nat) : List (Option Nat) :=
  let ok := (List.range 68).filter (!failed.contains ·)
  (List.range 64).map (ok[·]?)

/-- Step 6: the Foragers are tested and mapped; a die left without one is fenced, and core-frames above ACTIVE go (R190, R192, R493). -/
def State.bringFgrs (s : State) (bad : List FId) : State :=
  let failedOf := fun (d : Nat) => (List.range 68).filter fun p => bad.contains { die := d, fgr := p }
  let s1 : State := { s with dies := s.dies.mapIdx fun d (x : Die) =>
    if x.active then { x with failed := failedOf d, map := mapFgrs (failedOf d) } else x }
  let s2 := s1.fenceFailed ((List.range 8).filter fun d => (s1.dieD d).active && (s1.dieD d).activeFgrs == 0)
  if s2.power.devState = .failed then s2 else s2.activeDies.foldl (fun s d => s.trimCores d 64) s2

/-- Step 7: Keeper takes the Runtime image of the slot that it booted from (R463). -/
def State.loadRuntime (s : State) : State :=
  let f := (s.propolis.slot s.propolis.bootSlot).runtime
  let a := s.fwCheck f 2
  if !a.2 then a.1.failBringup 2
  else
    let s1 := a.1.extendMeas 1 (fwHeaderDigest f)
    { s1 with keeper := { s1.keeper with runtimeFamily := BitVec.ofNat 16 (fwFamily f) } }

/-- Step 8: the frame generator starts with frame 0 (R40, R43, R492). -/
def State.startFrames (s : State) : State :=
  { s with frame := { s.frame with
      number := 0
      closed := 0
      startNs := s.power.uptimeNs
      sync := if s.keeper.rwp.syncMode = 1 then .locking else .free } }

/-- Step 9: READY. Instance 0 is ENABLED, the VFs that configuration space keeps are there, and the Associative Match Unit's blocks follow the shares. -/
def State.becomeReady (s : State) : State :=
  let s1 : State := { s with power := { s.power with devState := .ready, bootTime := s.keeper.calTime } }
  let s2 := (s1.modInst 0 fun i => { i with state := .enabled })
  let s3 := s1.vfs.foldl (fun s n => s.modInst n (·.appear)) s2
  let s4 := (List.range 8).foldl (fun s d => s.setBlocks d) s3
  { s4 with dies := s4.dies.map fun (d : Die) =>
      { d with amu := { d.amu with blocks := d.amu.blocks.map fun (b : AmuBlock) => { b with clearing := false } } } }

/-- What the completion of bring-up step `k` does (R492). -/
def State.bringupStep (s : State) (k : Nat) (e : BringupEnv) : State :=
  match k with
  | 2 => s.bootKeeper
  | 3 => s.startKeeper
  | 4 => (s.fenceFailed e.failedDies).bringSaddle e.saddleReport
  | 5 => s.fenceFailed e.failedDies
  | 6 => s.bringFgrs e.failedFgrs
  | 7 => s.loadRuntime
  | 8 => s.startFrames
  | 9 => s.becomeReady
  | _ => s

/-- BRINGUP_STEP_COMPLETE: the running step finishes after `ms` milliseconds, and the next one runs; step 1 finishes with the link in L0 (R492). -/
def execBringupStepComplete (e : BringupEnv) (s : State) : Host.Outcome State Fault Refusal :=
  let k := s.power.step
  if !s.powered || s.power.devState != .booting || k == 0 || (k == 1 && !s.power.linkUp) then .next s
  else
    let s1 := (s.elapse (e.ms * 1000000)).bringupStep k e
    .next (if s1.power.devState = .failed then s1 else { s1 with power := { s1.power with step := if k = 9 then 0 else k + 1 } })

/-- BRINGUP_TIMEOUT: a step misses its limit: training is retried, the ROM stays in recovery, the device is FAILED, or the step's failures are fenced
when it completes (R492, R493). -/
def execBringupTimeout (s : State) : Host.Outcome State Fault Refusal :=
  if !s.powered || s.power.devState != .booting then .next s
  else match s.power.step with
    | 2 =>
      let t := s.failBringup 1
      .next { t with power := { t.power with recovery := true } }
    | 3 | 8 | 9 => .next (s.failBringup 4)
    | 7 => .next (s.failBringup 2)
    | _ => .next s

-- RAILS AND TEMPERATURES (R488, R497, R499) --------------------------------------------------------------------------------------------------------------------------

/-- RAIL_FAULT of a rail in the order of R486: its bit in RAIL_STATUS and the event; FAILED during bring-up, else a DEVICE-class error (R488, R496). -/
def execRailFault (rail : Nat) (s : State) : Host.Outcome State Fault Refusal :=
  if !s.powered || 6 ≤ rail then .next s
  else
    let s1 := ({ s with power := { s.power with railStatus := s.power.railStatus ||| (1#16 <<< rail) } } : State).raise Config.evRailFault
    .next (match s.power.devState with
      | .booting => s1.failBringup 5
      | _ => s1.deviceError)

/-- The temperatures of the sensors that exist: an absent die has none. -/
def State.sampled (s : State) (temps : List Int) : List Int :=
  (List.range 9).map fun k => if k = 8 ∨ (s.dieD k).present then temps.getD k (-32768) else -32768

/-- THERMAL_SAMPLE: nine sensors are read. A junction at CRIT_C starts the critical condition, all below CRIT_C - 5 end it, and 125 °C trips (R497,
R499). -/
def execThermalSample (temps : List Int) (s : State) : Host.Outcome State Fault Refusal :=
  if !s.powered then .next s
  else
    let ts := s.sampled temps
    let top := ts.foldl max (-32768)
    let p := s.power
    let hot := decide ((s.keeper.rwp.critC : Int) ≤ top)
    let cool := decide (top < (s.keeper.rwp.critC : Int) - 5)
    let trip := decide (125 ≤ top)
    .next { s with power := { p with
      temps := ts
      frameMax := max p.frameMax top
      crit := hot || (p.crit && !cool)
      critDrop := p.critDrop || (hot && !p.crit)
      thermTrip := p.thermTrip || trip
      combClocks := p.combClocks && !trip
      nextCause := if trip then 4 else p.nextCause } }

/-- THROTTLE_STEP_UP: after 1,024 frames with every junction below THROTTLE_C - 5, at a boundary, the clock rises by one step (R497). -/
def execThrottleStepUp (s : State) : Host.Outcome State Fault Refusal :=
  let p := s.power
  if !s.powered || p.uptimeNs != s.frame.startNs || p.coolFrames < 1024 || s.part.fclkMHz ≤ p.fclkNow then .next s
  else .next { s with power := { p with fclkNow := min s.part.fclkMHz (p.fclkNow + 200), coolFrames := 0 } }

-- KEEPER RESTARTS AND THE SWITCH (R448, R481, R483) ------------------------------------------------------------------------------------------------------------------

/-- KEEPER_WATCHDOG: Keeper restarts from its running slot: sessions abort, and new requests are held. -/
def execKeeperWatchdog (s : State) : Host.Outcome State Fault Refusal :=
  if !s.keeperUp || s.power.recovery || s.keeper.restarting then .next s
  else
    let s1 := s.abortSessions
    .next { s1 with keeper := { s1.keeper with restarting := true } }

/-- KEEPER_RESTART: the restart completes; the fourth within one hour is a DEVICE-class error; what was held is answered. -/
def execKeeperRestart (s : State) : Host.Outcome State Fault Refusal :=
  if !s.keeper.restarting || !s.powered then .next s
  else
    let hour := 3600000000000
    let recent := (s.keeper.restartTimes.filter fun t => s.power.uptimeNs < t + hour) ++ [s.power.uptimeNs]
    let s1 := ({ s with keeper := { s.keeper with
      restarting := false
      restarts := satAdd 32 s.keeper.restarts 1
      restartTimes := recent } } : State).raise Config.evKeeperRestart
    let s2 := if 4 ≤ recent.length then s1.deviceError else s1
    .next (if s2.keeperHolds then s2 else s2.serveHeld)

/-- FW_SWITCH_FAIL: the new Keeper is not ready, and the old one is back (R483). -/
def execFwSwitchFail (s : State) : Host.Outcome State Fault Refusal :=
  if s.propolis.switch != .newKeeper || !s.powered then .next s
  else
    let s1 := ({ s with propolis := { s.propolis with switch := .none, fwState := 3 } } : State).raise Config.evFwSwitchFail
    .next (if s1.keeperHolds then s1 else s1.serveHeld)

end Sys2Proof.Machine
end

