-- ==== Sys2Proof/Machine/Frame.lean ====
section
/-!
DEFINITION. The frame tick and its six steps (R40, R43, R50 to R60, R196 to R204, R483, R490, R497), and what the time unit does to the frame generator and
the calendar (R43, R398, R446).
-/

namespace Sys2Proof.Config

/-- TEMP_MAX_C of a completed frame in which no sample was taken (R500 states none), drawn with the counter. DESIGN CHOICE, notes/assumptions/26.md. -/
opaque tempMaxNoSample : Nat → BitVec 16

end Sys2Proof.Config

namespace Sys2Proof.Machine

-- THE TIME UNIT (R43, R398) -----------------------------------------------------------------------------------------------------------------------------

/-- Frames run: from step 8 of bring-up, until the device has failed. -/
def State.framesRun (s : State) : Bool := s.powered && (s.power.devState == .ready || (s.power.devState == .booting && s.power.step == 9))

/-- The time unit is locked: 16 sync intervals in a row within ±100 ns. -/
def FrameGen.unitLocked (f : FrameGen) : Bool := decide (16 ≤ f.good)

/-- PTP_MESSAGE: the time unit reports its offset; beyond ±1 µs in LOCKED or HOLDOVER alignment is lost, and from ALIGN_LOST a locked time unit leads to
LOCKING. -/
def execPtpMessage (offsetNs : Int) (s : State) : Host.Outcome State Fault Refusal :=
  if !s.framesRun then .next s
  else
    let near := decide (offsetNs.natAbs ≤ 100)
    let f : FrameGen := { s.frame with offsetNs := offsetNs, good := if near then s.frame.good + 1 else 0 }
    let s1 : State := { s with frame := f, keeper := { s.keeper with disciplined := s.keeper.disciplined && near } }
    if (f.sync == .locked || f.sync == .holdover) && decide (1000 < offsetNs.natAbs) then
      .next (({ s1 with frame := { f with sync := .alignLost, lockNext := false } } : State).raise Config.evAlignLost)
    else if f.sync == .alignLost && f.unitLocked then .next { s1 with frame := { f with sync := .locking } }
    else .next s1

/-- LOCKING_COMPLETE at TAI time `taiNs`: the frame is lengthened to the aligned boundary of the smallest k that lies a FRAME_PERIOD ahead. -/
def execLockingComplete (taiNs : Nat) (s : State) : Host.Outcome State Fault Refusal :=
  if !s.framesRun || s.frame.sync != .locking || !s.frame.unitLocked || s.frame.stretchTo.isSome then .next s
  else
    let t0 := s.keeper.rwp.t0TaiNs.toNat
    let k := ceilDiv (taiNs + s.periodNs - t0) s.periodNs
    .next { s with frame := { s.frame with stretchTo := some (BitVec.ofNat 64 k, s.power.uptimeNs + (t0 + k * s.periodNs - taiNs)) } }

/-- ENTER_HOLDOVER: PTP messages stop while LOCKED. -/
def execEnterHoldover (s : State) : Host.Outcome State Fault Refusal :=
  if !s.framesRun || s.frame.sync != .locked then .next s
  else .next (({ s with
    frame := { s.frame with sync := .holdover, good := 0 }
    keeper := { s.keeper with disciplined := false } } : State).raise Config.evSyncHoldover)

/-- RELOCK: in HOLDOVER the time unit has locked again; SYNC_STATE becomes LOCKED at the next boundary. -/
def execRelock (s : State) : Host.Outcome State Fault Refusal :=
  if !s.framesRun || s.frame.sync != .holdover || !s.frame.unitLocked then .next s
  else .next { s with frame := { s.frame with lockNext := true } }

/-- CAL_DISCIPLINE: at a PTP second of a locked time unit, Keeper sets CAL_TIME, and UTC_OFFSET where PTP supplies it (R445, R446). -/
def execCalDiscipline (taiSec : Nat) (utcOffset : Option Nat) (s : State) : Host.Outcome State Fault Refusal :=
  if !s.framesRun || s.keeper.restarting || !s.frame.unitLocked then .next s
  else
    let r := s.keeper.rwp
    .next { s with keeper := { s.keeper with
      calTime := BitVec.ofNat 64 (taiSec * 32768)
      calFrac := 0
      calValid := true
      disciplined := true
      rwp := match utcOffset with
        | some v => if r.utcSrc = 1 then { r with utcOffset := v } else r
        | none => r } }

-- OVERRUNS (R50 to R54, R498) ---------------------------------------------------------------------------------------------------------------------------------

/-- A Forager that a boundary finds running: executing, or waiting for the Saddle. -/
def Fgr.runs (g : Fgr) : Bool := match g.run with
  | .running | .saddle _ => true
  | _ => false

/-- The morsels that the tick finds running, each with its die. -/
def State.runningNow (s : State) : List (Nat × Morsel) :=
  s.dies.zipIdx.flatMap fun x =>
    ((x.1.fgrs.filter (·.runs)).filterMap (·.morsel) ++ x.1.units.filterMap (·.morsel)).map fun m => (x.2, m)

/-- A Forager at the tick: it issues no further instruction. -/
def Fgr.preempt (g : Fgr) : Fgr := match g.run with
  | .running => { g with run := .preempted }
  | .saddle rd => { g with run := .saddleHeld rd }
  | _ => g

/-- A morsel with one more overrun in a row. -/
def Morsel.overran (m : Morsel) : Morsel := { m with overruns := m.overruns + 1 }

/-- The morsel `mid` of die `d` has overrun once more; `limit` says that the overrun counts toward OVERRUN_LIMIT. -/
def Die.markOverrun (x : Die) (mid : Nat) (limit : Bool) : Die :=
  let mark := fun (m : Morsel) => if m.mid = mid ∧ limit then m.overran else m
  { x with
    fgrs := x.fgrs.map fun g => if g.morsel.elim false (·.mid == mid) then { g.preempt with morsel := g.morsel.map mark } else g
    units := x.units.map fun u => { u with morsel := u.morsel.map mark } }

/-- One overrun: the counters of instance, die and device, and the morsel's own; while the clock is throttled a bound beyond the frame counts apart (R498).
`cycles` are the Forager cycles of the frame that closes. -/
def State.countOverrun (s : State) (cycles : Nat) (throttled : Bool) (x : Nat × Morsel) : State :=
  let unit_ := (s.dieD x.1).units.any fun u => u.morsel.elim false (·.mid == x.2.mid)
  let apart := throttled && !unit_ && decide (cycles < x.2.bound + 64)
  let s1 := (s.modInstStat x.1 x.2.inst fun b => { b with overrun := satAdd 16 b.overrun 1 }).modStat x.1 fun b =>
    { b with overrun := satAdd 16 b.overrun 1 }
  let s2 : State := { s1 with
    frame := { s1.frame with overrunTotal := satAdd 64 s1.frame.overrunTotal 1, overrunLast := satAdd 16 s1.frame.overrunLast 1 }
    power := { s1.power with throttleOverrun := if apart then satAdd 64 s1.power.throttleOverrun 1 else s1.power.throttleOverrun } }
  (s2.modInst x.2.inst fun i => { i with overrunLast := satAdd 16 i.overrunLast 1 }).modDie x.1 (·.markOverrun x.2.mid (!apart))

/-- The overruns of a boundary, and FRAME_OVERRUN once for each die that has one. -/
def State.countOverruns (s : State) (cycles : Nat) (throttled : Bool) (xs : List (Nat × Morsel)) : State :=
  let s0 : State := { s with
    frame := { s.frame with overrunLast := 0 }
    insts := s.insts.map fun (i : Inst) => { i with overrunLast := 0 } }
  let s1 := xs.foldl (fun s x => s.countOverrun cycles throttled x) s0
  ((xs.map (·.1)).eraseDups).foldl (fun s d => s.raise (Config.evFrameOverrun d)) s1

/-- The latest dispatched first (R52). -/
def laterStart (a b : Morsel) : Bool := b.start < a.start || (b.start == a.start && b.mid ≤ a.mid)

/-- The morsels of instance `n` on die `d` beyond its core-frames, the most recently dispatched. -/
def State.beyondCores (s : State) (d n : Nat) : List Nat :=
  let ms := ((s.dieD d).fgrs.filter (!·.evictNext)).filterMap fun g => g.morsel.filter (·.inst == n)
  ((sortBy laterStart ms).take (ms.length - dieByte (s.instD n).alloc.coreFrames d)).map (·.mid)

/-- Evict what core-frames no longer cover (R52, R59). -/
def State.evictBeyond (s : State) : State :=
  (List.range 8).foldl (fun s d =>
    let held := (((s.dieD d).fgrs.filterMap (·.morsel)).map (·.inst)).eraseDups
    let gone := held.flatMap fun n => s.beyondCores d n
    if gone = [] then s else s.evictWhere d fun m => gone.contains m.mid) s

-- CLOCKS (R497) ---------------------------------------------------------------------------------------------------------------------------------------------------

/-- The Forager clock at a boundary, in step 2: the critical drop, or one step down; and the counts of the closing frame. -/
def State.stepClock (s : State) : State :=
  let p := s.power
  let r := s.keeper.rwp
  let top := p.temps.foldl max (-32768)
  let peak := max p.frameMax top
  let since := p.sinceStep + 1
  let none_ := p.frameMax == -32768
  let p1 := { p with
    throttleFrames := if p.fclkNow < s.part.fclkMHz then satAdd 64 p.throttleFrames 1 else p.throttleFrames
    tempMax := if none_ then sint 16 (Config.tempMaxNoSample s.draw).toNat else p.frameMax
    frameMax := -32768
    coolFrames := if peak < (r.throttleC : Int) - 5 then p.coolFrames + 1 else 0
    sinceStep := since
    critDrop := false }
  let s1 := s.drawn
  if p.critDrop then ({ s1 with power := { p1 with fclkNow := 1600 } } : State).raise Config.evThermalCrit
  else if (r.throttleC : Int) ≤ top ∧ 1600 < p.fclkNow ∧ 64 ≤ since then
    ({ s1 with power := { p1 with fclkNow := max 1600 (p.fclkNow - 200), sinceStep := 0 } } : State).raise Config.evThermalThrottle
  else { s1 with power := p1 }

-- STATISTICS (R196 to R204) -----------------------------------------------------------------------------------------------------------------------------------------

/-- What the blocks of die `d` say of the boundary: depths, slots and generations. -/
def State.statNow (s : State) (d : Nat) : DieStat :=
  let x := s.dieD d
  let st := { x.stat with
    levels := x.stat.levels.mapIdx fun k l =>
      let n := (x.ready.filter (·.level == k)).length
      (n, max l.2.1 n, l.2.2)
    readyNow := (x.ready.filter (!·.excess)).length
    readyMax := max x.stat.readyMax (x.ready.filter (!·.excess)).length
    excessNow := (x.ready.filter (·.excess)).length
    active := x.activeFgrs }
  let held := (List.range 256).filter fun n =>
    dieByte (s.instD n).alloc.coreFrames d != 0 || (s.instD n).gen != 0 || x.ready.any (·.inst == n) || st.insts.any (·.inst == n)
  held.foldl (fun (st : DieStat) n =>
    let mine := x.readyOf n
    st.modInst n fun b => { b with
      readyNow := mine.length
      readyMax := max b.readyMax mine.length
      slots := dieByte (s.instD n).alloc.coreFrames d
      gen := (s.instD n).gen
      excessNow := (mine.filter (·.excess)).length }) st

/-- Record the closing frame's depths on every die. -/
def State.recordNow (s : State) : State := (List.range 8).foldl (fun s d => s.modStat d fun _ => s.statNow d) s

/-- Busy cycles that a Forager gives to instances, none beyond the frame. -/
def busyOf (draw cycles : Nat) : List (Nat × Nat) → List (Nat × Nat × Nat)
  | [] => []
  | x :: xs =>
    let rest := busyOf draw cycles xs
    let used := ((rest.filter (·.1 == x.1)).map (·.2.2)).sum
    (x.1, x.2, min (Config.foragerBusy draw x.1 x.2) (cycles - used)) :: rest

/-- The snapshot of a die: its closing frame, with the busy cycles of its Foragers and units. A die that is absent or past its fence boundary reads 0. -/
def State.dieSnapshot (s : State) (d cycles : Nat) : DieStat :=
  let x := s.dieD d
  if !x.present || x.fence.on then DieStat.reset
  else
    let busy := busyOf s.draw cycles x.stat.ran.eraseDups
    { x.stat with
      foragerBusy := (List.range 64).map fun l => ((busy.filter (·.1 == l)).map (·.2.2)).sum
      unitBusy := (List.range 32).map fun u => min (s.unitCycles) ((x.units.getD u UnitSt.reset).busy)
      insts := x.stat.insts.map fun b => { b with foragerBusy := ((busy.filter (·.2.1 == b.inst)).map (·.2.2)).sum } }

/-- The statistics with which a die opens a frame: its depths, and the Foragers whose morsel is still to be saved. -/
def Die.openStat (x : Die) : DieStat :=
  let seed := { DieStat.reset with
    levels := (List.range 8).map fun k => (0, (x.ready.filter (·.level == k)).length, 0)
    readyMax := (x.ready.filter (!·.excess)).length
    ran := x.map.zipIdx.filterMap fun y => y.1.bind fun p => x.fgrs[p]?.bind fun g =>
      if g.run == .preempted then g.morsel.map fun m => (y.2, m.inst) else none }
  ((x.ready.map (·.inst)).eraseDups).foldl (fun (st : DieStat) n => st.modInst n fun b => { b with readyMax := (x.readyOf n).length }) seed

/-- A window changes, or holds (R198, R199). -/
def StatWin.change (w : StatWin) (closed : W64) (snap : List DieStat) (holdMax : Nat) : StatWin :=
  let shown := fun (w : StatWin) => { w with frame := closed, seq := w.seq + 1, shown := snap }
  if w.holdActive then (if w.holdLeft = 0 then shown w.expire else { w with holdLeft := w.holdLeft - 1 })
  else if w.hold then { (shown w) with holdActive := true, holdLeft := holdMax }
  else shown w

/-- STEP 6 OF R55: the snapshot of the closing frame. -/
def State.stepStats (s : State) (cycles : Nat) : State :=
  let snaps := (List.range 8).map fun d => s.dieSnapshot d cycles
  let fns := 0 :: s.vfs
  let late := fns.filter fun n => (s.instD n).stat.holdActive && (s.instD n).stat.holdLeft == 0
  let s1 : State := { s.drawn with dies := s.dies.mapIdx fun d (x : Die) => { x with snap := snaps.getD d DieStat.reset, stat := x.openStat } }
  let s2 := fns.foldl (fun s n => s.modInst n fun i => { i with stat := i.stat.change s.frame.closed snaps s.settings.statHoldMax }) s1
  late.foldl (fun s _ => s.raise Config.evStatHoldExpired) s2

-- STEP 3: INSTANCES (R57, R366 to R368, R375 to R379, R389) ------------------------------------------------------------------------------------------------------------

/-- A staged command applies; a removal of a VF that is there again ends DISABLED. -/
def State.applyStaged (s : State) (n : Nat) (c : InstCmd) : State :=
  match c with
  | .restore => s.doRestore n
  | .remove =>
    let t := s.applyCmd n .remove
    if s.vfs.contains n then t.modInst n fun i => if i.resetTo = .absent then { i with resetTo := .disabled } else i else t
  | _ => s.applyCmd n c

/-- A latched enable applies to a DISABLED instance (R11, R368), unless a staged reset or removal meets it. -/
def Inst.enableDue (i : Inst) : Bool :=
  i.enablePending && i.state == .disabled && !i.staged.any fun c => decide (c.left ≤ 1) && (c.cmd == .reset || c.cmd == .remove || c.cmd == .disable)

/-- The commands of an instance that are due. -/
def State.stepInst (s : State) (n : Nat) : State :=
  let due := (s.instD n).staged.filter (·.left ≤ 1)
  let s1 := s.modInst n fun i => { i with staged := (i.staged.filter (1 < ·.left)).map fun c => { c with left := c.left - 1 } }
  let s2 := if (s.instD n).enableDue then s1.modInst n fun i => { i.unlatch with state := .enabled } else s1
  due.foldl (fun s c => s.applyStaged n c.cmd) s2

/-- A freeze takes effect once no exchange job remains, and a disable once no job remains (R367, R376). -/
def State.settleInst (s : State) (n : Nat) : State :=
  match (s.instD n).state with
  | .freezing => if s.exchangeJobs n = [] then s.capture n else s
  | .disabling => if s.hasAdmitted n then s else s.modInst n fun i => { i with state := .disabled }
  | _ => s

/-- STEP 3 OF R55. -/
def State.stepInsts (s : State) : State :=
  let all := List.range 256
  let s1 := (all.filter fun n => (s.instD n).staged != [] || (s.instD n).enablePending).foldl (fun s n => s.stepInst n) s
  let s2 := s1.stepFences
  all.foldl (fun s n => s.settleInst n) s2

-- STEP 2 (R58, R191, R302, R312, R317, R497) -------------------------------------------------------------------------------------------------------------------------------

/-- STEP 2 OF R55, with what else changes at a boundary: ways that leave, banks that are remapped, the clock, retirements and spare lanes. -/
def State.stepResources (s : State) : State :=
  let s1 := s.applyChanges.leaveWays.startAllWays.remapBanks.stepClock
  (List.range 8).foldl (fun s d => (s.retireDue d).spareLanes d) s1

-- THE FRAME GENERATOR (R40, R43) -----------------------------------------------------------------------------------------------------------------------------------------

/-- FRAME_NUMBER of the frame that the boundary opens. -/
def FrameGen.opens (f : FrameGen) : W64 := match f.stretchTo with
  | some x => x.1
  | none => f.number + 1

/-- SYNC_STATE at a boundary: LOCKED after a lengthened frame or a relock, FREE where SYNC_MODE is 0. -/
def FrameGen.syncAt (f : FrameGen) (mode : Nat) : SyncSt :=
  if mode = 0 then .free
  else if f.stretchTo.isSome || (f.lockNext && f.sync == .holdover) then .locked
  else f.sync

/-- The frame generator opens a frame. -/
def State.openFrame (s : State) : State :=
  let f := s.frame
  let sync := f.syncAt s.keeper.rwp.syncMode
  let s1 : State := { s with frame := { f with
    number := f.opens
    closed := f.number
    startNs := s.power.uptimeNs
    boundaries := f.boundaries + 1
    stretchCount := if f.stretchTo.isSome then satAdd 32 f.stretchCount 1 else f.stretchCount
    stretchTo := none
    lockNext := false
    sync := sync
    offsetLast := f.offsetNs } }
  if sync == .locked && f.sync != .locked then s1.raise Config.evSyncLocked else s1

-- THE FIRMWARE SWITCH (R483) ------------------------------------------------------------------------------------------------------------------------------------------------

/-- The switch at a boundary: at S the new Keeper takes over; at S + 1 the new Runtime, with BOOT_PREF in both MRAM copies. -/
def State.stepSwitch (s : State) : State :=
  let k := 1 - s.propolis.runSlot
  let f := s.propolis.slot k
  match s.propolis.switch with
  | .none => s
  | .accepted =>
    let s1 := (s.extendMeas 25 (fwHeaderDigest f.keeper)).abortSessions
    { s1 with propolis := { s1.propolis with switch := .newKeeper } }
  | .newKeeper =>
    let s1 := s.extendMeas 25 (fwHeaderDigest f.runtime)
    let kp := s1.keeper.commit { s1.keeper.copyA.content with bootPref := k }
    let s2 : State := { s1 with
      propolis := { s1.propolis with runSlot := k, switch := .none, fwState := 0 }
      keeper := { kp with
        rwp := { kp.rwp with bootPref := k }
        keeperFamily := BitVec.ofNat 16 (fwFamily f.keeper)
        runtimeFamily := BitVec.ofNat 16 (fwFamily f.runtime) } }
    let s3 := s2.raise Config.evFwSwitchDone
    if s3.keeperHolds then s3 else s3.serveHeld

-- THE TICK (R55) -----------------------------------------------------------------------------------------------------------------------------------------------------------------

/-- Jobs that have failed or were aborted lose their running and parked work (R85). -/
def State.dropDead (s : State) : State := (s.jobs.filter (!·.alive)).foldl (fun s j => s.dropWork j.jid) s

/-- What starts again with every frame: the charges of the units, deferrals, the first stale item, the stacks' errors; and what counts boundaries. -/
def State.openCounts (s : State) : State :=
  { s with
    events := { s.events with staleSeen := false }
    dies := s.dies.map fun (d : Die) => { d with
      units := d.units.map fun (u : UnitSt) => { u with charged := [], busy := 0 }
      deferred := []
      rlm := d.rlm.map fun (x : Stack) => { x with ueNow := false } }
    insts := s.insts.map fun (i : Inst) => ({ i.snapDirty with sinceReset := i.sinceReset + 1 } : Inst).countStalls }

/-- The rest of a boundary after step 1, when no warm reset starts. -/
def State.boundary (s : State) : State :=
  let cycles := s.cyclesPerFrame
  let throttled := decide (s.power.fclkNow < s.part.fclkMHz)
  let s1 := s.dropDead.recordNow
  let ran := s1.runningNow
  let s2 := (s1.openFrame.stepResources).stepInsts
  let s3 := s2.countOverruns cycles throttled (ran.filter fun x => (s2.instD x.2.inst).state != .frozen)
  let s4 := s3.evictBeyond.stepWires.fabricBoundary
  ((s4.stepStats cycles).openCounts).stepSaddle.stepSwitch

/-- FRAME_TICK: time goes on to the boundary, the parts of distributed jobs move on, step 1 commits, and then a pending warm device reset starts, or the
other steps follow (R55, R490). -/
def execFrameTick (s : State) : Host.Outcome State Fault Refusal :=
  if !s.framesRun then .next s
  else
    let s1 := ((s.elapse (s.frameEndNs - s.power.uptimeNs)).advanceParts).commitStep s.frame.opens
    match s1.power.warmPending with
    | some cause => .next (s1.warmReset cause)
    | none => .next s1.boundary

end Sys2Proof.Machine
end

