-- ==== Sys2Proof/Machine/Units.lean ====
section
/-!
DEFINITION. The morsels of the fixed units, as they complete (Column Streamer R113 to R122, Hash Probe Engine R143 to R150, Merge Network
R165 to R168, Associative Match Unit R286 and R287, digest engines R459 to R461), and what the Associative Match Unit does by itself (R281,
R291, R293).
-/

namespace Sys2Proof.Machine

-- OUTPUT ------------------------------------------------------------------------------------------------------------------------------------

/-- The rows of a sink morsel as bytes of the result buffer: a free value (R175). -/
def sinkRows (h : DescHdr) (cols : List Column) : List Byte :=
  if (cols.head?.elim 0 (·.cells.length)) = 0 then []
  else Config.resultRows (layMorsel 0 h cols none).2 (cols.flatMap fun c => [c.data, c.validity, c.heap])

/-- A descriptor with its buffers goes to every output flow of the stage of morsel `m`. -/
def State.placeDesc (s : State) (d : Nat) (m : Morsel) (origin frag : Nat) (last : Bool) (desc : List Byte) (bufs : List (Nat × Nat)) :
    State :=
  s.placeAll m.jid d m.stage
    { origin := origin, frag := frag, last := last, rows := descRows desc, heap := descHeap desc, desc := desc, bufs := bufs }

/-- Columns that the stage of morsel `m` makes on die `d`: rows of its result buffer, or an output morsel in the arena. -/
def State.yieldColumns (s : State) (d : Nat) (st : Stage) (m : Morsel) (origin frag : Nat) (last : Bool) (h : DescHdr)
    (cols : List Column) : Res State :=
  if st.sink then s.sinkPut m (sinkRows h cols)
  else do
    let p ← s.emitColumns m d h cols none []
    .ok (p.1.placeDesc d m origin frag last p.2.1 p.2.2)

/-- The input's descriptor as a unit passes it on: entries that still point into the input's buffers (R286, R459). -/
def State.yieldPassed (s : State) (d : Nat) (st : Stage) (m : Morsel) (desc : List Byte) (bufs : List (Nat × Nat)) : Res State :=
  if st.sink then do
    let bs ← s.sinkBytes m.inst desc
    s.sinkPut m bs
  else .ok (s.placeDesc d m m.seq 0 true desc bufs)

/-- Where the rows of an output split into morsels: at the row limit and before the heap limit (R74). -/
def splitRows (rowLim heapLim : Nat) : List Nat → List Nat → Nat → List (List Nat)
  | [], cur, _ => if cur = [] then [] else [cur]
  | h :: hs, cur, i =>
    if cur.length < rowLim && cur.sum + h ≤ heapLim then splitRows rowLim heapLim hs (cur ++ [h]) (i + 1)
    else (if cur = [] then [] else [cur]) ++ splitRows rowLim heapLim hs [h] (i + 1)

/-- Emit output rows as fragments `frag`, … of an origin; no rows give one EMPTY morsel where `orEmpty`. `ends`: the last of them is the last
fragment of the origin (R121, R147, R166, R170). -/
def State.yieldSplit (s : State) (d : Nat) (j : Job) (st : Stage) (m : Morsel) (origin frag : Nat) (ends orEmpty : Bool)
    (h : DescHdr) (cols : List Column) : Res (State × Nat) := do
  let n := cols.head?.elim 0 (·.cells.length)
  let heaps := rowHeaps cols n
  let lim := j.image.heapLimit st
  need (heaps.all (· ≤ lim)) Config.stBoundExceeded
  let parts := splitRows (max 1 (j.image.rowLimit st)) lim heaps [] 0
  if parts = [] then
    if !orEmpty then .ok (s, frag)
    else do
      let t ← s.yieldColumns d st m origin frag ends { h with rows := 0, flags := h.flags ||| flagEmpty } (cols.map (·.pick []))
      .ok (t, frag + 1)
  else
    let p ← parts.foldlM (fun (acc : State × Nat × Nat) part => do
      let is := (List.range part.length).map (· + acc.2.2)
      let last := ends && acc.2.2 + part.length == n
      let t ← acc.1.yieldColumns d st m origin acc.2.1 last { h with rows := part.length } (cols.map (·.pick is))
      .ok (t, acc.2.1 + 1, acc.2.2 + part.length)) (s, frag, 0)
    .ok (p.1, p.2.1)

/-- The header fields that a unit carries over from its input. -/
def inHdr (m : Morsel) : DescHdr :=
  { seq := 0, rows := 0, cols := 0, flags := descFlags m.desc / flagGroupLast % 2 * flagGroupLast, first := descFirst m.desc }

-- COLUMN STREAMER (R113 to R122) ----------------------------------------------------------------------------------------------------------------

/-- Write a streamer's output into the room that its dispatch reserved, which shrinks to the output's size (R115). -/
def State.yieldReserved (s : State) (d : Nat) (st : Stage) (j : Job) (m : Morsel) (x : Streamed) (first : Nat) : Res State :=
  let h : DescHdr := { seq := m.seq, rows := x.rows, cols := 0, flags := x.flags, first := first }
  if st.sink then (s.shrinkBuffer m.jid d m.outAt 0).sinkPut m (sinkRows h (x.cols.map fun c => match x.sel with
    | none => c
    | some is => c.pick is))
  else
    match j.arena? d with
    | none => .error Config.stMemFault
    | some a => do
      let q := layMorsel (a.addr + m.outAt) h x.cols x.sel
      let t ← s.poke m.inst (a.addr + m.outAt) q.1
      .ok ((t.shrinkBuffer m.jid d m.outAt q.1.length).placeDesc d m m.seq 0 true q.2
        (if q.1 = [] then [] else [(d, m.outAt)]))

/-- The work of a Column Streamer morsel (R113 to R122, R127). -/
def streamerWork (u : UId) (s : State) (j : Job) (st : Stage) (m : Morsel) : Res State :=
  match m.src, j.inputOf m.stage with
  | some at_, some l => do
    let x ← s.streamMorsel m.inst j.strictLen l st.param (j.image.heapLimit st) at_
    let s1 := if x.warn then s.modJob m.jid fun j => { j with
      flags := j.flags ||| 8
      parts := j.parts.map fun p => if p.die = u.die then { p with flags := p.flags ||| 8 } else p } else s
    s1.yieldReserved u.die st j m x at_.row
  | _, _ => .ok s

/-- COLUMN_STREAMER_MORSEL: the morsel on streamer `u` is decoded, filtered and emitted (R113 to R122, R127). -/
def execColumnStreamerMorsel (u : UId) (s : State) : Host.Outcome State Fault Refusal :=
  completeUnit u (fun st m => st.kind == .streamer && m.kind == .normal) (streamerWork u) s

-- HASH PROBE ENGINE ----------------------------------------------------------------------------------------------------------------------------------

/-- The work of a clear morsel (R144). -/
def clearWork (_ : UId) (s : State) (_ : Job) (_ : Stage) (m : Morsel) : Res State :=
  match m.kind with
  | .clear ti c k =>
    match s.table? m.jid ti with
    | none => .ok s
    | some t =>
      let total := 64 * t.buckets + t.partBytes
      s.zero m.inst (t.baseOf c + Config.pageBytes * k) (min Config.pageBytes (total - Config.pageBytes * k))
  | _ => .ok s

/-- CLEAR_MORSEL: 2 MiB of the bucket and partition arrays of one copy are zeroed (R144). -/
def execClearMorsel (u : UId) (s : State) : Host.Outcome State Fault Refusal :=
  completeUnit u (fun _ m => match m.kind with | .clear .. => true | _ => false) (clearWork u) s

/-- A Hash Probe Engine stage with an OP of R151, on an ordinary morsel. -/
def isHash (op : Nat) (st : Stage) (m : Morsel) : Bool := st.kind == .hash && hpOp st.param == op && m.kind == .normal

/-- The number of rows of columns. -/
def rowsOf (cols : List Column) : Nat := cols.head?.elim 0 (·.cells.length)

/-- The work of a BUILD morsel (R143, R145). -/
def buildWork (u : UId) (s : State) (j : Job) (st : Stage) (m : Morsel) : Res State :=
  match s.table? m.jid (hpTable st.param) with
  | none => .ok s
  | some t => do
    let cols ← s.selectedColumns m.inst m.desc
    let keys ← keyColumns cols (hpKeys st.param)
    let pay ← payColumns cols (hpPay st.param)
    let counts := t.mode != 1 || j.dieSet.head? == some u.die
    (List.range (rowsOf cols)).foldlM (fun s i => s.buildRow m.jid (hpTable st.param) m.inst (t.copyOn u.die) counts keys pay i) s

/-- BUILD: each row with a whole key is inserted (R143, R145). -/
def execBuild (u : UId) (s : State) : Host.Outcome State Fault Refusal := completeUnit u (isHash 1) (buildWork u) s

/-- The bytes of each payload field of a table: as the job's BUILD stage names them, or as the probe does (R141, R151). -/
def Job.paySizes (j : Job) (ti : Nat) (p : List Byte) : List Nat :=
  match j.image.stages.find? fun x => x.kind == .hash && hpOp x.param == 1 && hpTable x.param == ti with
  | some b => (hpPay b.param).map (·.2)
  | none => (List.range 8).map fun k => ((hpPay p).find? (·.1 == k)).elim 8 (·.2)

/-- Probe a morsel (R147, R153, R155). -/
def probeWork (op : ProbeOp) (u : UId) (s : State) (j : Job) (st : Stage) (m : Morsel) : Res State :=
  let ti := hpTable st.param
  match s.table? m.jid ti with
  | none => .ok s
  | some t => do
    let cols ← s.selectedColumns m.inst m.desc
    need (!(t.dynSpill && cols.any (·.str))) Config.stInvalidField
    let keys ← keyColumns cols (hpKeys st.param)
    let p ← (List.range (rowsOf cols)).foldlM (fun (acc : State × ProbeOut) i => do
      let x ← acc.1.probeRow m.jid ti m.inst (t.copyOn u.die) op (hpNullAware st.param) cols keys i
      .ok (x.1, acc.2 ++ x.2)) (s, [])
    need (!(op == .inner || op == .left) || p.2.length ≤ hpFanout st.param * rowsOf cols) Config.stHashFanout
    let out := probeColumns t (j.paySizes ti st.param) cols (hpPay st.param) p.2
    need (out.length ≤ 32) Config.stInvalidField
    let q ← p.1.yieldSplit u.die j st m m.seq 0 true true (inHdr m) out
    .ok q.1

/-- PROBE_INNER -/
def execProbeInner (u : UId) (s : State) : Host.Outcome State Fault Refusal := completeUnit u (isHash 2) (probeWork .inner u) s
/-- PROBE_LEFT -/
def execProbeLeft (u : UId) (s : State) : Host.Outcome State Fault Refusal := completeUnit u (isHash 3) (probeWork .left u) s
/-- PROBE_SEMI -/
def execProbeSemi (u : UId) (s : State) : Host.Outcome State Fault Refusal := completeUnit u (isHash 4) (probeWork .semi u) s
/-- PROBE_ANTI -/
def execProbeAnti (u : UId) (s : State) : Host.Outcome State Fault Refusal := completeUnit u (isHash 5) (probeWork .anti u) s

/-- The work of a GROUP morsel (R148). -/
def groupWork (_ : UId) (s : State) (_ : Job) (st : Stage) (m : Morsel) : Res State := do
  let ti := hpTable st.param
  let cols ← s.selectedColumns m.inst m.desc
  let keys ← keyColumns cols (hpKeys st.param)
  need ((hpAggs st.param).all fun a => aggFits a.1 (cols[a.2]?)) Config.stInvalidField
  let s1 := s.modTable m.jid ti fun t => { t with layout := t.layout.or (some (cols.map (·.pick []))) }
  (List.range (rowsOf cols)).foldlM (fun s i => s.groupRow m.jid ti m.inst cols keys (hpAggs st.param) i) s1

/-- GROUP: each row finds or makes its group and updates it (R148). -/
def execGroup (u : UId) (s : State) : Host.Outcome State Fault Refusal := completeUnit u (isHash 6) (groupWork u) s

/-- The work of a drain morsel (R150). -/
def drainWork (u : UId) (s : State) (j : Job) (st : Stage) (m : Morsel) : Res State :=
  match m.kind, s.table? m.jid (hpTable st.param) with
  | .drain k, some t => do
    let recs ← s.groupsOf m.inst t (drainBuckets * k) drainBuckets
    let cols ← drainColumns t (hpKeys st.param) (hpAggs st.param) recs
    let q ← s.yieldSplit u.die j st m k 0 true true { seq := 0, rows := 0, cols := 0, flags := 0 } cols
    .ok q.1
  | _, _ => .ok s

/-- DRAIN_MORSEL: the groups of 8,192 buckets are emitted (R150, R170). -/
def execDrainMorsel (u : UId) (s : State) : Host.Outcome State Fault Refusal :=
  completeUnit u (fun _ m => match m.kind with | .drain _ => true | _ => false) (drainWork u) s

-- MERGE NETWORK -------------------------------------------------------------------------------------------------------------------------------------------

def isMerge (op : Nat) (k : MKind) (st : Stage) (m : Morsel) : Bool := st.kind == .merge && mnOp st.param == op && m.kind == k

/-- SORT ingest (R165). -/
def execSortIngest (u : UId) (s : State) : Host.Outcome State Fault Refusal :=
  completeUnit u (isMerge 1 .normal) (fun s _ st m => s.sortIngest m st.param) s

/-- TOPN ingest (R168). -/
def execTopnIngest (u : UId) (s : State) : Host.Outcome State Fault Refusal :=
  completeUnit u (isMerge 2 .normal) (fun s _ st m => s.topnIngest m st.param) s

/-- The work of a merge step (R165, R166). -/
def mergeWork (_ : UId) (s : State) (_ : Job) (st : Stage) (m : Morsel) : Res State := do
  let p ← s.mergeTake m.jid m.inst st.param st.rows
  .ok (p.1.modArea m.jid (mnArea st.param) (·.endMerge))

/-- A merge step: up to MORSEL_ROWS records go into the run of the next level (R165, R166). -/
def execSortMerge (u : UId) (s : State) : Host.Outcome State Fault Refusal := completeUnit u (isMerge 1 .merge) (mergeWork u) s

/-- A final step of up to `k` records: they leave as output morsels (R166, R168). -/
def finalWork (k : Nat) (u : UId) (s : State) (j : Job) (st : Stage) (m : Morsel) : Res State := do
  let ai := mnArea st.param
  let p ← s.mergeTake m.jid m.inst st.param k
  match p.1.area? m.jid ai with
  | none => .ok p.1
  | some a =>
    let a1 := a.endMerge
    let q ← p.1.yieldSplit u.die j st m 0 a.emitted a1.finished (a1.finished && a.emitted == 0)
      { seq := 0, rows := 0, cols := 0, flags := 0 } (mergedColumns (a.layout.getD []) p.2)
    .ok (q.1.modArea m.jid ai fun _ => { a1 with emitted := q.2 })

/-- SORT final (R166). -/
def execSortFinal (u : UId) (s : State) : Host.Outcome State Fault Refusal :=
  completeUnit u (isMerge 1 .final) (fun s j st m => finalWork st.rows u s j st m) s

/-- TOPN final (R168). -/
def execTopnFinal (u : UId) (s : State) : Host.Outcome State Fault Refusal :=
  completeUnit u (isMerge 2 .final) (fun s j st m => finalWork (mnLimit st.param) u s j st m) s

-- ASSOCIATIVE MATCH UNIT -------------------------------------------------------------------------------------------------------------------------------------

/-- COL[k] of R284; none for 0xFF. -/
def amuCol (p : List Byte) (k : Nat) : Option Nat := if byteAt p (4 + k) = 0xFF then none else some (byteAt p (4 + k))

/-- A fixed-width column of at most `w` bytes in VALUE, ORDER_KEY or CODES form (R285). -/
def amuFixed (cols : List Column) (k w : Nat) : Res Column :=
  match cols[k]? with
  | none => .error Config.stInvalidField
  | some c => if !c.str && (c.form == 0 || c.form == 1 || c.form == 3) && c.lane ≤ w then .ok c else .error Config.stInvalidField

/-- A column that may be absent. -/
def amuOptional (cols : List Column) (k : Option Nat) (w : Nat) : Res (Option Column) :=
  match k with
  | none => .ok none
  | some k => do
    let c ← amuFixed cols k w
    .ok (some c)

def Column.nat (c : Column) (i : Nat) : Nat := cellNat (c.cells.getD i none)
def Column.isNull (c : Column) (i : Nat) : Bool := (c.cells.getD i none).isNone

/-- The key of each row; none for a null key (R285, R286). -/
def amuKeys (p : List Byte) (cols : List Column) : Res (Nat → Option (BitVec 160)) :=
  let a := (amuCol p 0).getD 0xFF
  match byteAt p 1 with
  | 0 => do
    let ca ← amuFixed cols a 16
    let cb ← amuOptional cols (amuCol p 1) 4
    .ok fun i =>
      if ca.isNull i || cb.elim false (·.isNull i) then none
      else some (BitVec.ofNat 160 (ca.nat i + 2 ^ 128 * cb.elim 0 (·.nat i)))
  | k =>
    match cols[a]? with
    | none => .error Config.stInvalidField
    | some c =>
      if !c.str then .error Config.stInvalidField
      else .ok fun i => (c.cells.getD i none).map fun bs =>
        BitVec.ofNat 160 (if k = 1 then leNat (bs.take 20) else leNat (bs.take 16) + 2 ^ 128 * (bs.length % 2 ^ 32))

/-- Append one column to a morsel's descriptor, in a buffer of its own (R286, R459). -/
def State.appendColumn (s : State) (d : Nat) (m : Morsel) (c : Column) : Res (State × List Byte × List (Nat × Nat)) := do
  need (descCols m.desc < 32) Config.stInvalidField
  let p ← s.emitColumns m d { seq := m.seq, rows := descRows m.desc, cols := 0, flags := 0 } [c] none m.bufs
  let desc := patch (m.desc.take (descBytes (descCols m.desc))) 0x0C (leBytes 1 (descCols m.desc + 1)) ++ descCol p.2.1 0
  .ok (p.1, desc, p.2.2)

/-- Give a morsel a selection vector; one that selects no rows becomes EMPTY (R121, R286). -/
def State.withSelection (s : State) (d : Nat) (m : Morsel) (is : List Nat) : Res (State × List Byte × List (Nat × Nat)) :=
  if is = [] then
    .ok (s, patch (patch (patch m.desc 8 (leBytes 4 0)) 0x0D (leBytes 1 (descFlags m.desc / 2 * 2 ||| flagEmpty))) 0x10 (zeros 12), m.bufs)
  else do
    let bs := pad64 (is.flatMap (leBytes 2))
    let p ← s.takeBuffer m.jid d bs.length
    let t ← p.1.poke m.inst p.2.2 bs
    .ok (t, patch (patch m.desc 0x0D (leBytes 1 (descFlags m.desc ||| flagSel))) 0x10 (leBytes 8 p.2.2 ++ leBytes 4 is.length),
      m.bufs ++ [(d, p.2.1)])

/-- The work of a lookup morsel (R285, R286). -/
def lookupWork (u : UId) (s : State) (_ : Job) (st : Stage) (m : Morsel) : Res State := do
  need (!s.amuStale m.inst u.die) Config.stAmuState
  let cols ← s.readColumns m.inst m.desc
  let sel ← s.selected m.inst m.desc
  let key ← amuKeys st.param cols
  let s1 := s.amuRepair u.die m.inst
  let a := (s1.dieD u.die).amu
  let found := fun (i : Nat) => (key i).bind (a.lookup m.inst)
  let x ← (match byteAt st.param 2 with
    | 1 => s1.appendColumn u.die m
        { ltype := 0x08, form := 0, lane := 4, scale := 0, dict := (0, 0)
          cells := (List.range (descRows m.desc)).map fun i =>
            if sel.contains i then (key i).map (fun k => leBytes 4 ((a.lookup m.inst k).elim amuNoMatch (·.1))) else none }
    | 2 => s1.appendColumn u.die m
        { ltype := 0x08, form := 0, lane := 4, scale := 0, dict := (0, 0)
          cells := (List.range (descRows m.desc)).map fun i =>
            if sel.contains i then (found i).map (fun e => leBytes 4 e.2.data.toNat) else none }
    | 3 => s1.withSelection u.die m (sel.filter fun i => (found i).isSome)
    | _ => s1.withSelection u.die m (sel.filter fun i => (found i).isNone))
  x.1.yieldPassed u.die st m x.2.1 x.2.2

/-- LOOKUP (R279, R285, R286, R289). -/
def execLookup (u : UId) (s : State) : Host.Outcome State Fault Refusal :=
  completeUnit u (fun st m => st.kind == .amu && byteAt st.param 0 == 1 && m.kind == .normal) (lookupWork u) s

/-- A LOAD row writes one entry of the region of instance `n` on die `d` (R285, R287). -/
def State.loadRow (s : State) (d n i : Nat) (e : AmuEntry) : State :=
  match (s.dieD d).amu.physical n i with
  | none => s
  | some p => s.amuWrite d p e

/-- The work of a LOAD morsel (R285, R287). -/
def loadWork (u : UId) (s : State) (j : Job) (st : Stage) (m : Morsel) : Res State := do
  let cols ← s.selectedColumns m.inst m.desc
  let col := fun k => (amuCol st.param k).getD 0xFF
  let ci ← amuFixed cols (col 0) 4
  let vlo ← amuFixed cols (col 1) 16
  let vhi ← amuOptional cols (amuCol st.param 2) 4
  let clo ← amuFixed cols (col 3) 16
  let chi ← amuOptional cols (amuCol st.param 4) 4
  let cd ← amuOptional cols (amuCol st.param 5) 4
  let wide := fun (lo : Column) (hi : Option Column) i => BitVec.ofNat 160 (lo.nat i + 2 ^ 128 * hi.elim 0 (·.nat i))
  (List.range (rowsOf cols)).foldlM (fun s i => do
    need (!ci.isNull i) Config.stInvalidField
    need (j.dieSet.all fun d => ((s.dieD d).amu.physical m.inst (ci.nat i)).isSome) Config.stAmuIndex
    .ok (s.loadRow u.die m.inst (ci.nat i)
      (AmuEntry.written (!clo.isNull i) (wide vlo vhi i) (wide clo chi i) (BitVec.ofNat 32 (cd.elim 0 (·.nat i)))))) s

/-- LOAD: each row writes its entry; it waits while a block of the region is still being cleared (R281, R287, R293). -/
def execLoad (u : UId) (s : State) : Host.Outcome State Fault Refusal :=
  completeUnit u (fun st m => st.kind == .amu && byteAt st.param 0 == 2 && m.kind == .normal &&
      ((s.dieD u.die).amu.region m.inst).all fun b => !((s.dieD u.die).amu.blocks.getD b AmuBlock.reset).clearing) (loadWork u) s

/-- AMU_BLOCK_CLEAR: every entry of a reassigned block is cleared (R281). -/
def execAmuBlockClear (die block : Nat) (s : State) : Host.Outcome State Fault Refusal :=
  match (s.dieD die).amu.blocks[block]? with
  | none => .next s
  | some b => .next (if b.clearing && s.unitsLive die then s.amuClearBlock die block else s)

/-- Entries of the array. -/
def amuEntries : Nat := 32768

/-- AMU_SWEEP_STEP: the sweep compares one entry with its shadow and repairs it; an entry of a block being cleared, or FAULTED, is skipped
(R291, R293). -/
def execAmuSweepStep (die : Nat) (s : State) : Host.Outcome State Fault Refusal :=
  if !s.unitsLive die then .next s
  else
    let a := (s.dieD die).amu
    let i := a.sweep
    let img := s.shadow die i
    let want := shadowEntry img
    let s1 :=
      if a.clearing i || bit (byteAt img 0x2C) 1 || a.entry i == want then s
      else (s.modAmu die fun a => { (a.setEntry i want) with sweepFix := a.sweepFix + 1 }).raiseDie die dcAmuRepair
    .next (s1.modAmu die fun a =>
      if i + 1 = amuEntries then { a with sweep := 0, sweepPasses := a.sweepPasses + 1 } else { a with sweep := i + 1 })

/-- SHADOW_FAULT: RLM reports an uncorrectable error in a shadow entry (R293). -/
def execShadowFault (die index : Nat) (s : State) : Host.Outcome State Fault Refusal :=
  if amuEntries ≤ index || !s.unitsLive die then .next s
  else
    let a := (s.dieD die).amu
    match (a.blocks.getD (index / amuBlock) AmuBlock.reset).owner with
    | none => .next (s.amuWrite die index AmuEntry.empty)
    | some n =>
      let at_ := shadowAddr die index + 0x2C
      let s1 := { s with mem := memSet s.mem at_ (memGet s.mem at_ ||| 2) }.modAmu die fun a =>
        { (a.setEntry index { a.entry index with valid := false }) with shadowFaults := satAdd 32 a.shadowFaults 1 }
      .next ((s1.setAmuState n die 2).raiseDie die dcAmuShadow)

-- DIGEST ENGINES ------------------------------------------------------------------------------------------------------------------------------------------------

/-- The column that a digest stage digests: VALUE or CODES form (R459). -/
def digestColumn (p : List Byte) (cols : List Column) : Res Column :=
  match cols[byteAt p 1]? with
  | none => .error Config.stInvalidField
  | some c => if c.form = 0 ∨ c.form = 3 then .ok c else .error Config.stInvalidField

/-- The work of a ROW digest (R459). -/
def rowWork (u : UId) (s : State) (_ : Job) (st : Stage) (m : Morsel) : Res State := do
  let cols ← s.readColumns m.inst m.desc
  let c ← digestColumn st.param cols
  let s1 := s.modDie u.die (·.releaseCtxs (· == .morsel m.mid))
  let x ← s1.appendColumn u.die m
    { ltype := 0x10, form := 0, lane := 4, scale := 0, dict := (0, 0), cells := c.cells.map (·.map sha256) }
  x.1.yieldPassed u.die st m x.2.1 x.2.2

/-- ROW: a BYTES column of the SHA-256 of each valid row (R459). -/
def execRow (u : UId) (s : State) : Host.Outcome State Fault Refusal :=
  completeUnit u (fun st m => st.kind == .digest && byteAt st.param 0 == 1 && m.kind == .normal) (rowWork u) s

/-- The work of a STREAM digest (R459). -/
def streamWork (u : UId) (s : State) (_ : Job) (st : Stage) (m : Morsel) : Res State := do
  let cols ← s.selectedColumns m.inst m.desc
  let c ← digestColumn st.param cols
  match (s.dieD u.die).ctxOf (.stage m.jid m.stage) with
  | none => .ok s
  | some k =>
    let x := (s.dieD u.die).ctxs.getD k Ctx.reset
    .ok (s.setCtx u.die k { x with sha := shaUpdate x.sha (c.cells.flatMap fun b => b.getD []) })

/-- STREAM: the bytes of each valid row join the stage's message (R459). -/
def execStream (u : UId) (s : State) : Host.Outcome State Fault Refusal :=
  completeUnit u (fun st m => st.kind == .digest && byteAt st.param 0 == 2 && m.kind == .normal) (streamWork u) s

/-- A leaf of R461 covers 64 KiB. -/
def leafBytes : Nat := 65536

/-- Leaf `i` of a result buffer can be hashed: its chunk is full, or the last sink write is done and it is the last chunk (R96, R461). -/
def ResultBuf.leafReady (r : ResultBuf) (ended : Bool) : Bool :=
  decide (leafBytes * (r.hashed + 1) ≤ r.off) || (ended && decide (leafBytes * r.hashed < r.off))

/-- The root is set once every leaf is hashed and the last sink write is done; the context is released (R452, R461). -/
def State.closeRoot (s : State) (jid k : Nat) : State :=
  match s.job? jid with
  | none => s
  | some j =>
    match j.results[k]? with
    | none => s
    | some r =>
      if (j.stageD r.stage).done && r.hashed == ceilDiv r.off leafBytes && r.root.isNone then
        let s1 := s.modJob jid fun j => { j with results := j.results.modify k fun r => { r with root := some (resultRoot r.nodes) } }
        match s1.job? jid with
        | none => s1
        | some j1 =>
          if j1.results.all (·.root.isSome) then
            j.dieSet.foldl (fun s d => s.modDie d (·.releaseCtxs (· == .result jid))) s1
          else s1
      else s

/-- RESULT_DIGEST_CHUNK: an idle digest engine of a die of the die set hashes the next leaf of a result buffer, charged to the instance's
digest share; it waits for share cycles and for a context (R96, R452, R453, R461). -/
def execResultDigestChunk (u : UId) (jid buffer : Nat) (s : State) : Host.Outcome State Fault Refusal :=
  match s.job? jid with
  | none => .next s
  | some j =>
    match j.results[buffer]? with
    | none => .next s
    | some r =>
      let x := (s.dieD u.die).units.getD u.unit UnitSt.reset
      if !j.resultDigest || !j.alive || r.root.isSome || unitKind u.unit != .digest || 30 ≤ u.unit || !j.dieSet.contains u.die ||
          !s.unitsLive u.die || x.morsel.isSome || s.shareCycles j.inst .digest u.die ≤ x.chargedTo j.inst then .next s
      else
        let opened := match (s.dieD u.die).ctxOf (.result jid) with
          | some _ => some s
          | none => (s.freeCtx u.die j.inst).map fun c => s.openCtx u.die c j.inst (.result jid)
        match opened with
        | none => .next s
        | some s1 =>
          if r.leafReady (j.stageD r.stage).done then
            let n := min leafBytes (r.off - leafBytes * r.hashed)
            match s1.readInst j.inst (r.addr + leafBytes * r.hashed) n with
            | none => .next (s1.failPart jid u.die r.stage Config.stMemFault [])
            | some bs =>
              let s2 := (s1.modDie u.die fun d => { d with units := d.units.modify u.unit fun x =>
                { (x.charge j.inst u.used) with busy := x.busy + u.used } }).modInstStat u.die j.inst fun b =>
                  { b with unitCycles := b.unitCycles.modify 6 (satAdd 32 · u.used) }
              .next ((s2.modJob jid fun j => { j with results := j.results.modify buffer fun r =>
                { r with nodes := r.nodes ++ [sha256 (0 :: bs)], hashed := r.hashed + 1 } }).closeRoot jid buffer)
          else .next (s1.closeRoot jid buffer)

end Sys2Proof.Machine
end

