-- ==== Sys2Proof/Machine/Dispatch.lean ====
section
/-!
DEFINITION. The one place where a command meets its meaning: one arm for each constructor of `Instr`.
-/

namespace Sys2Proof.Machine

def exec (i : Instr) (s : State) : Host.Outcome State Fault Refusal :=
  match i with
  | .frameTick => Sys2Proof.Machine.execFrameTick s
  | .morselSave f => Sys2Proof.Machine.execMorselSave f s
  | .morselResume f => Sys2Proof.Machine.execMorselResume f s
  | .evictedRestore f => Sys2Proof.Machine.execEvictedRestore f s
  | .overrunLimitReached die jid stage => Sys2Proof.Machine.execOverrunLimitReached die jid stage s
  | .framePeriod o data => Sys2Proof.Machine.execFramePeriod o data s
  | .frameNumberRead fn t => Sys2Proof.Machine.execFrameNumberRead fn t s
  | .syncModeSet o => Sys2Proof.Machine.execSyncModeSet o s
  | .syncModeClear o => Sys2Proof.Machine.execSyncModeClear o s
  | .t0TaiNs o data => Sys2Proof.Machine.execT0TaiNs o data s
  | .ptpMessage offsetNs => Sys2Proof.Machine.execPtpMessage offsetNs s
  | .lockingComplete taiNs => Sys2Proof.Machine.execLockingComplete taiNs s
  | .enterHoldover => Sys2Proof.Machine.execEnterHoldover s
  | .relock => Sys2Proof.Machine.execRelock s
  | .calDiscipline taiSec utcOffset => Sys2Proof.Machine.execCalDiscipline taiSec utcOffset s
  | .morselDispatch die kind t => Sys2Proof.Machine.execMorselDispatch die kind t s
  | .readyLimit n o data => Sys2Proof.Machine.execReadyLimit n o data s
  | .statHold fn value => Sys2Proof.Machine.execStatHold fn value s
  | .statHoldExpired fn => Sys2Proof.Machine.execStatHoldExpired fn s
  | .retire die o data => Sys2Proof.Machine.execRetire die o data s
  | .foragerErrThresh f => Sys2Proof.Machine.execForagerErrThresh f s
  | .columnStreamerMorsel u => Sys2Proof.Machine.execColumnStreamerMorsel u s
  | .clearMorsel u => Sys2Proof.Machine.execClearMorsel u s
  | .build u => Sys2Proof.Machine.execBuild u s
  | .probeInner u => Sys2Proof.Machine.execProbeInner u s
  | .probeLeft u => Sys2Proof.Machine.execProbeLeft u s
  | .probeSemi u => Sys2Proof.Machine.execProbeSemi u s
  | .probeAnti u => Sys2Proof.Machine.execProbeAnti u s
  | .group u => Sys2Proof.Machine.execGroup u s
  | .drainMorsel u => Sys2Proof.Machine.execDrainMorsel u s
  | .sortIngest u => Sys2Proof.Machine.execSortIngest u s
  | .sortMerge u => Sys2Proof.Machine.execSortMerge u s
  | .sortFinal u => Sys2Proof.Machine.execSortFinal u s
  | .topnIngest u => Sys2Proof.Machine.execTopnIngest u s
  | .topnFinal u => Sys2Proof.Machine.execTopnFinal u s
  | .lookup u => Sys2Proof.Machine.execLookup u s
  | .load u => Sys2Proof.Machine.execLoad u s
  | .row u => Sys2Proof.Machine.execRow u s
  | .stream u => Sys2Proof.Machine.execStream u s
  | .amuBlockClear die block => Sys2Proof.Machine.execAmuBlockClear die block s
  | .amuSweepStep die => Sys2Proof.Machine.execAmuSweepStep die s
  | .shadowFault die index => Sys2Proof.Machine.execShadowFault die index s
  | .sqTailDoorbell fn q size value => Sys2Proof.Machine.execSqTailDoorbell fn q size value s
  | .cqHeadDoorbell fn q size value => Sys2Proof.Machine.execCqHeadDoorbell fn q size value s
  | .aqCfg fn size value => Sys2Proof.Machine.execAqCfg fn size value s
  | .adminDisableDone fn => Sys2Proof.Machine.execAdminDisableDone fn s
  | .cqStall n q => Sys2Proof.Machine.execCqStall n q s
  | .chainFetch => Sys2Proof.Machine.execChainFetch s
  | .jobAdmit n => Sys2Proof.Machine.execJobAdmit n s
  | .createSq n => Sys2Proof.Machine.execCreateSq n s
  | .deleteSq n => Sys2Proof.Machine.execDeleteSq n s
  | .sqDeleteComplete n q => Sys2Proof.Machine.execSqDeleteComplete n q s
  | .createCq n => Sys2Proof.Machine.execCreateCq n s
  | .deleteCq n => Sys2Proof.Machine.execDeleteCq n s
  | .loadImage n => Sys2Proof.Machine.execLoadImage n s
  | .loadImageChecksDone n => Sys2Proof.Machine.execLoadImageChecksDone n s
  | .unloadImage n => Sys2Proof.Machine.execUnloadImage n s
  | .imageUnloadComplete n slot => Sys2Proof.Machine.execImageUnloadComplete n slot s
  | .abortJob n => Sys2Proof.Machine.execAbortJob n s
  | .getStatusPage n => Sys2Proof.Machine.execGetStatusPage n s
  | .job n => Sys2Proof.Machine.execJob n s
  | .controlPacketsMissing djid dev => Sys2Proof.Machine.execControlPacketsMissing djid dev s
  | .flr fn t => Sys2Proof.Machine.execFlr fn t s
  | .d3hotToD0 fn t => Sys2Proof.Machine.execD3hotToD0 fn t s
  | .vfEnable on numVfs t => Sys2Proof.Machine.execVfEnable on numVfs t s
  | .atsInvalidation n iova len => Sys2Proof.Machine.execAtsInvalidation n iova len s
  | .linkDown => Sys2Proof.Machine.execLinkDown s
  | .linkUp width speed ms => Sys2Proof.Machine.execLinkUp width speed ms s
  | .registerWrite fn off size value => Sys2Proof.Machine.execRegisterWrite fn off size value s
  | .enable n o t => Sys2Proof.Machine.execEnable n o t s
  | .disable n o t => Sys2Proof.Machine.execDisable n o t s
  | .reset n o t => Sys2Proof.Machine.execReset n o t s
  | .instResetDone n => Sys2Proof.Machine.execInstResetDone n s
  | .freezeDrain n o t => Sys2Proof.Machine.execFreezeDrain n o t s
  | .freezeAbort n o t => Sys2Proof.Machine.execFreezeAbort n o t s
  | .freezeTimeout n => Sys2Proof.Machine.execFreezeTimeout n s
  | .thaw n o t => Sys2Proof.Machine.execThaw n o t s
  | .coreFrames n o data => Sys2Proof.Machine.execCoreFrames n o data s
  | .share n kind o data => Sys2Proof.Machine.execShare n kind o data s
  | .fabricShare n o data => Sys2Proof.Machine.execFabricShare n o data s
  | .imgStore n o data => Sys2Proof.Machine.execImgStore n o data s
  | .sqQuota n o data => Sys2Proof.Machine.execSqQuota n o data s
  | .cqQuota n o data => Sys2Proof.Machine.execCqQuota n o data s
  | .pasid n o data => Sys2Proof.Machine.execPasid n o data s
  | .ptPages n o data => Sys2Proof.Machine.execPtPages n o data s
  | .ptWrite n o data => Sys2Proof.Machine.execPtWrite n o data s
  | .regions n o data => Sys2Proof.Machine.execRegions n o data s
  | .ccWays n hi o data => Sys2Proof.Machine.execCcWays n hi o data s
  | .wayCleanDone die way => Sys2Proof.Machine.execWayCleanDone die way s
  | .waySweepDone die n => Sys2Proof.Machine.execWaySweepDone die n s
  | .pageReleaseCleanDone page => Sys2Proof.Machine.execPageReleaseCleanDone page s
  | .zeroFillDone page => Sys2Proof.Machine.execZeroFillDone page s
  | .ccLock n hi o data => Sys2Proof.Machine.execCcLock n hi o data s
  | .clean n o => Sys2Proof.Machine.execClean n o s
  | .cleanInval n o => Sys2Proof.Machine.execCleanInval n o s
  | .invalDone n => Sys2Proof.Machine.execInvalDone n s
  | .dirtyCtl n o data => Sys2Proof.Machine.execDirtyCtl n o data s
  | .powerDown die way => Sys2Proof.Machine.execPowerDown die way s
  | .powerDownDone die way => Sys2Proof.Machine.execPowerDownDone die way s
  | .powerUp die way => Sys2Proof.Machine.execPowerUp die way s
  | .powerUpDone die way => Sys2Proof.Machine.execPowerUpDone die way s
  | .wayEnable die way => Sys2Proof.Machine.execWayEnable die way s
  | .ccWayDisable die way => Sys2Proof.Machine.execCcWayDisable die way s
  | .ccWayDisabled die way => Sys2Proof.Machine.execCcWayDisabled die way s
  | .wayErrWindowEnd die way => Sys2Proof.Machine.execWayErrWindowEnd die way s
  | .ccCtl die size value => Sys2Proof.Machine.execCcCtl die size value s
  | .ccDrainDone die => Sys2Proof.Machine.execCcDrainDone die s
  | .patrolScrub stack found => Sys2Proof.Machine.execPatrolScrub stack found s
  | .bankSpare stack channel bank => Sys2Proof.Machine.execBankSpare stack channel bank s
  | .bankSpareCopyDone stack channel => Sys2Proof.Machine.execBankSpareCopyDone stack channel s
  | .pageOut n => Sys2Proof.Machine.execPageOut n s
  | .pageIn n => Sys2Proof.Machine.execPageIn n s
  | .imageOut n => Sys2Proof.Machine.execImageOut n s
  | .imageIn n => Sys2Proof.Machine.execImageIn n s
  | .migCopyDone n => Sys2Proof.Machine.execMigCopyDone n s
  | .stateImage n o data => Sys2Proof.Machine.execStateImage n o data s
  | .restoreChecksDone n => Sys2Proof.Machine.execRestoreChecksDone n s
  | .mbxPost fn n size value => Sys2Proof.Machine.execMbxPost fn n size value s
  | .mbxAck fn n size value => Sys2Proof.Machine.execMbxAck fn n size value s
  | .saddleEnable o => Sys2Proof.Machine.execSaddleEnable o s
  | .saddleEnableDone report => Sys2Proof.Machine.execSaddleEnableDone report s
  | .saddleDisable o => Sys2Proof.Machine.execSaddleDisable o s
  | .saddleDisableDone => Sys2Proof.Machine.execSaddleDisableDone s
  | .saddlePortDown => Sys2Proof.Machine.execSaddlePortDown s
  | .saddleTimeout => Sys2Proof.Machine.execSaddleTimeout s
  | .saddleResponse f gen value err => Sys2Proof.Machine.execSaddleResponse f gen value err s
  | .ridgeCrcError l => Sys2Proof.Machine.execRidgeCrcError l s
  | .ridgeLaneFail l => Sys2Proof.Machine.execRidgeLaneFail l s
  | .crestLinkDown die t => Sys2Proof.Machine.execCrestLinkDown die t s
  | .ringLinkDown link t => Sys2Proof.Machine.execRingLinkDown link t s
  | .ringRequestTimeout jid die => Sys2Proof.Machine.execRingRequestTimeout jid die s
  | .combUe die t => Sys2Proof.Machine.execCombUe die t s
  | .crestUe => Sys2Proof.Machine.execCrestUe s
  | .foragerUe f => Sys2Proof.Machine.execForagerUe f s
  | .dieFence o data t => Sys2Proof.Machine.execDieFence o data t s
  | .dieFenceComplete die => Sys2Proof.Machine.execDieFenceComplete die s
  | .data port p => Sys2Proof.Machine.execData port p s
  | .control port p t => Sys2Proof.Machine.execControl port p t s
  | .fabricLoss jid => Sys2Proof.Machine.execFabricLoss jid s
  | .joinTimeout jid => Sys2Proof.Machine.execJoinTimeout jid s
  | .portDown port => Sys2Proof.Machine.execPortDown port s
  | .portUp port => Sys2Proof.Machine.execPortUp port s
  | .portDisable port o => Sys2Proof.Machine.execPortDisable port o s
  | .portEnable port o => Sys2Proof.Machine.execPortEnable port o s
  | .neighborSolicitation port target => Sys2Proof.Machine.execNeighborSolicitation port target s
  | .echoRequest port target body => Sys2Proof.Machine.execEchoRequest port target body s
  | .deviceId o data => Sys2Proof.Machine.execDeviceId o data s
  | .portMode o data => Sys2Proof.Machine.execPortMode o data s
  | .vfVectors o data => Sys2Proof.Machine.execVfVectors o data s
  | .read fn arg => Sys2Proof.Machine.execRead fn arg s
  | .write fn arg => Sys2Proof.Machine.execWrite fn arg s
  | .segRead fn arg => Sys2Proof.Machine.execSegRead fn arg s
  | .segWrite fn arg => Sys2Proof.Machine.execSegWrite fn arg s
  | .endXfer fn arg => Sys2Proof.Machine.execEndXfer fn arg s
  | .abort fn arg => Sys2Proof.Machine.execAbort fn arg s
  | .kdwDataWrite fn size value => Sys2Proof.Machine.execKdwDataWrite fn size value s
  | .kdwDataRead fn size => Sys2Proof.Machine.execKdwDataRead fn size s
  | .kdpRead o m => Sys2Proof.Machine.execKdpRead o m s
  | .kdpWrite o m => Sys2Proof.Machine.execKdpWrite o m s
  | .segReadStart o m => Sys2Proof.Machine.execSegReadStart o m s
  | .segWriteStart o m => Sys2Proof.Machine.execSegWriteStart o m s
  | .segData o m => Sys2Proof.Machine.execSegData o m s
  | .segEnd o m => Sys2Proof.Machine.execSegEnd o m s
  | .segAbort o m => Sys2Proof.Machine.execSegAbort o m s
  | .segTimeout h => Sys2Proof.Machine.execSegTimeout h s
  | .setEndpointId eid binding newEid => Sys2Proof.Machine.execSetEndpointId eid binding newEid s
  | .getEndpointId eid binding => Sys2Proof.Machine.execGetEndpointId eid binding s
  | .getMctpVersionSupport eid binding msgType => Sys2Proof.Machine.execGetMctpVersionSupport eid binding msgType s
  | .getMessageTypeSupport eid binding => Sys2Proof.Machine.execGetMessageTypeSupport eid binding s
  | .getVendorDefinedMessageSupport eid binding selector => Sys2Proof.Machine.execGetVendorDefinedMessageSupport eid binding selector s
  | .dictWrite o index sub data t => Sys2Proof.Machine.execDictWrite o index sub data t s
  | .persistCommit verified => Sys2Proof.Machine.execPersistCommit verified s
  | .logAck o data => Sys2Proof.Machine.execLogAck o data s
  | .logMode o data => Sys2Proof.Machine.execLogMode o data s
  | .logRead o => Sys2Proof.Machine.execLogRead o s
  | .calTime o data => Sys2Proof.Machine.execCalTime o data s
  | .calState o data => Sys2Proof.Machine.execCalState o data s
  | .quoteReq n o data => Sys2Proof.Machine.execQuoteReq n o data s
  | .quoteSigned => Sys2Proof.Machine.execQuoteSigned s
  | .measExtend o data => Sys2Proof.Machine.execMeasExtend o data s
  | .imeasExtend n o data => Sys2Proof.Machine.execImeasExtend n o data s
  | .svnRaise o data => Sys2Proof.Machine.execSvnRaise o data s
  | .fwStage o data => Sys2Proof.Machine.execFwStage o data s
  | .fwSwitch o data => Sys2Proof.Machine.execFwSwitch o data s
  | .fwSwitchFail => Sys2Proof.Machine.execFwSwitchFail s
  | .evtAck c => Sys2Proof.Machine.execEvtAck c s
  | .evtMask c => Sys2Proof.Machine.execEvtMask c s
  | .eventHoldoffEnd g => Sys2Proof.Machine.execEventHoldoffEnd g s
  | .keeperWatchdog => Sys2Proof.Machine.execKeeperWatchdog s
  | .keeperRestart => Sys2Proof.Machine.execKeeperRestart s
  | .warmReset o data => Sys2Proof.Machine.execWarmReset o data s
  | .deviceClassError => Sys2Proof.Machine.execDeviceClassError s
  | .perstAssert => Sys2Proof.Machine.execPerstAssert s
  | .perstDeassert => Sys2Proof.Machine.execPerstDeassert s
  | .bringupTimeout => Sys2Proof.Machine.execBringupTimeout s
  | .railFault rail => Sys2Proof.Machine.execRailFault rail s
  | .thermalSample temps => Sys2Proof.Machine.execThermalSample temps s
  | .throttleStepUp => Sys2Proof.Machine.execThrottleStepUp s
  | .arithTrapDelivery f => Sys2Proof.Machine.execArithTrapDelivery f s
  | .add f x => Sys2Proof.Machine.execAdd f x s
  | .sub f x => Sys2Proof.Machine.execSub f x s
  | .neg f x => Sys2Proof.Machine.execNeg f x s
  | .abs f x => Sys2Proof.Machine.execAbs f x s
  | .and f x => Sys2Proof.Machine.execAnd f x s
  | .or f x => Sys2Proof.Machine.execOr f x s
  | .xor f x => Sys2Proof.Machine.execXor f x s
  | .andn f x => Sys2Proof.Machine.execAndn f x s
  | .sll f x => Sys2Proof.Machine.execSll f x s
  | .srl f x => Sys2Proof.Machine.execSrl f x s
  | .sra f x => Sys2Proof.Machine.execSra f x s
  | .ror f x => Sys2Proof.Machine.execRor f x s
  | .min f x => Sys2Proof.Machine.execMin f x s
  | .max f x => Sys2Proof.Machine.execMax f x s
  | .minu f x => Sys2Proof.Machine.execMinu f x s
  | .maxu f x => Sys2Proof.Machine.execMaxu f x s
  | .seq f x => Sys2Proof.Machine.execSeq f x s
  | .slt f x => Sys2Proof.Machine.execSlt f x s
  | .sltu f x => Sys2Proof.Machine.execSltu f x s
  | .clz f x => Sys2Proof.Machine.execClz f x s
  | .ctz f x => Sys2Proof.Machine.execCtz f x s
  | .popc f x => Sys2Proof.Machine.execPopc f x s
  | .bswap f x => Sys2Proof.Machine.execBswap f x s
  | .addcy f x => Sys2Proof.Machine.execAddcy f x s
  | .addc f x => Sys2Proof.Machine.execAddc f x s
  | .subby f x => Sys2Proof.Machine.execSubby f x s
  | .subb f x => Sys2Proof.Machine.execSubb f x s
  | .addi f x => Sys2Proof.Machine.execAddi f x s
  | .andi f x => Sys2Proof.Machine.execAndi f x s
  | .ori f x => Sys2Proof.Machine.execOri f x s
  | .xori f x => Sys2Proof.Machine.execXori f x s
  | .slli f x => Sys2Proof.Machine.execSlli f x s
  | .srli f x => Sys2Proof.Machine.execSrli f x s
  | .srai f x => Sys2Proof.Machine.execSrai f x s
  | .slti f x => Sys2Proof.Machine.execSlti f x s
  | .lui f x => Sys2Proof.Machine.execLui f x s
  | .auipc f x => Sys2Proof.Machine.execAuipc f x s
  | .srar f x => Sys2Proof.Machine.execSrar f x s
  | .mul f x => Sys2Proof.Machine.execMul f x s
  | .mulh f x => Sys2Proof.Machine.execMulh f x s
  | .mulhu f x => Sys2Proof.Machine.execMulhu f x s
  | .mulw f x => Sys2Proof.Machine.execMulw f x s
  | .mulwu f x => Sys2Proof.Machine.execMulwu f x s
  | .mulq f x => Sys2Proof.Machine.execMulq f x s
  | .div f x => Sys2Proof.Machine.execDiv f x s
  | .divu f x => Sys2Proof.Machine.execDivu f x s
  | .rem f x => Sys2Proof.Machine.execRem f x s
  | .remu f x => Sys2Proof.Machine.execRemu f x s
  | .divw f x => Sys2Proof.Machine.execDivw f x s
  | .divwu f x => Sys2Proof.Machine.execDivwu f x s
  | .accclr f x => Sys2Proof.Machine.execAccclr f x s
  | .accadd f x => Sys2Proof.Machine.execAccadd f x s
  | .accaddw f x => Sys2Proof.Machine.execAccaddw f x s
  | .accmac f x => Sys2Proof.Machine.execAccmac f x s
  | .accmsu f x => Sys2Proof.Machine.execAccmsu f x s
  | .accwr f x => Sys2Proof.Machine.execAccwr f x s
  | .accrd f x => Sys2Proof.Machine.execAccrd f x s
  | .accrdw f x => Sys2Proof.Machine.execAccrdw f x s
  | .accrdx f x => Sys2Proof.Machine.execAccrdx f x s
  | .bina f x => Sys2Proof.Machine.execBina f x s
  | .binb f x => Sys2Proof.Machine.execBinb f x s
  | .lb f x => Sys2Proof.Machine.execLb f x s
  | .lh f x => Sys2Proof.Machine.execLh f x s
  | .lw f x => Sys2Proof.Machine.execLw f x s
  | .ld f x => Sys2Proof.Machine.execLd f x s
  | .lbu f x => Sys2Proof.Machine.execLbu f x s
  | .lhu f x => Sys2Proof.Machine.execLhu f x s
  | .lwu f x => Sys2Proof.Machine.execLwu f x s
  | .lq f x => Sys2Proof.Machine.execLq f x s
  | .sb f x => Sys2Proof.Machine.execSb f x s
  | .sh f x => Sys2Proof.Machine.execSh f x s
  | .sw f x => Sys2Proof.Machine.execSw f x s
  | .sd f x => Sys2Proof.Machine.execSd f x s
  | .sq f x => Sys2Proof.Machine.execSq f x s
  | .lbL f x => Sys2Proof.Machine.execLbL f x s
  | .lhL f x => Sys2Proof.Machine.execLhL f x s
  | .lwL f x => Sys2Proof.Machine.execLwL f x s
  | .ldL f x => Sys2Proof.Machine.execLdL f x s
  | .lbuL f x => Sys2Proof.Machine.execLbuL f x s
  | .lhuL f x => Sys2Proof.Machine.execLhuL f x s
  | .lwuL f x => Sys2Proof.Machine.execLwuL f x s
  | .lqL f x => Sys2Proof.Machine.execLqL f x s
  | .sbL f x => Sys2Proof.Machine.execSbL f x s
  | .shL f x => Sys2Proof.Machine.execShL f x s
  | .swL f x => Sys2Proof.Machine.execSwL f x s
  | .sdL f x => Sys2Proof.Machine.execSdL f x s
  | .sqL f x => Sys2Proof.Machine.execSqL f x s
  | .amoadd f x => Sys2Proof.Machine.execAmoadd f x s
  | .amoswap f x => Sys2Proof.Machine.execAmoswap f x s
  | .amocas f x => Sys2Proof.Machine.execAmocas f x s
  | .fence f x => Sys2Proof.Machine.execFence f x s
  | .fenceRel f x => Sys2Proof.Machine.execFenceRel f x s
  | .fenceAcq f x => Sys2Proof.Machine.execFenceAcq f x s
  | .beq f x => Sys2Proof.Machine.execBeq f x s
  | .bne f x => Sys2Proof.Machine.execBne f x s
  | .blt f x => Sys2Proof.Machine.execBlt f x s
  | .bge f x => Sys2Proof.Machine.execBge f x s
  | .bltu f x => Sys2Proof.Machine.execBltu f x s
  | .bgeu f x => Sys2Proof.Machine.execBgeu f x s
  | .jal f x => Sys2Proof.Machine.execJal f x s
  | .jalr f x => Sys2Proof.Machine.execJalr f x s
  | .loop f x => Sys2Proof.Machine.execLoop f x s
  | .abar f x => Sys2Proof.Machine.execAbar f x s
  | .mdone f x => Sys2Proof.Machine.execMdone f x s
  | .memit f x => Sys2Proof.Machine.execMemit f x s
  | .brk f x => Sys2Proof.Machine.execBrk f x s
  | .rtp f x => Sys2Proof.Machine.execRtp f x s
  | .rdcr f x => Sys2Proof.Machine.execRdcr f x s
  | .wrcr f x => Sys2Proof.Machine.execWrcr f x s
  | .setcr f x => Sys2Proof.Machine.execSetcr f x s
  | .clrcr f x => Sys2Proof.Machine.execClrcr f x s
  | .vsetvl f x => Sys2Proof.Machine.execVsetvl f x s
  | .vadd f x => Sys2Proof.Machine.execVadd f x s
  | .vsub f x => Sys2Proof.Machine.execVsub f x s
  | .vneg f x => Sys2Proof.Machine.execVneg f x s
  | .vabs f x => Sys2Proof.Machine.execVabs f x s
  | .vand f x => Sys2Proof.Machine.execVand f x s
  | .vor f x => Sys2Proof.Machine.execVor f x s
  | .vxor f x => Sys2Proof.Machine.execVxor f x s
  | .vandn f x => Sys2Proof.Machine.execVandn f x s
  | .vsll f x => Sys2Proof.Machine.execVsll f x s
  | .vsrl f x => Sys2Proof.Machine.execVsrl f x s
  | .vsra f x => Sys2Proof.Machine.execVsra f x s
  | .vmin f x => Sys2Proof.Machine.execVmin f x s
  | .vmax f x => Sys2Proof.Machine.execVmax f x s
  | .vminu f x => Sys2Proof.Machine.execVminu f x s
  | .vmaxu f x => Sys2Proof.Machine.execVmaxu f x s
  | .vmul f x => Sys2Proof.Machine.execVmul f x s
  | .vmulh f x => Sys2Proof.Machine.execVmulh f x s
  | .vmulhu f x => Sys2Proof.Machine.execVmulhu f x s
  | .vaddVx f x => Sys2Proof.Machine.execVaddVx f x s
  | .vsubVx f x => Sys2Proof.Machine.execVsubVx f x s
  | .vandVx f x => Sys2Proof.Machine.execVandVx f x s
  | .vorVx f x => Sys2Proof.Machine.execVorVx f x s
  | .vxorVx f x => Sys2Proof.Machine.execVxorVx f x s
  | .vandnVx f x => Sys2Proof.Machine.execVandnVx f x s
  | .vsllVx f x => Sys2Proof.Machine.execVsllVx f x s
  | .vsrlVx f x => Sys2Proof.Machine.execVsrlVx f x s
  | .vsraVx f x => Sys2Proof.Machine.execVsraVx f x s
  | .vminVx f x => Sys2Proof.Machine.execVminVx f x s
  | .vmaxVx f x => Sys2Proof.Machine.execVmaxVx f x s
  | .vminuVx f x => Sys2Proof.Machine.execVminuVx f x s
  | .vmaxuVx f x => Sys2Proof.Machine.execVmaxuVx f x s
  | .vmulVx f x => Sys2Proof.Machine.execVmulVx f x s
  | .vmulhVx f x => Sys2Proof.Machine.execVmulhVx f x s
  | .vmulhuVx f x => Sys2Proof.Machine.execVmulhuVx f x s
  | .vmulq f x => Sys2Proof.Machine.execVmulq f x s
  | .vsrar f x => Sys2Proof.Machine.execVsrar f x s
  | .vcmpeq f x => Sys2Proof.Machine.execVcmpeq f x s
  | .vcmpne f x => Sys2Proof.Machine.execVcmpne f x s
  | .vcmplt f x => Sys2Proof.Machine.execVcmplt f x s
  | .vcmple f x => Sys2Proof.Machine.execVcmple f x s
  | .vcmpltu f x => Sys2Proof.Machine.execVcmpltu f x s
  | .vcmpleu f x => Sys2Proof.Machine.execVcmpleu f x s
  | .vmand f x => Sys2Proof.Machine.execVmand f x s
  | .vmor f x => Sys2Proof.Machine.execVmor f x s
  | .vmxor f x => Sys2Proof.Machine.execVmxor f x s
  | .vmandn f x => Sys2Proof.Machine.execVmandn f x s
  | .vcompress f x => Sys2Proof.Machine.execVcompress f x s
  | .vexpand f x => Sys2Proof.Machine.execVexpand f x s
  | .vmerge f x => Sys2Proof.Machine.execVmerge f x s
  | .vpopc f x => Sys2Proof.Machine.execVpopc f x s
  | .vfirst f x => Sys2Proof.Machine.execVfirst f x s
  | .viota f x => Sys2Proof.Machine.execViota f x s
  | .vacclr f x => Sys2Proof.Machine.execVacclr f x s
  | .vacadd f x => Sys2Proof.Machine.execVacadd f x s
  | .vacaddu f x => Sys2Proof.Machine.execVacaddu f x s
  | .vacmac f x => Sys2Proof.Machine.execVacmac f x s
  | .vacmsu f x => Sys2Proof.Machine.execVacmsu f x s
  | .vacsum f x => Sys2Proof.Machine.execVacsum f x s
  | .vacrd f x => Sys2Proof.Machine.execVacrd f x s
  | .vbina f x => Sys2Proof.Machine.execVbina f x s
  | .vbinb f x => Sys2Proof.Machine.execVbinb f x s
  | .vsort f x => Sys2Proof.Machine.execVsort f x s
  | .vsortp f x => Sys2Proof.Machine.execVsortp f x s
  | .vmrglo f x => Sys2Proof.Machine.execVmrglo f x s
  | .vmrghi f x => Sys2Proof.Machine.execVmrghi f x s
  | .vmv f x => Sys2Proof.Machine.execVmv f x s
  | .vget f x => Sys2Proof.Machine.execVget f x s
  | .vput f x => Sys2Proof.Machine.execVput f x s
  | .vsplat f x => Sys2Proof.Machine.execVsplat f x s
  | .vld f x => Sys2Proof.Machine.execVld f x s
  | .vldL f x => Sys2Proof.Machine.execVldL f x s
  | .vldff f x => Sys2Proof.Machine.execVldff f x s
  | .vst f x => Sys2Proof.Machine.execVst f x s
  | .vstL f x => Sys2Proof.Machine.execVstL f x s
  | .vlds f x => Sys2Proof.Machine.execVlds f x s
  | .vldsL f x => Sys2Proof.Machine.execVldsL f x s
  | .vsts f x => Sys2Proof.Machine.execVsts f x s
  | .vstsL f x => Sys2Proof.Machine.execVstsL f x s
  | .vgath f x => Sys2Proof.Machine.execVgath f x s
  | .vgathL f x => Sys2Proof.Machine.execVgathL f x s
  | .vgathff f x => Sys2Proof.Machine.execVgathff f x s
  | .vscat f x => Sys2Proof.Machine.execVscat f x s
  | .vscatL f x => Sys2Proof.Machine.execVscatL f x s
  | .movs f x => Sys2Proof.Machine.execMovs f x s
  | .fills f x => Sys2Proof.Machine.execFills f x s
  | .cmps f x => Sys2Proof.Machine.execCmps f x s
  | .scans f x => Sys2Proof.Machine.execScans f x s
  | .matchs f x => Sys2Proof.Machine.execMatchs f x s
  | .amlk f x => Sys2Proof.Machine.execAmlk f x s
  | .amwr f x => Sys2Proof.Machine.execAmwr f x s
  | .amrd f x => Sys2Proof.Machine.execAmrd f x s
  | .dginit f x => Sys2Proof.Machine.execDginit f x s
  | .dgupd f x => Sys2Proof.Machine.execDgupd f x s
  | .dgfin f x => Sys2Proof.Machine.execDgfin f x s
  | .dgabt f x => Sys2Proof.Machine.execDgabt f x s
  | .dgcmp f x => Sys2Proof.Machine.execDgcmp f x s
  | .saddleOp f word => Sys2Proof.Machine.execSaddleOp f word s
  | .illegalInstruction f word => Sys2Proof.Machine.execIllegalInstruction f word s
  | .fetchFault f => Sys2Proof.Machine.execFetchFault f s
  | .d0ToD3hot fn => Sys2Proof.Machine.execD0ToD3hot fn s
  | .pcieHotReset t => Sys2Proof.Machine.execPcieHotReset t s
  | .hostCompletion n gen a c => Sys2Proof.Machine.execHostCompletion n gen a c s
  | .mainPowerOn => Sys2Proof.Machine.execMainPowerOn s
  | .mainPowerOff cut => Sys2Proof.Machine.execMainPowerOff cut s
  | .calendarStop => Sys2Proof.Machine.execCalendarStop s
  | .bringupStepComplete e => Sys2Proof.Machine.execBringupStepComplete e s
  | .resultDigestChunk u jid buffer => Sys2Proof.Machine.execResultDigestChunk u jid buffer s
  | .kdpResponseExpiry o tag => Sys2Proof.Machine.execKdpResponseExpiry o tag s

end Sys2Proof.Machine
end

