-- ==== Sys2Proof/Safety.lean ====
section
/-!
DEFINITION. The vocabulary of the statements: when a Forager executes a command and what it leaves, the results that the rules give, row by row of
the opcode map, and the invariants of the machine.
-/

namespace Sys2Proof.Machine

-- WHEN A FORAGER EXECUTES --------------------------------------------------------------------------------------------------------------------

/-- Forager `f`, which stands as `g`, executes the next instruction: it is live, and no arithmetic trap has come due (R206, R235). -/
def State.Runs (s : State) (f : FId) (g : Fgr) : Prop :=
  s.fgr? f = some g ∧ s.fgrLive f g = true ∧ g.regs.due = false

/-- No pending trap is delivered with the instruction that leaves these registers (R235: FXPRECISE = 0, or none pending). -/
def FRegs.Quiet (r : FRegs) : Prop := r.pend = none ∨ r.fxprecise = false

/-- The state in which an instruction of Forager `f`, that stood as `g`, has retired with registers `r`: nothing but that Forager's registers and
the draw of free values moves. -/
def State.retired (s : State) (f : FId) (g : Fgr) (r : FRegs) (target : Option (BitVec 48)) : State :=
  s.drawn.modFgr f fun h => { h with regs := g.regs.retire r target (Config.instrCycles s.draw) }

/-- The registers after an instruction has set the sticky flags `w` of FXCSR: with no trap pending, OV under OVE and DZ under DZE raise one, and FXEPC takes
the PC while VALID = 0 (R215, R235, R236). -/
def FRegs.flagged (r : FRegs) (w : W64) : FRegs :=
  let cause : Option Nat :=
    if w.getLsbD 4 && r.fxcsr.getLsbD 16 then some 0x09
    else if w.getLsbD 6 && r.fxcsr.getLsbD 17 then some 0x0A
    else none
  match cause with
  | none => { r with fxcsr := r.fxcsr ||| w }
  | some c =>
    if r.pend.isSome then { r with fxcsr := r.fxcsr ||| w }
    else { r with
      fxcsr := r.fxcsr ||| w
      pend := some { cause := c, after := 0 }
      fxepc := if r.fxepc.getLsbD 63 then r.fxepc else 0x8000000000000000#64 ||| r.pc.setWidth 64 }

-- WHAT THE RULES MAKE OF AN EXACT VALUE ---------------------------------------------------------------------------------------------------------

/-- SS selects saturation: 0b10, or 0b00 under SATD (R219). -/
def FRegs.selectsSat (r : FRegs) (ss : BitVec 2) : Bool := if ss = 0 then r.fxcsr.getLsbD 3 else ss == 2

/-- An exact value fitted to `w` bits signed, with the flag word it sets: wrap sets OV, saturation SAT (R219). -/
def fitted (w : Nat) (sat : Bool) (e : Int) : BitVec w × W64 :=
  if -(2 ^ (w - 1) : Int) ≤ e ∧ e < (2 ^ (w - 1) : Int) then (BitVec.ofInt w e, 0)
  else if sat then (BitVec.ofInt w (if e < 0 then -(2 ^ (w - 1) : Int) else (2 ^ (w - 1) : Int) - 1), 0x20)
  else (BitVec.ofInt w e, 0x10)

/-- The same without a sign: the quotient of DIVWU (R228). -/
def fittedU (w : Nat) (sat : Bool) (e : Nat) : BitVec w × W64 :=
  if e < 2 ^ w then (BitVec.ofNat w e, 0)
  else if sat then (BitVec.ofNat w (2 ^ w - 1), 0x20)
  else (BitVec.ofNat w e, 0x10)

/-- The rounding mode that RS selects: FXCSR.RM, RNE, RDN or RTZ (R215, R220). -/
def FRegs.selectsRm (r : FRegs) (rs : BitVec 2) : Nat :=
  match rs.toNat with
  | 0 => r.fxcsr.toNat % 8
  | 1 => 0
  | 2 => 3
  | _ => 2

/-- INX (R220): 0x80 when a nonzero value is discarded. -/
def inexact (x : Int) (sh : Nat) : W64 := if x % (2 ^ sh : Int) = 0 then 0 else 0x80

/-- `q` is `x / 2^sh` rounded in mode `rm` (R221): 0 RNE, 1 RNA, 2 RTZ, 3 RDN, 4 RUP, 5 RHU. -/
def Rounds (rm : Nat) (x : Int) (sh : Nat) (q : Int) : Prop :=
  let m : Int := 2 ^ sh
  let near := 2 * (q * m - x) ≤ m ∧ -m ≤ 2 * (q * m - x)
  let tie := 2 * (q * m - x) = m ∨ 2 * (q * m - x) = -m
  match rm with
  | 0 => near ∧ (tie → q % 2 = 0)
  | 1 => near ∧ (tie → (0 ≤ x → x < q * m) ∧ (x < 0 → q * m < x))
  | 2 => q = x.tdiv m
  | 3 => q * m ≤ x ∧ x < (q + 1) * m
  | 4 => x ≤ q * m ∧ (q - 1) * m < x
  | 5 => near ∧ (tie → x < q * m)
  | _ => True

/-- Cycles of a divide of a magnitude `n` by a magnitude `d` in `w` bits: with q = max(0, lz d − lz n), 4 + ⌈(q + 1) / 2⌉; 4 when `d` is 0 or above `n`; constant
under CTM (R229, R230). -/
def divideCycles (ctm : Bool) (w n d : Nat) : Nat :=
  if ctm then (if w = 64 then 36 else 68)
  else if d = 0 ∨ n < d then 4
  else 4 + (n.log2 - d.log2 + 2) / 2

-- THE ROWS OF THE OPCODE MAP (R246) ----------------------------------------------------------------------------------------------------------------

/-- An instruction of format REG: its major opcode, function code, and the fields that it uses. -/
structure RegRow where
  instr : FId → RegF → Instr
  op : BitVec 7
  fn : BitVec 6
  uses : Uses

/-- Every row of format REG in the order of the map, with the fields that R246 and R247 give it; the string instructions stand apart. -/
noncomputable def regRows : List RegRow := [
  ⟨.add, 0x01, 0x00, { ss := true }⟩, ⟨.sub, 0x01, 0x01, { ss := true }⟩, ⟨.neg, 0x01, 0x02, { ss := true, rb := false }⟩,
  ⟨.abs, 0x01, 0x03, { ss := true, rb := false }⟩, ⟨.and, 0x01, 0x04, {}⟩, ⟨.or, 0x01, 0x05, {}⟩, ⟨.xor, 0x01, 0x06, {}⟩,
  ⟨.andn, 0x01, 0x07, {}⟩, ⟨.sll, 0x01, 0x08, {}⟩, ⟨.srl, 0x01, 0x09, {}⟩, ⟨.sra, 0x01, 0x0A, {}⟩, ⟨.ror, 0x01, 0x0B, {}⟩,
  ⟨.min, 0x01, 0x0C, {}⟩, ⟨.max, 0x01, 0x0D, {}⟩, ⟨.minu, 0x01, 0x0E, {}⟩, ⟨.maxu, 0x01, 0x0F, {}⟩, ⟨.seq, 0x01, 0x10, {}⟩,
  ⟨.slt, 0x01, 0x11, {}⟩, ⟨.sltu, 0x01, 0x12, {}⟩, ⟨.clz, 0x01, 0x13, { rb := false }⟩, ⟨.ctz, 0x01, 0x14, { rb := false }⟩,
  ⟨.popc, 0x01, 0x15, { rb := false }⟩, ⟨.bswap, 0x01, 0x16, { rb := false }⟩, ⟨.addcy, 0x01, 0x18, {}⟩, ⟨.addc, 0x01, 0x19, {}⟩,
  ⟨.subby, 0x01, 0x1A, {}⟩, ⟨.subb, 0x01, 0x1B, {}⟩] ++ [
  ⟨.mul, 0x10, 0x00, { ss := true }⟩, ⟨.mulh, 0x10, 0x01, {}⟩, ⟨.mulhu, 0x10, 0x02, {}⟩, ⟨.mulw, 0x10, 0x03, {}⟩, ⟨.mulwu, 0x10, 0x04, {}⟩,
  ⟨.div, 0x11, 0x00, { ss := true }⟩, ⟨.divu, 0x11, 0x01, {}⟩, ⟨.rem, 0x11, 0x02, {}⟩, ⟨.remu, 0x11, 0x03, {}⟩,
  ⟨.divw, 0x11, 0x04, { ss := true }⟩, ⟨.divwu, 0x11, 0x05, { ss := true }⟩,
  ⟨.accclr, 0x13, 0x00, { ra := false, rb := false }⟩, ⟨.accadd, 0x13, 0x01, { rb := false }⟩, ⟨.accaddw, 0x13, 0x02, { rb := false }⟩,
  ⟨.accmac, 0x13, 0x03, {}⟩, ⟨.accmsu, 0x13, 0x04, {}⟩, ⟨.accwr, 0x13, 0x05, {}⟩,
  ⟨.bina, 0x15, 0x00, { rb := false }⟩, ⟨.binb, 0x15, 0x01, { rb := false }⟩,
  ⟨.amoadd, 0x24, 0x00, {}⟩, ⟨.amoswap, 0x24, 0x01, {}⟩, ⟨.amocas, 0x24, 0x02, {}⟩] ++ [
  ⟨.fence, 0x25, 0x00, { rd := false, ra := false, rb := false }⟩, ⟨.fenceRel, 0x25, 0x01, { rd := false, ra := false, rb := false }⟩,
  ⟨.fenceAcq, 0x25, 0x02, { rd := false, ra := false, rb := false }⟩, ⟨.abar, 0x34, 0x00, { rd := false, ra := false, rb := false }⟩,
  ⟨.mdone, 0x34, 0x01, { rd := false, rb := false }⟩, ⟨.memit, 0x34, 0x02, { rd := false, ra := false, rb := false }⟩,
  ⟨.brk, 0x34, 0x03, { rd := false, ra := false, rb := false }⟩, ⟨.rtp, 0x34, 0x04, { rd := false, ra := false, rb := false }⟩] ++ [
  ⟨.vadd, 0x41, 0x00, { ss := true }⟩, ⟨.vsub, 0x41, 0x01, { ss := true }⟩, ⟨.vneg, 0x41, 0x02, { ss := true, rb := false }⟩,
  ⟨.vabs, 0x41, 0x03, { ss := true, rb := false }⟩, ⟨.vand, 0x41, 0x04, {}⟩, ⟨.vor, 0x41, 0x05, {}⟩, ⟨.vxor, 0x41, 0x06, {}⟩,
  ⟨.vandn, 0x41, 0x07, {}⟩, ⟨.vsll, 0x41, 0x08, {}⟩, ⟨.vsrl, 0x41, 0x09, {}⟩, ⟨.vsra, 0x41, 0x0A, {}⟩, ⟨.vmin, 0x41, 0x0C, {}⟩,
  ⟨.vmax, 0x41, 0x0D, {}⟩, ⟨.vminu, 0x41, 0x0E, {}⟩, ⟨.vmaxu, 0x41, 0x0F, {}⟩, ⟨.vmul, 0x41, 0x10, { ss := true }⟩,
  ⟨.vmulh, 0x41, 0x11, {}⟩, ⟨.vmulhu, 0x41, 0x12, {}⟩] ++ [
  ⟨.vaddVx, 0x42, 0x00, { ss := true }⟩, ⟨.vsubVx, 0x42, 0x01, { ss := true }⟩, ⟨.vandVx, 0x42, 0x04, {}⟩, ⟨.vorVx, 0x42, 0x05, {}⟩,
  ⟨.vxorVx, 0x42, 0x06, {}⟩, ⟨.vandnVx, 0x42, 0x07, {}⟩, ⟨.vsllVx, 0x42, 0x08, {}⟩, ⟨.vsrlVx, 0x42, 0x09, {}⟩, ⟨.vsraVx, 0x42, 0x0A, {}⟩,
  ⟨.vminVx, 0x42, 0x0C, {}⟩, ⟨.vmaxVx, 0x42, 0x0D, {}⟩, ⟨.vminuVx, 0x42, 0x0E, {}⟩, ⟨.vmaxuVx, 0x42, 0x0F, {}⟩,
  ⟨.vmulVx, 0x42, 0x10, { ss := true }⟩, ⟨.vmulhVx, 0x42, 0x11, {}⟩, ⟨.vmulhuVx, 0x42, 0x12, {}⟩] ++ [
  ⟨.vcmpeq, 0x45, 0x00, {}⟩, ⟨.vcmpne, 0x45, 0x01, {}⟩, ⟨.vcmplt, 0x45, 0x02, {}⟩, ⟨.vcmple, 0x45, 0x03, {}⟩, ⟨.vcmpltu, 0x45, 0x04, {}⟩,
  ⟨.vcmpleu, 0x45, 0x05, {}⟩, ⟨.vmand, 0x45, 0x10, {}⟩, ⟨.vmor, 0x45, 0x11, {}⟩, ⟨.vmxor, 0x45, 0x12, {}⟩, ⟨.vmandn, 0x45, 0x13, {}⟩,
  ⟨.vcompress, 0x46, 0x00, {}⟩, ⟨.vexpand, 0x46, 0x01, {}⟩, ⟨.vmerge, 0x46, 0x02, {}⟩, ⟨.vpopc, 0x46, 0x03, { rb := false }⟩,
  ⟨.vfirst, 0x46, 0x04, { rb := false }⟩, ⟨.viota, 0x46, 0x05, { ra := false, rb := false }⟩] ++ [
  ⟨.vacclr, 0x47, 0x00, { ra := false, rb := false }⟩, ⟨.vacadd, 0x47, 0x01, { rb := false }⟩, ⟨.vacaddu, 0x47, 0x02, { rb := false }⟩,
  ⟨.vacmac, 0x47, 0x03, {}⟩, ⟨.vacmsu, 0x47, 0x04, {}⟩, ⟨.vacsum, 0x47, 0x05, { ra := false }⟩,
  ⟨.vbina, 0x49, 0x00, { rb := false }⟩, ⟨.vbinb, 0x49, 0x01, { rb := false }⟩, ⟨.vsort, 0x4A, 0x00, { rb := false }⟩, ⟨.vsortp, 0x4A, 0x01, {}⟩,
  ⟨.vmrglo, 0x4A, 0x02, {}⟩, ⟨.vmrghi, 0x4A, 0x03, {}⟩, ⟨.vmv, 0x4B, 0x00, { rb := false }⟩, ⟨.vget, 0x4B, 0x01, {}⟩, ⟨.vput, 0x4B, 0x02, {}⟩,
  ⟨.vsplat, 0x4B, 0x03, { rb := false }⟩] ++ [
  ⟨.vlds, 0x52, 0x00, {}⟩, ⟨.vldsL, 0x52, 0x01, {}⟩, ⟨.vsts, 0x52, 0x02, {}⟩, ⟨.vstsL, 0x52, 0x03, {}⟩, ⟨.vgath, 0x53, 0x00, {}⟩,
  ⟨.vgathL, 0x53, 0x01, {}⟩, ⟨.vgathff, 0x53, 0x02, {}⟩, ⟨.vscat, 0x53, 0x03, {}⟩, ⟨.vscatL, 0x53, 0x04, {}⟩,
  ⟨.amlk, 0x70, 0x00, {}⟩, ⟨.amwr, 0x71, 0x00, {}⟩, ⟨.amrd, 0x71, 0x01, {}⟩, ⟨.dginit, 0x72, 0x00, { ra := false, rb := false }⟩,
  ⟨.dgupd, 0x72, 0x01, {}⟩, ⟨.dgfin, 0x72, 0x02, { rb := false }⟩, ⟨.dgabt, 0x72, 0x03, { rd := false, rb := false }⟩, ⟨.dgcmp, 0x73, 0x00, {}⟩]

/-- The scalar instructions of two sources that set no flag, with the value that R225 and R246 to R247 give. -/
noncomputable def twoSourceRows : List ((FId → RegF → Instr) × (W64 → W64 → W64)) := [
  (.and, fun a b => a &&& b), (.or, fun a b => a ||| b), (.xor, fun a b => a ^^^ b), (.andn, fun a b => a &&& ~~~b),
  (.sll, fun a b => a <<< (b.extractLsb' 0 6).toNat), (.srl, fun a b => a >>> (b.extractLsb' 0 6).toNat),
  (.sra, fun a b => a.sshiftRight (b.extractLsb' 0 6).toNat), (.ror, fun a b => a.rotateRight (b.extractLsb' 0 6).toNat),
  (.min, fun a b => if a.toInt ≤ b.toInt then a else b), (.max, fun a b => if a.toInt ≤ b.toInt then b else a),
  (.minu, fun a b => if a.toNat ≤ b.toNat then a else b), (.maxu, fun a b => if a.toNat ≤ b.toNat then b else a),
  (.seq, fun a b => if a = b then 1 else 0), (.slt, fun a b => if a.toInt < b.toInt then 1 else 0),
  (.sltu, fun a b => if a.toNat < b.toNat then 1 else 0),
  (.mulh, fun a b => ((a.signExtend 128 * b.signExtend 128).extractLsb' 64 64)),
  (.mulhu, fun a b => ((a.setWidth 128 * b.setWidth 128).extractLsb' 64 64))]

/-- The scalar instructions of one source that set no flag (R247). -/
noncomputable def oneSourceRows : List ((FId → RegF → Instr) × (W64 → W64)) := [
  (.clz, fun a => BitVec.ofNat 64 ((List.range 64).takeWhile fun i => !a.getLsbD (63 - i)).length),
  (.ctz, fun a => BitVec.ofNat 64 ((List.range 64).takeWhile fun i => !a.getLsbD i).length),
  (.popc, fun a => BitVec.ofNat 64 ((List.range 64).countP fun i => a.getLsbD i)),
  (.bswap, fun a => (a.extractLsb' 0 8 ++ a.extractLsb' 8 8 ++ a.extractLsb' 16 8 ++ a.extractLsb' 24 8 ++
    a.extractLsb' 32 8 ++ a.extractLsb' 40 8 ++ a.extractLsb' 48 8 ++ a.extractLsb' 56 8 : BitVec 64))]

/-- The immediate forms with their values; IMM12 sign-extended (R247). -/
noncomputable def immediateRows : List ((FId → ImmF → Instr) × (W64 → W64 → W64)) := [
  (.addi, fun a b => a + b), (.andi, fun a b => a &&& b), (.ori, fun a b => a ||| b), (.xori, fun a b => a ^^^ b),
  (.slti, fun a b => if a.toInt < b.toInt then 1 else 0)]

/-- The shifts by an immediate (R247): the count is IMM12[5:0]. -/
noncomputable def shiftRows : List ((FId → ImmF → Instr) × (W64 → Nat → W64)) := [
  (.slli, fun a k => a <<< k), (.srli, fun a k => a >>> k), (.srai, fun a k => a.sshiftRight k)]

/-- The scalar instructions of format REG that fit an exact signed value under SS (R219, R225, R246). -/
noncomputable def signedRows : List ((FId → RegF → Instr) × Uses × (Int → Int → Int)) := [
  (.add, { ss := true }, fun a b => a + b), (.sub, { ss := true }, fun a b => a - b), (.neg, { ss := true, rb := false }, fun a _ => -a),
  (.abs, { ss := true, rb := false }, fun a _ => if a < 0 then -a else a), (.mul, { ss := true }, fun a b => a * b)]

/-- The carry instructions: result as an exact number, and CY after (R223). -/
noncomputable def carryRows : List ((FId → RegF → Instr) × (Nat → Nat → Nat → Int) × (Nat → Nat → Nat → Bool)) := [
  (.addcy, fun a b _ => (a : Int) + b, fun a b _ => decide (2 ^ 64 ≤ a + b)),
  (.addc, fun a b c => (a : Int) + b + c, fun a b c => decide (2 ^ 64 ≤ a + b + c)),
  (.subby, fun a b _ => (a : Int) - b, fun a b _ => decide (a < b)),
  (.subb, fun a b c => (a : Int) - b - c, fun a b c => decide (a < b + c))]

/-- The accumulating instructions: the exact addend (R226). -/
noncomputable def accumulateRows : List ((FId → RegF → Instr) × Uses × (FRegs → RegF → Int)) := [
  (.accadd, { rb := false }, fun r x => (r.rg x.ra).toInt),
  (.accaddw, { rb := false }, fun r x => (r.rw x.ra).toInt),
  (.accmac, {}, fun r x => (r.rg x.ra).toInt * (r.rg x.rb).toInt),
  (.accmsu, {}, fun r x => -((r.rg x.ra).toInt * (r.rg x.rb).toInt))]

/-- The loads: bytes, and what is made of the number they spell (R247). -/
noncomputable def loadRows : List ((FId → ImmF → Instr) × (FId → ImmF → Instr) × Nat × (FRegs → BitVec 5 → Nat → FRegs)) := [
  (.lb, .lbL, 1, fun r d v => r.setG d ((BitVec.ofNat 8 v).signExtend 64)),
  (.lh, .lhL, 2, fun r d v => r.setG d ((BitVec.ofNat 16 v).signExtend 64)),
  (.lw, .lwL, 4, fun r d v => r.setG d ((BitVec.ofNat 32 v).signExtend 64)),
  (.ld, .ldL, 8, fun r d v => r.setG d (BitVec.ofNat 64 v)),
  (.lbu, .lbuL, 1, fun r d v => r.setG d ((BitVec.ofNat 8 v).setWidth 64)),
  (.lhu, .lhuL, 2, fun r d v => r.setG d ((BitVec.ofNat 16 v).setWidth 64)),
  (.lwu, .lwuL, 4, fun r d v => r.setG d ((BitVec.ofNat 32 v).setWidth 64)),
  (.lq, .lqL, 16, fun r d v => r.setW d (BitVec.ofNat 128 v))]

/-- The stores: bytes, and the data register (R247). -/
noncomputable def storeRows : List ((FId → ImmF → Instr) × (FId → ImmF → Instr) × Nat × (FRegs → BitVec 5 → Nat)) := [
  (.sb, .sbL, 1, fun r d => (r.rg d).toNat), (.sh, .shL, 2, fun r d => (r.rg d).toNat), (.sw, .swL, 4, fun r d => (r.rg d).toNat),
  (.sd, .sdL, 8, fun r d => (r.rg d).toNat), (.sq, .sqL, 16, fun r d => (r.rw d).toNat)]

/-- The atomics: the value stored, if any, from the old one (R271). -/
noncomputable def atomicRows : List ((FId → RegF → Instr) × (FRegs → RegF → W64 → Option W64)) := [
  (.amoadd, fun r x old => some (old + r.rg x.rb)),
  (.amoswap, fun r x _ => some (r.rg x.rb)),
  (.amocas, fun r x old => if old = r.rg x.rd then some (r.rg x.rb) else none)]

/-- The branches: when each is taken (R246, R247). -/
noncomputable def branchRows : List ((FId → BraF → Instr) × (W64 → W64 → Bool)) := [
  (.beq, fun a b => decide (a = b)), (.bne, fun a b => decide (a ≠ b)), (.blt, fun a b => decide (a.toInt < b.toInt)),
  (.bge, fun a b => decide (b.toInt ≤ a.toInt)), (.bltu, fun a b => decide (a.toNat < b.toNat)), (.bgeu, fun a b => decide (b.toNat ≤ a.toNat))]

/-- The control registers: number, what reads it, and whether Pipeline mode may read it (R212). -/
def crRows : List (BitVec 12 × (FRegs → W64) × Bool) := [
  (0x000, (·.fxcsr), true), (0x001, (·.fxepc), true), (0x002, (·.coreCtl), true), (0x010, (·.vl), true), (0x011, (·.vtype), true),
  (0x012, (·.vstart), true), (0x020, (·.lc), true), (0x021, (·.ls), true), (0x022, (·.le), true), (0x100, (·.tepc), false),
  (0x101, (·.tcause), false), (0x102, (·.tval), false), (0x200, (·.cycle), true), (0x201, (·.instret), true)]

-- VECTORS --------------------------------------------------------------------------------------------------------------------------------------

/-- Element `i` of a register at the element width `w`. -/
def elemBits (v : W1024) (w i : Nat) : BitVec w := v.extractLsb' (w * i) w

/-- The processed elements, VSTART to VL − 1 (R253). -/
def FRegs.processes (r : FRegs) (i : Nat) : Prop := r.vstart.toNat ≤ i ∧ i < r.vl.toNat

/-- The element operations: the vector–vector form, the .VX form, the fields used, and the result with the flag word of one element (R254). -/
structure ElemRow where
  vv : FId → RegF → Instr
  vx : Option (FId → RegF → Instr)
  uses : Uses
  elem : (w : Nat) → Bool → BitVec w → BitVec w → BitVec w × W64

/-- Major opcodes 0x41 and 0x42 (R246). -/
noncomputable def elemRows : List ElemRow := [
  ⟨.vadd, some .vaddVx, { ss := true }, fun w sat a b => fitted w sat (a.toInt + b.toInt)⟩,
  ⟨.vsub, some .vsubVx, { ss := true }, fun w sat a b => fitted w sat (a.toInt - b.toInt)⟩,
  ⟨.vneg, none, { ss := true, rb := false }, fun w sat a _ => fitted w sat (-a.toInt)⟩,
  ⟨.vabs, none, { ss := true, rb := false }, fun w sat a _ => fitted w sat (if a.toInt < 0 then -a.toInt else a.toInt)⟩,
  ⟨.vand, some .vandVx, {}, fun _ _ a b => (a &&& b, 0)⟩,
  ⟨.vor, some .vorVx, {}, fun _ _ a b => (a ||| b, 0)⟩,
  ⟨.vxor, some .vxorVx, {}, fun _ _ a b => (a ^^^ b, 0)⟩,
  ⟨.vandn, some .vandnVx, {}, fun _ _ a b => (a &&& ~~~b, 0)⟩,
  ⟨.vsll, some .vsllVx, {}, fun w _ a b => (a <<< (b.toNat % w), 0)⟩,
  ⟨.vsrl, some .vsrlVx, {}, fun w _ a b => (a >>> (b.toNat % w), 0)⟩,
  ⟨.vsra, some .vsraVx, {}, fun w _ a b => (a.sshiftRight (b.toNat % w), 0)⟩,
  ⟨.vmin, some .vminVx, {}, fun _ _ a b => (if a.toInt ≤ b.toInt then a else b, 0)⟩,
  ⟨.vmax, some .vmaxVx, {}, fun _ _ a b => (if a.toInt ≤ b.toInt then b else a, 0)⟩,
  ⟨.vminu, some .vminuVx, {}, fun _ _ a b => (if a.toNat ≤ b.toNat then a else b, 0)⟩,
  ⟨.vmaxu, some .vmaxuVx, {}, fun _ _ a b => (if a.toNat ≤ b.toNat then b else a, 0)⟩,
  ⟨.vmul, some .vmulVx, { ss := true }, fun w sat a b => fitted w sat (a.toInt * b.toInt)⟩,
  ⟨.vmulh, some .vmulhVx, {}, fun w _ a b => (BitVec.ofInt w (a.toInt * b.toInt / (2 ^ w : Int)), 0)⟩,
  ⟨.vmulhu, some .vmulhuVx, {}, fun w _ a b => (BitVec.ofNat w (a.toNat * b.toNat / 2 ^ w), 0)⟩]

/-- The compares (R255). -/
noncomputable def compareRows : List ((FId → RegF → Instr) × ((w : Nat) → BitVec w → BitVec w → Bool)) := [
  (.vcmpeq, fun _ a b => decide (a = b)), (.vcmpne, fun _ a b => decide (a ≠ b)), (.vcmplt, fun _ a b => decide (a.toInt < b.toInt)),
  (.vcmple, fun _ a b => decide (a.toInt ≤ b.toInt)), (.vcmpltu, fun _ a b => decide (a.toNat < b.toNat)),
  (.vcmpleu, fun _ a b => decide (a.toNat ≤ b.toNat))]

/-- The mask operations (R255). -/
noncomputable def maskRows : List ((FId → RegF → Instr) × (Bool → Bool → Bool)) := [
  (.vmand, fun a b => a && b), (.vmor, fun a b => a || b), (.vmxor, fun a b => a != b), (.vmandn, fun a b => a && !b)]

/-- `r` after an instruction that wrote elements of V[d]: `e i` stands in the processed elements, the others keep their values, the sticky flags `w` are
set and VSTART is 0 (R253, R254). -/
def FRegs.Elementwise (old r : FRegs) (d : BitVec 5) (e : (i : Nat) → BitVec old.sew) (w : W64) : Prop :=
  r = { (old.setV d (r.rv d)).flagged w with vstart := 0 } ∧
  ∀ i, i < vlMax old.vtype →
    (old.processes i → elemBits (r.rv d) old.sew i = e i) ∧ (¬ old.processes i → elemBits (r.rv d) old.sew i = elemBits (old.rv d) old.sew i)

/-- The flag words of the processed elements together (R254). -/
def FRegs.flagsOf (r : FRegs) (e : Nat → W64) : W64 :=
  ((List.range r.vl.toNat).filter fun i => decide (r.vstart.toNat ≤ i)).foldl (fun w i => w ||| e i) 0

/-- `r` after an instruction that wrote mask bits of V[d] (R253). -/
def FRegs.Maskwise (old r : FRegs) (d : BitVec 5) (m : Nat → Bool) : Prop :=
  r = { old.setV d (r.rv d) with vstart := 0 } ∧
  if old.vl.toNat ≤ old.vstart.toNat then r.rv d = old.rv d
  else ∀ i, i < 1024 → (r.rv d).getLsbD i = if old.vl.toNat ≤ i then false else if old.vstart.toNat ≤ i then m i else (old.rv d).getLsbD i

/-- Elements below VL whose mask bit in V[m] is 1, ascending (R255). -/
def FRegs.chosen (r : FRegs) (m : BitVec 5) : List Nat := (List.range r.vl.toNat).filter fun i => (r.rv m).getLsbD i

/-- Merging by taking the smaller head each time, and the head of the first on a tie (R259). -/
inductive Merges : List Nat → List Nat → List Nat → Prop
  | nilLeft (b : List Nat) : Merges [] b b
  | nilRight (a : List Nat) : Merges a [] a
  | left {x y : Nat} {a b l : List Nat} : x ≤ y → Merges a (y :: b) l → Merges (x :: a) (y :: b) (x :: l)
  | right {x y : Nat} {a b l : List Nat} : y < x → Merges (x :: a) b l → Merges (x :: a) (y :: b) (y :: l)

/-- Elements 0 to VL − 1 of a register as unsigned numbers. -/
def FRegs.values (r : FRegs) (i : BitVec 5) : List Nat := (List.range r.vl.toNat).map fun k => (elemBits (r.rv i) r.sew k).toNat

/-- `r` after an instruction that wrote the list `l` to elements 0 to VL − 1 of V[d] (R253, R259). -/
def FRegs.Listed (old r : FRegs) (d : BitVec 5) (l : List Nat) : Prop :=
  ∀ i, i < vlMax old.vtype →
    elemBits (r.rv d) old.sew i = if i < old.vl.toNat then BitVec.ofNat old.sew (l.getD i 0) else elemBits (old.rv d) old.sew i

/-- Lane `i` of an accumulator at the element width `w` (R256). -/
def vaLane (va : WVA) (w i : Nat) : BitVec (2 * w + 16) := va.extractLsb' ((2 * w + 16) * i) (2 * w + 16)

/-- The vector accumulating instructions: the exact addend of an element (R257). -/
noncomputable def vaccRows : List ((FId → RegF → Instr) × Uses × (FRegs → RegF → Nat → Int)) := [
  (.vacadd, { rb := false }, fun r x i => (elemBits (r.rv x.ra) r.sew i).toInt),
  (.vacaddu, { rb := false }, fun r x i => ((elemBits (r.rv x.ra) r.sew i).toNat : Int)),
  (.vacmac, {}, fun r x i => (elemBits (r.rv x.ra) r.sew i).toInt * (elemBits (r.rv x.rb) r.sew i).toInt),
  (.vacmsu, {}, fun r x i => -((elemBits (r.rv x.ra) r.sew i).toInt * (elemBits (r.rv x.rb) r.sew i).toInt))]

-- ELEMENT AND BYTE ACCESSES -----------------------------------------------------------------------------------------------------------------------

/-- The elements of a vector load arrive one by one, each access done (R260, R261): from a state and registers to a state and registers. -/
inductive LoadsAll (f : FId) (g : Fgr) (ldm : Bool) (d : BitVec 5) (ea : Nat → W64) : List Nat → State → FRegs → State → FRegs → Prop
  | done (s : State) (r : FRegs) : LoadsAll f g ldm d ea [] s r s r
  | elem {i : Nat} {is : List Nat} {s t u : State} {r r' : FRegs} {bs : List Byte} :
      (ea i).toNat % (r.sew / 8) = 0 → s.load f ((s.fgr? f).getD g) ldm (ea i).toNat (r.sew / 8) = .ok bs t →
      LoadsAll f g ldm d ea is t (r.setV d (setElem (r.rv d) r.sew i (leNat bs))) u r' → LoadsAll f g ldm d ea (i :: is) s r u r'

/-- The elements of a vector store go out one by one, each access done. -/
inductive StoresAll (f : FId) (g : Fgr) (ldm : Bool) (r : FRegs) (d : BitVec 5) (ea : Nat → W64) : List Nat → State → State → Prop
  | done (s : State) : StoresAll f g ldm r d ea [] s s
  | elem {i : Nat} {is : List Nat} {s t u : State} {bs : List Byte} :
      (ea i).toNat % (r.sew / 8) = 0 →
      s.store f ((s.fgr? f).getD g) ldm (ea i).toNat (leBytes (r.sew / 8) (elemBits (r.rv d) r.sew i).toNat) = .ok bs t →
      StoresAll f g ldm r d ea is t u → StoresAll f g ldm r d ea (i :: is) s u

/-- The vector memory instructions of format REG: load or store, LDM, fault-only-first, and the address of element `i` (R260). -/
noncomputable def vmemRegRows : List ((FId → RegF → Instr) × Bool × Bool × Bool × (FRegs → RegF → Nat → W64)) :=
  let strided := fun (r : FRegs) (x : RegF) (i : Nat) => r.rg x.ra + BitVec.ofNat 64 i * r.rg x.rb
  let indexed := fun (r : FRegs) (x : RegF) (i : Nat) =>
    let iw := if r.vtype.getLsbD 3 then 64 else 32
    r.rg x.ra + (elemBits (r.rv (x.rb + BitVec.ofNat 5 (i * iw / 1024))) iw (i % (1024 / iw))).setWidth 64
  [(.vlds, true, false, false, strided), (.vldsL, true, true, false, strided), (.vsts, false, false, false, strided),
   (.vstsL, false, true, false, strided), (.vgath, true, false, false, indexed), (.vgathL, true, true, false, indexed),
   (.vgathff, true, false, true, indexed), (.vscat, false, false, false, indexed), (.vscatL, false, true, false, indexed)]

/-- The vector memory instructions of format IMM. -/
noncomputable def vmemImmRows : List ((FId → ImmF → Instr) × Bool × Bool × Bool) :=
  [(.vld, true, false, false), (.vldL, true, true, false), (.vldff, true, false, true), (.vst, false, false, false), (.vstL, false, true, false)]

/-- Bytes read one by one from a pointer. -/
inductive ReadsAll (f : FId) (g : Fgr) (ldm : Bool) : Nat → W64 → State → List Byte → State → Prop
  | done (a : W64) (s : State) : ReadsAll f g ldm 0 a s [] s
  | byte {n : Nat} {a : W64} {s t u : State} {bs l : List Byte} :
      s.load f ((s.fgr? f).getD g) ldm a.toNat 1 = .ok bs t → ReadsAll f g ldm n (a + 1) t l u → ReadsAll f g ldm (n + 1) a s (bs.headD 0 :: l) u

/-- `n` bytes moved one by one, as the code of R267 does: to `d` and from `p`, each in LDM or in instance memory. -/
inductive Moves (f : FId) (g : Fgr) (dl pl : Bool) : Nat → W64 → W64 → State → State → Prop
  | done (d p : W64) (s : State) : Moves f g dl pl 0 d p s s
  | byte {n : Nat} {d p : W64} {s t u v : State} {b : Byte} {cs : List Byte} :
      ReadsAll f g pl 1 p s [b] t → t.store f ((t.fgr? f).getD g) dl d.toNat [b] = .ok cs u → Moves f g dl pl n (d + 1) (p + 1) u v →
      Moves f g dl pl (n + 1) d p s v

/-- `n` bytes filled with the pattern, by the low three bits of the pointer (R267). -/
inductive Fills (f : FId) (g : Fgr) (ldm : Bool) (pattern : W64) : Nat → W64 → State → State → Prop
  | done (d : W64) (s : State) : Fills f g ldm pattern 0 d s s
  | byte {n : Nat} {d : W64} {s t u : State} {cs : List Byte} :
      s.store f ((s.fgr? f).getD g) ldm d.toNat [pattern.extractLsb' (8 * (d.toNat % 8)) 8] = .ok cs t → Fills f g ldm pattern n (d + 1) t u →
      Fills f g ldm pattern (n + 1) d s u

/-- A compare of at most `n` bytes (R267): the result, 0 where all are equal, and the bytes before the difference. -/
inductive Compares (f : FId) (g : Fgr) (al bl : Bool) : Nat → W64 → W64 → State → W64 → Nat → State → Prop
  | equal (a b : W64) (s : State) : Compares f g al bl 0 a b s 0 0 s
  | differ {n : Nat} {a b : W64} {s t u : State} {c d : Byte} :
      ReadsAll f g al 1 a s [c] t → ReadsAll f g bl 1 b t [d] u → c ≠ d →
      Compares f g al bl (n + 1) a b s (if c.toNat < d.toNat then BitVec.allOnes 64 else 1) 0 u
  | same {n k : Nat} {a b r : W64} {s t u v : State} {c : Byte} :
      ReadsAll f g al 1 a s [c] t → ReadsAll f g bl 1 b t [c] u → Compares f g al bl n (a + 1) (b + 1) u r k v →
      Compares f g al bl (n + 1) a b s r (k + 1) v

/-- A search for `needle` over at most `n` positions (R267): whether it is found, and the positions before it. -/
inductive Finds (f : FId) (g : Fgr) (ldm : Bool) (needle : List Byte) : Nat → W64 → State → Bool → Nat → State → Prop
  | absent (p : W64) (s : State) : Finds f g ldm needle 0 p s false 0 s
  | here {n : Nat} {p : W64} {s t : State} : ReadsAll f g ldm needle.length p s needle t → Finds f g ldm needle (n + 1) p s true 0 t
  | onward {n k : Nat} {p : W64} {s t u : State} {l : List Byte} {found : Bool} :
      ReadsAll f g ldm needle.length p s l t → l ≠ needle → Finds f g ldm needle n (p + 1) t found k u →
      Finds f g ldm needle (n + 1) p s found (k + 1) u

/-- The registers of a string instruction obey R266: RA even and nonzero (nonzero alone for FILLS), RB nonzero and apart from RA and RA + 1. -/
def strSound (x : StrF) (pairs : Bool) : Prop :=
  x.ra ≠ 0 ∧ x.rb ≠ 0 ∧ x.rb ≠ x.ra ∧ (pairs = true → x.ra.getLsbD 0 = false ∧ x.rb ≠ x.ra + 1)

-- CONTROL REGISTERS -------------------------------------------------------------------------------------------------------------------------------

/-- The control-register writes (R212 to R217, R250, R264): number, the modes that may write it, the bits it has, and what a write leaves. -/
def crWriteRows : List (BitVec 12 × List Nat × W64 × (FRegs → W64 → FRegs)) := [
  (0x000, [0, 1, 2], 0x311FF, fun r v => { r with fxcsr := v }),
  (0x001, [1, 2], 0x8000FFFFFFFFFFFF, fun r v => { r with fxepc := v }),
  (0x010, [0, 1, 2], 0xFF, fun r v => { r with vl := v }),
  (0x011, [0, 1, 2], 0xF, fun r v => { r with vtype := v, vl := if vlMax v < r.vl.toNat then BitVec.ofNat 64 (vlMax v) else r.vl }),
  (0x012, [0, 1, 2], 0x7F, fun r v => { r with vstart := v }),
  (0x020, [0, 1, 2], 0xFFFFFFFFFFFFFFFF, fun r v => { r with lc := v }),
  (0x021, [0, 1, 2], 0x0000FFFFFFFFFFFC, fun r v => { r with ls := v }),
  (0x022, [0, 1, 2], 0x0000FFFFFFFFFFFC, fun r v => { r with le := v }),
  (0x100, [1, 2], 0x0000FFFFFFFFFFFF, fun r v => { r with tepc := v }),
  (0x101, [1, 2], 0xBF, fun r v => { r with tcause := v }),
  (0x102, [1, 2], 0xFFFFFFFFFFFFFFFF, fun r v => { r with tval := v }),
  (0x200, [2], 0xFFFFFFFFFFFFFFFF, fun r v => { r with cycle := v }),
  (0x201, [2], 0xFFFFFFFFFFFFFFFF, fun r v => { r with instret := v })]

/-- WRCR, SETCR and CLRCR: FN3, and the new value from the old one and G[RA] (R213, R246). -/
noncomputable def crOpRows : List ((FId → ImmF → Instr) × BitVec 3 × (W64 → W64 → W64)) := [
  (.wrcr, 1, fun _ v => v), (.setcr, 2, fun old v => old ||| v), (.clrcr, 3, fun old v => old &&& ~~~v)]

/-- The reserved values of a field of a control register: RM 6 and 7, VL above VLMAX, SEW 5 to 7 (R215, R250). -/
def crValueReserved (n : BitVec 12) (r : FRegs) (v : W64) : Bool :=
  (n == 0x000 && decide (6 ≤ v.toNat % 8)) || (n == 0x010 && decide (vlMax r.vtype < v.toNat)) || (n == 0x011 && decide (5 ≤ v.toNat % 8))

-- MEMORY ------------------------------------------------------------------------------------------------------------------------------------------

/-- The memory of the device stands in its canonical form. -/
def State.memWf (s : State) : Prop := Memory.wf s.mem = true

-- THE UNITS' MORSELS ------------------------------------------------------------------------------------------------------------------------------

/-- Unit `u` of a live die holds the morsel `m` of the job `j` in force, at its stage `st`. -/
def State.HoldsMorsel (s : State) (u : UId) (m : Morsel) (j : Job) (st : Stage) : Prop :=
  ((s.dieD u.die).units[u.unit]?).bind (·.morsel) = some m ∧ s.unitsLive u.die = true ∧ s.jobOf m = some j ∧ j.image.stage? m.stage = some st

/-- What becomes of the machine when the work of `m` on unit `u` gave `r`: a sink's rows are placed, the morsel counts and the job moves on; or the part of
the die fails with the status, on the state in which the unit has let go of the morsel. -/
def State.worked (s : State) (u : UId) (m : Morsel) (st : Stage) (r : Res State) : State :=
  match r.bind fun t => if st.sink then t.sinkDone m else .ok t with
  | .ok t => (t.countMorsel m.jid u.die).settle m.jid
  | .error e => ((s.releaseUnit u m).failPart m.jid u.die m.stage e []).settle m.jid

/-- A row of the fixed units: its command, the morsels that it completes, and their work. -/
structure UnitRow where
  instr : UId → Instr
  picks : State → UId → Stage → Morsel → Bool
  work : UId → State → Job → Stage → Morsel → Res State

/-- No block of the region of the instance of `m` on die `d` is still being cleared (R281, R287). -/
def State.regionServes (s : State) (d n : Nat) : Bool :=
  ((s.dieD d).amu.region n).all fun b => !((s.dieD d).amu.blocks.getD b AmuBlock.reset).clearing

/-- The rows of the Column Streamer, the Hash Probe Engine, the Merge Network, the Associative Match Unit and the digest engines. -/
noncomputable def unitRows : List UnitRow := [
  ⟨.columnStreamerMorsel, fun _ _ st m => st.kind == .streamer && m.kind == .normal, streamerWork⟩,
  ⟨.clearMorsel, fun _ _ _ m => match m.kind with | .clear .. => true | _ => false, clearWork⟩,
  ⟨.build, fun _ _ => isHash 1, buildWork⟩, ⟨.probeInner, fun _ _ => isHash 2, probeWork .inner⟩, ⟨.probeLeft, fun _ _ => isHash 3, probeWork .left⟩,
  ⟨.probeSemi, fun _ _ => isHash 4, probeWork .semi⟩, ⟨.probeAnti, fun _ _ => isHash 5, probeWork .anti⟩, ⟨.group, fun _ _ => isHash 6, groupWork⟩,
  ⟨.drainMorsel, fun _ _ _ m => match m.kind with | .drain _ => true | _ => false, drainWork⟩,
  ⟨.sortIngest, fun _ _ => isMerge 1 .normal, fun _ s _ st m => s.sortIngest m st.param⟩,
  ⟨.topnIngest, fun _ _ => isMerge 2 .normal, fun _ s _ st m => s.topnIngest m st.param⟩,
  ⟨.sortMerge, fun _ _ => isMerge 1 .merge, mergeWork⟩,
  ⟨.sortFinal, fun _ _ => isMerge 1 .final, fun u s j st m => finalWork st.rows u s j st m⟩,
  ⟨.topnFinal, fun _ _ => isMerge 2 .final, fun u s j st m => finalWork (mnLimit st.param) u s j st m⟩,
  ⟨.lookup, fun _ _ st m => st.kind == .amu && byteAt st.param 0 == 1 && m.kind == .normal, lookupWork⟩,
  ⟨.load, fun s u st m => st.kind == .amu && byteAt st.param 0 == 2 && m.kind == .normal && s.regionServes u.die m.inst, loadWork⟩,
  ⟨.row, fun _ _ st m => st.kind == .digest && byteAt st.param 0 == 1 && m.kind == .normal, rowWork⟩,
  ⟨.stream, fun _ _ st m => st.kind == .digest && byteAt st.param 0 == 2 && m.kind == .normal, streamWork⟩]

-- REGISTERS AND DICTIONARY ----------------------------------------------------------------------------------------------------------------------------

/-- Function `fn` takes a write of its registers: it is on the link of a powered device that has booted, and its instance is not RESETTING (R374, R494). -/
def State.HostWrites (s : State) (fn : Nat) : Prop :=
  s.fnLive fn = true ∧ s.power.devState ≠ .booting ∧ (s.instD fn).state ≠ .resetting

/-- Keeper takes the write of `data` by `o` to object `i`:`sub`, which is sub-index `sub` of `x` with the entry `m`: every check of R427 passes. -/
def State.Accepts (s : State) (o : Origin) (i sub : Nat) (data : List Byte) (x : OIx) (m : ObjMeta) : Prop :=
  s.keeperUp = true ∧ s.keeperHolds = false ∧ s.access o true i sub = .ok (x, m) ∧ m.sizeOk data.length = true ∧
  s.valueCheck x sub data = none ∧ s.logRoom x sub = true

/-- An accepted write of an object that is not RWP: it is logged unless the log is written, takes effect, and is answered with code 0 (R428, R440). -/
def State.answered (s : State) (o : Origin) (i sub : Nat) (x : OIx) (m : ObjMeta) (data : List Byte) (f : State → State) : State :=
  (f (if x.unlogged sub then s else s.auditWrite o i sub (s.writeValue x m sub data))).emit (.answer o 0)

/-- A command that is the write of one dictionary object: index and subindex, and what an accepted value does. -/
structure DictRow where
  instr : Origin → List Byte → Instr
  index : Nat
  sub : Nat
  effect : State → List Byte → State

/-- A command that writes an RWP object (R437): index and subindex, the value that it always writes, if it has one, and what the object reads as. -/
structure RwpRow where
  instr : Origin → List Byte → Instr
  index : Nat
  sub : Nat
  fixed : Option (List Byte)
  value : Rwp → Nat

/-- The commands that write an RWP object. -/
noncomputable def rwpRows : List RwpRow := [
  ⟨.framePeriod, 0x2000, 1, none, fun r => r.framePeriod⟩, ⟨.t0TaiNs, 0x2000, 5, none, fun r => r.t0TaiNs.toNat⟩,
  ⟨.deviceId, 0x6000, 1, none, fun r => r.deviceId⟩, ⟨.portMode, 0x6000, 3, none, fun r => r.portMode⟩,
  ⟨.vfVectors, 0x1010, 4, none, fun r => r.vfVectors⟩, ⟨.logMode, 0xA000, 1, none, fun r => r.logMode⟩,
  ⟨fun o _ => .syncModeSet o, 0x2000, 4, some [1], fun r => r.syncMode⟩, ⟨fun o _ => .syncModeClear o, 0x2000, 4, some [0], fun r => r.syncMode⟩]

/-- The commands that write a divided resource of instance `n` (R58, R369): the change that the second boundary from the write brings. -/
noncomputable def resourceRows (n k : Nat) (hi : Bool) : List DictRow :=
  let row := fun (instr : Origin → List Byte → Instr) base sub (change : List Byte → Change) =>
    DictRow.mk instr (base + n) sub fun s data => { s with changes := s.changes ++ [{ left := 2, inst := n, change := change data }] }
  [row (.coreFrames n) 0x3000 4 fun d => .coreFrames (BitVec.ofNat 64 (leNat d)), row (.share n k) 0x3000 (5 + k) fun d => .share k (BitVec.ofNat 64 (leNat d)),
   row (.fabricShare n) 0x3000 10 fun d => .fabricShare (leNat d), row (.imgStore n) 0x3000 11 fun d => .imgStore (leNat d),
   row (.sqQuota n) 0x1100 1 fun d => .sqQuota (leNat d), row (.cqQuota n) 0x1100 2 fun d => .cqQuota (leNat d),
   row (.pasid n) 0x1100 3 fun d => .pasid (BitVec.ofNat 32 (leNat d)), row (.readyLimit n) 0x5100 1 fun d => .readyLimit (leNat d),
   row (.ptPages n) 0x4100 1 fun d => .ptPages (leNat d), row (.ptWrite n) 0x4100 2 fun d => .ptWrite (ptRecords d),
   row (.regions n) 0x4100 4 fun d => .regions (BitVec.ofNat 512 (leNat d)),
   row (.ccWays n hi) 0x4100 (if hi then 6 else 5) fun d => .ccWays hi (BitVec.ofNat 64 (leNat d))]

/-- The other commands that write one object: what the value does at once (R12, R36, R205, R314, R315, R321, R388, R415, R442, R446, R447, R464 to R466, R469, R475, R483,
R490). `n` is an instance, `d` a die, `hi` the upper of two lock words. -/
noncomputable def objectRows (n d : Nat) (hi : Bool) : List DictRow := [
  ⟨.ccLock n hi, 0x4100 + n, if hi then 8 else 7, fun s v => s.setLocks n hi (BitVec.ofNat 64 (leNat v))⟩,
  ⟨.dirtyCtl n, 0x4100 + n, 13, fun s _ => s.modInst n fun i => { i with dirtyReq := true }⟩,
  ⟨.stateImage n, 0x3000 + n, 20, fun s v => s.modInst n fun i => { i with restoreStatus := 1, restore := some { image := v, accepted := false } }⟩,
  ⟨.retire d, 0x5010 + d, 5, fun s v => (s.retireCommand d (leNat v)).getD s⟩,
  ⟨.logAck, 0xA000, 6, fun s v => s.modLog fun l =>
    let l1 := { l with acked := BitVec.ofNat 32 (leNat v) }
    { l1 with holdFull := s.keeper.rwp.logMode == 1 && decide (l1.free ≤ 256) }⟩,
  ⟨.calTime, 0xA010, 1, fun s v => { s with keeper := { s.keeper with calTime := BitVec.ofNat 64 (leNat v), calFrac := 0, calValid := true } }⟩,
  ⟨.calState, 0xA010, 5, fun s v => { s with keeper := { s.keeper with vbatLost := s.keeper.vbatLost && !bit (leNat v) 2 } }⟩,
  ⟨.quoteReq n, 0x7100 + n, 3, fun s v => s.quoteStart n v⟩,
  ⟨.measExtend, 0x7000, 2, fun s v => { s with propolis := { s.propolis with
    meas := s.propolis.meas.modify (byteAt v 0) fun m => sha256 (m ++ v.drop 1) } }⟩,
  ⟨.imeasExtend n, 0x7100 + n, 2, fun s v => s.modInst n fun i => { i with imeas := i.imeas.modify (byteAt v 0) fun m => sha256 (m ++ v.drop 1) }⟩,
  ⟨.svnRaise, 0x7000, 4, fun s v =>
    if leNat v ≤ s.propolis.minSvn then s
    else ({ s with propolis := { s.propolis with minSvn := leNat v } } : State).raise Config.evSvnRaised⟩,
  ⟨.fwSwitch, 0x8010, 2, fun s _ => { s with propolis := { s.propolis with switch := .accepted, fwState := 2 } }⟩,
  ⟨.warmReset, 0x9000, 1, fun s _ => { s with power := { s.power with warmPending := some (s.power.warmPending.getD 2) } }⟩,
  ⟨fun o v => .evtAck (.dict o v), 0x8000, 2, fun s v => { s with events := { s.events with pend := s.events.pend &&& ~~~BitVec.ofNat 256 (leNat v) } }⟩,
  ⟨fun o v => .evtMask (.dict o v), 0x8000, 3, fun s v => s.setMask (BitVec.ofNat 256 (leNat v))⟩]

/-- The commands that write one value of an object, of instance `n` or port `p`: index, subindex, the value and what it does. -/
noncomputable def fixedRows (n p : Nat) : List ((Origin → Instr) × Nat × Nat × List Byte × (State → State)) := [
  (.clean n, 0x4100 + n, 11, [1], fun s => s.modInst n fun i => { i with inval := some (false, i.invalBase, i.invalPages) }),
  (.cleanInval n, 0x4100 + n, 11, [2], fun s => s.modInst n fun i => { i with inval := some (true, i.invalBase, i.invalPages) }),
  (.saddleEnable, 0x1009, 1, [2], fun s => (s.saddleCommand 2).getD s), (.saddleDisable, 0x1009, 1, [1], fun s => (s.saddleCommand 1).getD s),
  (.portDisable p, 0x6010 + p, 1, [1], fun s => s.modPort p fun x => match x.state with
    | .up => { x with state := .disabling, enablePending := false }
    | .disabling => { x with enablePending := false }
    | .down | .training | .disabled => { x with state := .disabled, enablePending := false }),
  (.portEnable p, 0x6010 + p, 1, [2], fun s => s.modPort p fun x => match x.state with
    | .disabled => { x with state := .training }
    | .disabling => { x with enablePending := true }
    | _ => x)]

/-- INST_CMD: the commands of an instance with their codes (R367). -/
noncomputable def instRows : List ((Nat → Origin → Nat → Instr) × Byte × InstCmd) := [
  (.enable, 1, .enable), (.disable, 2, .disable), (.reset, 3, .reset), (.freezeDrain, 4, .freezeDrain), (.freezeAbort, 5, .freezeAbort), (.thaw, 6, .thaw)]

/-- The commands of a dictionary window by their code in KDW_CTRL (R430). -/
noncomputable def windowRows : List ((Nat → W32 → Instr) × Nat) := [(.read, 1), (.write, 2), (.segRead, 3), (.segWrite, 4), (.endXfer, 5), (.abort, 6)]

/-- The requests of the Keeper Dictionary Protocol by their OP (R433). -/
noncomputable def kdpRows : List ((Origin → KdpMsg → Instr) × Nat) := [
  (.kdpRead, 1), (.kdpWrite, 2), (.segReadStart, 3), (.segWriteStart, 4), (.segData, 5), (.segEnd, 6), (.segAbort, 7)]

end Sys2Proof.Machine
end

