-- ==== Sys2Proof/Certificates/Slice0/Obligations.lean ====
section
/-!
DEFINITION. The statements for the provers.
-/

open Sys2Proof Sys2Proof.Machine

-- THE STEP ------------------------------------------------------------------------------------------------------------------------------------

/-- A step takes the command at the front of the queue and runs it on the state with the queue's rest. -/
def Obligations.StepRunsTheFrontCommand : Prop :=
  ∀ (c : Instr) (rest : List Instr) (s : State), step { s with pending := c :: rest } = exec c { s with pending := rest }

/-- On an empty queue the block idles (the model's choice, notes/assumptions/2.md). -/
def Obligations.EmptyQueueIdles : Prop :=
  ∀ s : State, s.pending = [] → step s = .next s

-- FORAGERS: SCALAR RESULTS --------------------------------------------------------------------------------------------------------------------

/-- The integer instructions write their value, in register and immediate form, and nothing else; those that set no flag (R209, R245, R247), and those whose
exact signed value is fitted under SS: wrapped with OV, or saturated with SAT (R215, R219, R225). -/
def Obligations.IntegerResults : Prop :=
  ((∀ row ∈ twoSourceRows, ∀ (f : FId) (x : RegF) (s : State) (g : Fgr), s.Runs f g → g.regs.Quiet → badReg {} x = false →
     exec (row.1 f x) s = .next (s.retired f g (g.regs.setG x.rd (row.2 (g.regs.rg x.ra) (g.regs.rg x.rb))) none)) ∧
   (∀ row ∈ oneSourceRows, ∀ (f : FId) (x : RegF) (s : State) (g : Fgr), s.Runs f g → g.regs.Quiet → badReg { rb := false } x = false →
     exec (row.1 f x) s = .next (s.retired f g (g.regs.setG x.rd (row.2 (g.regs.rg x.ra))) none)) ∧
   (∀ row ∈ immediateRows, ∀ (f : FId) (x : ImmF) (s : State) (g : Fgr), s.Runs f g → g.regs.Quiet →
     exec (row.1 f x) s = .next (s.retired f g (g.regs.setG x.rd (row.2 (g.regs.rg x.ra) (x.imm.signExtend 64))) none)) ∧
   (∀ row ∈ shiftRows, ∀ (f : FId) (x : ImmF) (s : State) (g : Fgr), s.Runs f g → g.regs.Quiet → x.imm.toNat < 64 →
     exec (row.1 f x) s = .next (s.retired f g (g.regs.setG x.rd (row.2 (g.regs.rg x.ra) x.imm.toNat)) none)) ∧
   (∀ (f : FId) (x : JmpF) (s : State) (g : Fgr), s.Runs f g → g.regs.Quiet →
     exec (.lui f x) s = .next (s.retired f g (g.regs.setG x.rd (x.imm.signExtend 64 <<< 12)) none) ∧
     exec (.auipc f x) s = .next (s.retired f g (g.regs.setG x.rd (g.regs.pc.setWidth 64 + x.imm.signExtend 64 <<< 12)) none))) ∧
  (∀ row ∈ signedRows, ∀ (f : FId) (x : RegF) (s : State) (g : Fgr), s.Runs f g → badReg row.2.1 x = false →
     let p := fitted 64 (g.regs.selectsSat x.ss) (row.2.2 (g.regs.rg x.ra).toInt (g.regs.rg x.rb).toInt)
     ((g.regs.setG x.rd p.1).flagged p.2).Quiet →
     exec (row.1 f x) s = .next (s.retired f g ((g.regs.setG x.rd p.1).flagged p.2) none))

/-- The carry instructions (R223): the result modulo 2^64, CY the carry out of bit 63 or the borrow, and no other bit of FXCSR changes. -/
def Obligations.CarryChain : Prop :=
  ∀ row ∈ carryRows, ∀ (f : FId) (x : RegF) (s : State) (g : Fgr), s.Runs f g → g.regs.Quiet → badReg {} x = false →
    ∃ r : FRegs, exec (row.1 f x) s = .next (s.retired f g r none) ∧
      r = { g.regs.setG x.rd (BitVec.ofInt 64
        (row.2.1 (g.regs.rg x.ra).toNat (g.regs.rg x.rb).toNat (if g.regs.fxcsr.getLsbD 12 then 1 else 0))) with fxcsr := r.fxcsr } ∧
      r.fxcsr.getLsbD 12 = row.2.2 (g.regs.rg x.ra).toNat (g.regs.rg x.rb).toNat (if g.regs.fxcsr.getLsbD 12 then 1 else 0) ∧
      ∀ i, i ≠ 12 → r.fxcsr.getLsbD i = g.regs.fxcsr.getLsbD i

/-- The six rounding modes, on every exact value `x / 2^sh`, and INX exactly when a nonzero value is discarded (R220, R221). -/
def Obligations.RoundingModes : Prop :=
  ∀ (rm : Nat) (x : Int) (sh : Nat), rm ≤ 5 →
    Rounds rm x sh (roundShift rm x sh).1 ∧ ((roundShift rm x sh).2 = true ↔ ¬ (2 ^ sh : Int) ∣ x)

/-- SRAR, MULQ, ACCRD and ACCRDW round the exact value under RS, then fit it under SS; INX is set when a nonzero value is discarded (R219, R220, R225,
R226, R247). -/
def Obligations.RoundedResults : Prop :=
  ∀ (f : FId) (s : State) (g : Fgr), s.Runs f g → g.regs.fxcsr.toNat % 8 ≤ 5 →
    (∀ x : ShfF, badShf { ss := true, rs := true, rb := false } x = false →
      ∃ q, Rounds (g.regs.selectsRm x.rs) (g.regs.rg x.ra).toInt x.sh6.toNat q ∧
        let p := fitted 64 (g.regs.selectsSat x.ss) q
        let r := (g.regs.setG x.rd p.1).flagged (p.2 ||| inexact (g.regs.rg x.ra).toInt x.sh6.toNat)
        (r.Quiet → exec (.srar f x) s = .next (s.retired f g r none))) ∧
    (∀ x : ShfF, badShf { ss := true, rs := true } x = false →
      let e := (g.regs.rg x.ra).toInt * (g.regs.rg x.rb).toInt
      ∃ q, Rounds (g.regs.selectsRm x.rs) e x.sh6.toNat q ∧
        let p := fitted 64 (g.regs.selectsSat x.ss) q
        let r := (g.regs.setG x.rd p.1).flagged (p.2 ||| inexact e x.sh6.toNat)
        (r.Quiet → exec (.mulq f x) s = .next (s.retired f g r none))) ∧
    (∀ x : AcrF, badAcr x = false →
      let e := (g.regs.ra x.an).toInt
      ∃ q, Rounds (g.regs.selectsRm x.rs) e x.sh7.toNat q ∧
        (let p := fitted 64 (g.regs.selectsSat x.ss) q
         let r := (g.regs.setG x.rd p.1).flagged (p.2 ||| inexact e x.sh7.toNat)
         r.Quiet → exec (.accrd f x) s = .next (s.retired f g r none)) ∧
        (let p := fitted 128 (g.regs.selectsSat x.ss) q
         let r := (g.regs.setW x.rd p.1).flagged (p.2 ||| inexact e x.sh7.toNat)
         r.Quiet → exec (.accrdw f x) s = .next (s.retired f g r none)))

/-- The wide products, which set no flag, the moves of an accumulator, and the accumulating instructions, which wrap modulo 2^144 and set OV when the signed
144-bit result overflows (R225, R226, R227, R241). -/
def Obligations.AccumulatorResults : Prop :=
  (∀ (f : FId) (s : State) (g : Fgr), s.Runs f g → g.regs.Quiet →
     (∀ x : RegF, badReg {} x = false →
       exec (.mulw f x) s = .next (s.retired f g (g.regs.setW x.rd ((g.regs.rg x.ra).signExtend 128 * (g.regs.rg x.rb).signExtend 128)) none) ∧
       exec (.mulwu f x) s = .next (s.retired f g (g.regs.setW x.rd ((g.regs.rg x.ra).setWidth 128 * (g.regs.rg x.rb).setWidth 128)) none)) ∧
     (∀ x : RegF, badReg { ra := false, rb := false } x = false → x.rd.toNat < 4 →
       exec (.accclr f x) s = .next (s.retired f g (g.regs.setA (x.rd.setWidth 2) 0) none)) ∧
     (∀ x : RegF, badReg {} x = false → x.rd.toNat < 4 →
       exec (.accwr f x) s = .next (s.retired f g (g.regs.setA (x.rd.setWidth 2)
         ((g.regs.rg x.rb).setWidth 16 ++ g.regs.rw x.ra : BitVec (16 + 128))) none)) ∧
     (∀ x : AcrF, x.rsv = 0 → x.sh7 = 0 → x.rs = 0 → x.ss = 0 →
       exec (.accrdx f x) s = .next (s.retired f g (g.regs.setG x.rd (((g.regs.ra x.an) >>> 128).setWidth 16 |>.signExtend 64)) none))) ∧
  (∀ row ∈ accumulateRows, ∀ (f : FId) (x : RegF) (s : State) (g : Fgr), s.Runs f g → badReg row.2.1 x = false → x.rd.toNat < 4 →
     let a : BitVec 2 := x.rd.setWidth 2
     let p := fitted 144 false ((g.regs.ra a).toInt + row.2.2 g.regs x)
     ((g.regs.setA a p.1).flagged p.2).Quiet →
     exec (row.1 f x) s = .next (s.retired f g ((g.regs.setA a p.1).flagged p.2) none))

/-- The divides (R228): truncated quotients and remainders, the results of a zero divisor with DZ, and OV or SAT only from a quotient that does not fit. The
divider is busy for the cycles of R229 and R230; beside that and the registers nothing changes. -/
def Obligations.DivideResults : Prop :=
  ∀ (f : FId) (x : RegF) (s : State) (g : Fgr), s.Runs f g →
    let a := g.regs.rg x.ra
    let w := g.regs.rw x.ra
    let b := g.regs.rg x.rb
    let sat := g.regs.selectsSat x.ss
    let mx : W64 := 0x7FFFFFFFFFFFFFFF
    let mn : W64 := 0x8000000000000000
    let ctm := g.regs.coreCtl.getLsbD 0
    let ends := fun (i : Instr) (c : Nat) (r : FRegs) => r.Quiet →
      exec i s = .next ((s.modFgr f fun h => { h with divCycles := c }).retired f g r none)
    let c64 := divideCycles ctm 64 a.toInt.natAbs b.toInt.natAbs
    let u64 := divideCycles ctm 64 a.toNat b.toNat
    let c128 := divideCycles ctm 128 w.toInt.natAbs b.toInt.natAbs
    let u128 := divideCycles ctm 128 w.toNat b.toNat
    (badReg { ss := true } x = false →
      (b = 0 → ends (.div f x) c64 ((g.regs.setG x.rd (if a.toInt < 0 then mn else mx)).flagged 0x40)) ∧
      (b ≠ 0 → let p := fitted 64 sat (a.toInt.tdiv b.toInt)
        ends (.div f x) c64 ((g.regs.setG x.rd p.1).flagged p.2)) ∧
      (b = 0 → ends (.divw f x) c128 ((g.regs.setW x.rd (w.setWidth 64 ++ (if w.toInt < 0 then mn else mx) : BitVec (64 + 64))).flagged 0x40)) ∧
      (b ≠ 0 → let p := fitted 64 sat (w.toInt.tdiv b.toInt)
        ends (.divw f x) c128 ((g.regs.setW x.rd (BitVec.ofInt 64 (w.toInt.tmod b.toInt) ++ p.1 : BitVec (64 + 64))).flagged p.2)) ∧
      (b = 0 → ends (.divwu f x) u128 ((g.regs.setW x.rd (w.setWidth 64 ++ BitVec.allOnes 64 : BitVec (64 + 64))).flagged 0x40)) ∧
      (b ≠ 0 → let p := fittedU 64 sat (w.toNat / b.toNat)
        ends (.divwu f x) u128 ((g.regs.setW x.rd (BitVec.ofNat 64 (w.toNat % b.toNat) ++ p.1 : BitVec (64 + 64))).flagged p.2))) ∧
    (badReg {} x = false →
      (b = 0 → ends (.divu f x) u64 ((g.regs.setG x.rd (BitVec.allOnes 64)).flagged 0x40)) ∧
      (b ≠ 0 → ends (.divu f x) u64 (g.regs.setG x.rd (BitVec.ofNat 64 (a.toNat / b.toNat)))) ∧
      (b = 0 → ends (.rem f x) c64 ((g.regs.setG x.rd a).flagged 0x40) ∧ ends (.remu f x) u64 ((g.regs.setG x.rd a).flagged 0x40)) ∧
      (b ≠ 0 → ends (.rem f x) c64 (g.regs.setG x.rd (BitVec.ofInt 64 (a.toInt.tmod b.toInt))) ∧
        ends (.remu f x) u64 (g.regs.setG x.rd (BitVec.ofNat 64 (a.toNat % b.toNat)))))

/-- The binned lanes (R258): the value and the code of a lane by its class and NZ bit, INV for a NaN or an infinity; VBINA and VBINB unpack every processed
element at SEW 128, and raise 0x03 at any other SEW. -/
def Obligations.BinnedLanes : Prop :=
  (∀ (f : FId) (x : RegF) (s : State) (g : Fgr), s.Runs f g → g.regs.Quiet → badReg { rb := false } x = false →
     let l := g.regs.rw x.ra
     let cls := l.extractLsb' 126 2
     let inv : W64 := if cls = 0 then 0 else 0x100
     exec (.bina f x) s = .next (s.retired f g ((g.regs.setW x.rd
       (if cls = 0 ∧ l.getLsbD 119 = false then (l.extractLsb' 0 119).signExtend 128 else 0)).flagged inv) none) ∧
     exec (.binb f x) s = .next (s.retired f g ((g.regs.setG x.rd
       (if cls = 0 then (if l.getLsbD 119 then 64 else (l.extractLsb' 120 6).setWidth 64) else 64 + cls.setWidth 64)).flagged inv) none)) ∧
  (∀ (f : FId) (x : RegF) (s : State) (g : Fgr), s.Runs f g → badReg { rb := false } x = false →
     let lane := fun i => elemBits (g.regs.rv x.ra) 128 i
     let cls := fun i => (lane i).extractLsb' 126 2
     let inv := g.regs.flagsOf fun i => if cls i = 0 then 0 else 0x100
     (g.regs.sew = 128 → g.regs.Quiet →
       (∃ r : FRegs, exec (.vbina f x) s = .next (s.retired f g r none) ∧ g.regs.Elementwise r x.rd
         (fun i => if cls i = 0 ∧ (lane i).getLsbD 119 = false then ((lane i).extractLsb' 0 119).signExtend _ else 0) inv) ∧
       (∃ r : FRegs, exec (.vbinb f x) s = .next (s.retired f g r none) ∧ g.regs.Elementwise r x.rd
         (fun i => if cls i = 0 then (if (lane i).getLsbD 119 then 64 else ((lane i).extractLsb' 120 6).setWidth _) else 64 + (cls i).setWidth _) inv)) ∧
     (g.regs.sew ≠ 128 →
       exec (.vbina f x) s = .next (s.preciseTrap f g.regs 0x03 ((regWord 0x49 0x00 x).setWidth 64)) ∧
       exec (.vbinb f x) s = .next (s.preciseTrap f g.regs 0x03 ((regWord 0x49 0x01 x).setWidth 64))))

-- FORAGERS: TRAPS AND RETIREMENT --------------------------------------------------------------------------------------------------------------

/-- What retiring does (R217, R265): the PC, the loop end, INSTRET and CYCLE of that Forager; no other register, no other Forager, nothing else of the
machine but the draw of free values. Clauses of it rest on the model's reading or choice: notes/assumptions/9.md, 31.md. -/
def Obligations.RetiringChangesOneForager : Prop :=
  ∀ (s : State) (f : FId) (g : Fgr) (r : FRegs) (target : Option (BitVec 48)), s.fgr? f = some g →
    let t := s.retired f g r target
    let atEnd := target = none ∧ g.regs.lc ≠ 0 ∧ g.regs.pc = g.regs.le.setWidth 48
    (∃ q : FRegs, t.fgr? f = some { g with regs := q } ∧ q.instret = r.instret + 1 ∧
      q = { r with pc := q.pc, lc := q.lc, instret := q.instret, cycle := q.cycle, pend := q.pend } ∧
      (∀ a, target = some a → q.pc = a ∧ q.lc = r.lc) ∧
      (target = none → ¬ atEnd → q.pc = g.regs.pc + 4 ∧ q.lc = r.lc) ∧
      (atEnd → r.lc = g.regs.lc → q.lc = g.regs.lc - 1 ∧ q.pc = if g.regs.lc = 1 then g.regs.pc + 4 else g.regs.ls.setWidth 48)) ∧
    (∀ f', f' ≠ f → t.fgr? f' = s.fgr? f') ∧
    t = { s with dies := t.dies, draw := s.draw + 1 } ∧ t.dies.length = s.dies.length ∧
    ∀ d, t.dieD d = { s.dieD d with fgrs := (t.dieD d).fgrs }

/-- Taking a trap (R217, R232, R233): TEPC, TCAUSE and TVAL; Pipeline mode enters Runtime mode idle and cleared with the part failed, Runtime mode stops the
Forager, names it for retirement and fails the part with RUNTIME_FAULT, Service mode enters its handler. Memory, instances and queues stay as they are.
Clauses of it rest on the model's reading or choice: notes/assumptions/19.md. -/
def Obligations.TrapEntry : Prop :=
  ∀ (s : State) (f : FId) (g : Fgr) (r : FRegs) (cause : Nat) (tval : W64), s.fgr? f = some g → cause < 0x0C →
    let t := s.takeTrap f r cause tval
    let saved := fun (q : FRegs) => q.tepc = r.pc.setWidth 64 ∧ q.tval = tval ∧ q.pend = none ∧
      q.tcause = BitVec.ofNat 64 (if cause = 0x09 ∨ cause = 0x0A then 0x80 + cause else cause)
    let status := if cause = 0x01 ∨ cause = 0x05 ∨ cause = 0x06 ∨ cause = 0x07 then Config.stMemFault
      else if cause = 0x09 then Config.stArithOverflow else if cause = 0x0A then Config.stArithDivZero else Config.stForagerTrap
    t.mem = s.mem ∧ t.part = s.part ∧ t.pending = s.pending ∧ (r.mode = 0 ∨ r.mode = 2 → t.insts = s.insts ∧ t.events = s.events) ∧
    (r.mode = 0 → ∃ h, t.fgr? f = some h ∧ saved h.regs ∧ h.regs.mode = 1 ∧ h.run = .idle ∧ h.morsel = none ∧ h.ldm = [] ∧ h.dcache = [] ∧
      h.regs.g = r.g ∧ h.regs.v = Vector.replicate 32 0 ∧
      t.jobs = match g.morsel with
        | none => s.jobs
        | some m => (s.failPart m.jid f.die m.stage status [h.regs.tepc, h.regs.tcause, h.regs.tval, h.regs.fxepc]).jobs) ∧
    (r.mode = 2 → ∃ h, t.fgr? f = some h ∧ saved h.regs ∧ h.regs.pc = Config.serviceHandler ∧ h.run = g.run ∧ t.jobs = s.jobs) ∧
    (r.mode ≠ 0 → r.mode ≠ 2 → ∃ h, t.fgr? f = some h ∧ saved h.regs ∧ h.run = .stopped ∧
      (f.fgr, some Config.stRuntimeFault) ∈ (t.dieD f.die).retiring ∧
      t.jobs = match g.morsel with
        | none => s.jobs
        | some m => (s.failPart m.jid f.die m.stage Config.stRuntimeFault []).jobs)

/-- A nonzero reserved field, SS = 0b11 and the reserved values of an immediate raise cause 0x03 with the word in TVAL, whatever else the instruction would
do (R245, R276, R277). -/
def Obligations.ReservedFieldsTrap : Prop :=
  (∀ row ∈ regRows, ∀ (f : FId) (x : RegF) (s : State) (g : Fgr), s.Runs f g → badReg row.uses x = true →
    exec (row.instr f x) s = .next (s.preciseTrap f g.regs 0x03 ((regWord row.op row.fn x).setWidth 64))) ∧
  (∀ (f : FId) (x : ImmF) (s : State) (g : Fgr), s.Runs f g →
    (64 ≤ x.imm.toNat →
      exec (.slli f x) s = .next (s.preciseTrap f g.regs 0x03 ((immWord 0x02 4 x).setWidth 64)) ∧
      exec (.srli f x) s = .next (s.preciseTrap f g.regs 0x03 ((immWord 0x02 5 x).setWidth 64)) ∧
      exec (.srai f x) s = .next (s.preciseTrap f g.regs 0x03 ((immWord 0x02 6 x).setWidth 64))) ∧
    (x.imm = 0 ∨ x.rd ≠ 0 → exec (.loop f x) s = .next (s.preciseTrap f g.regs 0x03 ((immWord 0x33 0 x).setWidth 64))) ∧
    (16 ≤ x.imm.toNat ∨ 5 ≤ x.imm.toNat % 8 →
      exec (.vsetvl f x) s = .next (s.preciseTrap f g.regs 0x03 ((immWord 0x40 0 x).setWidth 64)))) ∧
  (∀ (f : FId) (x : AcrF) (s : State) (g : Fgr), s.Runs f g → x.rsv ≠ 0 ∨ x.ss = 3 →
    exec (.accrd f x) s = .next (s.preciseTrap f g.regs 0x03 ((acrWord 0x14 0 x).setWidth 64)) ∧
    exec (.accrdw f x) s = .next (s.preciseTrap f g.regs 0x03 ((acrWord 0x14 1 x).setWidth 64)) ∧
    exec (.accrdx f x) s = .next (s.preciseTrap f g.regs 0x03 ((acrWord 0x14 2 x).setWidth 64)) ∧
    exec (.vacrd f x) s = .next (s.preciseTrap f g.regs 0x03 ((acrWord 0x48 0 x).setWidth 64)))

/-- What raises a trap by itself: BRK in every mode, a word whose major opcode or function code is unassigned, a fetch that fails (R217, R232, R246, R272,
R276). -/
def Obligations.TrapCommands : Prop :=
  ∀ (f : FId) (s : State) (g : Fgr), s.Runs f g →
    (∀ x : RegF, badReg { rd := false, ra := false, rb := false } x = false → exec (.brk f x) s = .next (s.preciseTrap f g.regs 0x0B 0)) ∧
    exec (.fetchFault f) s = .next (s.preciseTrap f g.regs 0x01 (g.regs.pc.setWidth 64)) ∧
    (∀ w : W32, (w.toNat % 128 = 0 ∨ ∃ p ∈ [(0x06, 0x0F), (0x16, 0x1F), (0x26, 0x2F), (0x36, 0x3F), (0x4C, 0x4F), (0x54, 0x5F), (0x65, 0x6F)],
          p.1 ≤ w.toNat % 128 ∧ w.toNat % 128 ≤ p.2) ∨
        ((∃ row ∈ regRows, row.op = w.extractLsb' 0 7) ∧ ∀ row ∈ regRows, ¬ (row.op = w.extractLsb' 0 7 ∧ row.fn = w.extractLsb' 26 6)) →
      exec (.illegalInstruction f w) s = .next (s.preciseTrap f g.regs 0x02 (w.setWidth 64)))

/-- When a pending arithmetic trap is delivered (R214, R235, R237, R272): in place of a precise trap, with TVAL 0; with FXPRECISE = 1 right after the
instruction that raised it, whose result is written; at ABAR; and once 64 later instructions have completed, before any other. Clauses of it rest on the
model's reading or choice: notes/assumptions/30.md, 31.md. -/
def Obligations.ArithmeticTrapDelivery : Prop :=
  (∀ (s : State) (f : FId) (r : FRegs) (cause : Nat) (tval : W64),
     s.preciseTrap f r cause tval = match r.pend with
       | none => s.takeTrap f r cause tval
       | some p => s.takeTrap f r p.cause 0) ∧
  (∀ row ∈ signedRows, ∀ (f : FId) (x : RegF) (s : State) (g : Fgr), s.Runs f g → badReg row.2.1 x = false →
     g.regs.pend = none → g.regs.fxprecise = true → g.regs.fxcsr.getLsbD 16 = true →
     let p := fitted 64 (g.regs.selectsSat x.ss) (row.2.2 (g.regs.rg x.ra).toInt (g.regs.rg x.rb).toInt)
     p.2 = 0x10 →
     let r := g.regs.retire ((g.regs.setG x.rd p.1).flagged p.2) none (Config.instrCycles s.draw)
     exec (row.1 f x) s = .next ((s.retired f g ((g.regs.setG x.rd p.1).flagged p.2) none).takeTrap f r 0x09 0) ∧ r.instret = g.regs.instret + 1) ∧
  (∀ (f : FId) (x : RegF) (s : State) (g : Fgr),
     (s.Runs f g → badReg { rd := false, ra := false, rb := false } x = false →
       (g.regs.pend = none → exec (.abar f x) s = .next (s.retired f g g.regs none)) ∧
       (∀ p, g.regs.pend = some p → exec (.abar f x) s = .next (s.takeTrap f g.regs p.cause 0))) ∧
     (∀ p : Pend, s.fgr? f = some g → s.fgrLive f g = true → g.regs.pend = some p → 64 ≤ p.after →
       exec (.arithTrapDelivery f) s = .next (s.takeTrap f g.regs p.cause 0) ∧
       ∀ row ∈ regRows, exec (row.instr f x) s = .next (s.takeTrap f g.regs p.cause 0)) ∧
     (s.Runs f g → exec (.arithTrapDelivery f) s = .next s))

-- FORAGERS: MEMORY ----------------------------------------------------------------------------------------------------------------------------

/-- The scalar loads and stores, of instance memory and of LDM: alignment is tested first, then the access is made; a load extends its number, a store
writes the low bytes of its register (R232, R247, R248, R276). Clauses of it rest on the model's reading or choice: notes/assumptions/10.md, 28.md. -/
def Obligations.LoadsAndStores : Prop :=
  ∀ (f : FId) (x : ImmF) (s : State) (g : Fgr), s.Runs f g →
    let a := g.regs.rg x.ra + x.imm.signExtend 64
    (∀ row ∈ loadRows, ∀ ldm : Bool,
      let i := if ldm then row.2.1 f x else row.1 f x
      (a.toNat % row.2.2.1 ≠ 0 → exec i s = .next (s.preciseTrap f g.regs 0x07 a)) ∧
      (a.toNat % row.2.2.1 = 0 → s.load f g ldm a.toNat row.2.2.1 = .bad → exec i s = .next (s.preciseTrap f g.regs 0x05 a)) ∧
      (a.toNat % row.2.2.1 = 0 → s.load f g ldm a.toNat row.2.2.1 = .wait → exec i s = .next s) ∧
      (∀ bs t, a.toNat % row.2.2.1 = 0 → s.load f g ldm a.toNat row.2.2.1 = .ok bs t → g.regs.Quiet →
        exec i s = .next (t.retired f g (row.2.2.2 g.regs x.rd (leNat bs)) none))) ∧
    (∀ row ∈ storeRows, ∀ ldm : Bool,
      let i := if ldm then row.2.1 f x else row.1 f x
      let bs := leBytes row.2.2.1 (row.2.2.2 g.regs x.rd)
      (a.toNat % row.2.2.1 ≠ 0 → exec i s = .next (s.preciseTrap f g.regs 0x07 a)) ∧
      (a.toNat % row.2.2.1 = 0 → s.store f g ldm a.toNat bs = .bad → exec i s = .next (s.preciseTrap f g.regs 0x06 a)) ∧
      (a.toNat % row.2.2.1 = 0 → s.store f g ldm a.toNat bs = .wait → exec i s = .next s) ∧
      (∀ cs t, a.toNat % row.2.2.1 = 0 → s.store f g ldm a.toNat bs = .ok cs t → g.regs.Quiet →
        exec i s = .next (t.retired f g g.regs none)))

/-- What one access does. In LDM: inside 256 KiB it is done there and nowhere else, past its end it is not (R248). In instance memory, outside Service mode:
the read-only windows, translation, the poison and the WRITE bit decide whether it is done; a load of a line that the Forager does not cache returns memory,
a store changes the stored bytes of memory alone (R75, R270, R300, R304, R305). Clauses of it rest on the model's reading or choice: notes/assumptions/3.md,
10.md, 28.md. -/
def Obligations.MemoryAccesses : Prop :=
  (∀ (f : FId) (s : State) (g : Fgr) (a n : Nat) (bs : List Byte),
     (a + n ≤ 0x40000 → s.load f g true a n = .ok (memRead g.ldm a n) s) ∧ (0x40000 < a + n → s.load f g true a n = .bad) ∧
     (a + bs.length ≤ 0x40000 → ∃ t, s.store f g true a bs = .ok [] t ∧ t.mem = s.mem ∧ t.insts = s.insts ∧ t.jobs = s.jobs ∧ t.draw = s.draw ∧
       (∀ f', f' ≠ f → t.fgr? f' = s.fgr? f') ∧
       (s.fgr? f = some g → t.fgr? f = some { g with ldm := memWrite g.ldm a bs })) ∧
     (0x40000 < a + bs.length → s.store f g true a bs = .bad)) ∧
  (∀ (f : FId) (s : State) (g : Fgr) (m : Morsel) (a n : Nat) (bs : List Byte), g.regs.mode ≠ 2 → g.morsel = some m →
     (∀ ws, windowRead (s.windows m) a n = some ws → s.load f g false a n = .ok ws s) ∧
     (windowRead (s.windows m) a n = none → s.translate m.inst a = none → s.load f g false a n = .bad) ∧
     (inWindow (s.windows m) a = true ∨ s.translate m.inst a = none → s.store f g false a bs = .bad) ∧
     (∀ e l, s.translate m.inst a = some (e, l) →
       (windowRead (s.windows m) a n = none → s.poisoned l = true → s.load f g false a n = .bad) ∧
       (windowRead (s.windows m) a n = none → s.poisoned l = false → s.pageBusy m.inst l = true → s.load f g false a n = .wait) ∧
       (windowRead (s.windows m) a n = none → s.poisoned l = false → s.pageBusy m.inst l = false → assocGet (l.key m.inst / 64) g.dcache = none →
         ∃ t, s.load f g false a n = .ok (memRead s.mem (l.key m.inst) n) t ∧ t.mem = s.mem ∧ t.insts = s.insts ∧ t.jobs = s.jobs ∧ t.events = s.events) ∧
       (e.getLsbD 62 = false ∨ s.poisoned l = true → s.store f g false a bs = .bad) ∧
       (inWindow (s.windows m) a = false → e.getLsbD 62 = true → s.poisoned l = false → s.pageBusy m.inst l = true → s.store f g false a bs = .wait) ∧
       (inWindow (s.windows m) a = false → e.getLsbD 62 = true → s.poisoned l = false → s.pageBusy m.inst l = false →
         ∃ t, s.store f g false a bs = .ok [] t ∧ t.mem = memWrite s.mem (l.key m.inst) bs ∧ t.jobs = s.jobs ∧ t.events = s.events ∧
           t.poison = s.poison)))

/-- A byte memory in its canonical form reads back what is written, everywhere else as before, and keeps its form. Clauses of it rest on the model's reading
or choice: notes/assumptions/3.md. -/
def Obligations.MemoryReadsBack : Prop :=
  ∀ (m : List Host.Cell) (a : Nat) (bs : List Byte), Memory.wf m = true →
    Memory.wf (memWrite m a bs) = true ∧
    ∀ k, memGet (memWrite m a bs) k = if a ≤ k ∧ k < a + bs.length then bs.getD (k - a) 0 else memGet m k

/-- AMOADD, AMOSWAP and AMOCAS act on 8 bytes of memory at the home die, return the old value and drop the line from the data cache; a compare that fails
stores nothing; a misaligned address raises 0x07 (R271). FENCE and FENCE.ACQ empty the data cache, FENCE.REL changes nothing (R270). Clauses of it rest on
the model's reading or choice: notes/assumptions/10.md, 75.md. -/
def Obligations.AtomicsAndFences : Prop :=
  (∀ row ∈ atomicRows, ∀ (f : FId) (x : RegF) (s : State) (g : Fgr) (m : Morsel) (e : W64) (l : Loc), s.Runs f g → badReg {} x = false →
     let a := g.regs.rg x.ra
     (a.toNat % 8 ≠ 0 → exec (row.1 f x) s = .next (s.preciseTrap f g.regs 0x07 a)) ∧
     (a.toNat % 8 = 0 → g.regs.mode ≠ 2 → g.morsel = some m → inWindow (s.windows m) a.toNat = false → s.translate m.inst a.toNat = some (e, l) →
       e.getLsbD 62 = true → s.poisoned l = false → s.pageBusy m.inst l = false → g.regs.Quiet →
       let old := BitVec.ofNat 64 (leNat (memRead s.mem (l.key m.inst) 8))
       ∃ t, exec (row.1 f x) s = .next t ∧ t.jobs = s.jobs ∧
         (t.fgr? f).map (·.regs) = some (g.regs.retire (g.regs.setG x.rd old) none (Config.instrCycles s.draw)) ∧
         (∀ h, t.fgr? f = some h → ∀ p ∈ h.dcache, p.1 ≠ l.key m.inst / 64) ∧
         t.mem = match row.2 g.regs x old with
           | none => s.mem
           | some v => memWrite s.mem (l.key m.inst) (leBytes 8 v.toNat))) ∧
  (∀ (f : FId) (x : RegF) (s : State) (g : Fgr), s.Runs f g → g.regs.Quiet → badReg { rd := false, ra := false, rb := false } x = false →
     exec (.fenceRel f x) s = .next (s.retired f g g.regs none) ∧
     exec (.fenceAcq f x) s = .next ((s.modFgr f fun h => { h with dcache := [] }).retired f g g.regs none) ∧
     exec (.fence f x) s = .next ((s.modFgr f fun h => { h with dcache := [] }).retired f g g.regs none))

-- FORAGERS: CONTROL ---------------------------------------------------------------------------------------------------------------------------

/-- The branches and jumps (R247): the test, the target counted in words from the PC, the return address, and the misaligned target of JALR. LOOP (R265): with
G[a] = 0 it passes the body, else it sets LC, LS and LE and goes on at LS. Clauses of it rest on the model's reading or choice: notes/assumptions/33.md. -/
def Obligations.ControlTransfer : Prop :=
  (∀ (f : FId) (s : State) (g : Fgr), s.Runs f g → g.regs.Quiet →
     (∀ row ∈ branchRows, ∀ x : BraF,
       exec (row.1 f x) s = .next (s.retired f g g.regs
         (if row.2 (g.regs.rg x.ra) (g.regs.rg x.rb) then some (g.regs.pc + x.off.signExtend 48 * 4) else none))) ∧
     (∀ x : JmpF, exec (.jal f x) s = .next (s.retired f g (g.regs.setG x.rd ((g.regs.pc + 4).setWidth 64)) (some (g.regs.pc + x.imm.signExtend 48 * 4)))) ∧
     (∀ x : ImmF, let t := g.regs.rg x.ra + x.imm.signExtend 64
       (t.toNat % 4 = 0 → exec (.jalr f x) s = .next (s.retired f g (g.regs.setG x.rd ((g.regs.pc + 4).setWidth 64)) (some (t.setWidth 48)))) ∧
       (t.toNat % 4 ≠ 0 → exec (.jalr f x) s = .next (s.preciseTrap f g.regs 0x01 t)))) ∧
  (∀ (f : FId) (x : ImmF) (s : State) (g : Fgr), s.Runs f g → g.regs.Quiet → x.imm ≠ 0 → x.rd = 0 →
     let n := x.imm.setWidth 48
     (g.regs.rg x.ra = 0 → exec (.loop f x) s = .next (s.retired f g g.regs (some (g.regs.pc + (n + 1) * 4)))) ∧
     (g.regs.rg x.ra ≠ 0 → exec (.loop f x) s = .next (s.retired f g
       { g.regs with lc := g.regs.rg x.ra, ls := (g.regs.pc + 4).setWidth 64, le := (g.regs.pc + n * 4).setWidth 64 } (some (g.regs.pc + 4)))))

/-- RDCR reads each control register in the modes that may read it. WRCR, SETCR and CLRCR write where the mode may and no reserved bit or value is in the
new value; VTYPE holds VL to the new VLMAX; CTM is the one field of CORE_CTL outside Service mode; a reserved bit raises 0x03, a mode 0x08, an unlisted
number 0x02, all without a change; clearing OVE or DZE delivers a pending trap (R212, R213, R237, R250). Clauses of it rest on the model's reading or
choice: notes/assumptions/32.md. -/
def Obligations.ControlRegisters : Prop :=
  (∀ (f : FId) (x : ImmF) (s : State) (g : Fgr), s.Runs f g → x.ra = 0 →
     (∀ row ∈ crRows, x.imm = row.1 →
       (row.2.2 = true ∨ g.regs.mode ≠ 0 → g.regs.Quiet → exec (.rdcr f x) s = .next (s.retired f g (g.regs.setG x.rd (row.2.1 g.regs)) none)) ∧
       (row.2.2 = false → g.regs.mode = 0 → exec (.rdcr f x) s = .next (s.preciseTrap f g.regs 0x08 ((immWord 0x35 0 x).setWidth 64)))) ∧
     ((∀ row ∈ crRows, x.imm ≠ row.1) → exec (.rdcr f x) s = .next (s.preciseTrap f g.regs 0x02 ((immWord 0x35 0 x).setWidth 64)))) ∧
  (∀ op ∈ crOpRows, ∀ (f : FId) (x : ImmF) (s : State) (g : Fgr), s.Runs f g → x.rd = 0 → g.regs.mode ≤ 2 →
     let word : W64 := (immWord 0x35 op.2.1 x).setWidth 64
     (∀ row ∈ crWriteRows, x.imm = row.1 → ∀ old, (∃ rd ∈ crRows, rd.1 = row.1 ∧ rd.2.1 g.regs = old) →
       let v := op.2.2 old (g.regs.rg x.ra)
       (g.regs.mode ∈ row.2.1 → v &&& ~~~row.2.2.1 = 0 → crValueReserved x.imm g.regs v = false → g.regs.pend = none →
         exec (op.1 f x) s = .next (s.retired f g (row.2.2.2 g.regs v) none)) ∧
       (g.regs.mode ∈ row.2.1 → v &&& ~~~row.2.2.1 ≠ 0 ∨ crValueReserved x.imm g.regs v = true →
         exec (op.1 f x) s = .next (s.preciseTrap f g.regs 0x03 word)) ∧
       (g.regs.mode ∉ row.2.1 → x.imm ≠ 0x001 ∨ v ≠ 0 → exec (op.1 f x) s = .next (s.preciseTrap f g.regs 0x08 word)) ∧
       (g.regs.mode ∉ row.2.1 → x.imm = 0x001 → v = 0 → g.regs.pend = none →
         exec (op.1 f x) s = .next (s.retired f g (row.2.2.2 g.regs v) none)) ∧
       (∀ p, x.imm = 0x000 → g.regs.pend = some p → (old &&& ~~~v) &&& 0x30000#64 ≠ 0 → v &&& ~~~row.2.2.1 = 0 → v.toNat % 8 ≤ 5 →
         exec (op.1 f x) s = .next ((s.retired f g { g.regs with fxcsr := v } none).takeTrap f
           (g.regs.retire { g.regs with fxcsr := v } none (Config.instrCycles s.draw)) p.cause 0))) ∧
     (x.imm = 0x002 →
       let v := op.2.2 g.regs.coreCtl (g.regs.rg x.ra)
       (v &&& ~~~0x0007#64 = g.regs.coreCtl &&& ~~~0x0007#64 → v &&& ~~~0xC007#64 = 0 →
         (g.regs.mode = 2 ∨ v &&& 0x0006#64 = g.regs.coreCtl &&& 0x0006#64) → g.regs.pend = none →
         exec (op.1 f x) s = .next (s.retired f g { g.regs with coreCtl := v } none)) ∧
       (g.regs.mode ≠ 2 → v &&& 0x0006#64 ≠ g.regs.coreCtl &&& 0x0006#64 → exec (op.1 f x) s = .next (s.preciseTrap f g.regs 0x08 word))))

/-- MDONE completes the morsel with the output at G2, and MEMIT places it and gives a fresh descriptor over a new buffer; RTP enters Pipeline mode at the
entry or saved PC, only from Runtime mode; a descriptor past the end of LDM raises 0x05 with the address of its first such byte; a Forager whose morsel ends
is cleared (R206, R235, R249, R272, R514). Clauses of it rest on the model's reading or choice: notes/assumptions/11.md, 15.md. -/
def Obligations.MorselOutput : Prop :=
  (∀ (f : FId) (x : RegF) (s : State) (g : Fgr), s.Runs f g →
     (badReg { rd := false, rb := false } x = false →
       (g.regs.mode ≠ 0 → exec (.mdone f x) s = .next (s.preciseTrap f g.regs 0x08 ((regWord 0x34 0x01 x).setWidth 64))) ∧
       (∀ p, g.regs.mode = 0 → g.regs.pend = some p → exec (.mdone f x) s = .next (s.takeTrap f g.regs p.cause 0)) ∧
       (∀ a, g.regs.mode = 0 → g.regs.pend = none → g.outDesc = .error a → exec (.mdone f x) s = .next (s.takeTrap f g.regs 0x05 a)) ∧
       (∀ m d, g.regs.mode = 0 → g.regs.pend = none → g.outDesc = .ok d → g.morsel = some m →
         exec (.mdone f x) s = .next ((s.completeMorsel f g m ((g.regs.rg x.ra).getLsbD 0) d).retired f g g.cleared none))) ∧
     (badReg { rd := false, ra := false, rb := false } x = false →
       (g.regs.mode ≠ 0 → exec (.memit f x) s = .next (s.preciseTrap f g.regs 0x08 ((regWord 0x34 0x02 x).setWidth 64))) ∧
       (∀ m j st d t u at_ base, g.regs.mode = 0 → g.regs.Quiet → g.outDesc = .ok d → g.morsel = some m → s.jobOf m = some j → j.image.stage? m.stage = some st →
         s.placeOut f j st m false d = .ok t →
         t.takeBuffer m.jid f.die (outBufferBytes (j.image.outLimits st) d) = .ok (u, at_, base) →
         exec (.memit f x) s = .next ((u.modFgr f fun h => { h with
           ldm := memWrite h.ldm (g.regs.rg 2).toNat (freshDescriptor (j.image.outLimits st) base d)
           morsel := h.morsel.map fun m => { m with placed := m.placed + 1, outAt := at_, outBytes := outBufferBytes (j.image.outLimits st) d } }).retired
             f g g.regs none)) ∧
       (∀ m j st d t e, g.regs.mode = 0 → g.regs.Quiet → g.outDesc = .ok d → g.morsel = some m → s.jobOf m = some j → j.image.stage? m.stage = some st →
         s.placeOut f j st m false d = .ok t → t.takeBuffer m.jid f.die (outBufferBytes (j.image.outLimits st) d) = .error e →
         exec (.memit f x) s = .next ((t.failPart m.jid f.die m.stage e []).retired f g g.regs none)))) ∧
  (∀ (f : FId) (x : RegF) (s : State) (g : Fgr), s.Runs f g → badReg { rd := false, ra := false, rb := false } x = false →
     (g.regs.mode = 1 → g.regs.Quiet → ∃ r : FRegs, exec (.rtp f x) s = .next (s.retired f g r (some g.entryPc)) ∧
       r = { g.regs with coreCtl := r.coreCtl } ∧ r.mode = 0 ∧ ∀ i, i < 14 → r.coreCtl.getLsbD i = g.regs.coreCtl.getLsbD i) ∧
     (g.regs.mode ≠ 1 → exec (.rtp f x) s = .next (s.preciseTrap f g.regs 0x08 ((regWord 0x34 0x04 x).setWidth 64)))) ∧
  (∀ g : Fgr, g.discard.ldm = [] ∧ g.discard.dcache = [] ∧ g.discard.morsel = none ∧ g.discard.run = .idle ∧ g.discard.regs.mode = 1 ∧
     g.discard.regs.g = g.regs.g ∧ g.discard.regs.pend = none ∧ g.cleared = g.discard.regs ∧
     (∀ i, g.discard.regs.rv i = 0) ∧ (∀ i, g.discard.regs.ra i = 0) ∧ (∀ i, g.discard.regs.rva i = 0))

-- FORAGERS: VECTORS AND STRINGS ---------------------------------------------------------------------------------------------------------------

/-- The element operations, vector–vector and with a scalar operand (R253, R254): the processed elements take the operation of their own operands at the width
SEW, the others keep their values, the flags are those of the processed elements, VSTART is cleared. -/
def Obligations.VectorElements : Prop :=
  ∀ row ∈ elemRows, ∀ (f : FId) (x : RegF) (s : State) (g : Fgr), s.Runs f g → badReg row.uses x = false →
    let w := g.regs.sew
    let sat := g.regs.selectsSat x.ss
    let a := fun i => elemBits (g.regs.rv x.ra) w i
    (let e := fun i => row.elem w sat (a i) (elemBits (g.regs.rv x.rb) w i)
     ∃ r : FRegs, g.regs.Elementwise r x.rd (fun i => (e i).1) (g.regs.flagsOf fun i => (e i).2) ∧
       (r.Quiet → exec (row.vv f x) s = .next (s.retired f g r none))) ∧
    (∀ vx, row.vx = some vx →
      let e := fun i => row.elem w sat (a i) ((g.regs.rg x.rb).signExtend w)
      ∃ r : FRegs, g.regs.Elementwise r x.rd (fun i => (e i).1) (g.regs.flagsOf fun i => (e i).2) ∧
        (r.Quiet → exec (vx f x) s = .next (s.retired f g r none)))

/-- VMULQ, VSRAR and VACRD round the exact value of each processed element and fit it to SEW bits; a shift past SEW − 1, or past 2 SEW + 15, raises 0x03 (R254,
R257). -/
def Obligations.VectorRounding : Prop :=
  ∀ (f : FId) (s : State) (g : Fgr), s.Runs f g → g.regs.fxcsr.toNat % 8 ≤ 5 →
    let w := g.regs.sew
    let rounded := fun (i : Instr) (d : BitVec 5) (ss rs : BitVec 2) (sh : Nat) (exact : Nat → Int) =>
      ∃ q : Nat → Int, (∀ k, Rounds (g.regs.selectsRm rs) (exact k) sh (q k)) ∧
        let e := fun k => fitted w (g.regs.selectsSat ss) (q k)
        ∃ r : FRegs, g.regs.Elementwise r d (fun k => (e k).1) (g.regs.flagsOf fun k => (e k).2 ||| inexact (exact k) sh) ∧
          (r.Quiet → exec i s = .next (s.retired f g r none))
    (∀ x : ShfF, badShf { ss := true, rs := true } x = false →
      (x.sh6.toNat < w → rounded (.vmulq f x) x.rd x.ss x.rs x.sh6.toNat fun k =>
        (elemBits (g.regs.rv x.ra) w k).toInt * (elemBits (g.regs.rv x.rb) w k).toInt) ∧
      (w ≤ x.sh6.toNat → exec (.vmulq f x) s = .next (s.preciseTrap f g.regs 0x03 ((shfWord 0x43 x).setWidth 64)))) ∧
    (∀ x : ShfF, badShf { ss := true, rs := true, rb := false } x = false →
      (x.sh6.toNat < w → rounded (.vsrar f x) x.rd x.ss x.rs x.sh6.toNat fun k => (elemBits (g.regs.rv x.ra) w k).toInt) ∧
      (w ≤ x.sh6.toNat → exec (.vsrar f x) s = .next (s.preciseTrap f g.regs 0x03 ((shfWord 0x44 x).setWidth 64)))) ∧
    (∀ x : AcrF, badAcr x = false →
      (x.sh7.toNat ≤ 2 * w + 15 → rounded (.vacrd f x) x.rd x.ss x.rs x.sh7.toNat fun k => (vaLane (g.regs.rva x.an) w k).toInt) ∧
      (2 * w + 15 < x.sh7.toNat → exec (.vacrd f x) s = .next (s.preciseTrap f g.regs 0x03 ((acrWord 0x48 0 x).setWidth 64))))

/-- The compares and the mask operations write the mask bits of the processed elements, and 0 from VL up (R253, R255); VSETVL, the permutations and the
moves (R252, R255). Clauses of it rest on the model's reading or choice: notes/assumptions/29.md. -/
def Obligations.VectorMasksAndMoves : Prop :=
  (∀ (f : FId) (x : RegF) (s : State) (g : Fgr), s.Runs f g → g.regs.Quiet → badReg {} x = false →
     (∀ row ∈ compareRows, ∃ r : FRegs, exec (row.1 f x) s = .next (s.retired f g r none) ∧
       g.regs.Maskwise r x.rd fun i => row.2 g.regs.sew (elemBits (g.regs.rv x.ra) g.regs.sew i) (elemBits (g.regs.rv x.rb) g.regs.sew i)) ∧
     (∀ row ∈ maskRows, ∃ r : FRegs, exec (row.1 f x) s = .next (s.retired f g r none) ∧
       g.regs.Maskwise r x.rd fun i => row.2 ((g.regs.rv x.ra).getLsbD i) ((g.regs.rv x.rb).getLsbD i))) ∧
  (∀ (f : FId) (s : State) (g : Fgr), s.Runs f g → g.regs.Quiet →
     let w := g.regs.sew
     (∀ x : ImmF, x.imm.toNat < 16 → x.imm.toNat % 8 < 5 →
       let mx := 1024 / (8 * 2 ^ (x.imm.toNat % 8))
       let vl := BitVec.ofNat 64 (if x.ra = 0 then mx else Nat.min (g.regs.rg x.ra).toNat mx)
       exec (.vsetvl f x) s = .next (s.retired f g
         ({ g.regs with vtype := x.imm.setWidth 64, vl := vl, vstart := 0 }.setG x.rd vl) none)) ∧
     (∀ x : RegF, badReg {} x = false →
       let kept := fun (i : Instr) (e : Nat → BitVec w) => ∃ r : FRegs, exec i s = .next (s.retired f g r none) ∧
         r = { g.regs.setV x.rd (r.rv x.rd) with vstart := 0 } ∧ ∀ k, k < vlMax g.regs.vtype → elemBits (r.rv x.rd) w k = e k
       let old := fun k => elemBits (g.regs.rv x.rd) w k
       let a := fun k => elemBits (g.regs.rv x.ra) w k
       kept (.vcompress f x) (fun k => match (g.regs.chosen x.rb)[k]? with
         | some j => a j
         | none => old k) ∧
       kept (.vexpand f x) (fun k => if k < g.regs.vl.toNat ∧ (g.regs.rv x.rb).getLsbD k = true
         then a (((List.range k).filter fun j => (g.regs.rv x.rb).getLsbD j).length) else old k) ∧
       kept (.vmerge f x) (fun k => if g.regs.vstart.toNat ≤ k ∧ k < g.regs.vl.toNat
         then (if (g.regs.rv 0).getLsbD k then elemBits (g.regs.rv x.rb) w k else a k) else old k) ∧
       kept (.vput f x) (fun k => if k = (g.regs.rg x.rb).toNat then (g.regs.rg x.ra).signExtend w else old k) ∧
       exec (.vget f x) s = .next (s.retired f g { g.regs.setG x.rd
         (if (g.regs.rg x.rb).toNat < vlMax g.regs.vtype then (a (g.regs.rg x.rb).toNat).setWidth 64 else 0) with vstart := 0 } none)) ∧
     (∀ x : RegF, badReg { rb := false } x = false →
       exec (.vmv f x) s = .next (s.retired f g { g.regs.setV x.rd (g.regs.rv x.ra) with vstart := 0 } none) ∧
       exec (.vpopc f x) s = .next (s.retired f g { g.regs.setG x.rd (BitVec.ofNat 64 (g.regs.chosen x.ra).length) with vstart := 0 } none) ∧
       exec (.vfirst f x) s = .next (s.retired f g { g.regs.setG x.rd (match (g.regs.chosen x.ra) with
         | [] => BitVec.allOnes 64
         | k :: _ => BitVec.ofNat 64 k) with vstart := 0 } none) ∧
       ∃ r : FRegs, exec (.vsplat f x) s = .next (s.retired f g r none) ∧
         g.regs.Elementwise r x.rd (fun _ => (g.regs.rg x.ra).signExtend w) 0) ∧
     (∀ x : RegF, badReg { ra := false, rb := false } x = false → ∃ r : FRegs, exec (.viota f x) s = .next (s.retired f g r none) ∧
       g.regs.Elementwise r x.rd (fun i => BitVec.ofNat w i) 0))

/-- The vector accumulators (R256, R257): VACCLR clears all bits; the lanes of the processed elements take their addend, wrap modulo 2^(2 SEW + 16) and set
OV when one wraps, the other bits keep their values; VACSUM adds all VLMAX lanes into An. Clauses of it rest on the model's reading or choice:
notes/assumptions/29.md. -/
def Obligations.VectorAccumulators : Prop :=
  ∀ (f : FId) (x : RegF) (s : State) (g : Fgr), s.Runs f g → x.rd.toNat < 4 →
    let n : BitVec 2 := x.rd.setWidth 2
    let w := g.regs.sew
    (badReg { ra := false, rb := false } x = false → g.regs.Quiet →
      exec (.vacclr f x) s = .next (s.retired f g { g.regs.setVa n 0 with vstart := 0 } none)) ∧
    (∀ row ∈ vaccRows, badReg row.2.1 x = false →
      let e := fun i => fitted (2 * w + 16) false ((vaLane (g.regs.rva n) w i).toInt + row.2.2 g.regs x i)
      ∃ r : FRegs, (r.Quiet → exec (row.1 f x) s = .next (s.retired f g r none)) ∧
        r = { (g.regs.setVa n (r.rva n)).flagged (g.regs.flagsOf fun i => (e i).2) with vstart := 0 } ∧
        (∀ i, i < vlMax g.regs.vtype →
          vaLane (r.rva n) w i = if g.regs.vstart.toNat ≤ i ∧ i < g.regs.vl.toNat then (e i).1 else vaLane (g.regs.rva n) w i) ∧
        (g.regs.vl.toNat ≤ vlMax g.regs.vtype →
          ∀ k, (2 * w + 16) * vlMax g.regs.vtype ≤ k → (r.rva n).getLsbD k = (g.regs.rva n).getLsbD k)) ∧
    (badReg { ra := false } x = false → x.rb.toNat < 4 →
      let a : BitVec 2 := x.rb.setWidth 2
      let p := fitted 144 false ((g.regs.ra a).toInt + ((List.range (vlMax g.regs.vtype)).map fun i => (vaLane (g.regs.rva n) w i).toInt).sum)
      let r := { (g.regs.setA a p.1).flagged p.2 with vstart := 0 }
      r.Quiet → exec (.vacsum f x) s = .next (s.retired f g r none))

/-- The sorts and merges (R259): a sorted permutation of the elements, the values of VSORTP in the same stable permutation, and the two halves of a merge by the
smaller head. -/
def Obligations.VectorSorts : Prop :=
  ∀ (f : FId) (x : RegF) (s : State) (g : Fgr), s.Runs f g → g.regs.Quiet →
    let va := g.regs.values x.ra
    let vb := g.regs.values x.rb
    (badReg { rb := false } x = false → ∃ (r : FRegs) (l : List Nat), exec (.vsort f x) s = .next (s.retired f g r none) ∧
      l.Perm va ∧ l.Pairwise (· ≤ ·) ∧ r = { g.regs.setV x.rd (r.rv x.rd) with vstart := 0 } ∧ g.regs.Listed r x.rd l) ∧
    (badReg {} x = false → x.rd.getLsbD 0 = false → ∃ (r : FRegs) (l : List (Nat × Nat)), exec (.vsortp f x) s = .next (s.retired f g r none) ∧
      l.Perm (va.zip vb) ∧ l.Pairwise (fun p q => p.1 ≤ q.1) ∧ (∀ k, l.filter (fun p => p.1 == k) = (va.zip vb).filter (fun p => p.1 == k)) ∧
      r = { (g.regs.setV x.rd (r.rv x.rd)).setV (x.rd + 1) (r.rv (x.rd + 1)) with vstart := 0 } ∧
      g.regs.Listed r x.rd (l.map (·.1)) ∧ g.regs.Listed r (x.rd + 1) (l.map (·.2))) ∧
    (badReg {} x = false → x.rd.getLsbD 0 = true →
      exec (.vsortp f x) s = .next (s.preciseTrap f g.regs 0x03 ((regWord 0x4A 0x01 x).setWidth 64))) ∧
    (badReg {} x = false → ∃ l : List Nat, Merges va vb l ∧
      (∃ r : FRegs, exec (.vmrglo f x) s = .next (s.retired f g r none) ∧ r = { g.regs.setV x.rd (r.rv x.rd) with vstart := 0 } ∧
        g.regs.Listed r x.rd l) ∧
      (∃ r : FRegs, exec (.vmrghi f x) s = .next (s.retired f g r none) ∧ r = { g.regs.setV x.rd (r.rv x.rd) with vstart := 0 } ∧
        g.regs.Listed r x.rd (l.drop g.regs.vl.toNat)))

/-- The vector loads and stores (R260, R261, R262): with every element's access done they complete with VSTART 0; one that faults at element i keeps the
elements before it, sets VSTART to i and traps at the element's address; the first-fault loads run in Service mode only, and one whose later element faults
sets VL to i and goes on. Clauses of it rest on the model's reading or choice: notes/assumptions/10.md. -/
def Obligations.VectorMemory : Prop :=
  (∀ (f : FId) (s : State) (g : Fgr), s.Runs f g →
     let active := (List.range g.regs.vl.toNat).filter fun i => decide (g.regs.vstart.toNat ≤ i)
     let moves := fun (i : Instr) (load ldm : Bool) (d : BitVec 5) (ea : Nat → W64) =>
       (load = true → ∀ (t : State) (r : FRegs), LoadsAll f g ldm d ea active s g.regs t r → r.Quiet →
         exec i s = .next (t.retired f g { r with vstart := 0 } none)) ∧
       (load = false → ∀ t : State, StoresAll f g ldm g.regs d ea active s t → g.regs.Quiet →
         exec i s = .next (t.retired f g { g.regs with vstart := 0 } none))
     (∀ row ∈ vmemImmRows, ∀ x : ImmF,
       (row.2.2.2 = false ∨ g.regs.mode = 2 → moves (row.1 f x) row.2.1 row.2.2.1 x.rd
         (fun i => g.regs.rg x.ra + x.imm.signExtend 64 + BitVec.ofNat 64 (i * (g.regs.sew / 8))))) ∧
     (∀ row ∈ vmemRegRows, ∀ x : RegF, badReg {} x = false →
       ((row.1 f x = .vgath f x ∨ row.1 f x = .vgathL f x ∨ row.1 f x = .vgathff f x ∨ row.1 f x = .vscat f x ∨ row.1 f x = .vscatL f x) →
         g.regs.vl = 0 ∨ x.rb.toNat + (g.regs.vl.toNat - 1) * (if g.regs.vtype.getLsbD 3 then 64 else 32) / 1024 ≤ 31) →
       (row.2.2.2.1 = false ∨ g.regs.mode = 2 → moves (row.1 f x) row.2.1 row.2.2.1 x.rd (row.2.2.2.2 g.regs x))) ∧
     (g.regs.mode ≠ 2 →
       (∀ x : ImmF, exec (.vldff f x) s = .next (s.preciseTrap f g.regs 0x08 ((immWord 0x50 2 x).setWidth 64))) ∧
       (∀ x : RegF, badReg {} x = false → x.rb = 0 → g.regs.vl.toNat ≤ 16 →
         exec (.vgathff f x) s = .next (s.preciseTrap f g.regs 0x08 ((regWord 0x53 0x02 x).setWidth 64))))) ∧
  (∀ (f : FId) (s t : State) (g : Fgr) (r : FRegs) (x : ImmF) (before after : List Nat) (k : Nat), s.Runs f g →
     let ea := fun i => g.regs.rg x.ra + x.imm.signExtend 64 + BitVec.ofNat 64 (i * (g.regs.sew / 8))
     ((List.range g.regs.vl.toNat).filter fun i => decide (g.regs.vstart.toNat ≤ i)) = before ++ k :: after →
     (∀ ldm : Bool, LoadsAll f g ldm x.rd ea before s g.regs t r →
       (let i : Instr := if ldm then .vldL f x else .vld f x
        ((ea k).toNat % (g.regs.sew / 8) ≠ 0 →
         exec i s = .next (t.preciseTrap f { r with vstart := BitVec.ofNat 64 k } 0x07 (ea k))) ∧
        ((ea k).toNat % (g.regs.sew / 8) = 0 → t.load f ((t.fgr? f).getD g) ldm (ea k).toNat (g.regs.sew / 8) = .bad →
         exec i s = .next (t.preciseTrap f { r with vstart := BitVec.ofNat 64 k } 0x05 (ea k)))) ∧
       (ldm = false → g.regs.mode = 2 → before ≠ [] → t.load f ((t.fgr? f).getD g) false (ea k).toNat (g.regs.sew / 8) = .bad → r.Quiet →
         (ea k).toNat % (g.regs.sew / 8) = 0 →
         exec (.vldff f x) s = .next (t.retired f g { r with vl := BitVec.ofNat 64 k, vstart := 0 } none))) ∧
     (∀ ldm : Bool, StoresAll f g ldm g.regs x.rd ea before s t →
       let i : Instr := if ldm then .vstL f x else .vst f x
       ((ea k).toNat % (g.regs.sew / 8) ≠ 0 →
         exec i s = .next (t.preciseTrap f { g.regs with vstart := BitVec.ofNat 64 k } 0x07 (ea k))) ∧
       ((ea k).toNat % (g.regs.sew / 8) = 0 →
         t.store f ((t.fgr? f).getD g) ldm (ea k).toNat (leBytes (g.regs.sew / 8) (elemBits (g.regs.rv x.rd) g.regs.sew k).toNat) = .bad →
         exec i s = .next (t.preciseTrap f { g.regs with vstart := BitVec.ofNat 64 k } 0x06 (ea k)))))

/-- The string instructions (R246, R266, R267, R276), in LDM and in instance memory as FN says: the bytes moved, filled, compared or searched as the code of
R267 does, the registers at the iteration where it stops, and the whole count under CTM; a string register that breaks R266 raises 0x03, an unassigned FN
0x02. Clauses of it rest on the model's reading or choice: notes/assumptions/34.md. -/
def Obligations.StringInstructions : Prop :=
  (∀ (f : FId) (x : StrF) (s t : State) (g : Fgr), s.Runs f g → g.regs.Quiet →
     let r := g.regs
     let p := r.rg x.ra
     let q := r.rg (x.ra + 1)
     let n := (r.rg x.rb).toNat
     let ctm := r.coreCtl.getLsbD 0
     let plus := fun (a : W64) (k : Nat) => a + BitVec.ofNat 64 k
     let left := fun (k : Nat) => BitVec.ofNat 64 (n - k)
     (strSound x true → x.rs = 0 → x.ss = 0 → x.fn.toNat < 4 →
       (x.rd = 0 → Moves f g (x.fn.getLsbD 0) (x.fn.getLsbD 1) n p q s t →
         exec (.movs f x) s = .next (t.retired f g (((r.setG x.ra (plus p n)).setG (x.ra + 1) (plus q n)).setG x.rb 0) none)) ∧
       (∀ (v : W64) (k : Nat), x.rd ≠ x.ra → x.rd ≠ x.ra + 1 → x.rd ≠ x.rb → r.rg x.rd = 0 →
         Compares f g (x.fn.getLsbD 0) (x.fn.getLsbD 1) n p q s v k t →
         let m := if ctm then n else k
         exec (.cmps f x) s = .next (t.retired f g
           ((((r.setG x.ra (plus p m)).setG (x.ra + 1) (plus q m)).setG x.rb (left m)).setG x.rd v) none)) ∧
       (x.rd ≠ x.ra → x.rd ≠ x.ra + 1 → x.rd ≠ x.rb → r.rg x.rd ≠ 0 → exec (.cmps f x) s = .next (s.retired f g
         ((((r.setG x.ra (plus p n)).setG (x.ra + 1) (plus q n)).setG x.rb 0).setG x.rd (r.rg x.rd)) none))) ∧
     (strSound x false → x.rs = 0 → x.ss = 0 → x.fn.toNat < 2 → Fills f g (x.fn.getLsbD 0) (r.rg x.rd) n p s t →
       exec (.fills f x) s = .next (t.retired f g ((r.setG x.ra (plus p n)).setG x.rb 0) none)) ∧
     (∀ (found : Bool) (k : Nat), strSound x true → x.fn.toNat < 2 → q = 0 →
       let mark := fun (k : Nat) => if found then plus p k ||| 0x8000000000000000 else 0
       (x.rs = 0 → x.ss = 0 → Finds f g (x.fn.getLsbD 0) [(r.rg x.rd).extractLsb' 0 8] n p s found k t →
         let m := if ctm then n else k
         exec (.scans f x) s = .next (t.retired f g (((r.setG x.ra (plus p m)).setG (x.ra + 1) (mark k)).setG x.rb (left m)) none)) ∧
       (let len := (x.rs ++ x.ss : BitVec (2 + 2)).toNat + 1
        Finds f g (x.fn.getLsbD 0) (leBytes len (r.rw x.rd).toNat) (n + 1 - len) p s found k t →
         let m := if ctm = true ∨ found = false then n else k
         exec (.matchs f x) s = .next (t.retired f g (((r.setG x.ra (plus p m)).setG (x.ra + 1) (mark k)).setG x.rb (left m)) none))) ∧
     (strSound x true → x.fn.toNat < 2 → q ≠ 0 →
       (x.rs = 0 → x.ss = 0 →
         exec (.scans f x) s = .next (s.retired f g (((r.setG x.ra (plus p n)).setG (x.ra + 1) q).setG x.rb 0) none)) ∧
       (let m := if ctm then n else n + 1 - ((x.rs ++ x.ss : BitVec (2 + 2)).toNat + 1)
        exec (.matchs f x) s = .next (s.retired f g (((r.setG x.ra (plus p m)).setG (x.ra + 1) q).setG x.rb (left m)) none)))) ∧
  (∀ (f : FId) (x : StrF) (s : State) (g : Fgr), s.Runs f g →
     let trap := fun (op : BitVec 7) (c : Nat) => (Host.Outcome.next (s.preciseTrap f g.regs c ((strWord op x).setWidth 64)) : Host.Outcome State Fault Refusal)
     (4 ≤ x.fn.toNat → exec (.movs f x) s = trap 0x60 0x02 ∧ exec (.cmps f x) s = trap 0x62 0x02) ∧
     (2 ≤ x.fn.toNat → exec (.fills f x) s = trap 0x61 0x02 ∧ exec (.scans f x) s = trap 0x63 0x02 ∧ exec (.matchs f x) s = trap 0x64 0x02) ∧
     (x.fn.toNat < 4 → ¬ strSound x true ∨ x.rd ≠ 0 → exec (.movs f x) s = trap 0x60 0x03) ∧
     (x.fn.toNat < 4 → ¬ strSound x true ∨ x.rd = x.ra ∨ x.rd = x.ra + 1 ∨ x.rd = x.rb → exec (.cmps f x) s = trap 0x62 0x03) ∧
     (x.fn.toNat < 2 → ¬ strSound x false → exec (.fills f x) s = trap 0x61 0x03) ∧
     (x.fn.toNat < 2 → ¬ strSound x true → exec (.scans f x) s = trap 0x63 0x03 ∧ exec (.matchs f x) s = trap 0x64 0x03))

-- EVENTS, TIME, FRAMES ------------------------------------------------------------------------------------------------------------------------

/-- What an assertion of source `e` does (R472, R473, R474): PEND is set and EVT_COUNT counts; a source that was not pending and is not masked makes its
group signal, where EN_g = 1: a message on the group's vector and the 1 µs hold-off, or, within a hold-off, one merged message later; a masked vector sets
its bit in the PBA instead. A source that cannot assert changes nothing. Beside the event state, the PBA of the PF and the messages, nothing changes.
EVT_ACK, EVT_MASK and the end of a hold-off (R473, R474, R475): a 1 clears its PEND bit; a new mask keeps the bits that read 1, and a group of which a
pending source is unmasked by it signals once; a merged message is sent when the 1 µs have passed. -/
def Obligations.Events : Prop :=
  (∀ (s : State) (e : Nat),
     (s.eventLive e = false → s.raise e = s) ∧
     (s.eventLive e = true →
       let g := e / 32
       let t := s.raise e
       let fresh := s.events.pend.getLsbD e = false ∧ s.events.mask.getLsbD e = false ∧ s.events.vec.getLsbD (8 * g + 7) = true
       let vec := s.events.vec.toNat / 2 ^ (8 * g) % 64
       t.events.pend = s.events.pend ||| (1#256 <<< e) ∧ t.events.mask = s.events.mask ∧ t.events.vec = s.events.vec ∧
       t.events.count = s.events.count.modify e (fun c => min (c + 1) 0xFFFFFFFF) ∧
       (fresh → s.events.holdoff.getLsbD g = true →
         t.events.merged = s.events.merged ||| (1#8 <<< g) ∧ t.events.holdoff = s.events.holdoff ∧ t.out = s.out ∧ t.insts = s.insts) ∧
       (fresh → s.events.holdoff.getLsbD g = false →
         t.events.holdoff = s.events.holdoff ||| (1#8 <<< g) ∧ t.events.merged = s.events.merged ∧
         ((s.instD 0).msix.masked.contains vec = false → t.out = s.out ++ [.msix 0 vec] ∧ t.insts = s.insts) ∧
         ((s.instD 0).msix.masked.contains vec = true → t.out = s.out ∧
           t.insts = s.insts.modify 0 fun i => { i with msix := { i.msix with pba := insAsc vec i.msix.pba } })) ∧
       (¬ fresh → t.events.merged = s.events.merged ∧ t.events.holdoff = s.events.holdoff ∧ t.out = s.out ∧ t.insts = s.insts) ∧
       t = { s with events := t.events, insts := t.insts, out := t.out })) ∧
  ((∀ (s : State) (n : Nat) (v : W64), n < 4 → s.HostWrites 0 →
     (∃ t, exec (.evtAck (.reg n v)) s = .next t ∧
       t = { s with events := { s.events with pend := t.events.pend } } ∧
       ∀ k, k < 256 → t.events.pend.getLsbD k = (s.events.pend.getLsbD k && !(k / 64 == n && v.getLsbD (k % 64)))) ∧
     (∃ t, exec (.evtMask (.reg n v)) s = .next t ∧ t.events.pend = s.events.pend ∧
       (∀ k, k < 256 → t.events.mask.getLsbD k =
         (s.maskFixed.getLsbD k || (if k / 64 = n then v.getLsbD (k % 64) else s.events.mask.getLsbD k))) ∧
       ((∀ k, k < 256 → s.events.pend.getLsbD k = true → s.events.mask.getLsbD k = true → t.events.mask.getLsbD k = true) →
         t = { s with events := { s.events with mask := t.events.mask } }))) ∧
   (∀ (s : State) (o : Origin) (data : List Byte) (x : OIx) (m : ObjMeta),
     (s.Accepts o 0x8000 2 data x m → exec (.evtAck (.dict o data)) s =
       .next (s.answered o 0x8000 2 x m data (fun s => { s with events := { s.events with pend := s.events.pend &&& ~~~BitVec.ofNat 256 (leNat data) } }))) ∧
     (s.Accepts o 0x8000 3 data x m → exec (.evtMask (.dict o data)) s =
       .next (s.answered o 0x8000 3 x m data (·.setMask (BitVec.ofNat 256 (leNat data)))))) ∧
   (∀ (s : State) (g : Nat), g < 8 → s.events.holdoff.getLsbD g = true →
     let t : State := { s with events := { s.events with
       holdoff := s.events.holdoff &&& ~~~(1#8 <<< g), merged := s.events.merged &&& ~~~(1#8 <<< g) } }
     (s.events.merged.getLsbD g = false → exec (.eventHoldoffEnd g) s = .next t) ∧
     (s.events.merged.getLsbD g = true → s.events.vec.getLsbD (8 * g + 7) = true →
       exec (.eventHoldoffEnd g) s = .next (({ t with events := { t.events with holdoff := s.events.holdoff } } : State).sendMsix 0
         (s.events.vec.toNat / 2 ^ (8 * g) % 64)))))

/-- The time unit and alignment (R43, R398, R445, R446): its offset counts toward 16 good intervals; beyond 1 µs LOCKED and HOLDOVER lose alignment with
event ALIGN_LOST; a locked unit leads from ALIGN_LOST to LOCKING, and from HOLDOVER to LOCKED at the next boundary. LOCKING completes with a frame that ends
at the first aligned boundary at least FRAME_PERIOD ahead. Lost PTP messages lead from LOCKED to HOLDOVER. PTP seconds discipline the calendar. Clauses of
it rest on the model's reading or choice: notes/assumptions/41.md, 42.md. -/
def Obligations.TimeUnit : Prop :=
  ∀ s : State, s.framesRun = true →
    (∀ off : Int,
      let good := if off.natAbs ≤ 100 then s.frame.good + 1 else 0
      let lost := (s.frame.sync = .locked ∨ s.frame.sync = .holdover) ∧ 1000 < off.natAbs
      let regained := s.frame.sync = .alignLost ∧ 16 ≤ good
      let t : State := { s with
        frame := { s.frame with offsetNs := off, good := good }
        keeper := { s.keeper with disciplined := s.keeper.disciplined && decide (off.natAbs ≤ 100) } }
      (lost → exec (.ptpMessage off) s =
        .next (({ t with frame := { t.frame with sync := .alignLost, lockNext := false } } : State).raise Config.evAlignLost)) ∧
      (regained → exec (.ptpMessage off) s = .next { t with frame := { t.frame with sync := .locking } }) ∧
      (¬ lost → ¬ regained → exec (.ptpMessage off) s = .next t)) ∧
    (∀ tai : Nat, s.frame.sync = .locking → 16 ≤ s.frame.good → s.frame.stretchTo = none → 0 < s.frame.periodActive →
      s.keeper.rwp.t0TaiNs.toNat ≤ tai →
      ∃ k : Nat, s.keeper.rwp.t0TaiNs.toNat + (k - 1) * s.periodNs < tai + s.periodNs ∧
        tai + s.periodNs ≤ s.keeper.rwp.t0TaiNs.toNat + k * s.periodNs ∧
        exec (.lockingComplete tai) s = .next { s with frame := { s.frame with
          stretchTo := some (BitVec.ofNat 64 k, s.power.uptimeNs + (s.keeper.rwp.t0TaiNs.toNat + k * s.periodNs - tai)) } }) ∧
    (s.frame.sync = .locked → exec .enterHoldover s = .next (({ s with
      frame := { s.frame with sync := .holdover, good := 0 }
      keeper := { s.keeper with disciplined := false } } : State).raise Config.evSyncHoldover)) ∧
    (s.frame.sync = .holdover → 16 ≤ s.frame.good → exec .relock s = .next { s with frame := { s.frame with lockNext := true } }) ∧
    (∀ (sec : Nat) (off : Option Nat), s.keeper.restarting = false → 16 ≤ s.frame.good →
      ∃ t, exec (.calDiscipline sec off) s = .next t ∧ t.keeper.calTime = BitVec.ofNat 64 (sec * 32768) ∧ t.keeper.calValid = true ∧
        t.keeper.disciplined = true ∧
        t.keeper.rwp.utcOffset = (if s.keeper.rwp.utcSrc = 1 then (off.map Int.ofNat).getD s.keeper.rwp.utcOffset else s.keeper.rwp.utcOffset) ∧
        t = { s with keeper := { s.keeper with
          calTime := t.keeper.calTime, calFrac := 0, calValid := true, disciplined := true
          rwp := { s.keeper.rwp with utcOffset := t.keeper.rwp.utcOffset } } })

/-- A boundary (R40, R41, R43, R55, R60, R63, R490): time goes on to the end of the frame and step 1 writes the completions; with a warm reset pending the
device resets there; else the frame generator opens the next frame, and steps 2 to 6 follow in their order. The generator counts FRAME_NUMBER one on, or
takes the aligned number of a lengthened frame, which also counts STRETCH_COUNT and makes SYNC_STATE LOCKED; the pointer of ties is its low byte. Clauses of
it rest on the model's reading or choice: notes/assumptions/6.md, 37.md, 38.md, 40.md. -/
def Obligations.FrameTick : Prop :=
  (∀ s : State, s.framesRun = true →
    let s1 := ((s.elapse (s.frameEndNs - s.power.uptimeNs)).advanceParts).commitStep s.frame.opens
    (∀ cause, s1.power.warmPending = some cause → exec .frameTick s = .next (s1.warmReset cause)) ∧
    (s1.power.warmPending = none →
      let a := s1.dropDead.recordNow
      let b := a.openFrame.stepResources.stepInsts
      let c := b.countOverruns s1.cyclesPerFrame (decide (s1.power.fclkNow < s1.part.fclkMHz))
        (a.runningNow.filter fun x => (b.instD x.2.inst).state != .frozen)
      exec .frameTick s =
        .next ((c.evictBeyond.stepWires.fabricBoundary.stepStats s1.cyclesPerFrame).openCounts.stepSaddle.stepSwitch))) ∧
  (∀ (s : State) (ns : Nat), (s.elapse ns).power.uptimeNs = s.power.uptimeNs + ns) ∧
  (∀ s : State,
    let t := s.openFrame
    let lengthened := s.frame.stretchTo.isSome = true
    t = { s with frame := t.frame, events := t.events, insts := t.insts, out := t.out } ∧
    (∀ k at_, s.frame.stretchTo = some (k, at_) → t.frame.number = k) ∧ (¬ lengthened → t.frame.number = s.frame.number + 1) ∧
    t.tbPtr = t.frame.number.toNat % 256 ∧ t.frame.closed = s.frame.number ∧ t.frame.startNs = s.power.uptimeNs ∧
    t.frame.boundaries = s.frame.boundaries + 1 ∧ t.frame.stretchTo = none ∧ t.frame.offsetLast = s.frame.offsetNs ∧
    t.frame.stretchCount = (if s.frame.stretchTo.isSome then min (s.frame.stretchCount + 1) 0xFFFFFFFF else s.frame.stretchCount) ∧
    (s.keeper.rwp.syncMode = 0 → t.frame.sync = .free) ∧
    (s.keeper.rwp.syncMode ≠ 0 → (lengthened ∨ (s.frame.lockNext = true ∧ s.frame.sync = .holdover)) → t.frame.sync = .locked) ∧
    (s.keeper.rwp.syncMode ≠ 0 → ¬ lengthened → ¬ (s.frame.lockNext = true ∧ s.frame.sync = .holdover) → t.frame.sync = s.frame.sync) ∧
    (t.frame.sync = .locked → s.frame.sync ≠ .locked → t.events = (s.raise Config.evSyncLocked).events) ∧
    (¬ (t.frame.sync = .locked ∧ s.frame.sync ≠ .locked) → t.events = s.events ∧ t.insts = s.insts ∧ t.out = s.out))

-- MORSELS AND STATISTICS ----------------------------------------------------------------------------------------------------------------------

/-- Saving and resuming (R51, R52, R54, R180, R235): a drained Forager saves its registers and parks its morsel; the parked morsel resumes with the saved
registers, PC included; an evicted one resumes on an idle Forager with its registers and LDM; a morsel at OVERRUN_LIMIT is discarded and its part fails with
BOUND_EXCEEDED. Clauses of it rest on the model's reading or choice: notes/assumptions/6.md, 35.md. -/
def Obligations.MorselContexts : Prop :=
  ∀ (s : State) (f : FId) (g : Fgr), s.fgr? f = some g → s.unitsLive f.die = true →
    (g.run = .preempted → g.regs.pend = none → g.evictNext = false →
      exec (.morselSave f) s = .next (s.modFgr f fun h => { h with
        save := h.regs, regs := h.regs.setMode 1, entryPc := h.regs.pc, run := .parked })) ∧
    (g.run = .preempted → g.regs.pend.isSome = true → exec (.morselSave f) s = .next (s.takeArith f g.regs)) ∧
    (∀ m, g.run = .parked → g.morsel = some m → s.resumable m = true →
      ∃ t h, exec (.morselResume f) s = .next t ∧ t.fgr? f = some h ∧
        h = { g with regs := g.save, save := FRegs.reset, run := .running, evictNext := false } ∧
        (∀ f', f' ≠ f → t.fgr? f' = s.fgr? f') ∧ t.mem = s.mem ∧ t.jobs = s.jobs) ∧
    (∀ x, (s.dieD f.die).idleFgrs.any (·.2 == f.fgr) = true → s.nextSaved f.die = some x →
      ∃ t h, exec (.evictedRestore f) s = .next t ∧ t.fgr? f = some h ∧ h.regs = x.regs ∧ h.ldm = x.ldm ∧ h.run = .running ∧
        h.morsel = some x.morsel ∧ (t.dieD f.die).saved = (s.dieD f.die).saved.filter (·.morsel.mid != x.morsel.mid) ∧ t.mem = s.mem) ∧
    (∀ m, g.morsel = some m → s.frame.overrunLimit ≤ m.overruns →
      let hit := fun (x : Morsel) => x.jid == m.jid && x.stage == m.stage && decide (s.frame.overrunLimit ≤ x.overruns)
      exec (.overrunLimitReached f.die m.jid m.stage) s = .next (((s.modDie f.die fun d => { d with
        fgrs := d.fgrs.map fun h => if h.morsel.elim false hit then h.discard else h
        units := d.units.map fun x => if x.morsel.elim false hit then { x with morsel := none } else x }).failPart m.jid f.die m.stage
          Config.stBoundExceeded []).raise Config.evBoundExceeded))

/-- Dispatch (R179, R184, R185): the candidates of a kind of unit stand in the order of level, entry, tie, sequence number and stage; the first that passes
every condition is dispatched, one that fails the bound test is deferred and the next is tried, one that may not run is passed over; with none the state
stays. Clauses of it rest on the model's reading or choice: notes/assumptions/6.md. -/
def Obligations.Dispatch : Prop :=
  ∀ (s : State) (die t : Nat) (kind : UnitKind), s.unitsLive die = true → t < s.unitCycles →
    let s1 := s.atCycle t
    let xs := s1.candidates die kind
    exec (.morselDispatch die kind t) s = .next (s1.dispatchFirst die t kind xs) ∧
    (∀ a b : Morsel × Job × Stage, ∀ i j : Nat, i < j → xs[i]? = some a → xs[j]? = some b → s1.goesBefore b.1 a.1 = false) ∧
    ((∀ x ∈ xs, s1.verdict die t kind x.2.1 x.2.2 x.1 matches .no) → exec (.morselDispatch die kind t) s = .next s1) ∧
    (∀ (x : Morsel × Job × Stage) (rest : List (Morsel × Job × Stage)), xs = x :: rest →
      ((s1.verdict die t kind x.2.1 x.2.2 x.1 matches .no) → exec (.morselDispatch die kind t) s = .next (s1.dispatchFirst die t kind rest)) ∧
      ((s1.verdict die t kind x.2.1 x.2.2 x.1 matches .defer) →
        exec (.morselDispatch die kind t) s = .next ((s1.defer die x.1).dispatchFirst die t kind rest))) ∧
    (∀ (x : Morsel × Job × Stage) (rest : List (Morsel × Job × Stage)), xs = x :: rest →
      (¬ s1.verdict die t kind x.2.1 x.2.2 x.1 matches .no) → (¬ s1.verdict die t kind x.2.1 x.2.2 x.1 matches .defer) →
      exec (.morselDispatch die kind t) s = .next (s1.dispatch die x.2.1 x.2.2 x.1 (s1.verdict die t kind x.2.1 x.2.2 x.1)))

-- FIXED UNITS ---------------------------------------------------------------------------------------------------------------------------------

/-- The forms of a column (R116, R117, R118): an ORDER_KEY lane compares unsigned as the signed value compares, of BINARY64 under FLOAT_CANON −0 as +0 and every
NaN as one key; a BINNED lane holds class, bin and mantissa, which give the value back, and NZ for −0 alone. -/
def Obligations.ColumnForms : Prop :=
  (∀ (ty lane : Nat) (canon : Bool) (x y : List Byte), signedLane ty = true → 0 < lane → x.length = lane → y.length = lane →
    (leNat (orderKey ty lane canon x) < leNat (orderKey ty lane canon y) ↔ sint (8 * lane) (leNat x) < sint (8 * lane) (leNat y))) ∧
  (∀ (ty lane : Nat) (canon : Bool) (x : List Byte), signedLane ty = false → ty ≠ 0x0C → orderKey ty lane canon x = x) ∧
  (let key := fun (v : W64) => leNat (orderKey 0x0C 8 true (leBytes 8 v.toNat))
   let value := fun (v : W64) => if v.getLsbD 63 then -((v.toNat % 2 ^ 63 : Nat) : Int) else (v.toNat : Int)
   let isNan := fun (v : W64) => decide (0x7FF0000000000000 < v.toNat % 2 ^ 63)
   ∀ v w : W64, (isNan v = false → isNan w = false → (key v < key w ↔ value v < value w)) ∧
     (isNan v = true → key v = 0xFFF8000000000000)) ∧
  (∀ v : Nat, v < 2 ^ 64 →
    let e := v / 2 ^ 52 % 2048
    let f := v % 2 ^ 52
    let l := binnedLane v
    (e = 2047 → l = (if f ≠ 0 then 1 else if 2 ^ 63 ≤ v then 3 else 2) * 2 ^ 126) ∧
    (e < 2047 → l < 2 ^ 126 ∧ (l.testBit 119 = true ↔ v = 2 ^ 63) ∧
      sint 119 l * 2 ^ (32 * (l / 2 ^ 120)) =
        (if 2 ^ 63 ≤ v then -1 else 1) * ((if 1 ≤ e then 2 ^ 52 + f else f) * 2 ^ max e 1 : Nat)))

/-- What a unit's morsel needs and leaves (R46, R49, R84, R85, R175, R359): held by a unit of a live die, in force, and of the stage's kind, its work is
done and counted, a sink's rows are placed, and the job moves on; work that fails fails the part of its die with the status. In either case the unit is
free. The rows of the Column Streamer, the Hash Probe Engine, the Merge Network, the Associative Match Unit and the digest engines. Clauses of it rest on
the model's reading or choice: notes/assumptions/43.md, 76.md. -/
def Obligations.UnitMorsels : Prop :=
  ∀ (u : UId) (s : State) (m : Morsel) (j : Job) (st : Stage), s.HoldsMorsel u m j st →
    let s1 := s.releaseUnit u m
    ((s1.dieD u.die).units[u.unit]?).bind (·.morsel) = none ∧
    (∀ row ∈ unitRows, row.picks s u st m = true → exec (row.instr u) s = .next (s.worked u m st (row.work u s1 j st m))) ∧
    (∀ e : Nat, s.worked u m st (.error e) = (s1.failPart m.jid u.die m.stage e []).settle m.jid) ∧
    (∀ t : State, st.sink = false → s.worked u m st (.ok t) = (t.countMorsel m.jid u.die).settle m.jid)

/-- The rows that a probe of a row with a key gives (R145, R147), in a table of inline keys, whose payload is empty: without a match one row to LEFT, with null
payload, and to ANTI, none to INNER and SEMI; with matches one row for each to INNER and LEFT, one to SEMI, none to ANTI; null-aware ANTI gives none when the
table has seen a null key. Clauses of it rest on the model's reading or choice: notes/assumptions/12.md. -/
def Obligations.ProbeResults : Prop :=
  ∀ (s : State) (jid ti n c : Nat) (cols : List Column) (keys : List (Column × Nat)) (i : Nat) (t : Table) (offs : List Nat),
    s.table? jid ti = some t → rowKeyNull keys i = false → t.spilled.contains (t.partOf (tableHash (rowKey keys i) t.seed)) = false →
    s.findKey n t c (tableHash (rowKey keys i) t.seed) (rowKey keys i) = .ok offs → t.inlined = true →
    (∀ aware, s.probeRow jid ti n c .inner aware cols keys i = .ok (s.drawn, offs.map fun _ => (i, some []))) ∧
    (∀ aware, s.probeRow jid ti n c .left aware cols keys i = .ok (s.drawn, if offs = [] then [(i, none)] else offs.map fun _ => (i, some []))) ∧
    (∀ aware, s.probeRow jid ti n c .semi aware cols keys i = .ok (s.drawn, if offs = [] then [] else [(i, none)])) ∧
    s.probeRow jid ti n c .anti false cols keys i = .ok (s.drawn, if offs = [] then [(i, none)] else []) ∧
    s.probeRow jid ti n c .anti true cols keys i = .ok (s.drawn, if offs = [] ∧ t.nullKeys = 0 then [(i, none)] else [])

/-- Outputs obey the limits of their consumers (R74, R166): the parts of a split are the rows in order, none empty, each within the row limit, and within the
heap limit where every row is. Buffers of an arena never overlap and lie inside it (R115).
Ordered release (R172, R173): an ordered flow delivers the pair that is next, and then every held pair that follows on; a later pair is held; nothing is
delivered twice or out of order. Clauses of it rest on the model's reading or choice: notes/assumptions/11.md, 17.md. -/
def Obligations.OutputsAndOrderedRelease : Prop :=
  ((∀ (rows heap : Nat) (hs : List Nat), 0 < rows →
     (splitRows rows heap hs [] 0).flatten = hs ∧
     (∀ p ∈ splitRows rows heap hs [] 0, p ≠ [] ∧ p.length ≤ rows ∧ ((∀ h ∈ hs, h ≤ heap) → p.sum ≤ heap))) ∧
   (∀ (a : Arena) (size draw o : Nat), a.place size draw = some o →
     o + size ≤ a.bytes ∧ ∀ l ∈ a.live, o + size ≤ l.1 ∨ l.1 + l.2 ≤ o)) ∧
  (∀ (s : State) (j : Job) (fi pd producer : Nat) (st : Stage) (o : Output) (f : FlowSt),
     s.job? j.jid = some j → s.flowSt? j.jid fi = some f →
     (¬ (o.origin = f.nextOrigin ∧ o.frag = f.nextFrag) → f.held.length < Config.window →
       s.placeOrdered j fi pd producer st o =
         (({ s with nextMid := s.nextMid + 1 } : State).modFlow j.jid fi fun f =>
           { f with held := f.held ++ [s.asMorsel j producer st (some fi) o 0] }).modFlow j.jid fi (·.settled)) ∧
     (o.origin = f.nextOrigin → o.frag = f.nextFrag → f.held = [] →
       s.placeOrdered j fi pd producer st o =
         ((s.modFlow j.jid fi fun f => { f with
           seq := f.seq + 1
           nextOrigin := if o.last then f.nextOrigin + 1 else f.nextOrigin
           nextFrag := if o.last then 0 else f.nextFrag + 1 }).deliver j.jid fi pd o f.seq).modFlow j.jid fi (·.settled)))

/-- The order of merging (R161, R162, R166): keys compare column by column, ascending or descending, nulls first or last, and ties go by origin; a merge takes
the record of a head that no other head precedes. -/
def Obligations.MergeOrder : Prop :=
  (∀ (flags : Nat) (x y : List Byte),
    cellOrder flags (some x) (some y) =
      (if flags.testBit 0 then 1 else -1) * (if leNat x < leNat y then 1 else if leNat y < leNat x then -1 else 0) ∧
    cellOrder flags none (some y) = (if flags.testBit 1 then 1 else -1) ∧ cellOrder flags none none = 0) ∧
  (∀ (p : List Byte) (lay : List Column) (a b c : List Byte),
    entryBefore p lay a a = false ∧ (entryBefore p lay a b = true → entryBefore p lay b a = false) ∧
    (entryBefore p lay a b = true → entryBefore p lay b c = true → entryBefore p lay a c = true)) ∧
  (∀ (s : State) (n : Nat) (a : Area) (p : List Byte) (lay : List Column) (ins : List Run) (i : Nat) (e : List Byte),
    s.leastHead n a p lay ins = .ok (some (i, e)) →
    (∃ r o, ins[i]? = some r ∧ r.entries.head? = some o ∧ s.fetch n (a.addr + o) (entryLen lay) = .ok e) ∧
    ∀ r ∈ ins, ∀ o x, r.entries.head? = some o → s.fetch n (a.addr + o) (entryLen lay) = .ok x → entryBefore p lay x e = false)

-- THE MATCH UNIT, DIGESTS AND THE SADDLE PORT -------------------------------------------------------------------------------------------------

/-- Lookups and the entry port (R273, R278, R279, R280, R282, R283, R285, R289, R293): of the matching entries of the instance's region the highest priority
answers, then the lowest address, or 0xFFFFFFFF; a STALE region fails the part with AMU_STATE and writes nothing; AMWR writes shadow and array, AMRD reads an
entry into LDM, with the codes 1 and 2 of a bad index and a reserved image; both raise 0x08 in Pipeline mode and 0x07 for a misaligned address. -/
def Obligations.MatchPort : Prop :=
  (∀ (a : Amu) (n : Nat) (k : BitVec 160) (x : Nat × AmuEntry),
    (a.lookup n k = none ↔ a.matches n k = []) ∧
    (a.lookup n k = some x → x ∈ a.matches n k ∧ x.2.valid = true ∧ (k ^^^ x.2.value) &&& x.2.care = 0 ∧
      ∀ y ∈ a.matches n k, y.2.prio < x.2.prio ∨ (y.2.prio = x.2.prio ∧ x.1 ≤ y.1))) ∧
  (∀ (f : FId) (x : RegF) (s : State) (g : Fgr), s.Runs f g → badReg {} x = false →
    (∀ m, g.morsel = some m → g.regs.Quiet →
      (s.amuStale m.inst f.die = true →
        exec (.amlk f x) s = .next ((s.failPart m.jid f.die m.stage Config.stAmuState []).retired f g g.regs none)) ∧
      (s.amuStale m.inst f.die = false →
        let t := (s.amuRepair f.die m.inst).countLookup f.die (some m.inst)
        let key : BitVec 160 := (g.regs.rg x.rb).extractLsb' 0 32 ++ g.regs.rw x.ra
        exec (.amlk f x) s = .next (t.retired f g (g.regs.setG x.rd
          (match (t.dieD f.die).amu.lookup m.inst key with | some e => BitVec.ofNat 64 e.1 | none => 0xFFFFFFFF)) none))) ∧
    (g.regs.mode = 0 → exec (.amwr f x) s = .next (s.preciseTrap f g.regs 0x08 ((regWord 0x71 0x00 x).setWidth 64)) ∧
      exec (.amrd f x) s = .next (s.preciseTrap f g.regs 0x08 ((regWord 0x71 0x01 x).setWidth 64))) ∧
    (g.regs.mode ≠ 0 →
      let a := g.regs.rg x.ra
      let i := (g.regs.rg x.rb).toNat
      let img := memRead g.ldm a.toNat 64
      (a.toNat % 64 ≠ 0 → exec (.amwr f x) s = .next (s.preciseTrap f g.regs 0x07 a) ∧
        exec (.amrd f x) s = .next (s.preciseTrap f g.regs 0x07 a)) ∧
      (a.toNat % 64 = 0 → inLdm a.toNat 64 = true → g.regs.Quiet →
        (32767 < i → exec (.amwr f x) s = .next (s.retired f g (g.regs.setG x.rd 1) none) ∧
          exec (.amrd f x) s = .next (s.retired f g (g.regs.setG x.rd 1) none)) ∧
        (i ≤ 32767 → shadowReserved img = true → exec (.amwr f x) s = .next (s.retired f g (g.regs.setG x.rd 2) none)) ∧
        (i ≤ 32767 → shadowReserved img = false → (s.dieD f.die).amu.clearing i = false →
          exec (.amwr f x) s = .next ((s.amuWrite f.die i (shadowEntry img)).retired f g (g.regs.setG x.rd 0) none)) ∧
        (i ≤ 32767 →
          let amu := (s.dieD f.die).amu
          let out := shadowBytes (amu.entry i) ((byteAt (s.shadow f.die i) 0x2C).testBit 1) (amu.ownerField i)
          exec (.amrd f x) s = .next ((s.modFgr f fun h => { h with ldm := memWrite h.ldm a.toNat out }).retired f g (g.regs.setG x.rd 0) none)))))

/-- The array and its shadow (R281, R290, R291, R293): a write leaves the entry in the array and its image in the shadow, and no other entry or byte of
memory changes; a cleared block has 512 empty entries and serves again; the sweep puts an entry that differs from its shadow right and counts it; an
uncorrectable shadow marks the entry FAULTED and invalid, makes the owner's region STALE and raises AMU_SHADOW for the die. Clauses of it rest on the
model's reading or choice: notes/assumptions/6.md. -/
def Obligations.MatchArray : Prop :=
  (∀ (s : State) (d i : Nat) (e : AmuEntry), s.memWf → d < s.dies.length → i < 32768 →
    let t := s.amuWrite d i e
    (t.dieD d).amu.entry i = e ∧ (∀ k, k ≠ i → (t.dieD d).amu.entry k = (s.dieD d).amu.entry k) ∧
    t.shadow d i = shadowBytes e false ((s.dieD d).amu.ownerField i) ∧
    (∀ a, (a < shadowAddr d i ∨ shadowAddr d i + 64 ≤ a) → memGet t.mem a = memGet s.mem a)) ∧
  (∀ (s : State) (die block : Nat) (b : AmuBlock), (s.dieD die).amu.blocks[block]? = some b → b.clearing = true → s.unitsLive die = true →
    ∃ t, exec (.amuBlockClear die block) s = .next t ∧
      (∀ k, k < 512 → (t.dieD die).amu.entry (512 * block + k) = AmuEntry.empty) ∧
      (t.dieD die).amu.blocks[block]? = some { b with clearing := false }) ∧
  (∀ (s : State) (die : Nat), s.unitsLive die = true →
    let a := (s.dieD die).amu
    let want := shadowEntry (s.shadow die a.sweep)
    ∃ t, exec (.amuSweepStep die) s = .next t ∧ (t.dieD die).amu.sweep = (if a.sweep + 1 = 32768 then 0 else a.sweep + 1) ∧
      (t.dieD die).amu.sweepPasses = (if a.sweep + 1 = 32768 then a.sweepPasses + 1 else a.sweepPasses) ∧
      (a.clearing a.sweep = false → (byteAt (s.shadow die a.sweep) 0x2C).testBit 1 = false →
        (t.dieD die).amu.entry a.sweep = want ∧
        (t.dieD die).amu.sweepFix = (if a.entry a.sweep = want then a.sweepFix else a.sweepFix + 1)) ∧ t.mem = s.mem) ∧
  (∀ (s : State) (die index n : Nat), index < 32768 → s.memWf → s.unitsLive die = true → n < s.insts.length → die < 8 →
    (s.instD n).amuState.length = 8 →
    ((s.dieD die).amu.blocks.getD (index / 512) AmuBlock.reset).owner = some n →
    ∃ t, exec (.shadowFault die index) s = .next t ∧ ((t.dieD die).amu.entry index).valid = false ∧
      (byteAt (t.shadow die index) 0x2C).testBit 1 = true ∧ t.amuStale n die = true ∧
      (t.dieD die).amu.shadowFaults = min ((s.dieD die).amu.shadowFaults + 1) 0xFFFFFFFF)

/-- SHA-256 messages (R274, R454, R455, R457, R458): bytes taken in pieces are one message; DGINIT opens the lowest free context within the instance's share
or answers BUSY; DGUPD takes its bytes and moves G[RA] and G[RB]; DGFIN writes the digest and releases the context, DGABT only releases it; a handle that
the morsel does not hold fails the part with INVALID_FIELD and nothing else; DGCMP gives EQ and EQ_N. Clauses of it rest on the model's reading or choice:
notes/assumptions/6.md. -/
def Obligations.Digests : Prop :=
  (∀ a b : List Byte, sha256 (a ++ b) = shaFinal (shaUpdate (shaUpdate shaInit a) b)) ∧
  (∀ (f : FId) (x : RegF) (s : State) (g : Fgr) (m : Morsel), s.Runs f g → g.morsel = some m → g.regs.Quiet →
    (badReg { ra := false, rb := false } x = false →
      (s.freeCtx f.die m.inst = none →
        exec (.dginit f x) s = .next (s.retired f g (g.regs.setG x.rd 0xFFFFFFFFFFFFFFFF) none)) ∧
      (∀ c, s.freeCtx f.die m.inst = some c →
        exec (.dginit f x) s = .next ((s.setCtx f.die c { holder := .morsel m.mid, inst := m.inst, sha := shaInit }).retired f g
          (g.regs.setG x.rd (BitVec.ofNat 64 c)) none))) ∧
    (∀ (c : Nat) (ctx : Ctx), (s.dieD f.die).ctxs[c]? = some ctx → ctx.holder = .morsel m.mid →
      (badReg {} x = false → (g.regs.rg x.rd).toNat = c →
        ((g.regs.rg x.rb) = 0 → exec (.dgupd f x) s = .next (s.retired f g g.regs none)) ∧
        (∀ (t u : State) (bs : List Byte), (g.regs.rg x.rb) ≠ 0 →
          s.takeBytes f (g.regs.rg x.ra) (g.regs.rg x.rb).toNat [] = (t, bs.reverse, .finished) →
          t.digestCharge f.die m.inst ((ctx.sha.len + bs.length) / 64 - ctx.sha.len / 64) = some u →
          let r := (g.regs.setG x.ra (g.regs.rg x.ra + BitVec.ofNat 64 bs.length)).setG x.rb (g.regs.rg x.rb - BitVec.ofNat 64 bs.length)
          r.Quiet → exec (.dgupd f x) s =
            .next ((u.setCtx f.die c { ctx with sha := shaUpdate ctx.sha bs }).retired f g r none))) ∧
      (badReg { rb := false } x = false → x.rd.getLsbD 0 = false → (g.regs.rg x.ra).toNat = c →
        ∀ u, s.digestCharge f.die m.inst (if ctx.sha.len % 64 < 56 then 1 else 2) = some u →
          exec (.dgfin f x) s = .next ((u.setCtx f.die c Ctx.reset).retired f g (g.regs.setDigest x.rd (shaFinal ctx.sha)) none)) ∧
      (badReg { rd := false, rb := false } x = false → (g.regs.rg x.ra).toNat = c →
        exec (.dgabt f x) s = .next ((s.setCtx f.die c Ctx.reset).retired f g g.regs none))) ∧
    (let failed := (s.failPart m.jid f.die m.stage Config.stInvalidField []).retired f g g.regs none
     let foreign := fun (h : W64) => ∀ c, (s.dieD f.die).ctxs[h.toNat]? = some c → c.holder ≠ .morsel m.mid
     (badReg {} x = false → foreign (g.regs.rg x.rd) → exec (.dgupd f x) s = .next failed) ∧
     (badReg { rb := false } x = false → x.rd.getLsbD 0 = false → foreign (g.regs.rg x.ra) → exec (.dgfin f x) s = .next failed) ∧
     (badReg { rd := false, rb := false } x = false → foreign (g.regs.rg x.ra) → exec (.dgabt f x) s = .next failed)) ∧
    (badReg {} x = false → x.ra.getLsbD 0 = false → x.rb.getLsbD 0 = false → s.propolis.cmpFlip = 0 →
      exec (.dgcmp f x) s = .next (s.retired f g (g.regs.setG x.rd
        (if g.regs.rw x.ra = g.regs.rw x.rb ∧ g.regs.rw (x.ra + 1) = g.regs.rw (x.rb + 1) then 1 else 2)) none)))

/-- The Saddle port (R35, R36, R275, R372): an enabled site takes the operation, its word and two registers go to the customer die with instance and
generation, and the Forager waits; else cause 0x04. The response goes to G[RD] and the instruction retires, an error response fails the part with MEM_FAULT,
one of an old generation is dropped and counted, and no answer within 10 µs fails the site. Clauses of it rest on the model's reading or choice:
notes/assumptions/6.md, 36.md. -/
def Obligations.SaddlePort : Prop :=
  (∀ (f : FId) (word : W32) (s : State) (g : Fgr), s.Runs f g → 0x74 ≤ word.toNat % 128 →
    (s.saddleTakes = false → exec (.saddleOp f word) s = .next (s.preciseTrap f g.regs 0x04 (word.setWidth 64))) ∧
    (s.saddleTakes = true →
      let n := match g.morsel with | some m => m.inst | none => 0
      let gen := match g.morsel with | some m => m.gen | none => (s.instD 0).gen
      exec (.saddleOp f word) s = .next (({ s with
        out := s.out ++ [.saddle word (g.regs.rg (word.extractLsb' 12 5)) (g.regs.rg (word.extractLsb' 17 5)) n gen]
        saddle := { s.saddle with inflight := s.saddle.inflight ++ [{ who := f, inst := n, gen := gen }] } } : State).modFgr f fun h =>
          { h with run := .saddle (word.extractLsb' 7 5) }))) ∧
  (∀ (f : FId) (s : State) (g : Fgr) (rd : BitVec 5) (r : SaddleReq) (gen : BitVec 16) (value : W64),
    s.fgr? f = some g → s.saddle.inflight.find? (fun r => r.who == f && r.gen == gen) = some r →
    let t : State := { s with saddle := { s.saddle with inflight := s.saddle.inflight.erase r } }
    (gen ≠ (s.instD r.inst).gen → ∀ err, exec (.saddleResponse f gen value err) s =
      .next (t.countStale r.inst fun i => { i with staleDma := satAdd 32 i.staleDma 1 })) ∧
    (gen = (s.instD r.inst).gen → g.run = .saddle rd → g.regs.Quiet → g.regs.mode = 0 → ∀ m, g.morsel = some m →
      exec (.saddleResponse f gen value false) s =
        .next ((t.modFgr f fun h => { h with run := .running }).retired f g (g.regs.setG rd value) none) ∧
      exec (.saddleResponse f gen value true) s = .next (t.failPart m.jid f.die m.stage Config.stMemFault []))) ∧
  (∀ s : State, s.powered = true → s.saddle.state = 2 → s.saddle.inflight ≠ [] →
    ∃ t, exec .saddleTimeout s = .next t ∧ t.saddle.state = 3 ∧ t.saddle.inflight = [] ∧
      t.saddle.fails = min (s.saddle.fails + 1) 0xFFFFFFFF ∧ t.mem = s.mem)
-- REGISTERS AND QUEUES ------------------------------------------------------------------------------------------------------------------------

/-- Doorbells (R333, R340, R341): a tail takes an index that does not move back toward HEAD, a head one that does not pass TAIL; any other index puts the
queue in ERROR with QUEUE_ERROR; a doorbell of a queue that is absent or not ACTIVE is dropped and counted. CQ_STALL_FRAMES stall boundaries in a row raise
CQ_STALL once (R345). AQ_CFG (R336): without EN it takes its fields, and with EN opens both admin queues, empty, at the bases in force; while EN stands, EN
= 0 shuts them down and a write that changes another field changes none; an enable while DISABLING is latched, and applies when the disable is done. Clauses
of it rest on the model's reading or choice: notes/assumptions/48.md. -/
def Obligations.QueueRegisters : Prop :=
  ((∀ (s : State) (fn q size : Nat) (value : W64), s.HostWrites fn → size = 4 ∨ size = 8 → q < 4096 →
     let v := if size = 4 then value.toNat % 2 ^ 32 else value.toNat
     let i := v % 2 ^ 16
     v / 2 ^ 16 % 2 ^ 16 = 0 → v / 2 ^ 52 = 0 →
     let ahead := fun (depth a b : Nat) => (a + depth - b % depth) % depth
     let dropped := s.modInst fn fun x => { x with dbDrop := min (x.dbDrop + 1) 0xFFFF }
     let sqFails := (s.modSq fn q fun x => { x with state := .error }).raise Config.evQueueError
     let cqFails := (s.modCq fn q fun x => { x with state := .error }).raise Config.evQueueError
     ((s.instD fn).sq? q = none → exec (.sqTailDoorbell fn q size value) s = .next dropped) ∧
     (∀ x, (s.instD fn).sq? q = some x →
       let d := 2 ^ x.depthLog2
       let open_ := x.state = .active ∧ ¬ (q = 0 ∧ (s.instD fn).aq.disabling = true)
       (¬ open_ → exec (.sqTailDoorbell fn q size value) s = .next dropped) ∧
       (open_ → d ≤ i → exec (.sqTailDoorbell fn q size value) s = .next sqFails) ∧
       (open_ → i < d → ahead d i x.head < ahead d x.tail x.head → i ≠ x.tail → exec (.sqTailDoorbell fn q size value) s = .next sqFails) ∧
       (open_ → i < d → ahead d x.tail x.head < ahead d i x.head →
         exec (.sqTailDoorbell fn q size value) s = .next (s.modSq fn q fun x => { x with tail := i }))) ∧
     ((s.instD fn).cq? q = none → exec (.cqHeadDoorbell fn q size value) s = .next dropped) ∧
     (∀ x, (s.instD fn).cq? q = some x →
       let d := 2 ^ x.depthLog2
       let open_ := x.state = .active ∧ ¬ (q = 0 ∧ (s.instD fn).aq.disabling = true)
       (¬ open_ → exec (.cqHeadDoorbell fn q size value) s = .next dropped) ∧
       (open_ → (d ≤ i ∨ ahead d x.tail x.head < ahead d i x.head) → exec (.cqHeadDoorbell fn q size value) s = .next cqFails) ∧
       (open_ → i < d → ahead d i x.head ≤ ahead d x.tail x.head →
         exec (.cqHeadDoorbell fn q size value) s = .next (s.modCq fn q fun x => { x with head := i })))) ∧
   (∀ (s : State) (n q : Nat) (x : Cq), (s.instD n).cq? q = some x → s.settings.cqStallFrames ≤ x.stall → x.stallRaised = false →
     exec (.cqStall n q) s = .next ((s.modCq n q fun x => { x with stallRaised := true }).raise Config.evCqStall))) ∧
  ((∀ (s : State) (fn : Nat) (value : W64), s.HostWrites fn → aqCfgBad value.toNat (s.vectors fn) = false →
     let v := value.toNat
     let a := (s.instD fn).aq
     let fields : AdminRegs := { a with
       vector := v / 2 ^ 16 % 2 ^ 12, shadowEn := v.testBit 14, intEn := v.testBit 13, cqLog2 := v / 2 ^ 8 % 2 ^ 5, sqLog2 := v % 2 ^ 5 }
     (a.en = false → a.disabling = false → v.testBit 31 = true →
       exec (.aqCfg fn 8 value) s = .next ((s.modInst fn fun i => { i with aq := fields }).modInst fn (·.openAdmin))) ∧
     (a.en = false → a.disabling = false → v.testBit 31 = false → exec (.aqCfg fn 8 value) s = .next (s.modInst fn fun i => { i with aq := fields })) ∧
     (a.en = false → a.disabling = true → exec (.aqCfg fn 8 value) s =
       .next (s.modInst fn fun i => { i with aq := { fields with enablePending := v.testBit 31 } })) ∧
     (a.en = true → fields = a → v.testBit 31 = true → exec (.aqCfg fn 8 value) s = .next s) ∧
     (a.en = true → fields = a → v.testBit 31 = false → exec (.aqCfg fn 8 value) s = .next (s.modInst fn fun i => { i with
       aq := { i.aq with en := false, disabling := true }
       sqs := i.sqs.map fun x => if x.qid = 0 then { x with state := .deleting } else x
       cqs := i.cqs.map fun x => if x.qid = 0 ∧ x.state = .active then { x with state := .deleting } else x })) ∧
     (a.en = true → fields ≠ a → v.testBit 31 = true → exec (.aqCfg fn 8 value) s =
       .next ((s.modInst fn fun i => { i with rsvdWr := min (i.rsvdWr + 1) 0xFFFFFFFF }).raise Config.evRsvdWrite))) ∧
   (∀ i : Inst,
     let o := i.openAdmin
     o.aq = { i.aq with en := true, enablePending := false, disabling := false } ∧
     (∃ q, o.sq? 0 = some q ∧ q.state = .active ∧ q.head = 0 ∧ q.tail = 0 ∧ q.depthLog2 = i.aq.sqLog2 ∧ q.base = i.aq.sqBase.toNat ∧ q.cqid = 0) ∧
     (∃ q, o.cq? 0 = some q ∧ q.state = .active ∧ q.head = 0 ∧ q.tail = 0 ∧ q.depthLog2 = i.aq.cqLog2 ∧ q.base = i.aq.cqBase.toNat ∧
       q.vector = i.aq.vector ∧ q.intEn = i.aq.intEn ∧ q.reserved = 0) ∧
     ∀ q, q ≠ 0 → o.sq? q = i.sq? q ∧ o.cq? q = i.cq? q) ∧
   (∀ (s : State) (fn : Nat), (s.instD fn).aq.disabling = true → (∀ q, (s.instD fn).cq? 0 = some q → q.reserved = 0) →
     let closed := fun (i : Inst) => { i with
       aq := { i.aq with en := false, disabling := false, enablePending := false }
       sqs := i.sqs.filter (·.qid != 0)
       cqs := i.cqs.filter (·.qid != 0) }
     exec (.adminDisableDone fn) s = .next (s.modInst fn fun i => if i.aq.enablePending then (closed i).openAdmin else closed i)))

/-- The other registers: mailboxes (R391 to R393), whose posts fill free slots and signal the peer, and drop those that are FULL; the hold of a statistics
window (R199); FRAME_NUMBER, whose read latches FRAME_NOW (R62); EVT_VEC; and what every write meets (R8, R332, R374, R494): dropped and counted while the
instance resets, dropped while the device boots, counted as reserved when its size is not listed. Clauses of it rest on the model's reading or choice:
notes/assumptions/48.md, 49.md, 50.md. -/
def Obligations.HostRegisters : Prop :=
  (∀ (s : State) (fn n : Nat) (b : BitVec 8), s.HostWrites fn → n < 256 →
    let k := if fn = 0 then n else fn
    let pf := fn == 0
    let i := s.instD k
    let mine := if pf then i.mbxPf else i.mbxVf
    let peer := if pf then i.mbxVf else i.mbxPf
    let count := fun (m : BitVec 8) => ((List.range 8).filter (m.getLsbD ·)).length
    let side := fun (t : State) (p : Bool) (f : MbxSide → MbxSide) =>
      t.modInst k fun i => if p then { i with mbxPf := f i.mbxPf } else { i with mbxVf := f i.mbxVf }
    k ≠ 0 →
    (i.state = .frozen →
      exec (.mbxPost fn n 8 (b.setWidth 64)) s = .next (side s pf fun m => { m with drop := min (m.drop + count b) 0xFF }) ∧
      exec (.mbxAck fn n 8 (b.setWidth 64)) s = .next (side s pf fun m => { m with drop := min (m.drop + count b) 0xFF })) ∧
    (i.state ≠ .frozen → b &&& ~~~mine.txFull ≠ 0 → exec (.mbxPost fn n 8 (b.setWidth 64)) s =
      .next ((side (side s pf fun m => { m with drop := min (m.drop + count (b &&& mine.txFull)) 0xFF }) pf
        fun m => { m with txFull := m.txFull ||| (b &&& ~~~mine.txFull) }).mbxSignal k (!pf))) ∧
    (i.state ≠ .frozen → b &&& peer.txFull ≠ 0 → exec (.mbxAck fn n 8 (b.setWidth 64)) s =
      .next ((side s (!pf) fun m => { m with txFull := m.txFull &&& ~~~b }).mbxSignal k (!pf))) ∧
    (i.state ≠ .frozen → b &&& peer.txFull = 0 → exec (.mbxAck fn n 8 (b.setWidth 64)) s = .next s)) ∧
  (∀ (s : State) (fn : Nat) (v : W64), s.HostWrites fn → v &&& 0xFFFFFFFF0000FFF8 = 0 →
    exec (.statHold fn v) s = .next (s.modInst fn fun i => { i with stat := { i.stat with
      hold := v.getLsbD 0
      holdActive := i.stat.holdActive && v.getLsbD 0
      holdLeft := if v.getLsbD 0 then i.stat.holdLeft else 0
      holdExpired := i.stat.holdExpired && !v.getLsbD 2 } })) ∧
  (∀ (s : State) (fn : Nat), (s.instD fn).stat.holdActive = true → (s.instD fn).stat.holdLeft = 0 →
    exec (.statHoldExpired fn) s = .next ((s.modInst fn fun i => { i with stat := { i.stat with
      hold := false, holdActive := false, holdLeft := 0, holdExpired := true } }).raise Config.evStatHoldExpired)) ∧
  (∀ (s : State) (fn t : Nat), s.HostWrites fn →
    let s1 := s.elapse (s.frame.startNs + t - s.power.uptimeNs)
    exec (.frameNumberRead fn t) s =
      .next ((s1.modInst fn fun i => { i with frameNow := some (BitVec.ofNat 20 (s1.power.uptimeNs - s1.frame.startNs)) }).emit
        (.readData fn s.frame.number))) ∧
  (∀ (s : State) (v : W64), s.HostWrites 0 → v &&& 0x4040404040404040 = 0 →
    exec (.registerWrite 0 0x2C040 8 v) s = .next { s with events := { s.events with vec := v } }) ∧
  (∀ (s : State) (fn off size : Nat) (v : W64), s.fnLive fn = true →
    (s.power.devState = .booting → inKdw fn off = false → exec (.registerWrite fn off size v) s = .next s) ∧
    ((s.instD fn).state = .resetting → s.power.devState ≠ .booting →
      exec (.registerWrite fn off size v) s = .next (s.modInst fn fun i => { i with rsvdWr := min (i.rsvdWr + 1) 0xFFFFFFFF })) ∧
    (s.HostWrites fn → ¬ ((size = 4 ∨ size = 8) ∧ off % size = 0) → exec (.registerWrite fn off size v) s =
      .next ((s.modInst fn fun i => { i with rsvdWr := min (i.rsvdWr + 1) 0xFFFFFFFF }).raise Config.evRsvdWrite)))

/-- Fetching and the commands on queues (R344 to R346, R350, R351, R360, R361): a servable queue is served, the admin queue before the others, what of it a
chain takes, and the completion of each admin command with its status: creation within the quota, deletion that waits for the queue to drain, aborts by
queue and CID or by DJID, and status pages. Clauses of it rest on the model's reading or choice: notes/assumptions/46.md. -/
def Obligations.QueueCommands : Prop :=
  (∀ (chain more : List (List Byte)) (e : List Byte), chain.head? = some e → chain.length ≤ 64 → entFirst e = true →
    (∀ x ∈ chain, entOpcode x = entOpcode e ∧ entCid x = entCid e) → (∀ x ∈ chain.drop 1, entFirst x = false) →
    (∀ x ∈ chain.dropLast, entLast x = false) → (∀ x, chain.getLast? = some x → entLast x = true) →
    chainTake (chain ++ more) = (chain.length, false)) ∧
  (∀ (s : State), s.power.mainPower = true → s.power.perst = false → s.power.devState = .ready →
    (s.nextServed = none → exec .chainFetch s = .next { s with fetchRound := [] }) ∧
    ∀ (n : Nat) (q : Sq) (rest : List Nat), s.nextServed = some (n, q, rest) →
      q ∈ (s.instD n).sqs ∧ (s.instD n).state = .enabled ∧ (s.instD n).d3hot = false ∧ (s.instD n).servable q = true ∧
      ((∃ x ∈ (s.instD n).sqs, x.qid = 0 ∧ (s.instD n).servable x = true) → q.qid = 0) ∧
      (let es := (List.range q.waiting).map fun k => memRead s.mem (hostKey n (q.base + 128 * ((q.head + k) % q.depth))) 128
       let take := if q.qid = 0 then (1, false) else chainTake es
       let c : Chain := { sqid := q.qid, sqHead := (q.head + take.1) % q.depth, cid := entCid (es.headD []), opcode := entOpcode (es.headD [])
                          entries := es.take take.1 }
       let s1 := ({ s with fetchRound := rest }.modSq n q.qid fun x => { x with head := c.sqHead }).modCq n q.cqid fun x =>
         { x with reserved := x.reserved + 1 }
       let s2 := if q.qid = 0 then s1 else s1.modInst n fun i => { i with served := i.served.set q.cls q.qid }
       (∀ st, s2.checkChain n c take.2 = some st → exec .chainFetch s = .next (s2.complete n c st 0 0 none none)) ∧
       (s2.checkChain n c take.2 = none → exec .chainFetch s = .next (
         if q.qid = 0 then s2.modInst n fun i => { i with fetched := i.fetched ++ [c] }
         else (s2.modInst n fun i => { i with fetched := i.fetched ++ [c] }).modSq n q.qid fun x => { x with held := true })))) ∧
  (∀ (s : State) (n : Nat) (c : Chain),
    let e := c.entry
    let q := field e 4 2
    let t := s.modInst n fun i => { i with fetched := i.fetched.erase c }
    let done := fun (u : State) (status result : Nat) => u.complete n c status result 0 none none
    (s.adminNext n 1 = some c →
      let bad := s.sqExists n q = true ∨ field e 6 2 = 0 ∨ ((s.instD n).cq? (field e 6 2)).elim false (·.state == .active) = false
      (bad → exec (.createSq n) s = .next (done t Config.stInvalidQueue 0)) ∧
      (¬ bad → (s.instD n).alloc.sqQuota ≤ s.sqCount n → exec (.createSq n) s = .next (done t Config.stQueueQuota 0)) ∧
      (¬ bad → s.sqCount n < (s.instD n).alloc.sqQuota → ∃ x : Sq, exec (.createSq n) s =
        .next (t.complete n c Config.stSuccess 0 0 (some x) none) ∧ x.qid = q ∧ x.cqid = field e 6 2 ∧ x.depthLog2 = byteAt e 8 ∧
        x.cls = byteAt e 9 ∧ x.base = field e 16 8 ∧ x.state = .active ∧ x.head = 0 ∧ x.tail = 0)) ∧
    (s.adminNext n 3 = some c →
      (s.cqExists n q = true → exec (.createCq n) s = .next (done t Config.stInvalidQueue 0)) ∧
      (s.cqExists n q = false → (s.instD n).alloc.cqQuota ≤ s.cqCount n → exec (.createCq n) s = .next (done t Config.stQueueQuota 0)) ∧
      (s.cqExists n q = false → s.cqCount n < (s.instD n).alloc.cqQuota → ∃ x : Cq, exec (.createCq n) s =
        .next (t.complete n c Config.stSuccess 0 0 none (some x)) ∧ x.qid = q ∧ x.depthLog2 = byteAt e 8 ∧ x.base = field e 16 8 ∧
        x.vector = field e 6 2 ∧ x.intEn = (byteAt e 9).testBit 0 ∧ x.shadowEn = (byteAt e 9).testBit 1 ∧ x.shadow = field e 24 8 ∧
        x.state = .active ∧ x.head = 0 ∧ x.tail = 0 ∧ x.reserved = 0)) ∧
    (s.adminNext n 2 = some c →
      (q = 0 ∨ (s.instD n).sq? q = none → exec (.deleteSq n) s = .next (done t Config.stInvalidQueue 0)) ∧
      (q ≠ 0 → ∀ x, (s.instD n).sq? q = some x → exec (.deleteSq n) s = .next (t.modSq n q fun y =>
        { y with state := .deleting, head := y.tail, deleters := y.deleters ++ [(c.cid, c.sqHead)] }))) ∧
    (s.adminNext n 4 = some c →
      (q = 0 ∨ (s.instD n).cq? q = none → exec (.deleteCq n) s = .next (done t Config.stInvalidQueue 0)) ∧
      (q ≠ 0 → ∀ x, (s.instD n).cq? q = some x →
        let bound := ((s.instD n).sqs ++ s.newSqs n).any (·.cqid == q)
        (bound = true → exec (.deleteCq n) s = .next (done t Config.stQueueBusy 0)) ∧
        (bound = false → exec (.deleteCq n) s = .next (done (t.modCq n q fun x => { x with state := .deleting }) Config.stSuccess 0)))) ∧
    (s.adminNext n 7 = some c →
      let hit := fun (sq cid djid : Nat) =>
        if q = 0xFFFF then djid != 0 && djid == field e 8 8 else sq == q && cid == field e 6 2
      let mine := fun (j : Job) => j.inst == n && j.state == .running && hit j.sqid j.cid (j.dist.elim 0 (·.djid.toNat))
      let k := (s.jobs.filter mine).length
      (0 < k → exec (.abortJob n) s =
        .next (done { t with jobs := s.jobs.map fun j => if mine j then { j with abort := true } else j } Config.stSuccess k)) ∧
      (k = 0 → (s.instD n).ended.any (fun x => hit x.1 x.2.1 x.2.2) = true → exec (.abortJob n) s = .next (done t Config.stJobDone 0)) ∧
      (k = 0 → (s.instD n).ended.any (fun x => hit x.1 x.2.1 x.2.2) = false → exec (.abortJob n) s = .next (done t Config.stJobUnknown 0))) ∧
    (s.adminNext n 8 = some c →
      let page := byteAt e 4
      let es := s.statusPage n page
      let size := if page = 1 ∨ page = 2 then 16 else 32
      let cap := field e 16 4
      let whole := min es.length ((cap - 16) / size)
      16 ≤ cap → ∀ u, t.writeInst n (field e 8 8)
          (leBytes 1 page ++ zeros 3 ++ leBytes 4 whole ++ leBytes 8 s.frame.number.toNat ++ (es.take whole).flatten) = some u →
        exec (.getStatusPage n) s = .next (u.complete n c Config.stSuccess (16 + size * whole) (16 + size * es.length) none none))) ∧
  (∀ (s : State) (n q : Nat) (x : Sq), (s.instD n).sq? q = some x → q ≠ 0 → x.state = .deleting → s.sqDrained n q = true →
    exec (.sqDeleteComplete n q) s = .next (x.deleters.foldl (fun s w => s.completeAdmin n w Config.stSuccess 0)
      (s.modInst n fun i => { i with sqs := i.sqs.filter (·.qid != q) })))

/-- Images and jobs (R77 to R80, R96, R347, R348, R452, R461): the checks of LOAD_IMAGE in order; the copy, with IMEAS0, the handle and the load counter; an
unload that waits for the last job; a fetched chain that passes becomes a waiting job, the waiting job whose resources are free is admitted and starts, one
that no longer passes is rejected; and a leaf of a result buffer is hashed by an idle digest engine within the instance's share. Clauses of it rest on the
model's reading or choice: notes/assumptions/46.md, 61.md. -/
def Obligations.ImagesAndJobs : Prop :=
  (∀ (s : State) (n : Nat) (c : Chain), s.adminNext n 5 = some c → s.loading < 4 →
    let e := c.entry
    let len := field e 16 8
    let t := s.modInst n fun i => { i with fetched := i.fetched.erase c }
    let fails := fun (u : State) (status detail : Nat) => (u.complete n c status 0 detail none none).auditCommand n 5 status (slice e 32 32)
    ((len < 256 ∨ 0x1000000 < len) → exec (.loadImage n) s = .next (fails t Config.stImgFormat 0)) ∧
    (256 ≤ len → len ≤ 0x1000000 →
      (s.storeRoom n len = false → exec (.loadImage n) s = .next (fails t Config.stImgNoSpace 0)) ∧
      (s.storeRoom n len = true → ∀ k, s.firstUnreadable n (field e 8 8) len = some k →
        exec (.loadImage n) s = .next (fails t Config.stMemFault k)) ∧
      (s.storeRoom n len = true → s.firstUnreadable n (field e 8 8) len = none → s.propolis.cmpFlip = 0 →
        let bs := (s.readInst n (field e 8 8) len).getD []
        (∀ status detail, t.checkImage bs (slice e 32 32) = .error (status, detail) → exec (.loadImage n) s = .next (fails t status detail)) ∧
        (∀ im, t.checkImage bs (slice e 32 32) = .ok im → ∃ x : Slot, exec (.loadImage n) s =
          .next (t.drawn.modInst n fun i => { i with images := i.images ++ [x] }) ∧ x.image = im ∧ x.req = e ∧ x.loading = true ∧
          x.waiters = [(c.cid, c.sqHead)] ∧ x.slot < 64 ∧ ∀ y ∈ (s.instD n).images, y.slot ≠ x.slot)))) ∧
  (∀ (s : State) (n : Nat) (x : Slot), (s.instD n).images.find? (·.req != []) = some x →
    let tag := (s.instD n).loadCtr
    let h : W32 := BitVec.ofNat 32 (64 * tag + x.slot)
    exec (.loadImageChecksDone n) s = .next (x.waiters.foldl (fun s w => s.completeAdmin n w Config.stSuccess h.toNat)
      (((s.modInst n fun i => { i with
        loadCtr := if tag = 0x3FFFFFF then 1 else tag + 1
        images := i.images.map fun y => if y.slot = x.slot then { y with req := [], handle := h, waiters := [] } else y }).extendImeas n 0
          x.image.digest).auditCommand n 5 Config.stSuccess (slice x.req 32 32)))) ∧
  (∀ (s : State) (n : Nat) (c : Chain), s.adminNext n 6 = some c →
    let h : W32 := BitVec.ofNat 32 (field c.entry 4 4)
    let t := s.modInst n fun i => { i with fetched := i.fetched.erase c }
    let named := (s.instD n).images.find? fun x => x.handle == h && !x.loading
    (named = none → exec (.unloadImage n) s =
      .next ((t.complete n c Config.stImgHandle 0 0 none none).auditCommand n 6 Config.stImgHandle (oldNew 0 (h.setWidth 64)))) ∧
    (∀ x, named = some x → exec (.unloadImage n) s = .next ((t.modInst n fun i => { i with images := i.images.map fun y =>
      if y.slot = x.slot then { y with unloading := true, waiters := y.waiters ++ [(c.cid, c.sqHead)] } else y }).auditCommand n 6
        Config.stSuccess (oldNew 0 (h.setWidth 64))))) ∧
  (∀ (s : State) (n slot : Nat) (x : Slot), (s.instD n).images.find? (fun x => x.slot == slot && x.unloading) = some x →
    ((∃ j ∈ s.jobs, j.inst = n ∧ j.handle = x.handle) → exec (.imageUnloadComplete n slot) s = .next s) ∧
    ((∀ j ∈ s.jobs, j.inst = n → j.handle ≠ x.handle) → exec (.imageUnloadComplete n slot) s =
      .next (x.waiters.foldl (fun s w => s.completeAdmin n w Config.stSuccess 0)
        (s.modInst n fun i => { i with images := i.images.filter (·.slot != slot) })))) ∧
  (∀ (s : State) (n : Nat) (c : Chain), (s.instD n).state = .enabled → (s.instD n).d3hot = false → s.power.devState = .ready →
    (s.instD n).fetched.find? (fun c => c.sqid != 0) = some c →
    let t := s.modInst n fun i => { i with fetched := i.fetched.erase c }
    (∀ j, t.checkJob n c = .ok j → exec (.job n) s = .next { t with jobs := s.jobs ++ [j], nextJid := s.nextJid + 1 }) ∧
    (∀ st, t.checkJob n c = .error st →
      exec (.job n) s = .next ((t.modSq n c.sqid fun x => { x with held := false }).complete n c st 0 0 none none))) ∧
  (∀ (s : State) (n : Nat) (w : Job), s.admissible n = some w →
    let freed := s.modSq n w.sqid fun x => { x with held := false }
    let j := s.admittedJob w
    w ∈ s.jobs ∧ w.inst = n ∧ w.admitted = false ∧ s.resourcesFree w = true ∧
    j.state = .running ∧ j.admitFrame = s.frame.number ∧ j.gen = (s.instD w.inst).gen ∧ (∀ d ∈ j.dieSet, d ∈ w.dieSet ∧ d ∈ s.activeDies) ∧
    (s.recheckImage w.image = none → exec (.jobAdmit n) s =
      .next ({ freed with jobs := s.jobs.map (fun (x : Job) => if x.jid = w.jid then j else x), nextMid := s.nextMid + 1 }.startJob j)) ∧
    (∀ st, s.recheckImage w.image = some st → exec (.jobAdmit n) s = .next ({ freed with jobs := s.jobs.filter (·.jid != w.jid) }.complete w.inst
      { sqid := w.sqid, sqHead := w.sqHead, cid := w.cid, opcode := 0x10, entries := w.chain } st 0 0 none none))) ∧
  (∀ (s : State) (u : UId) (jid buffer : Nat) (j : Job) (r : ResultBuf) (bs : List Byte) (c : Nat),
    let x := (s.dieD u.die).units.getD u.unit UnitSt.reset
    s.job? jid = some j → j.results[buffer]? = some r → j.resultDigest = true → j.alive = true → r.root = none →
    14 ≤ u.unit → u.unit < 30 → u.die ∈ j.dieSet → s.unitsLive u.die = true → x.morsel = none →
    x.chargedTo j.inst < s.shareCycles j.inst .digest u.die → (s.dieD u.die).ctxOf (.result jid) = some c →
    65536 * (r.hashed + 1) ≤ r.off → s.readInst j.inst (r.addr + 65536 * r.hashed) 65536 = some bs →
    exec (.resultDigestChunk u jid buffer) s = .next ((((s.modDie u.die fun d => { d with units := d.units.modify u.unit fun x =>
        { (x.charge j.inst u.used) with busy := x.busy + u.used } }).modInstStat u.die j.inst fun b =>
          { b with unitCycles := b.unitCycles.modify 6 (satAdd 32 · u.used) }).modJob jid fun j => { j with
            results := j.results.modify buffer fun r => { r with nodes := r.nodes ++ [sha256 (0 :: bs)], hashed := r.hashed + 1 } }).closeRoot jid buffer))

/-- Instance commands (R11, R12, R366 to R368, R515): what INST_CMD makes of an instance with nothing staged, by its state; a command within 2 µs of the
boundary waits one boundary more, and replaces one staged for the same boundary; instance 0 takes RESET alone. A reset is done once nothing of the old
generation remains (R374); FREEZE_TIMEOUT fails the exchange jobs that remain (R376). Clauses of it rest on the model's reading or choice:
notes/assumptions/6.md, 39.md, 73.md. -/
def Obligations.InstanceCommands : Prop :=
  (∀ (i : Inst) (left : Nat), i.staged = [] →
    let staged := fun (c : InstCmd) (j : Inst) => { j with staged := [{ left := left, cmd := c }] }
    let unlatched := { i with enablePending := false }
    i.command left .enable = (match i.state with
      | .disabled => some (staged .enable i) | .enabled => some i
      | .disabling | .resetting => some { i with enablePending := true } | _ => none) ∧
    i.command left .disable = (match i.state with
      | .enabled => some (staged .disable i) | .disabling | .resetting => some unlatched
      | _ => if i.enablePending then some unlatched else none) ∧
    i.command left .reset = (match i.state with
      | .absent => none | .resetting => some unlatched | _ => some (staged .reset unlatched)) ∧
    i.command left .freezeDrain = (match i.state with
      | .enabled | .disabled => some (staged .freezeDrain i) | .freezing | .frozen => some i | _ => none) ∧
    i.command left .freezeAbort = (match i.state with
      | .enabled | .disabled | .freezing => some (staged .freezeAbort i) | .frozen => some i | _ => none) ∧
    i.command left .thaw = (match i.state with
      | .freezing | .frozen => some (staged .thaw i) | _ => none)) ∧
  (∀ (s : State) (n : Nat) (c : InstCmd), (n = 0 → c = .reset) →
    s.instCommand n c = ((s.instD n).command (if s.power.uptimeNs + 2000 < s.frameEndNs then 1 else 2) c).map fun i => s.modInst n fun _ => i) ∧
  (∀ (s : State) (c : InstCmd), c ≠ .reset → s.instCommand 0 c = none) ∧
  (∀ (i : Inst) (left : Nat) (c d : InstCmd), d ≠ .remove → d ≠ .restore → i.staged = [{ left := left, cmd := d }] →
    (i.stage left c).staged = [{ left := left, cmd := c }]) ∧
  (∀ (s : State) (n : Nat), (s.instD n).state = .resetting → s.resetQuiet n = true →
    exec (.instResetDone n) s = .next ((s.modInst n fun i => { i with
      state := i.resetTo
      enablePending := i.enablePending && (i.resetTo == .disabled || i.resetTo == .frozen)
      sinceReset := 0 }).raise Config.evInstResetDone)) ∧
  (∀ (s : State) (n : Nat), (s.instD n).state = .freezing → (s.instD n).freezeAborts = false →
    (s.instD n).freezingNs + (s.instD n).freezeTimeout * 1000000 ≤ s.frame.startNs → (∃ j ∈ s.exchangeJobs n, j.abort = false) →
    exec (.freezeTimeout n) s = .next ((({ s with jobs := s.jobs.map fun j =>
        if j.inst = n ∧ j.exchanges = true ∧ j.state = .running then { j with abort := true } else j } : State).modInst n fun i =>
          { i with freezeAborts := true }).raise Config.evFreezeTimeout))

/-- Functions and the link (R24, R57, R328, R329, R333, R365, R372, R374, R375, R391, R430, R471, R496): an FLR clears the function's counters, window,
MSI-X table and hold at once and resets its instance; of the PF it also removes every VF; D3hot stops admission, and its end is an FLR; VFs appear DISABLED
and are removed at a boundary; ATS invalidations drop cached translations; the link's state and events; an answer of the host to an access of an old
generation is dropped and counted. Clauses of it rest on the model's reading or choice: notes/assumptions/50.md, 52.md. -/
def Obligations.FunctionResets : Prop :=
  (∀ (s : State) (fn t : Nat), s.fnLive fn = true →
    let s1 := s.elapse (s.frame.startNs + t - s.power.uptimeNs)
    let noVfs := fun (s : State) => if fn = 0 then { s with power := { s.power with vfEnable := false, numVfs := 0 } } else s
    let own := fun (s : State) => (s.flrFunction fn).flrInstance fn
    let flr := fun (s : State) => if fn = 0 then noVfs ((own s).flrMailboxes.stageRemovals s.vfs) else own s
    (s.power.devState = .booting → exec (.flr fn t) s = .next (noVfs s1)) ∧
    (s.power.devState ≠ .booting → exec (.flr fn t) s = .next (flr s1)) ∧
    ((s.instD fn).d3hot = true → s.power.devState ≠ .booting →
      exec (.d3hotToD0 fn t) s = .next (flr (s1.modInst fn fun i => { i with d3hot := false }))) ∧
    exec (.d0ToD3hot fn) s = .next (s.modInst fn fun i => { i with d3hot := true }) ∧
    (fn = 0 → s.power.devState ≠ .booting → exec (.pcieHotReset t) s =
      .next (s1.vfs.foldl (fun (s : State) n => if s.power.devState = .booting then s else s.flrFunction n) (flr s1)))) ∧
  (∀ (s : State) (fn : Nat), (s.instD fn).kdw.state ≠ .segRead → (s.instD fn).kdw.state ≠ .segWrite →
    s.flrFunction fn = ({ s with keeper := { s.keeper with held := s.keeper.held.filter fun r => match r with
        | .window f _ _ => f != fn
        | _ => true } } : State).modInst fn fun i => { i with
      rsvdWr := 0
      dbDrop := 0
      kdw := Kdw.reset
      stat := { i.stat with hold := false, holdActive := false, holdLeft := 0 }
      msix := { masked := List.range 64, pba := [], table := [] }
      frameNow := none
      mbxVf := if fn = 0 then i.mbxVf else { i.mbxVf with drop := 0 } }) ∧
  (∀ (s : State) (on : Bool) (num t : Nat), s.fnLive 0 = true → s.power.devState ≠ .booting →
    let s1 := s.elapse (s.frame.startNs + t - s.power.uptimeNs)
    let s2 : State := { s1 with power := { s1.power with vfEnable := on, numVfs := min num (min 255 (1984 / s.power.vfVectors)) } }
    exec (.vfEnable on num t) s =
      .next ((((s2.vfs.filter (!s1.vfs.contains ·)).foldl (fun s n => s.modInst n (·.appear)) s2).stageRemovals
        (s1.vfs.filter (!s2.vfs.contains ·))))) ∧
  (∀ i : Inst, i.state = .absent → i.appear = { i with state := .disabled, d3hot := false }) ∧
  (∀ (s : State) (n iova len : Nat), s.fnLive n = true → ∃ t, exec (.atsInvalidation n iova len) s = .next t ∧
    t = { s with ats := t.ats, out := s.out ++ [.atsDone n iova len] } ∧
    ∀ x, x ∈ t.ats ↔ (x ∈ s.ats ∧ ¬ (x.1 = n ∧ iova / 4096 ≤ x.2 ∧ x.2 * 4096 < iova + len))) ∧
  (∀ s : State, s.power.mainPower = true → s.power.perst = false →
    (s.power.linkUp = true →
      exec .linkDown s = .next (({ s with power := { s.power with linkUp := false } } : State).raise Config.evLinkDown)) ∧
    (∀ width speed ms, s.power.linkUp = false → width ∈ [1, 4, 8, 16] → 1 ≤ speed → speed ≤ 6 →
      let s1 := s.elapse (ms * 1000000)
      exec (.linkUp width speed ms) s = .next (({ s1 with power := { s1.power with
        linkUp := true, linkWasUp := true, width := width, speed := speed } } : State).raise Config.evLinkUp))) ∧
  (∀ (s : State) (n : Nat) (gen : BitVec 16) (a : HostAccess), s.fnLive n = true →
    (gen ≠ (s.instD n).gen → ∀ c, exec (.hostCompletion n gen a c) s =
      .next (s.countStale n fun i => { i with staleDma := min (i.staleDma + 1) 0xFFFFFFFF })) ∧
    (gen = (s.instD n).gen →
      exec (.hostCompletion n gen a .readData) s = .next s ∧
      (∀ iova, ∃ t, exec (.hostCompletion n gen a (.translation iova)) s = .next t ∧ t = { s with ats := t.ats } ∧
        (n, iova / 4096) ∈ t.ats ∧ t.ats.length ≤ 4096) ∧
      (∀ q x, a = .sq q → (s.instD n).sq? q = some x → x.state = .active → exec (.hostCompletion n gen a .refused) s =
        .next ((s.modSq n q fun x => { x with state := .error }).raise Config.evQueueError)) ∧
      (∀ q x, a = .cq q → (s.instD n).cq? q = some x → x.state = .active → exec (.hostCompletion n gen a .refused) s =
        .next ((s.modCq n q fun x => { x with state := .error }).raise Config.evQueueError))))

-- RLM AND THE COMB CACHE ----------------------------------------------------------------------------------------------------------------------

/-- The ways of the Comb cache (R11, R12, R312, R317 to R320): what ends a clean, a sweep, a disable, a power-down and a power-up, and what each leaves of
the way's lines; the commands of CC_WAY, rejected and counted in any other state; CC_CTL and the drain. Nothing outside the die's cache changes but the
events. Clauses of it rest on the model's reading or choice: notes/assumptions/6.md, 28.md, 65.md. -/
def Obligations.CacheWays : Prop :=
  ∀ (s : State) (d w : Nat), w < 16 → s.dieRuns d = true →
    let x := s.way d w
    let empty := s.modCc d fun c => { c with lines := c.lines.filter (·.way != w) }
    let gone := fun (t : State) => (t.raiseDie d dcWayDisabled).auditDevice (Config.evDieRepair d)
    let mine := fun (n k : Nat) => (s.way d k).state == .sweep && (s.way d k).owner == some n
    (x.state = .cleaning → x.disableAfter = false → exec (.wayCleanDone d w) s = .next (empty.modWay d w fun y => { y with
      state := if y.nextOwner.isSome then .owned else .free, owner := y.nextOwner, nextOwner := none })) ∧
    (x.state = .cleaning → x.disableAfter = true → exec (.wayCleanDone d w) s = .next (gone (empty.modWay d w fun y => { y with
      state := .disabled, owner := y.nextOwner, nextOwner := none, disableAfter := false, leave := y.nextOwner.isSome }))) ∧
    (∀ n, mine n w = true → ∃ t, exec (.waySweepDone d n) s = .next t ∧ t = s.modCc d (fun _ => (t.dieD d).cc) ∧
      (∀ k, k < 16 → t.way d k = if mine n k then { s.way d k with state := .owned } else s.way d k) ∧
      (∀ l, l ∈ (t.dieD d).cc.lines ↔ (l ∈ (s.dieD d).cc.lines ∧
        ¬ (mine n l.way = true ∧ wayOf ((s.dieD d).cc.assigned n) l.addr ≠ some l.way)))) ∧
    (x.state ∈ [.owned, .sweep, .free] → exec (.ccWayDisable d w) s = .next (s.modWay d w fun y => { y with
      cerr := max y.cerr s.keeper.rwp.wayErrThresh, state := .disabling })) ∧
    (x.state = .cleaning → exec (.ccWayDisable d w) s = .next (s.modWay d w fun y => { y with
      cerr := max y.cerr s.keeper.rwp.wayErrThresh, disableAfter := true })) ∧
    (x.state = .disabling → exec (.ccWayDisabled d w) s = .next (gone (empty.modWay d w fun y => { y with
      state := if y.enablePending then .free else .disabled
      cerr := if y.enablePending then 0 else y.cerr
      enablePending := false
      leave := y.owner.isSome }))) ∧
    (x.state ∈ [.owned, .sweep, .cleaning] → exec (.wayErrWindowEnd d w) s = .next (s.modWay d w fun y => { y with cerr := 0 })) ∧
    (x.state = .poweringDown → exec (.powerDownDone d w) s = .next (empty.modWay d w fun y => { y with
      state := if y.enablePending then .poweringUp else .off, enablePending := false })) ∧
    (x.state = .poweringUp → exec (.powerUpDone d w) s = .next (s.modWay d w fun y => { y with state := .free })) ∧
    (s.HostWrites 0 →
      let rejected := s.modCc d fun c => { c with cmdReject := min (c.cmdReject + 1) 0xFFFFFFFF }
      exec (.powerDown d w) s = .next (match x.state with
        | .free => if x.owner = none then s.modWay d w fun y => { y with state := .poweringDown } else rejected
        | .poweringDown => (s.modWay d w fun y => { y with enablePending := false }).modCc d fun c =>
            { c with cmdReject := min (c.cmdReject + 1) 0xFFFFFFFF }
        | _ => rejected) ∧
      exec (.powerUp d w) s = .next (match x.state with
        | .off => s.modWay d w fun y => { y with state := .poweringUp }
        | .poweringDown => s.modWay d w fun y => { y with enablePending := true }
        | _ => rejected) ∧
      exec (.wayEnable d w) s = .next (match x.state with
        | .disabled => s.modWay d w fun y => { y with state := .free, cerr := 0 }
        | .disabling => s.modWay d w fun y => { y with enablePending := true }
        | _ => rejected) ∧
      exec (.ccCtl d 8 0) s = .next (s.modCc d fun c =>
        if c.draining then { c with en := false, enablePending := false } else if c.enabled then { c with en := false, draining := true } else { c with en := false }) ∧
      exec (.ccCtl d 8 1) s = .next (s.modCc d fun c =>
        if c.draining then { c with en := true, enablePending := true } else { c with en := true, enabled := true })) ∧
    ((s.dieD d).cc.draining = true → (∀ y ∈ (s.dieD d).cc.ways, y.state ≠ .cleaning ∧ y.state ≠ .sweep) →
      exec (.ccDrainDone d) s = .next ((s.modCc d fun c => { c with
        lines := [], draining := false, enabled := c.enablePending, enablePending := false }).raise Config.evCcDrainDone))

/-- Memory that the device moves by itself (R23, R299 to R302, R304 to R306, R315, R321, R381 to R383, R387, R388): the patrol scrub, which poisons the
granule that it finds uncorrectable; bank sparing; pages that change hands, which are zero without poison before they serve; range operations; and the
records of a migration. Clauses of it rest on the model's reading or choice: notes/assumptions/24.md, 27.md, 63.md, 64.md. -/
def Obligations.MemoryUpkeep : Prop :=
  (∀ (s : State) (k : Nat), s.dieRuns (k / 2) = true →
    let g := (s.stack k).patrol
    let next := fun (t : State) => t.modStack k fun x => { x with patrol := (g + 1) % 402653184 }
    let last := fun (t : State) => if g + 1 = 402653184 then t.raise Config.evPatrolPass else t
    let a := granuleAddr k g
    let bad := s.poisonGranule k a
    exec (.patrolScrub k .clean) s = .next (last (next s)) ∧
    exec (.patrolScrub k .corrected) s = .next (last (next (s.modStack k fun x => { x with ceCount := min (x.ceCount + 1) 0xFFFFFFFF }))) ∧
    exec (.patrolScrub k .uncorrectable) s = .next (last (next (if bad.bothUe (k / 2) then bad.startFence (k / 2) else bad))) ∧
    (a / 64 ∈ s.poison → bad = s) ∧ (a / 64 ∉ s.poison → ∀ b, b ∈ bad.poison ↔ (b = a / 64 ∨ b ∈ s.poison)) ∧ bad.mem = s.mem) ∧
  (∀ k g h : Nat, k < 16 → g < 402653184 → h < 402653184 →
    granuleAddr k g % 64 = 0 ∧ granuleAddr k g < 0x8000000000 ∧ (g < h → granuleAddr k g < granuleAddr k h)) ∧
  (∀ (s : State) (k channel bank : Nat), s.dieRuns (k / 2) = true → channel < 16 → bank < 16 →
    let x := s.stack k
    let named := x.remapped.contains (channel, bank) || x.sparing.any (fun y => y.channel == channel && y.bank == bank)
    let used := x.remapped.any (·.1 == channel) || x.sparing.any (·.channel == channel)
    (named = true → exec (.bankSpare k channel bank) s = .next s) ∧
    (named = false → used = true → exec (.bankSpare k channel bank) s = .next (s.raise Config.evRlmSpareExhausted)) ∧
    (named = false → used = false → exec (.bankSpare k channel bank) s =
      .next (s.modStack k fun x => { x with sparing := x.sparing ++ [{ channel := channel, bank := bank, copied := false }] })) ∧
    exec (.bankSpareCopyDone k channel) s =
      .next (s.modStack k fun x => { x with sparing := x.sparing.map fun y => if y.channel = channel then { y with copied := true } else y })) ∧
  (∀ (s : State) (page : Nat) (w : PageWait), s.dieRuns (pageDie page) = true →
    (s.pages.find? (fun w => w.page == page && !w.fill) = some w → exec (.pageReleaseCleanDone page) s =
      .next (({ s with pages := s.pages.erase w } : State).modCc (pageDie page) fun c =>
        { c with lines := c.lines.filter fun l => !(l.inst == w.inst && l.addr / 0x200000 == page) })) ∧
    (s.pages.find? (fun w => w.page == page && w.fill) = some w → (∀ x ∈ s.pages, x.page = page → x.fill = true) → s.memWf →
      ∃ t, exec (.zeroFillDone page) s = .next t ∧
        (∀ a, 0x200000 * page ≤ a → a < 0x200000 * (page + 1) → memGet t.mem a = 0 ∧ a / 64 ∉ t.poison) ∧
        (∀ a, (a < 0x200000 * page ∨ 0x200000 * (page + 1) ≤ a) → memGet t.mem a = memGet s.mem a ∧ (a / 64 ∈ t.poison ↔ a / 64 ∈ s.poison)) ∧
        t = { s with pages := s.pages.erase w, mem := t.mem, poison := t.poison, insts := t.insts } ∧
        t.insts = (s.modInst w.inst fun i => { i with
          pt := i.pt.map fun (e : Nat × W64) => if pteValid e.2 && ptePage e.2 == page then (e.1, e.2 &&& ~~~(0x2000000000000000#64)) else e }).insts)) ∧
  (∀ (s : State) (n : Nat) (inv : Bool) (base pages : Nat), (s.instD n).inval = some (inv, base, pages) →
    let hit := fun (l : Line) => l.inst == n && ((s.instD n).rangePages base pages).contains (l.addr / 0x200000)
    exec (.invalDone n) s = .next (({ s with dies := s.dies.map fun d => { d with cc := { d.cc with
      lines := if inv = true then d.cc.lines.filter (!hit ·) else d.cc.lines.map fun l => if hit l then { l with dirty := false } else l } } } : State).modInst n
        fun i => { i with inval := none })) ∧
  (∀ (s : State) (n : Nat) (r : MigRec), s.powered = true →
    (∀ a, (s.instD n).migNext 1 = some r → s.migAdmits n 1 = true → (s.instD n).rlmPage r.page = some a →
      dieByte (s.instD 0).alloc.shareDg (devDie a) ≠ 0 →
      ∃ bad, exec (.pageOut n) s = .next ((({ s with mem := memWrite s.mem (hostKey 0 r.host) (s.pageOutBytes a) } : State).modInst n fun i => { i with
        copied := assocSet r.page (sha256 (s.pageOutBytes a)) i.copied
        poisoned := (i.poisoned.filter fun (x : Nat × Nat) => x.1 != r.page) ++ bad }).migDone n) ∧
        ∀ x, x ∈ bad ↔ (x.1 = r.page ∧ x.2 < 32768 ∧ a / 64 + x.2 ∈ s.poison)) ∧
    (∀ a, (s.instD n).migNext 2 = some r → s.migAdmits n 2 = true → (s.instD n).rlmPage r.page = some a →
      dieByte (s.instD 0).alloc.shareDg (devDie a) ≠ 0 → s.propolis.cmpFlip = 0 →
      let bs := memRead s.mem (hostKey 0 r.host) 0x200000
      let t := (({ s with
          mem := memWrite s.mem a bs
          poison := s.poison.filter fun g => decide (g < a / 64) || decide ((a + 0x200000) / 64 ≤ g) } : State).modCc (devDie a) fun c => { c with
            lines := c.lines.filter fun l => !(l.inst == n && l.addr / 0x200000 == a / 0x200000) }).modInst n fun i => { i with
              dirtyLive := insAsc r.page i.dirtyLive
              copied := i.copied.filter (·.1 != r.page)
              verified := i.verified.filter (·.1 != r.page) }
      (sha256 bs = r.digest → exec (.pageIn n) s = .next ((t.modInst n fun i => { i with verified := assocSet r.page r.digest i.verified }).migDone n)) ∧
      (sha256 bs ≠ r.digest → exec (.pageIn n) s = .next (t.migFail n 3))) ∧
    ((s.instD n).migNext 3 = some r → s.migAdmits n 3 = true →
      let left := (s.instD n).validPt.any fun e => pteRlm e.2 && !(s.instD n).copied.any (·.1 == e.1)
      let p := s.takeImage n
      (left = true → exec (.imageOut n) s = .next (s.migFail n 4)) ∧
      (left = false → r.bytes < p.2.length → exec (.imageOut n) s = .next (p.1.migFail n 5)) ∧
      (left = false → p.2.length ≤ r.bytes →
        exec (.imageOut n) s = .next (({ p.1 with mem := memWrite p.1.mem (hostKey 0 r.host) p.2 } : State).migDone n))) ∧
    ((s.instD n).migNext 4 = some r → s.migAdmits n 4 = true →
      (0x80000000 < r.bytes → exec (.imageIn n) s = .next (s.migFail n 5)) ∧
      (r.bytes ≤ 0x80000000 → exec (.imageIn n) s = .next ((s.modInst n fun i => { i with
        restoreStatus := 1, restore := some { image := memRead s.mem (hostKey 0 r.host) r.bytes, accepted := false } }).migDone n))) ∧
    (∀ kind, (s.instD n).migNext kind = some r → kind ∈ [1, 2] → s.migAdmits n kind = true → (s.instD n).rlmPage r.page = none →
      exec (.pageOut n) s = .next (if kind = 1 then s.migFail n 1 else s) ∧ exec (.pageIn n) s = .next (if kind = 2 then s.migFail n 1 else s))) ∧
  (∀ (s : State) (n : Nat), (s.instD n).mig.busy = true → ((s.instD n).mig.error ≠ 0 ∨ (s.instD n).mig.recs.length ≤ (s.instD n).mig.next) →
    exec (.migCopyDone n) s = .next ((s.modInst n fun i => { i with mig := { i.mig with busy := false } }).raise Config.evMigCopyDone)) ∧
  (∀ (s : State) (n : Nat) (r : Restore), (s.instD n).restore = some r → r.accepted = false → s.powered = true → s.propolis.cmpFlip = 0 →
    let body := r.image.take (r.image.length - 32)
    let code := if r.image.drop (r.image.length - 32) = sha256 body then s.restoreCode n r.image else 2
    (code = 0 → exec (.restoreChecksDone n) s = .next (s.modInst n fun i => { i with
      restoreStatus := 0, restore := some { r with accepted := true }, staged := i.staged ++ [{ left := s.stagingLeft, cmd := .restore }] })) ∧
    (code ≠ 0 → exec (.restoreChecksDone n) s = .next (s.modInst n fun i => { i with restoreStatus := code, restore := none })))

-- ERRORS, LINKS, THE FABRIC -----------------------------------------------------------------------------------------------------------------------

/-- Errors and fences (R12, R18, R35, R36, R302, R476 to R479, R491): an error of the class DIE fences the die from a boundary on, one of the last sound die
or of the class DEVICE resets the device at the next boundary, and the third within an hour fails it; Foragers that reach the threshold or fail are named
for retirement; a Ridge link that needs more lanes than its spares goes down; CRC errors lose nothing; the Saddle site trains, is disabled and fails.
Clauses of it rest on the model's reading or choice: notes/assumptions/6.md, 59.md, 63.md. -/
def Obligations.ErrorsAndFences : Prop :=
  (∀ (s : State) (t : Nat), s.powered = true →
    let at_ := s.elapse (s.frame.startNs + t - s.power.uptimeNs)
    exec .crestUe s = .next s.deviceError ∧ exec .deviceClassError s = .next s.deviceError ∧
    (∀ l, exec (.ridgeCrcError l) s = .next s) ∧
    (∀ d, s.dieHolds d = true → exec (.combUe d t) s = .next ((at_.raiseDie d dcCombUe).startFence d)) ∧
    (∀ d, exec (.crestLinkDown d t) s = .next (at_.crestGoesDown d)) ∧ (∀ i, exec (.ringLinkDown i t) s = .next (at_.ringGoesDown i))) ∧
  (∀ s : State,
    let recent := s.power.devErrors.filter fun t => decide (s.power.uptimeNs < t + 3600000000000)
    let t := s.deviceError
    t = { s with power := t.power } ∧ t.power.devErrors = recent ++ [s.power.uptimeNs] ∧
    (s.power.devState ≠ .failed → recent.length < 2 → t.power.warmPending = some 3 ∧ t.power.devState = s.power.devState) ∧
    (s.power.devState ≠ .failed → 2 ≤ recent.length → t.power.devState = .failed ∧ t.power.failCause = 6)) ∧
  (∀ (s : State) (d : Nat), (d ∉ s.soundDies → s.startFence d = s) ∧ (s.soundDies = [d] → s.startFence d = s.deviceError) ∧
    (d ∈ s.soundDies → s.soundDies ≠ [d] → s.startFence d =
      s.modDie d fun x => { x with fence := .staged (if s.power.uptimeNs + 2000 < s.frameEndNs then 1 else 2) })) ∧
  (∀ (s : State) (d : Nat) (rs : List Nat), (s.dieD d).fence = .running rs →
    exec (.dieFenceComplete d) s = .next (s.modDie d fun x => { x with fence := .complete rs })) ∧
  (∀ (s : State) (f : FId) (g : Fgr), s.dieRuns f.die = true → s.fgr? f = some g → f.fgr < 68 →
    let named := fun (status : Option Nat) (t : State) =>
      if (s.dieD f.die).failed.contains f.fgr || (s.dieD f.die).retiring.any (·.1 == f.fgr) then t
      else t.modDie f.die fun x => { x with retiring := x.retiring ++ [(f.fgr, status)] }
    exec (.foragerErrThresh f) s = .next (named none (s.modFgr f fun g => { g with cerr := max g.cerr s.keeper.rwp.fgrErrThresh })) ∧
    (let stopped := (named (some Config.stMemFault) (s.raiseDie f.die dcForagerUe)).modFgr f fun h => { h with run := .stopped }
     exec (.foragerUe f) s = .next (match g.morsel with
       | none => stopped
       | some m => stopped.failPart m.jid f.die m.stage Config.stMemFault []))) ∧
  (∀ (s : State) (i : Nat), s.powered = true →
    ((s.dieD i).present = true → (s.dieD i).crestDown = false →
      exec (.ridgeLaneFail (.crest i)) s = .next (if (s.dieD i).crestSpares ≤ (s.dieD i).crestFailing then s.crestGoesDown i
        else s.modDie i fun y => { y with crestFailing := y.crestFailing + 1 })) ∧
    ((s.dieD i).present = true → (s.dieD i).ringDown = false →
      exec (.ridgeLaneFail (.ring i)) s = .next (if (s.dieD i).ringSpares ≤ (s.dieD i).ringFailing then s.ringGoesDown i
        else s.modDie i fun y => { y with ringFailing := y.ringFailing + 1 })) ∧
    (s.saddle.state = 2 → exec (.ridgeLaneFail .saddle) s = .next (if s.saddle.spares ≤ s.saddle.failing then s.saddleFails
      else { s with saddle := { s.saddle with failing := s.saddle.failing + 1 } })) ∧
    (s.saddle.training = true → (∀ r, exec (.saddleEnableDone (some r)) s =
        .next { s.extendMeas 3 (sha256 r) with saddle := { s.saddle with training := false, enableNext := true } }) ∧
      exec (.saddleEnableDone none) s = .next s.saddleFails) ∧
    (s.saddle.disabling = true → s.saddle.disableNext = false → s.saddle.inflight = [] → exec .saddleDisableDone s =
      .next { s with saddle := { s.saddle with
        state := 1, disabling := false, training := s.saddle.enablePending, enablePending := false } }) ∧
    ((s.saddle.state = 2 ∨ s.saddle.training = true) → ∃ t, exec .saddlePortDown s = .next t ∧ t.saddle.state = 3 ∧ t.saddle.inflight = [] ∧
      t.saddle.training = false ∧ t.saddle.fails = min (s.saddle.fails + 1) 0xFFFFFFFF)) ∧
  (∀ (s : State) (jid die : Nat) (j : Job), s.job? jid = some j → (∃ d ∈ s.dies, d.ringDown = true) → j.state = .running → die ∈ j.dieSet →
    ∃ stage, exec (.ringRequestTimeout jid die) s = .next (s.failPart jid die stage Config.stMemFault []) ∧
      ((∃ m ∈ (s.dieD die).morsels, m.jid = jid ∧ m.stage < 0xFFFF) → ∃ m ∈ (s.dieD die).morsels, m.jid = jid ∧ m.stage = stage) ∧
      ∀ m ∈ (s.dieD die).morsels, m.jid = jid → stage ≤ m.stage)

/-- The Range fabric (R88, R395, R401 to R403, R405, R408, R409, R411, R412, R415, R419, R436): the checks of a packet in their order, with its counters and
FABRIC_CONFIG; DATA of an old generation, ungranted or repeated is dropped and counted, and the rest lands; a control packet's entries; losses, silences and
joins that time out fail parts; ports; the answers of ICMPv6. Clauses of it rest on the model's reading or choice: notes/assumptions/66.md, 67.md, 68.md,
69.md. -/
def Obligations.FabricPackets : Prop :=
  (∀ (s : State) (port : Nat) (p : RtPkt) (control : Bool),
    let drop := fun k => s.modPort port fun y => { y with drop := y.drop.modify k (fun n => min (n + 1) 0xFFFFFFFF) }
    let fixed := p.version = 1 ∧ p.flags &&& (if control then 0xFD else 0xFE) = 0 ∧ p.srcDev.toNat < 2048 ∧ p.dstDev.toNat < 2048 ∧
      (control = true → ∀ b ∈ slice p.payload 7 9, b = 0)
    let agrees := control = true → byteAt p.payload 0 = s.frame.periodActive ∧ byteAt p.payload 1 = s.fabric.portModeActive
    let crc := rtCrc p control = p.crc
    let mine := s.fabric.deviceIdActive = some p.dstDev.toNat
    (p.macOk = false → s.rtDropped port control p = some (drop 0)) ∧
    (p.macOk = true → ¬ fixed → s.rtDropped port control p = some (drop 1)) ∧
    (p.macOk = true → fixed → agrees → ¬ crc → s.rtDropped port control p = some (drop 2)) ∧
    (p.macOk = true → fixed → control = true → byteAt p.payload 0 ≠ s.frame.periodActive →
      s.rtDropped port control p = some ((drop 1).configClash p.srcDev.toNat 0)) ∧
    (p.macOk = true → fixed → control = true → byteAt p.payload 0 = s.frame.periodActive → byteAt p.payload 1 ≠ s.fabric.portModeActive →
      s.rtDropped port control p = some ((drop 1).configClash p.srcDev.toNat 1)) ∧
    (p.macOk = true → fixed → agrees → crc → ¬ mine → s.rtDropped port control p = some (drop 1)) ∧
    (p.macOk = true → fixed → agrees → crc → mine → p.srcDev = p.dstDev →
      s.rtDropped port control p = some ((drop 1).configClash p.srcDev.toNat 2)) ∧
    (p.macOk = true → fixed → agrees → crc → mine → p.srcDev ≠ p.dstDev → s.fabric.exchange = false →
      s.rtDropped port control p = some (drop 6)) ∧
    (p.macOk = true → fixed → agrees → crc → mine → p.srcDev ≠ p.dstDev → s.fabric.exchange = true → s.rtDropped port control p = none)) ∧
  (∀ (s : State) (port : Nat) (p : RtPkt), s.receives port = true →
    let dev := p.srcDev.toNat
    let n := p.dstInst.toNat
    let here := fun (x : RxFrame) => x.dev == dev && x.frame == p.frame.toNat
    let drop := fun (t : State) k => t.modPort port fun y => { y with drop := y.drop.modify k (fun n => min (n + 1) 0xFFFFFFFF) }
    (∀ t, s.rtDropped port false p = some t → exec (.data port p) s = .next t) ∧
    (s.rtDropped port false p = none →
      ((s.instD n).gen ≠ p.dstGen → exec (.data port p) s =
        .next (s.countStale n fun i => { i with staleFabric := min (i.staleFabric + 1) 0xFFFFFFFF })) ∧
      ((s.instD n).gen = p.dstGen → s.fabric.rx.find? here = none → exec (.data port p) s = .next (drop s 3)) ∧
      (∀ x, (s.instD n).gen = p.dstGen → s.fabric.rx.find? here = some x →
        (x.granted ≤ p.seq.toNat → exec (.data port p) s = .next (drop s 3)) ∧
        (p.seq.toNat < x.granted → p.seq.toNat ∈ x.seqs → exec (.data port p) s = .next (drop s 4)) ∧
        (p.seq.toNat < x.granted → p.seq.toNat ∉ x.seqs →
          let t := ((({ s with fabric := { s.fabric with
            rx := s.fabric.rx.map fun y => if here y then { y with seqs := p.seq.toNat :: y.seqs } else y } } : State).modPort port fun y =>
              { y with rx := satAdd 64 y.rx 1 }).land p)
          exec (.data port p) s = .next (if p.frame.toNat < s.frame.number.toNat then drop t 5 else t)))) ∧
    (∀ at_, let s0 := s.elapse (s.frame.startNs + at_ - s.power.uptimeNs)
      (∀ t, s0.rtDropped port true p = some t → exec (.control port p at_) s = .next t) ∧
      (s0.rtDropped port true p = none →
        let es := ctlEntries p.payload (field p.payload 4 2) 16
        let inTime := p.frame == s0.frame.number && decide (s0.power.uptimeNs + 1000 < s0.frameEndNs)
        let s1 := s0.modPort port fun y => { y with rx := satAdd 64 y.rx 1 }
        let s2 : State := { s1 with fabric := { s1.fabric with peerPlanes := assocSet dev (field p.payload 2 2) s1.fabric.peerPlanes } }
        exec (.control port p at_) s = .next (((es.foldl (fun s e => s.takeEntry dev p.frame.toNat inTime e) s2).takeEcho dev p.frame.toNat
          p.seq.toNat (max 1 (byteAt p.payload 6)) es).resendDue)))) ∧
  (∀ (s : State) (j : Job) (D : Dist), s.distJobs.find? (fun x => x.1.jid == j.jid) = some (j, D) → j.alive = true → j.state = .running →
    (∀ g, s.fabric.exchange = true → s.lostGrant D = some g → exec (.fabricLoss j.jid) s =
      .next (({ (s.modJob j.jid fun j => j.failFar s.frame.number.toNat g.stage Config.stFabricLoss s.selfDev) with
        fabric := { s.fabric with lossTotal := satAdd 64 s.fabric.lossTotal 1 } } : State).raise Config.evFabricLoss)) ∧
    (D.state = .joining → D.admittedNs + s.fabric.joinTimeout * 1000000 ≤ s.power.uptimeNs → exec (.joinTimeout j.jid) s =
      .next (s.modJob j.jid fun j => j.failFar s.frame.number.toNat 0xFFFF
        (if s.fabric.exchange then Config.stFabricLoss else Config.stSyncLost) s.selfDev))) ∧
  (∀ (s : State) (j : Job) (D : Dist) (dev : Nat), s.distJobs.find? (fun x => x.2.djid == D.djid) = some (j, D) → j.state = .running →
    D.state ≠ .joining → (∃ p ∈ D.peers, p.dev = dev ∧ p.state ≠ .failed ∧ 8 ≤ p.missing) →
    exec (.controlPacketsMissing D.djid dev) s = .next (s.modDist j.jid fun D => { D with peers := D.peers.map fun p =>
      if p.dev = dev then { p with state := .failed, status := Config.stFabricLoss, failFrame := s.frame.number.toNat - 1 } else p })) ∧
  (∀ (s : State) (k : Nat), s.powered = true → k < s.fabric.portCount →
    let x := s.fabric.port k
    (x.state = .down ∨ x.state = .training → exec (.portUp k) s = .next ((s.modPort k fun y => { y with state := .up }).raise Config.evPortUp)) ∧
    (x.linked = true → exec (.portDown k) s = .next ((s.modPort k fun y => { y with
      state := if x.state = .up then .down else if x.enablePending then .training else .disabled
      enablePending := false }).raise Config.evPortDown))) ∧
  (∀ (s : State) (port : Option Nat) (target : BitVec 128) (body : List Byte),
    (s.answersFor port target = true → exec (.neighborSolicitation port target) s = .next (s.emit (.icmp port 136 target [])) ∧
      exec (.echoRequest port target body) s = .next (s.emit (.icmp port 129 target body))) ∧
    (s.answersFor port target = false → exec (.neighborSolicitation port target) s = .next s ∧ exec (.echoRequest port target body) s = .next s))

-- POWER, RESETS, KEEPER -----------------------------------------------------------------------------------------------------------------------------

/-- Power and bring-up (R40, R43, R190, R366, R437, R438, R445 to R447, R486 to R500): PERST# and main power, with what a cut leaves of a commit; the cold
reset and what it keeps; the warm device reset and what that keeps; the steps of bring-up in order and their limits; rail faults; samples of the junctions
and the clock. Clauses of it rest on the model's reading or choice: notes/assumptions/3.md, 6.md, 13.md, 57.md, 65.md, 70.md, 71.md, 72.md. -/
def Obligations.PowerAndBringup : Prop :=
  (∀ s : State, s.power.perst = false → exec .perstAssert s = .next { s with power := { s.power with
    perst := true, devState := .booting, step := 0, recovery := false, linkUp := false, warmPending := none
    nextCause := if s.power.nextCause = 4 then 4 else 1 } }) ∧
  (∀ s : State, s.power.mainPower = true → s.power.perst = true → exec .perstDeassert s = .next s.coldReset) ∧
  (∀ s : State,
    let t := s.coldReset
    let c := State.cold s.part
    t.power.devState = .booting ∧ t.power.step = 1 ∧ t.power.mainPower = true ∧ t.power.perst = false ∧ t.power.bootCause = s.power.nextCause ∧
    t.power.unavailNs = s.power.unavailNs ∧ t.frame = c.frame ∧ t.insts = c.insts ∧ t.events = c.events ∧ t.fabric = c.fabric ∧ t.jobs = [] ∧
    t.propolis.meas = c.propolis.meas ∧ t.propolis.minSvn = s.propolis.minSvn ∧ t.propolis.flashA = s.propolis.flashA ∧
    t.propolis.flashB = s.propolis.flashB ∧ t.keeper.copyA = s.keeper.copyA ∧ t.keeper.copyB = s.keeper.copyB ∧
    t.keeper.log = { s.keeper.log with cursor := 0 } ∧ t.keeper.calTime = s.keeper.calTime ∧ t.keeper.waiting = [] ∧
    (∀ a, memGet t.mem a = if 2 ^ 48 ≤ a then memGet s.mem a else 0) ∧
    (∀ d w x y, s.dies[d]? = some x → x.cc.ways[w]? = some y → y.state = .disabled → (t.way d w).state = .disabled ∧ (t.way d w).cerr = y.cerr)) ∧
  (∀ (s : State) (cause : Nat),
    let t := s.warmReset cause
    let c := State.cold s.part
    t.power.devState = .booting ∧ t.power.step = 3 ∧ t.power.bootCause = cause ∧ t.power.warmPending = none ∧
    t.power.warmResets = min (s.power.warmResets + 1) 0xFFFFFFFF ∧ t.jobs = [] ∧ t.cpls = [] ∧ t.frame.periodActive = s.frame.periodActive ∧
    t.frame.overrunTotal = s.frame.overrunTotal ∧ t.frame.boundExcessTotal = s.frame.boundExcessTotal ∧ t.events.pend = s.events.pend ∧
    t.events.count = s.events.count ∧ t.events.mask = c.events.mask ∧ t.events.vec = c.events.vec ∧ t.keeper.copyA = s.keeper.copyA ∧
    t.propolis.minSvn = s.propolis.minSvn ∧ (∀ k, k ≠ 24 → t.propolis.meas[k]? = s.propolis.meas[k]?) ∧
    (∀ n i, s.insts[n]? = some i → t.insts[n]? = some { Inst.reset s.part n with msix := i.msix, d3hot := i.d3hot }) ∧
    (∀ a, memGet t.mem a = if 2 ^ 48 ≤ a then memGet s.mem a else 0)) ∧
  (∀ s : State, s.power.mainPower = false →
    exec .mainPowerOn s = .next { s with power := { s.power with
      mainPower := true, perst := true, nextCause := if s.power.nextCause = 4 then 4 else 0 } } ∧
    exec .calendarStop s = .next { s with keeper := { s.keeper with calRunning := false } }) ∧
  (∀ (s : State) (cut : CommitCut), s.power.mainPower = true → ∃ t, exec (.mainPowerOff cut) s = .next t ∧
    t.power = { s.power with
      mainPower := false, perst := true, devState := .booting, step := 0, recovery := false, linkUp := false, warmPending := none
      thermTrip := false } ∧
    t.keeper.waiting = [] ∧ t.mem = s.mem ∧
    (s.keeper.running = [] ∨ cut = .untouched → t.keeper = { s.keeper with waiting := [] }) ∧
    (s.keeper.running ≠ [] → cut = .inA → t.keeper.copyA.valid = false ∧ t.keeper.copyB = s.keeper.copyB) ∧
    (s.keeper.running ≠ [] → cut = .inB → t.keeper.copyA.valid = true ∧ t.keeper.copyA.seq = s.keeper.copyA.seq + 1 ∧
      (t.keeper.copyB = s.keeper.copyB ∨ t.keeper.copyB = { s.keeper.copyB with valid := false }))) ∧
  (∀ (s : State) (e : BringupEnv), s.powered = true → s.power.devState = .booting → 1 ≤ s.power.step →
    (s.power.step = 1 → s.power.linkUp = true) →
    let k := s.power.step
    let u := s.elapse (e.ms * 1000000)
    let t := match k with
      | 2 => u.bootKeeper
      | 3 => u.startKeeper
      | 4 => (u.fenceFailed e.failedDies).bringSaddle e.saddleReport
      | 5 => u.fenceFailed e.failedDies
      | 6 => u.bringFgrs e.failedFgrs
      | 7 => u.loadRuntime
      | 8 => { u with frame := { u.frame with
          number := 0, closed := 0, startNs := u.power.uptimeNs, sync := if u.keeper.rwp.syncMode = 1 then .locking else .free } }
      | 9 => u.becomeReady
      | _ => u
    (t.power.devState = .failed → exec (.bringupStepComplete e) s = .next t) ∧
    (t.power.devState ≠ .failed → exec (.bringupStepComplete e) s =
      .next { t with power := { t.power with step := if k = 9 then 0 else k + 1 } })) ∧
  (∀ s : State, 0 < s.insts.length → s.becomeReady.power.devState = .ready ∧ s.becomeReady.power.bootTime = s.keeper.calTime ∧
    (s.becomeReady.instD 0).state = .enabled ∧ s.becomeReady.mem = s.mem ∧ s.becomeReady.frame = s.frame) ∧
  (∀ k : Keeper,
    (k.copyA.valid = true → k.copyB.valid = true → k.copyA.seq = k.copyB.seq → k.validate.2 = k.copyA) ∧
    (k.copyA.valid = true → k.copyB.valid = true → k.copyB.seq.toNat < k.copyA.seq.toNat → k.validate = (3, k.copyA)) ∧
    (k.copyA.valid = true → k.copyB.valid = true → k.copyA.seq.toNat < k.copyB.seq.toNat → k.validate = (3, k.copyB)) ∧
    (k.copyA.valid = true → k.copyB.valid = false → k.validate = (1, k.copyA)) ∧
    (k.copyA.valid = false → k.copyB.valid = true → k.validate = (2, k.copyB)) ∧
    (k.copyA.valid = false → k.copyB.valid = false → k.validate = (5, MramCopy.initial))) ∧
  (∀ s : State, s.powered = true → s.power.devState = .booting →
    let failed := fun (cause : Nat) (rec_ : Bool) => { s with power := { s.power with
      devState := .failed, failCause := cause, step := 0, recovery := s.power.recovery || rec_ } }
    (s.power.step = 2 → exec .bringupTimeout s = .next (failed 1 true)) ∧
    (s.power.step ∈ [3, 8, 9] → exec .bringupTimeout s = .next (failed 4 false)) ∧
    (s.power.step = 7 → exec .bringupTimeout s = .next (failed 2 false)) ∧
    (s.power.step ∈ [1, 4, 5, 6] → exec .bringupTimeout s = .next s)) ∧
  (∀ (s : State) (rail : Nat), s.powered = true → rail < 6 →
    let t := ({ s with power := { s.power with railStatus := s.power.railStatus ||| (1#16 <<< rail) } } : State).raise Config.evRailFault
    (s.power.devState = .booting → exec (.railFault rail) s =
      .next { t with power := { t.power with devState := .failed, failCause := 5, step := 0 } }) ∧
    (s.power.devState ≠ .booting → exec (.railFault rail) s = .next t.deviceError)) ∧
  (∀ (s : State) (temps : List Int), s.powered = true → ∃ t, exec (.thermalSample temps) s = .next t ∧ t = { s with power := t.power } ∧
    let top := t.power.temps.foldl max (-32768)
    t.power.temps.length = 9 ∧
    (∀ k, k < 9 → (k = 8 ∨ (s.dieD k).present = true) → t.power.temps[k]? = some (temps.getD k (-32768))) ∧
    (((s.keeper.rwp.critC : Int) ≤ top) → t.power.crit = true) ∧ (top < (s.keeper.rwp.critC : Int) - 5 → t.power.crit = false) ∧
    (¬ ((s.keeper.rwp.critC : Int) ≤ top) → ¬ (top < (s.keeper.rwp.critC : Int) - 5) → t.power.crit = s.power.crit) ∧
    (t.power.critDrop = true ↔ (s.power.critDrop = true ∨ ((s.keeper.rwp.critC : Int) ≤ top ∧ s.power.crit = false))) ∧
    (125 ≤ top → t.power.thermTrip = true ∧ t.power.combClocks = false ∧ t.power.nextCause = 4) ∧
    (top < 125 → t.power.thermTrip = s.power.thermTrip ∧ t.power.combClocks = s.power.combClocks ∧ t.power.nextCause = s.power.nextCause)) ∧
  (∀ s : State, s.powered = true → s.power.uptimeNs = s.frame.startNs → 1024 ≤ s.power.coolFrames → s.power.fclkNow < s.part.fclkMHz →
    exec .throttleStepUp s = .next { s with power := { s.power with fclkNow := min s.part.fclkMHz (s.power.fclkNow + 200), coolFrames := 0 } })

/-- Keeper (R437, R448, R469, R481, R483): the commit of RWP writes to both copies, or their abort with PERSIST_FAULT; a restart, which aborts sessions and
holds requests until it is done, and the fourth of which within an hour is a DEVICE-class error; a firmware switch that fails; and a quote that is signed.
Clauses of it rest on the model's reading or choice: notes/assumptions/14.md, 56.md. -/
def Obligations.KeeperService : Prop :=
  (∀ s : State, s.keeperUp = true → s.keeper.restarting = false → s.keeper.waiting.filter (·.running) ≠ [] →
    let run := s.keeper.waiting.filter (·.running)
    let next := fun (k : Keeper) => { k with waiting := (s.keeper.waiting.filter (!·.running)).map fun w => { w with running := true } }
    (let content := run.foldl (fun r w => r.put w.index w.sub w.data) s.keeper.copyA.content
     let copy : MramCopy := { valid := true, seq := s.keeper.copyA.seq + 1, content := content }
     exec (.persistCommit true) s = .next (run.foldl (fun (s : State) w => s.answer w.who 0) { s with keeper := next { s.keeper with
       copyA := copy, copyB := copy, persistCommits := satAdd 64 s.keeper.persistCommits 1 } })) ∧
    (exec (.persistCommit false) s = .next ((run.foldl (fun (s : State) w => s.answer w.who Config.abPersist)
      { s.revert with keeper := next s.revert.keeper }).raise Config.evPersistFault) ∧ s.revert.keeper.copyA = s.keeper.copyA ∧
      s.revert.keeper.copyB = s.keeper.copyB)) ∧
  (∀ s : State, s.keeperUp = true → s.power.recovery = false → s.keeper.restarting = false →
    exec .keeperWatchdog s = .next { s.abortSessions with keeper := { s.abortSessions.keeper with restarting := true } }) ∧
  (∀ s : State, s.abortSessions.keeper.sessions = [] ∧
    ∀ n, n < 256 → (s.abortSessions.instD n).kdw.state ≠ .segRead ∧ (s.abortSessions.instD n).kdw.state ≠ .segWrite) ∧
  (∀ s : State, s.keeper.restarting = true → s.powered = true →
    let recent := (s.keeper.restartTimes.filter fun t => decide (s.power.uptimeNs < t + 3600000000000)) ++ [s.power.uptimeNs]
    let t := ({ s with keeper := { s.keeper with
      restarting := false, restarts := min (s.keeper.restarts + 1) 0xFFFFFFFF, restartTimes := recent } } : State).raise Config.evKeeperRestart
    let u := if 4 ≤ recent.length then t.deviceError else t
    exec .keeperRestart s = .next (if s.propolis.switch = .newKeeper then u else u.serveHeld)) ∧
  (∀ s : State, s.propolis.switch = .newKeeper → s.powered = true →
    let t := ({ s with propolis := { s.propolis with switch := .none, fwState := 3 } } : State).raise Config.evFwSwitchFail
    exec .fwSwitchFail s = .next (if s.keeper.restarting then t else t.serveHeld)) ∧
  (∀ (s : State) (n : Nat) (body : List Byte), s.propolis.signing = some (n, body) → ∃ t sig, exec .quoteSigned s = .next t ∧ sig.length = 17088 ∧
    t = ({ s with propolis := { s.propolis with signing := none } } : State).modInst n fun i => { i with quoteState := 2, quote := body ++ sig })

-- THE DICTIONARY -------------------------------------------------------------------------------------------------------------------------------------

/-- A write of an object (R425 to R428, R437, R448, R482): held while Keeper restarts; the checks in their order, each with its abort code, which is
answered and counted; an accepted write is logged, takes effect and is answered, or, for an RWP object, is in force and waits for a commit. A read of
LOG_READ moves the cursor past the records that it returns (R443). Clauses of it rest on the model's reading or choice: notes/assumptions/14.md, 53.md. -/
def Obligations.DictionaryChecks : Prop :=
  (∀ (s : State) (o : Origin) (i sub : Nat) (data : List Byte) (t : Nat), i < 65536 → sub < 256 →
    let u := s.elapse (s.frame.startNs + t - s.power.uptimeNs)
    let run := exec (.dictWrite o i sub data t) s
    let abort := fun (v : State) (c : Nat) => ({ v with keeper := { v.keeper with abortTotal := satAdd 64 v.keeper.abortTotal 1 } } : State).emit (.answer o c)
    u.keeperUp = true →
    (u.keeperHolds = true → run = .next { u with keeper := { u.keeper with held := u.keeper.held ++ [.write o i sub data] } }) ∧
    (u.keeperHolds = false →
      (∀ c, u.access o true i sub = .error c → run = .next (abort u c)) ∧
      (∀ x m, u.access o true i sub = .ok (x, m) →
        (m.sizeOk data.length = false → run = .next (abort u Config.abTypeLength)) ∧
        (m.sizeOk data.length = true →
          (∀ c, u.valueCheck x sub data = some c → run = .next (abort u c)) ∧
          (u.valueCheck x sub data = none → ¬ (x = .fw ∧ sub = 1) → u.logRoom x sub = false → run = .next (abort u Config.abLogFull)) ∧
          (u.Accepts o i sub data x m → ¬ (x = .fw ∧ sub = 1) → m.acc ≠ .rwp →
            run = .next (u.answered o i sub x m data fun v => v.objApply x m i sub data)))))) ∧
  (∀ (s : State) (o : Origin) (i sub : Nat) (wr : Bool),
    (objIndex i = none → s.power.devState = .ready → s.access o wr i sub = .error Config.abNoObject) ∧
    ∀ x, objIndex i = some x →
      (s.objReady x sub = false → s.access o wr i sub = .error Config.abNotReady) ∧
      (s.objReady x sub = true → x.obj sub = none → s.access o wr i sub = .error Config.abNoObject) ∧
      (∀ m, s.objReady x sub = true → x.obj sub = some m → s.objExists x sub = true →
        (s.hasRight o wr x sub = false → (∀ n, o ≠ .hostVf n) → s.access o wr i sub = .error Config.abAccess) ∧
        (∀ n, s.hasRight o wr x sub = false → o = .hostVf n → s.access o wr i sub = .error Config.abNoObject) ∧
        (s.hasRight o wr x sub = true → wr = true → m.acc = .const ∨ m.acc = .ro → s.access o wr i sub = .error Config.abReadOnly) ∧
        (s.hasRight o wr x sub = true → wr = false → m.acc = .wo → s.access o wr i sub = .error Config.abWriteOnly) ∧
        (s.hasRight o wr x sub = true → (wr = true → m.acc ≠ .const ∧ m.acc ≠ .ro) → (wr = false → m.acc ≠ .wo) → s.access o wr i sub = .ok (x, m)))) ∧
  (∀ (s : State) (o : Origin) (m : ObjMeta), s.keeperUp = true → s.keeperHolds = false → s.access o false 0xA000 5 = .ok (.log, m) →
    let l := s.keeper.log
    let start := if seqBefore l.cursor l.oldest then l.oldest else l.cursor
    let rs := (l.recs.drop (start - l.oldest).toNat).take 1024
    exec (.logRead o) s = .next ((s.modLog fun l => { l with cursor := start + BitVec.ofNat 32 rs.length }).emit (.value o (rs.flatMap (·.bytes))))) ∧
  (∀ (s : State) (o : Origin) (data : List Byte) (m : ObjMeta), s.Accepts o 0x8010 1 data .fw m →
    exec (.fwStage o data) s = .next (if (s.fwStage data).2 = true then (s.fwStage data).1.answered o 0x8010 1 .fw m data id
      else ((s.fwStage data).1.countAbort Config.abValueRange).emit (.answer o Config.abValueRange)))

/-- The commands that write one object each, accepted: RWP objects stand at once and wait for the commit that answers them (R437); a divided resource
changes at the second boundary (R58); every other one acts as its rule says. INST_CMD acts on the instance by its code, DIE_FENCE fences the die (R367,
R478). Clauses of it rest on the model's reading or choice: notes/assumptions/57.md, 69.md. -/
def Obligations.DictionaryWrites : Prop :=
  (∀ row ∈ rwpRows, ∀ (s : State) (o : Origin) (given : List Byte) (x : OIx) (m : ObjMeta),
    let data := row.fixed.getD given
    s.Accepts o row.index row.sub data x m → ∃ t, exec (row.instr o given) s = .next t ∧ row.value t.keeper.rwp = leNat data % 2 ^ 64 ∧
      t.keeper.copyA = s.keeper.copyA ∧ t.out = (s.auditWrite o row.index row.sub (s.writeValue x m row.sub data)).out ∧
      ∃ w : Waiter, t.keeper.waiting = s.keeper.waiting ++ [w] ∧ w.who = .plain o ∧ w.index = row.index ∧ w.sub = row.sub ∧ w.data = data ∧
        w.running = !(s.keeper.waiting.any (·.running))) ∧
  (∀ (n k d p : Nat) (hi : Bool), n < 256 → k < 5 → d < 8 → p < 16 →
    (∀ row ∈ resourceRows n k hi ++ objectRows n d hi, ∀ (s : State) (o : Origin) (data : List Byte) (x : OIx) (m : ObjMeta),
      s.Accepts o row.index row.sub data x m →
      exec (row.instr o data) s = .next (s.answered o row.index row.sub x m data fun t => row.effect t data)) ∧
    (∀ row ∈ fixedRows n p, ∀ (s : State) (o : Origin) (x : OIx) (m : ObjMeta), s.Accepts o row.2.1 row.2.2.1 row.2.2.2.1 x m →
      exec (row.1 o) s = .next (s.answered o row.2.1 row.2.2.1 x m row.2.2.2.1 row.2.2.2.2)) ∧
    (∀ row ∈ instRows, ∀ (s : State) (o : Origin) (t : Nat) (x : OIx) (m : ObjMeta),
      let u := s.elapse (s.frame.startNs + t - s.power.uptimeNs)
      u.Accepts o (0x3000 + n) 2 [row.2.1] x m →
      exec (row.1 n o t) s = .next (u.answered o (0x3000 + n) 2 x m [row.2.1] fun v => (v.instCommand n row.2.2).getD v))) ∧
  (∀ (s : State) (o : Origin) (data : List Byte) (t : Nat) (x : OIx) (m : ObjMeta),
    let u := s.elapse (s.frame.startNs + t - s.power.uptimeNs)
    u.Accepts o 0x8000 6 data x m → exec (.dieFence o data t) s = .next (u.answered o 0x8000 6 x m data fun v => v.startFence (leNat data)))

/-- The dictionary windows (R429 to R431, R448): a command by the state of the window, held or served, and what READ, WRITE and the segmented transfers
answer; the data register, word by word; an idle transfer times out. Clauses of it rest on the model's reading or choice: notes/assumptions/54.md, 56.md. -/
def Obligations.DictionaryWindows : Prop :=
  (∀ row ∈ windowRows, ∀ (s : State) (fn : Nat) (arg : W32), s.fnLive fn = true → (s.instD fn).state ≠ .resetting →
    let op := row.2
    let st := (s.instD fn).kdw.state
    let upd := fun (t : State) (f : Kdw → Kdw) => t.modInst fn fun i => { i with kdw := f i.kdw }
    let s1 := upd s fun k => { k with arg := arg }
    let started := (upd s1 fun k => { k with state := .busy, abort := 0 }).submit (.window fn op arg)
    let aborted := fun (t : State) => upd { t with keeper := { t.keeper with abortTotal := satAdd 64 t.keeper.abortTotal 1 } } fun k =>
      { k with state := .aborted, abort := Config.abAborted }
    let busy := upd s fun k => { k with overrun := true }
    (st ∈ [.idle, .done, .aborted] → op ≤ 4 → exec (row.1 fn arg) s = .next started) ∧
    (st ∈ [.idle, .done, .aborted] → 5 ≤ op → exec (row.1 fn arg) s = .next s1) ∧
    (st = .busy → op ≠ 6 → exec (row.1 fn arg) s = .next busy) ∧
    (st = .busy → op = 6 → (∀ r ∈ s.keeper.held, ∀ q a, r = .window fn q a → q < 3) → exec (row.1 fn arg) s = .next busy) ∧
    (st = .segRead → op ≤ 4 → exec (row.1 fn arg) s = .next busy) ∧
    (st = .segRead → op = 5 → exec (row.1 fn arg) s = .next (upd s fun k => { k with state := .done })) ∧
    (st = .segRead → op = 6 → exec (row.1 fn arg) s = .next (aborted s)) ∧
    (st = .segWrite → op ≤ 4 → exec (row.1 fn arg) s = .next busy) ∧ (st = .segWrite → op = 5 → exec (row.1 fn arg) s = .next started) ∧
    (st = .segWrite → op = 6 → exec (row.1 fn arg) s = .next (aborted s1))) ∧
  (∀ (s : State) (r : Req), s.keeperUp = true →
    (s.keeperHolds = true → s.submit r = { s with keeper := { s.keeper with held := s.keeper.held ++ [r] } }) ∧
    (s.keeperHolds = false → s.submit r = s.serve r)) ∧
  (∀ (s : State) (fn : Nat) (arg : W32),
    let k := (s.instD fn).kdw
    let o := if fn = 0 then Origin.hostPf else .hostVf fn
    let upd := fun (t : State) (f : Kdw → Kdw) => t.modInst fn fun i => { i with kdw := f i.kdw }
    (∀ bytes sg acc t bs, s.readObject o k.index.toNat k.sub.toNat = .ok (t, ⟨.num bytes sg, acc⟩, bs) → s.serve (.window fn 1 arg) =
      upd (upd s fun k => { k with data := extend64 sg bs }) fun k => { k with state := .done, abort := 0 }) ∧
    (∀ t m bs, s.readObject o k.index.toNat k.sub.toNat = .ok (t, m, bs) → bs ≠ [] → s.serve (.window fn 3 arg) =
      upd t fun k => { k with
        state := .segRead, bytes := bs, len := bs.length, arg := BitVec.ofNat 32 bs.length, data := 0, words := 0, crc := 0, abort := 0 }) ∧
    (∀ x m, s.access o true k.index.toNat k.sub.toNat = .ok (x, m) → s.serve (.window fn 4 arg) =
      upd s fun k => { k with state := .segWrite, bytes := [], len := arg.toNat, words := 0, crc := 0, abort := 0 }) ∧
    (∀ x m, s.access o true k.index.toNat k.sub.toNat = .ok (x, m) → m.sizeOk k.len = true → k.words = (k.len + 3) / 4 →
      crc32c (k.bytes.take k.len) = arg → s.serve (.window fn 5 arg) = s.finishWrite (.window fn) o x m k.index.toNat k.sub.toNat (k.bytes.take k.len))) ∧
  (∀ (s : State) (fn size : Nat) (v : W64), s.fnLive fn = true → (s.instD fn).state ≠ .resetting → size = 4 ∨ size = 8 →
    let k := (s.instD fn).kdw
    let upd := fun (f : Kdw → Kdw) => s.modInst fn fun i => { i with kdw := f i.kdw }
    (k.state = .busy → exec (.kdwDataWrite fn size v) s = .next (upd fun k => { k with overrun := true })) ∧
    (k.state = .segWrite → k.words + size / 4 ≤ (k.len + 3) / 4 → exec (.kdwDataWrite fn size v) s = .next (upd fun k =>
      let bytes := k.bytes ++ leBytes size (v.toNat % 2 ^ (8 * size))
      let words := k.words + size / 4
      { k with bytes := bytes, words := words, crc := crc32c (bytes.take (min (4 * words) k.len)) })) ∧
    (k.state ∈ [.idle, .done, .aborted, .segRead] → size = 8 → exec (.kdwDataWrite fn size v) s = .next (upd fun k => { k with data := v })) ∧
    (k.state = .segRead → k.words + size / 4 ≤ (k.len + 3) / 4 → exec (.kdwDataRead fn size) s = .next ((upd fun k => { k with
        words := k.words + size / 4
        crc := crc32c (k.bytes.take (min (4 * (k.words + size / 4)) k.len))
        state := if (k.len + 3) / 4 ≤ k.words + size / 4 then .done else .segRead }).emit
      (.readData fn (BitVec.ofNat 64 (field k.bytes (4 * k.words) size))))) ∧
    (k.state ≠ .segRead → size = 8 → exec (.kdwDataRead fn size) s = .next (s.emit (.readData fn k.data)))) ∧
  (∀ (s : State) (fn : Nat), (s.instD fn).kdw.state = .segRead ∨ (s.instD fn).kdw.state = .segWrite → exec (.segTimeout (.window fn)) s =
    .next (({ s with keeper := { s.keeper with abortTotal := satAdd 64 s.keeper.abortTotal 1 } } : State).modInst fn fun i =>
      { i with kdw := { i.kdw with state := .aborted, abort := Config.abTimeout } })) ∧
  (∀ (s : State) (i : Nat), i < s.keeper.sessions.length → exec (.segTimeout (.session i)) s = .next { s with keeper := { s.keeper with
    sessions := s.keeper.sessions.eraseIdx i, abortTotal := satAdd 64 s.keeper.abortTotal 1 } })

/-- The Keeper Dictionary Protocol and MCTP (R432 to R436): a request from no peer is dropped and counted, a repeat gets the kept response, and any other is
executed and answered; sessions open, move and end with their CRC; the control messages of an MCTP endpoint. Clauses of it rest on the model's reading or
choice: notes/assumptions/23.md, 54.md, 55.md. -/
def Obligations.KeeperProtocol : Prop :=
  (∀ row ∈ kdpRows, ∀ (s : State) (o : Origin) (m : KdpMsg), (∃ e b, o = .oobMctp e b) ∨ (∃ p, o = .oobEth p) → s.keeperUp = true →
    s.power.recovery = false →
    let known := s.keeper.kept.find? fun x => x.who == o && x.op == row.2 && x.msg == m
    (s.isPeer o = false → exec (row.1 o m) s = .next { s with keeper := { s.keeper with oobDrop := satAdd 32 s.keeper.oobDrop 1 } }) ∧
    (s.isPeer o = true → ∀ x, known = some x → exec (row.1 o m) s = .next (s.emit (.kdp o x.resp))) ∧
    (s.isPeer o = true → known = none → s.underWay o row.2 m = true → exec (row.1 o m) s = .next s) ∧
    (s.isPeer o = true → known = none → s.underWay o row.2 m = false →
      (s.keeperHolds = true → exec (row.1 o m) s = .next { s with keeper := { s.keeper with held := s.keeper.held ++ [.kdp o row.2 m] } }) ∧
      (s.keeperHolds = false → kdpMsgOk row.2 m = false → exec (row.1 o m) s = .next (s.kdpReply o row.2 m Config.abBadRequest 0 [])) ∧
      (s.keeperHolds = false → kdpMsgOk row.2 m = true → exec (row.1 o m) s = .next (s.serveKdp o row.2 m)))) ∧
  (∀ (s : State) (o : Origin) (m : KdpMsg),
    let i := m.index.toNat
    let sub := m.sub.toNat
    let mine := fun (x : Session) => x.who == o && x.index == m.index && x.sub == m.sub
    let without := { s with keeper := { s.keeper with sessions := s.keeper.sessions.filter (!mine ·) } }
    let with_ := fun (t : State) (x : Session) => { t with keeper := { t.keeper with sessions := t.keeper.sessions.filter (!mine ·) ++ [x] } }
    let found := s.keeper.sessions.find? mine
    (kdpMsgOk 1 m = true → ∀ t bytes sg acc bs, s.readObject o i sub = .ok (t, ⟨.num bytes sg, acc⟩, bs) → s.serveKdp o 1 m = s.kdpReply o 1 m 0 0 bs) ∧
    (kdpMsgOk 2 m = true → ∀ x mt k sg, s.access o true i sub = .ok (x, mt) → mt.ty = .num k sg → m.body.length = k →
      s.serveKdp o 2 m = s.finishWrite (.kdp o 2 m) o x mt i sub m.body) ∧
    (kdpMsgOk 3 m = true → ∀ t mt bs, s.readObject o i sub = .ok (t, mt, bs) → found.isSome ∨ s.keeper.sessions.length < 8 →
      s.serveKdp o 3 m = (with_ t { who := o, index := m.index, sub := m.sub, isWrite := false, len := bs.length, bytes := bs, lastOff := 0 }).kdpReply o 3 m
        0 bs.length []) ∧
    (kdpMsgOk 4 m = true → ∀ x mt, s.access o true i sub = .ok (x, mt) → found.isSome ∨ s.keeper.sessions.length < 8 →
      s.serveKdp o 4 m = (with_ s { who := o, index := m.index, sub := m.sub, isWrite := true, len := m.arg.toNat, bytes := [], lastOff := 0 }).kdpReply o 4 m
        0 0 []) ∧
    (kdpMsgOk 5 m = true → found = none → s.serveKdp o 5 m = s.kdpReply o 5 m Config.abSequence 0 []) ∧
    (kdpMsgOk 5 m = true → ∀ x, found = some x → x.isWrite = false → m.body = [] →
      (m.arg.toNat % 4 = 0 → m.arg.toNat < x.len → s.serveKdp o 5 m = s.kdpReply o 5 m 0 0 ((x.bytes.drop m.arg.toNat).take 1024)) ∧
      (¬ (m.arg.toNat % 4 = 0 ∧ m.arg.toNat < x.len) → s.serveKdp o 5 m = without.kdpReply o 5 m Config.abSequence 0 [])) ∧
    (kdpMsgOk 5 m = true → ∀ x, found = some x → x.isWrite = true → m.body ≠ [] → m.body.length ≤ 1024 →
      (m.body.length % 4 = 0 ∨ x.len ≤ m.arg.toNat + m.body.length) →
      (m.arg.toNat = x.bytes.length → s.serveKdp o 5 m = (with_ s { x with bytes := x.bytes ++ m.body, lastOff := m.arg.toNat }).kdpReply o 5 m 0
        (x.bytes.length + m.body.length) []) ∧
      (m.arg.toNat ≠ x.bytes.length → m.arg.toNat = x.lastOff → s.serveKdp o 5 m = s.kdpReply o 5 m 0 x.bytes.length []) ∧
      (m.arg.toNat ≠ x.bytes.length → m.arg.toNat ≠ x.lastOff → s.serveKdp o 5 m = without.kdpReply o 5 m Config.abSequence 0 [])) ∧
    (kdpMsgOk 6 m = true → ∀ x, found = some x → x.isWrite = false → m.arg = 0 → s.serveKdp o 6 m =
      without.kdpReply o 6 m 0 (crc32c x.bytes).toNat []) ∧
    (kdpMsgOk 6 m = true → ∀ x ix mt, found = some x → x.isWrite = true → s.access o true i sub = .ok (ix, mt) → mt.sizeOk x.len = true →
      x.bytes.length = x.len → crc32c x.bytes = m.arg → s.serveKdp o 6 m = without.finishWrite (.kdp o 6 m) o ix mt i sub x.bytes) ∧
    (kdpMsgOk 7 m = true → s.serveKdp o 7 m = without.kdpReply o 7 m Config.abAborted 0 [])) ∧
  (∀ (s : State) (o : Origin) (tag : Nat), exec (.kdpResponseExpiry o tag) s = .next { s with keeper := { s.keeper with
    kept := s.keeper.kept.filter fun x => !(x.who == o && x.msg.tag.toNat == tag) } }) ∧
  (∀ (s : State) (eid binding : Nat), s.keeperUp = true →
    let said := fun (cmd : Nat) (data : List Byte) => s.emit (.mctp eid binding cmd data)
    (∀ new, 1 ≤ new → new < 255 → exec (.setEndpointId eid binding new) s = .next (({ s with keeper := { s.keeper with mctpEid := new } } : State).emit
      (.mctp eid binding 1 [0x00, 0x00, BitVec.ofNat 8 new, 0x00]))) ∧
    exec (.getEndpointId eid binding) s = .next (said 2 [0x00, BitVec.ofNat 8 s.keeper.mctpEid, 0x00, 0x00]) ∧
    (∀ ty, ty ∈ [0xFF, 0x00, 0x7E] → ∃ l, exec (.getMctpVersionSupport eid binding ty) s = .next (said 4 (0x00 :: l))) ∧
    (∀ ty, ty ∉ [0xFF, 0x00, 0x7E] → exec (.getMctpVersionSupport eid binding ty) s = .next (said 4 [0x80])) ∧
    exec (.getMessageTypeSupport eid binding) s = .next (said 5 [0x00, 0x01, 0x7E]) ∧
    (∃ l, exec (.getVendorDefinedMessageSupport eid binding 0) s = .next (said 6 ([0x00, 0xFF, 0x00] ++ beBytes 2 s.part.vendorPci.toNat ++ l))))

-- INVARIANTS AND RESET ---------------------------------------------------------------------------------------------------------------------------------

/-- Every step keeps memory in its canonical form: addresses strictly rising, no byte listed that reads as an unlisted one. -/
def Obligations.MemoryStaysCanonical : Prop :=
  ∀ s t : State, s.memWf → step s = .next t → t.memWf

/-- The machine after a cold reset (R40, R212 to R217, R281, R336, R363, R366, R473, R489, R492): booting at step 1, frame 0, no job, no event pending, no VF,
no queue, Foragers idle with zero registers; memory lists nothing (notes/assumptions/3.md, 4.md). -/
def Obligations.ResetValues : Prop :=
  let s := State.reset
  s.memWf ∧ s.mem = [] ∧ s.pending = [] ∧ s.power.devState = .booting ∧ s.power.step = 1 ∧ s.frame.number = 0 ∧ s.frame.sync = .free ∧
  s.jobs = [] ∧ s.cpls = [] ∧ s.events.pend = 0 ∧ s.propolis.cmpFault = 0 ∧ s.insts.length = 256 ∧ s.dies.length = 8 ∧
  (∀ n, 1 ≤ n → n < 256 → (s.instD n).state = .absent) ∧
  (∀ n, n < 256 → (s.instD n).gen = 0 ∧ (s.instD n).sqs = [] ∧ (s.instD n).cqs = [] ∧ (s.instD n).images = [] ∧ (s.instD n).aq.en = false) ∧
  (∀ (f : FId) (g : Fgr), s.fgr? f = some g → g.run = .idle ∧ g.morsel = none ∧ g.regs.fxcsr = 0 ∧ g.regs.pend = none ∧
    ∀ r, g.regs.rg r = 0)
end

