-- ==== Sys2Proof/Laws/Arms.lean ====
section
/-!
SUPPORT. The meaning that each command has: exec at one constructor, true by evaluation.
-/

namespace Sys2Proof.Machine

theorem exec_frameTick (s) : exec .frameTick s = execFrameTick s := rfl
theorem exec_morselSave (f s) : exec (.morselSave f) s = execMorselSave f s := rfl
theorem exec_morselResume (f s) : exec (.morselResume f) s = execMorselResume f s := rfl
theorem exec_evictedRestore (f s) : exec (.evictedRestore f) s = execEvictedRestore f s := rfl
theorem exec_overrunLimitReached (die jid stage s) : exec (.overrunLimitReached die jid stage) s = execOverrunLimitReached die jid stage s := rfl
theorem exec_framePeriod (o data s) : exec (.framePeriod o data) s = execFramePeriod o data s := rfl
theorem exec_frameNumberRead (fn t s) : exec (.frameNumberRead fn t) s = execFrameNumberRead fn t s := rfl
theorem exec_syncModeSet (o s) : exec (.syncModeSet o) s = execSyncModeSet o s := rfl
theorem exec_syncModeClear (o s) : exec (.syncModeClear o) s = execSyncModeClear o s := rfl
theorem exec_t0TaiNs (o data s) : exec (.t0TaiNs o data) s = execT0TaiNs o data s := rfl
theorem exec_ptpMessage (offsetNs s) : exec (.ptpMessage offsetNs) s = execPtpMessage offsetNs s := rfl
theorem exec_lockingComplete (taiNs s) : exec (.lockingComplete taiNs) s = execLockingComplete taiNs s := rfl
theorem exec_enterHoldover (s) : exec .enterHoldover s = execEnterHoldover s := rfl
theorem exec_relock (s) : exec .relock s = execRelock s := rfl
theorem exec_calDiscipline (taiSec utcOffset s) : exec (.calDiscipline taiSec utcOffset) s = execCalDiscipline taiSec utcOffset s := rfl
theorem exec_morselDispatch (die kind t s) : exec (.morselDispatch die kind t) s = execMorselDispatch die kind t s := rfl
theorem exec_readyLimit (n o data s) : exec (.readyLimit n o data) s = execReadyLimit n o data s := rfl
theorem exec_statHold (fn value s) : exec (.statHold fn value) s = execStatHold fn value s := rfl
theorem exec_statHoldExpired (fn s) : exec (.statHoldExpired fn) s = execStatHoldExpired fn s := rfl
theorem exec_retire (die o data s) : exec (.retire die o data) s = execRetire die o data s := rfl
theorem exec_foragerErrThresh (f s) : exec (.foragerErrThresh f) s = execForagerErrThresh f s := rfl
theorem exec_columnStreamerMorsel (u s) : exec (.columnStreamerMorsel u) s = execColumnStreamerMorsel u s := rfl
theorem exec_clearMorsel (u s) : exec (.clearMorsel u) s = execClearMorsel u s := rfl
theorem exec_build (u s) : exec (.build u) s = execBuild u s := rfl
theorem exec_probeInner (u s) : exec (.probeInner u) s = execProbeInner u s := rfl
theorem exec_probeLeft (u s) : exec (.probeLeft u) s = execProbeLeft u s := rfl
theorem exec_probeSemi (u s) : exec (.probeSemi u) s = execProbeSemi u s := rfl
theorem exec_probeAnti (u s) : exec (.probeAnti u) s = execProbeAnti u s := rfl
theorem exec_group (u s) : exec (.group u) s = execGroup u s := rfl
theorem exec_drainMorsel (u s) : exec (.drainMorsel u) s = execDrainMorsel u s := rfl
theorem exec_sortIngest (u s) : exec (.sortIngest u) s = execSortIngest u s := rfl
theorem exec_sortMerge (u s) : exec (.sortMerge u) s = execSortMerge u s := rfl
theorem exec_sortFinal (u s) : exec (.sortFinal u) s = execSortFinal u s := rfl
theorem exec_topnIngest (u s) : exec (.topnIngest u) s = execTopnIngest u s := rfl
theorem exec_topnFinal (u s) : exec (.topnFinal u) s = execTopnFinal u s := rfl
theorem exec_lookup (u s) : exec (.lookup u) s = execLookup u s := rfl
theorem exec_load (u s) : exec (.load u) s = execLoad u s := rfl
theorem exec_row (u s) : exec (.row u) s = execRow u s := rfl
theorem exec_stream (u s) : exec (.stream u) s = execStream u s := rfl
theorem exec_amuBlockClear (die block s) : exec (.amuBlockClear die block) s = execAmuBlockClear die block s := rfl
theorem exec_amuSweepStep (die s) : exec (.amuSweepStep die) s = execAmuSweepStep die s := rfl
theorem exec_shadowFault (die index s) : exec (.shadowFault die index) s = execShadowFault die index s := rfl
theorem exec_sqTailDoorbell (fn q size value s) : exec (.sqTailDoorbell fn q size value) s = execSqTailDoorbell fn q size value s := rfl
theorem exec_cqHeadDoorbell (fn q size value s) : exec (.cqHeadDoorbell fn q size value) s = execCqHeadDoorbell fn q size value s := rfl
theorem exec_aqCfg (fn size value s) : exec (.aqCfg fn size value) s = execAqCfg fn size value s := rfl
theorem exec_adminDisableDone (fn s) : exec (.adminDisableDone fn) s = execAdminDisableDone fn s := rfl
theorem exec_cqStall (n q s) : exec (.cqStall n q) s = execCqStall n q s := rfl
theorem exec_chainFetch (s) : exec .chainFetch s = execChainFetch s := rfl
theorem exec_jobAdmit (n s) : exec (.jobAdmit n) s = execJobAdmit n s := rfl
theorem exec_createSq (n s) : exec (.createSq n) s = execCreateSq n s := rfl
theorem exec_deleteSq (n s) : exec (.deleteSq n) s = execDeleteSq n s := rfl
theorem exec_sqDeleteComplete (n q s) : exec (.sqDeleteComplete n q) s = execSqDeleteComplete n q s := rfl
theorem exec_createCq (n s) : exec (.createCq n) s = execCreateCq n s := rfl
theorem exec_deleteCq (n s) : exec (.deleteCq n) s = execDeleteCq n s := rfl
theorem exec_loadImage (n s) : exec (.loadImage n) s = execLoadImage n s := rfl
theorem exec_loadImageChecksDone (n s) : exec (.loadImageChecksDone n) s = execLoadImageChecksDone n s := rfl
theorem exec_unloadImage (n s) : exec (.unloadImage n) s = execUnloadImage n s := rfl
theorem exec_imageUnloadComplete (n slot s) : exec (.imageUnloadComplete n slot) s = execImageUnloadComplete n slot s := rfl
theorem exec_abortJob (n s) : exec (.abortJob n) s = execAbortJob n s := rfl
theorem exec_getStatusPage (n s) : exec (.getStatusPage n) s = execGetStatusPage n s := rfl
theorem exec_job (n s) : exec (.job n) s = execJob n s := rfl
theorem exec_controlPacketsMissing (djid dev s) : exec (.controlPacketsMissing djid dev) s = execControlPacketsMissing djid dev s := rfl
theorem exec_flr (fn t s) : exec (.flr fn t) s = execFlr fn t s := rfl
theorem exec_d3hotToD0 (fn t s) : exec (.d3hotToD0 fn t) s = execD3hotToD0 fn t s := rfl
theorem exec_vfEnable (on numVfs t s) : exec (.vfEnable on numVfs t) s = execVfEnable on numVfs t s := rfl
theorem exec_atsInvalidation (n iova len s) : exec (.atsInvalidation n iova len) s = execAtsInvalidation n iova len s := rfl
theorem exec_linkDown (s) : exec .linkDown s = execLinkDown s := rfl
theorem exec_linkUp (width speed ms s) : exec (.linkUp width speed ms) s = execLinkUp width speed ms s := rfl
theorem exec_registerWrite (fn off size value s) : exec (.registerWrite fn off size value) s = execRegisterWrite fn off size value s := rfl
theorem exec_enable (n o t s) : exec (.enable n o t) s = execEnable n o t s := rfl
theorem exec_disable (n o t s) : exec (.disable n o t) s = execDisable n o t s := rfl
theorem exec_reset (n o t s) : exec (.reset n o t) s = execReset n o t s := rfl
theorem exec_instResetDone (n s) : exec (.instResetDone n) s = execInstResetDone n s := rfl
theorem exec_freezeDrain (n o t s) : exec (.freezeDrain n o t) s = execFreezeDrain n o t s := rfl
theorem exec_freezeAbort (n o t s) : exec (.freezeAbort n o t) s = execFreezeAbort n o t s := rfl
theorem exec_freezeTimeout (n s) : exec (.freezeTimeout n) s = execFreezeTimeout n s := rfl
theorem exec_thaw (n o t s) : exec (.thaw n o t) s = execThaw n o t s := rfl
theorem exec_coreFrames (n o data s) : exec (.coreFrames n o data) s = execCoreFrames n o data s := rfl
theorem exec_share (n kind o data s) : exec (.share n kind o data) s = execShare n kind o data s := rfl
theorem exec_fabricShare (n o data s) : exec (.fabricShare n o data) s = execFabricShare n o data s := rfl
theorem exec_imgStore (n o data s) : exec (.imgStore n o data) s = execImgStore n o data s := rfl
theorem exec_sqQuota (n o data s) : exec (.sqQuota n o data) s = execSqQuota n o data s := rfl
theorem exec_cqQuota (n o data s) : exec (.cqQuota n o data) s = execCqQuota n o data s := rfl
theorem exec_pasid (n o data s) : exec (.pasid n o data) s = execPasid n o data s := rfl
theorem exec_ptPages (n o data s) : exec (.ptPages n o data) s = execPtPages n o data s := rfl
theorem exec_ptWrite (n o data s) : exec (.ptWrite n o data) s = execPtWrite n o data s := rfl
theorem exec_regions (n o data s) : exec (.regions n o data) s = execRegions n o data s := rfl
theorem exec_ccWays (n hi o data s) : exec (.ccWays n hi o data) s = execCcWays n hi o data s := rfl
theorem exec_wayCleanDone (die way s) : exec (.wayCleanDone die way) s = execWayCleanDone die way s := rfl
theorem exec_waySweepDone (die n s) : exec (.waySweepDone die n) s = execWaySweepDone die n s := rfl
theorem exec_pageReleaseCleanDone (page s) : exec (.pageReleaseCleanDone page) s = execPageReleaseCleanDone page s := rfl
theorem exec_zeroFillDone (page s) : exec (.zeroFillDone page) s = execZeroFillDone page s := rfl
theorem exec_ccLock (n hi o data s) : exec (.ccLock n hi o data) s = execCcLock n hi o data s := rfl
theorem exec_clean (n o s) : exec (.clean n o) s = execClean n o s := rfl
theorem exec_cleanInval (n o s) : exec (.cleanInval n o) s = execCleanInval n o s := rfl
theorem exec_invalDone (n s) : exec (.invalDone n) s = execInvalDone n s := rfl
theorem exec_dirtyCtl (n o data s) : exec (.dirtyCtl n o data) s = execDirtyCtl n o data s := rfl
theorem exec_powerDown (die way s) : exec (.powerDown die way) s = execPowerDown die way s := rfl
theorem exec_powerDownDone (die way s) : exec (.powerDownDone die way) s = execPowerDownDone die way s := rfl
theorem exec_powerUp (die way s) : exec (.powerUp die way) s = execPowerUp die way s := rfl
theorem exec_powerUpDone (die way s) : exec (.powerUpDone die way) s = execPowerUpDone die way s := rfl
theorem exec_wayEnable (die way s) : exec (.wayEnable die way) s = execWayEnable die way s := rfl
theorem exec_ccWayDisable (die way s) : exec (.ccWayDisable die way) s = execCcWayDisable die way s := rfl
theorem exec_ccWayDisabled (die way s) : exec (.ccWayDisabled die way) s = execCcWayDisabled die way s := rfl
theorem exec_wayErrWindowEnd (die way s) : exec (.wayErrWindowEnd die way) s = execWayErrWindowEnd die way s := rfl
theorem exec_ccCtl (die size value s) : exec (.ccCtl die size value) s = execCcCtl die size value s := rfl
theorem exec_ccDrainDone (die s) : exec (.ccDrainDone die) s = execCcDrainDone die s := rfl
theorem exec_patrolScrub (stack found s) : exec (.patrolScrub stack found) s = execPatrolScrub stack found s := rfl
theorem exec_bankSpare (stack channel bank s) : exec (.bankSpare stack channel bank) s = execBankSpare stack channel bank s := rfl
theorem exec_bankSpareCopyDone (stack channel s) : exec (.bankSpareCopyDone stack channel) s = execBankSpareCopyDone stack channel s := rfl
theorem exec_pageOut (n s) : exec (.pageOut n) s = execPageOut n s := rfl
theorem exec_pageIn (n s) : exec (.pageIn n) s = execPageIn n s := rfl
theorem exec_imageOut (n s) : exec (.imageOut n) s = execImageOut n s := rfl
theorem exec_imageIn (n s) : exec (.imageIn n) s = execImageIn n s := rfl
theorem exec_migCopyDone (n s) : exec (.migCopyDone n) s = execMigCopyDone n s := rfl
theorem exec_stateImage (n o data s) : exec (.stateImage n o data) s = execStateImage n o data s := rfl
theorem exec_restoreChecksDone (n s) : exec (.restoreChecksDone n) s = execRestoreChecksDone n s := rfl
theorem exec_mbxPost (fn n size value s) : exec (.mbxPost fn n size value) s = execMbxPost fn n size value s := rfl
theorem exec_mbxAck (fn n size value s) : exec (.mbxAck fn n size value) s = execMbxAck fn n size value s := rfl
theorem exec_saddleEnable (o s) : exec (.saddleEnable o) s = execSaddleEnable o s := rfl
theorem exec_saddleEnableDone (report s) : exec (.saddleEnableDone report) s = execSaddleEnableDone report s := rfl
theorem exec_saddleDisable (o s) : exec (.saddleDisable o) s = execSaddleDisable o s := rfl
theorem exec_saddleDisableDone (s) : exec .saddleDisableDone s = execSaddleDisableDone s := rfl
theorem exec_saddlePortDown (s) : exec .saddlePortDown s = execSaddlePortDown s := rfl
theorem exec_saddleTimeout (s) : exec .saddleTimeout s = execSaddleTimeout s := rfl
theorem exec_saddleResponse (f gen value err s) : exec (.saddleResponse f gen value err) s = execSaddleResponse f gen value err s := rfl
theorem exec_ridgeCrcError (l s) : exec (.ridgeCrcError l) s = execRidgeCrcError l s := rfl
theorem exec_ridgeLaneFail (l s) : exec (.ridgeLaneFail l) s = execRidgeLaneFail l s := rfl
theorem exec_crestLinkDown (die t s) : exec (.crestLinkDown die t) s = execCrestLinkDown die t s := rfl
theorem exec_ringLinkDown (link t s) : exec (.ringLinkDown link t) s = execRingLinkDown link t s := rfl
theorem exec_ringRequestTimeout (jid die s) : exec (.ringRequestTimeout jid die) s = execRingRequestTimeout jid die s := rfl
theorem exec_combUe (die t s) : exec (.combUe die t) s = execCombUe die t s := rfl
theorem exec_crestUe (s) : exec .crestUe s = execCrestUe s := rfl
theorem exec_foragerUe (f s) : exec (.foragerUe f) s = execForagerUe f s := rfl
theorem exec_dieFence (o data t s) : exec (.dieFence o data t) s = execDieFence o data t s := rfl
theorem exec_dieFenceComplete (die s) : exec (.dieFenceComplete die) s = execDieFenceComplete die s := rfl
theorem exec_data (port p s) : exec (.data port p) s = execData port p s := rfl
theorem exec_control (port p t s) : exec (.control port p t) s = execControl port p t s := rfl
theorem exec_fabricLoss (jid s) : exec (.fabricLoss jid) s = execFabricLoss jid s := rfl
theorem exec_joinTimeout (jid s) : exec (.joinTimeout jid) s = execJoinTimeout jid s := rfl
theorem exec_portDown (port s) : exec (.portDown port) s = execPortDown port s := rfl
theorem exec_portUp (port s) : exec (.portUp port) s = execPortUp port s := rfl
theorem exec_portDisable (port o s) : exec (.portDisable port o) s = execPortDisable port o s := rfl
theorem exec_portEnable (port o s) : exec (.portEnable port o) s = execPortEnable port o s := rfl
theorem exec_neighborSolicitation (port target s) : exec (.neighborSolicitation port target) s = execNeighborSolicitation port target s := rfl
theorem exec_echoRequest (port target body s) : exec (.echoRequest port target body) s = execEchoRequest port target body s := rfl
theorem exec_deviceId (o data s) : exec (.deviceId o data) s = execDeviceId o data s := rfl
theorem exec_portMode (o data s) : exec (.portMode o data) s = execPortMode o data s := rfl
theorem exec_vfVectors (o data s) : exec (.vfVectors o data) s = execVfVectors o data s := rfl
theorem exec_read (fn arg s) : exec (.read fn arg) s = execRead fn arg s := rfl
theorem exec_write (fn arg s) : exec (.write fn arg) s = execWrite fn arg s := rfl
theorem exec_segRead (fn arg s) : exec (.segRead fn arg) s = execSegRead fn arg s := rfl
theorem exec_segWrite (fn arg s) : exec (.segWrite fn arg) s = execSegWrite fn arg s := rfl
theorem exec_endXfer (fn arg s) : exec (.endXfer fn arg) s = execEndXfer fn arg s := rfl
theorem exec_abort (fn arg s) : exec (.abort fn arg) s = execAbort fn arg s := rfl
theorem exec_kdwDataWrite (fn size value s) : exec (.kdwDataWrite fn size value) s = execKdwDataWrite fn size value s := rfl
theorem exec_kdwDataRead (fn size s) : exec (.kdwDataRead fn size) s = execKdwDataRead fn size s := rfl
theorem exec_kdpRead (o m s) : exec (.kdpRead o m) s = execKdpRead o m s := rfl
theorem exec_kdpWrite (o m s) : exec (.kdpWrite o m) s = execKdpWrite o m s := rfl
theorem exec_segReadStart (o m s) : exec (.segReadStart o m) s = execSegReadStart o m s := rfl
theorem exec_segWriteStart (o m s) : exec (.segWriteStart o m) s = execSegWriteStart o m s := rfl
theorem exec_segData (o m s) : exec (.segData o m) s = execSegData o m s := rfl
theorem exec_segEnd (o m s) : exec (.segEnd o m) s = execSegEnd o m s := rfl
theorem exec_segAbort (o m s) : exec (.segAbort o m) s = execSegAbort o m s := rfl
theorem exec_segTimeout (h s) : exec (.segTimeout h) s = execSegTimeout h s := rfl
theorem exec_setEndpointId (eid binding newEid s) : exec (.setEndpointId eid binding newEid) s = execSetEndpointId eid binding newEid s := rfl
theorem exec_getEndpointId (eid binding s) : exec (.getEndpointId eid binding) s = execGetEndpointId eid binding s := rfl
theorem exec_getMctpVersionSupport (eid binding msgType s) : exec (.getMctpVersionSupport eid binding msgType) s = execGetMctpVersionSupport eid binding msgType s := rfl
theorem exec_getMessageTypeSupport (eid binding s) : exec (.getMessageTypeSupport eid binding) s = execGetMessageTypeSupport eid binding s := rfl
theorem exec_getVendorDefinedMessageSupport (eid binding selector s) : exec (.getVendorDefinedMessageSupport eid binding selector) s = execGetVendorDefinedMessageSupport eid binding selector s := rfl
theorem exec_dictWrite (o index sub data t s) : exec (.dictWrite o index sub data t) s = execDictWrite o index sub data t s := rfl
theorem exec_persistCommit (verified s) : exec (.persistCommit verified) s = execPersistCommit verified s := rfl
theorem exec_logAck (o data s) : exec (.logAck o data) s = execLogAck o data s := rfl
theorem exec_logMode (o data s) : exec (.logMode o data) s = execLogMode o data s := rfl
theorem exec_logRead (o s) : exec (.logRead o) s = execLogRead o s := rfl
theorem exec_calTime (o data s) : exec (.calTime o data) s = execCalTime o data s := rfl
theorem exec_calState (o data s) : exec (.calState o data) s = execCalState o data s := rfl
theorem exec_quoteReq (n o data s) : exec (.quoteReq n o data) s = execQuoteReq n o data s := rfl
theorem exec_quoteSigned (s) : exec .quoteSigned s = execQuoteSigned s := rfl
theorem exec_measExtend (o data s) : exec (.measExtend o data) s = execMeasExtend o data s := rfl
theorem exec_imeasExtend (n o data s) : exec (.imeasExtend n o data) s = execImeasExtend n o data s := rfl
theorem exec_svnRaise (o data s) : exec (.svnRaise o data) s = execSvnRaise o data s := rfl
theorem exec_fwStage (o data s) : exec (.fwStage o data) s = execFwStage o data s := rfl
theorem exec_fwSwitch (o data s) : exec (.fwSwitch o data) s = execFwSwitch o data s := rfl
theorem exec_fwSwitchFail (s) : exec .fwSwitchFail s = execFwSwitchFail s := rfl
theorem exec_evtAck (c s) : exec (.evtAck c) s = execEvtAck c s := rfl
theorem exec_evtMask (c s) : exec (.evtMask c) s = execEvtMask c s := rfl
theorem exec_eventHoldoffEnd (g s) : exec (.eventHoldoffEnd g) s = execEventHoldoffEnd g s := rfl
theorem exec_keeperWatchdog (s) : exec .keeperWatchdog s = execKeeperWatchdog s := rfl
theorem exec_keeperRestart (s) : exec .keeperRestart s = execKeeperRestart s := rfl
theorem exec_warmReset (o data s) : exec (.warmReset o data) s = execWarmReset o data s := rfl
theorem exec_deviceClassError (s) : exec .deviceClassError s = execDeviceClassError s := rfl
theorem exec_perstAssert (s) : exec .perstAssert s = execPerstAssert s := rfl
theorem exec_perstDeassert (s) : exec .perstDeassert s = execPerstDeassert s := rfl
theorem exec_bringupTimeout (s) : exec .bringupTimeout s = execBringupTimeout s := rfl
theorem exec_railFault (rail s) : exec (.railFault rail) s = execRailFault rail s := rfl
theorem exec_thermalSample (temps s) : exec (.thermalSample temps) s = execThermalSample temps s := rfl
theorem exec_throttleStepUp (s) : exec .throttleStepUp s = execThrottleStepUp s := rfl
theorem exec_arithTrapDelivery (f s) : exec (.arithTrapDelivery f) s = execArithTrapDelivery f s := rfl
theorem exec_add (f x s) : exec (.add f x) s = execAdd f x s := rfl
theorem exec_sub (f x s) : exec (.sub f x) s = execSub f x s := rfl
theorem exec_neg (f x s) : exec (.neg f x) s = execNeg f x s := rfl
theorem exec_abs (f x s) : exec (.abs f x) s = execAbs f x s := rfl
theorem exec_and (f x s) : exec (.and f x) s = execAnd f x s := rfl
theorem exec_or (f x s) : exec (.or f x) s = execOr f x s := rfl
theorem exec_xor (f x s) : exec (.xor f x) s = execXor f x s := rfl
theorem exec_andn (f x s) : exec (.andn f x) s = execAndn f x s := rfl
theorem exec_sll (f x s) : exec (.sll f x) s = execSll f x s := rfl
theorem exec_srl (f x s) : exec (.srl f x) s = execSrl f x s := rfl
theorem exec_sra (f x s) : exec (.sra f x) s = execSra f x s := rfl
theorem exec_ror (f x s) : exec (.ror f x) s = execRor f x s := rfl
theorem exec_min (f x s) : exec (.min f x) s = execMin f x s := rfl
theorem exec_max (f x s) : exec (.max f x) s = execMax f x s := rfl
theorem exec_minu (f x s) : exec (.minu f x) s = execMinu f x s := rfl
theorem exec_maxu (f x s) : exec (.maxu f x) s = execMaxu f x s := rfl
theorem exec_seq (f x s) : exec (.seq f x) s = execSeq f x s := rfl
theorem exec_slt (f x s) : exec (.slt f x) s = execSlt f x s := rfl
theorem exec_sltu (f x s) : exec (.sltu f x) s = execSltu f x s := rfl
theorem exec_clz (f x s) : exec (.clz f x) s = execClz f x s := rfl
theorem exec_ctz (f x s) : exec (.ctz f x) s = execCtz f x s := rfl
theorem exec_popc (f x s) : exec (.popc f x) s = execPopc f x s := rfl
theorem exec_bswap (f x s) : exec (.bswap f x) s = execBswap f x s := rfl
theorem exec_addcy (f x s) : exec (.addcy f x) s = execAddcy f x s := rfl
theorem exec_addc (f x s) : exec (.addc f x) s = execAddc f x s := rfl
theorem exec_subby (f x s) : exec (.subby f x) s = execSubby f x s := rfl
theorem exec_subb (f x s) : exec (.subb f x) s = execSubb f x s := rfl
theorem exec_addi (f x s) : exec (.addi f x) s = execAddi f x s := rfl
theorem exec_andi (f x s) : exec (.andi f x) s = execAndi f x s := rfl
theorem exec_ori (f x s) : exec (.ori f x) s = execOri f x s := rfl
theorem exec_xori (f x s) : exec (.xori f x) s = execXori f x s := rfl
theorem exec_slli (f x s) : exec (.slli f x) s = execSlli f x s := rfl
theorem exec_srli (f x s) : exec (.srli f x) s = execSrli f x s := rfl
theorem exec_srai (f x s) : exec (.srai f x) s = execSrai f x s := rfl
theorem exec_slti (f x s) : exec (.slti f x) s = execSlti f x s := rfl
theorem exec_lui (f x s) : exec (.lui f x) s = execLui f x s := rfl
theorem exec_auipc (f x s) : exec (.auipc f x) s = execAuipc f x s := rfl
theorem exec_srar (f x s) : exec (.srar f x) s = execSrar f x s := rfl
theorem exec_mul (f x s) : exec (.mul f x) s = execMul f x s := rfl
theorem exec_mulh (f x s) : exec (.mulh f x) s = execMulh f x s := rfl
theorem exec_mulhu (f x s) : exec (.mulhu f x) s = execMulhu f x s := rfl
theorem exec_mulw (f x s) : exec (.mulw f x) s = execMulw f x s := rfl
theorem exec_mulwu (f x s) : exec (.mulwu f x) s = execMulwu f x s := rfl
theorem exec_mulq (f x s) : exec (.mulq f x) s = execMulq f x s := rfl
theorem exec_div (f x s) : exec (.div f x) s = execDiv f x s := rfl
theorem exec_divu (f x s) : exec (.divu f x) s = execDivu f x s := rfl
theorem exec_rem (f x s) : exec (.rem f x) s = execRem f x s := rfl
theorem exec_remu (f x s) : exec (.remu f x) s = execRemu f x s := rfl
theorem exec_divw (f x s) : exec (.divw f x) s = execDivw f x s := rfl
theorem exec_divwu (f x s) : exec (.divwu f x) s = execDivwu f x s := rfl
theorem exec_accclr (f x s) : exec (.accclr f x) s = execAccclr f x s := rfl
theorem exec_accadd (f x s) : exec (.accadd f x) s = execAccadd f x s := rfl
theorem exec_accaddw (f x s) : exec (.accaddw f x) s = execAccaddw f x s := rfl
theorem exec_accmac (f x s) : exec (.accmac f x) s = execAccmac f x s := rfl
theorem exec_accmsu (f x s) : exec (.accmsu f x) s = execAccmsu f x s := rfl
theorem exec_accwr (f x s) : exec (.accwr f x) s = execAccwr f x s := rfl
theorem exec_accrd (f x s) : exec (.accrd f x) s = execAccrd f x s := rfl
theorem exec_accrdw (f x s) : exec (.accrdw f x) s = execAccrdw f x s := rfl
theorem exec_accrdx (f x s) : exec (.accrdx f x) s = execAccrdx f x s := rfl
theorem exec_bina (f x s) : exec (.bina f x) s = execBina f x s := rfl
theorem exec_binb (f x s) : exec (.binb f x) s = execBinb f x s := rfl
theorem exec_lb (f x s) : exec (.lb f x) s = execLb f x s := rfl
theorem exec_lh (f x s) : exec (.lh f x) s = execLh f x s := rfl
theorem exec_lw (f x s) : exec (.lw f x) s = execLw f x s := rfl
theorem exec_ld (f x s) : exec (.ld f x) s = execLd f x s := rfl
theorem exec_lbu (f x s) : exec (.lbu f x) s = execLbu f x s := rfl
theorem exec_lhu (f x s) : exec (.lhu f x) s = execLhu f x s := rfl
theorem exec_lwu (f x s) : exec (.lwu f x) s = execLwu f x s := rfl
theorem exec_lq (f x s) : exec (.lq f x) s = execLq f x s := rfl
theorem exec_sb (f x s) : exec (.sb f x) s = execSb f x s := rfl
theorem exec_sh (f x s) : exec (.sh f x) s = execSh f x s := rfl
theorem exec_sw (f x s) : exec (.sw f x) s = execSw f x s := rfl
theorem exec_sd (f x s) : exec (.sd f x) s = execSd f x s := rfl
theorem exec_sq (f x s) : exec (.sq f x) s = execSq f x s := rfl
theorem exec_lbL (f x s) : exec (.lbL f x) s = execLbL f x s := rfl
theorem exec_lhL (f x s) : exec (.lhL f x) s = execLhL f x s := rfl
theorem exec_lwL (f x s) : exec (.lwL f x) s = execLwL f x s := rfl
theorem exec_ldL (f x s) : exec (.ldL f x) s = execLdL f x s := rfl
theorem exec_lbuL (f x s) : exec (.lbuL f x) s = execLbuL f x s := rfl
theorem exec_lhuL (f x s) : exec (.lhuL f x) s = execLhuL f x s := rfl
theorem exec_lwuL (f x s) : exec (.lwuL f x) s = execLwuL f x s := rfl
theorem exec_lqL (f x s) : exec (.lqL f x) s = execLqL f x s := rfl
theorem exec_sbL (f x s) : exec (.sbL f x) s = execSbL f x s := rfl
theorem exec_shL (f x s) : exec (.shL f x) s = execShL f x s := rfl
theorem exec_swL (f x s) : exec (.swL f x) s = execSwL f x s := rfl
theorem exec_sdL (f x s) : exec (.sdL f x) s = execSdL f x s := rfl
theorem exec_sqL (f x s) : exec (.sqL f x) s = execSqL f x s := rfl
theorem exec_amoadd (f x s) : exec (.amoadd f x) s = execAmoadd f x s := rfl
theorem exec_amoswap (f x s) : exec (.amoswap f x) s = execAmoswap f x s := rfl
theorem exec_amocas (f x s) : exec (.amocas f x) s = execAmocas f x s := rfl
theorem exec_fence (f x s) : exec (.fence f x) s = execFence f x s := rfl
theorem exec_fenceRel (f x s) : exec (.fenceRel f x) s = execFenceRel f x s := rfl
theorem exec_fenceAcq (f x s) : exec (.fenceAcq f x) s = execFenceAcq f x s := rfl
theorem exec_beq (f x s) : exec (.beq f x) s = execBeq f x s := rfl
theorem exec_bne (f x s) : exec (.bne f x) s = execBne f x s := rfl
theorem exec_blt (f x s) : exec (.blt f x) s = execBlt f x s := rfl
theorem exec_bge (f x s) : exec (.bge f x) s = execBge f x s := rfl
theorem exec_bltu (f x s) : exec (.bltu f x) s = execBltu f x s := rfl
theorem exec_bgeu (f x s) : exec (.bgeu f x) s = execBgeu f x s := rfl
theorem exec_jal (f x s) : exec (.jal f x) s = execJal f x s := rfl
theorem exec_jalr (f x s) : exec (.jalr f x) s = execJalr f x s := rfl
theorem exec_loop (f x s) : exec (.loop f x) s = execLoop f x s := rfl
theorem exec_abar (f x s) : exec (.abar f x) s = execAbar f x s := rfl
theorem exec_mdone (f x s) : exec (.mdone f x) s = execMdone f x s := rfl
theorem exec_memit (f x s) : exec (.memit f x) s = execMemit f x s := rfl
theorem exec_brk (f x s) : exec (.brk f x) s = execBrk f x s := rfl
theorem exec_rtp (f x s) : exec (.rtp f x) s = execRtp f x s := rfl
theorem exec_rdcr (f x s) : exec (.rdcr f x) s = execRdcr f x s := rfl
theorem exec_wrcr (f x s) : exec (.wrcr f x) s = execWrcr f x s := rfl
theorem exec_setcr (f x s) : exec (.setcr f x) s = execSetcr f x s := rfl
theorem exec_clrcr (f x s) : exec (.clrcr f x) s = execClrcr f x s := rfl
theorem exec_vsetvl (f x s) : exec (.vsetvl f x) s = execVsetvl f x s := rfl
theorem exec_vadd (f x s) : exec (.vadd f x) s = execVadd f x s := rfl
theorem exec_vsub (f x s) : exec (.vsub f x) s = execVsub f x s := rfl
theorem exec_vneg (f x s) : exec (.vneg f x) s = execVneg f x s := rfl
theorem exec_vabs (f x s) : exec (.vabs f x) s = execVabs f x s := rfl
theorem exec_vand (f x s) : exec (.vand f x) s = execVand f x s := rfl
theorem exec_vor (f x s) : exec (.vor f x) s = execVor f x s := rfl
theorem exec_vxor (f x s) : exec (.vxor f x) s = execVxor f x s := rfl
theorem exec_vandn (f x s) : exec (.vandn f x) s = execVandn f x s := rfl
theorem exec_vsll (f x s) : exec (.vsll f x) s = execVsll f x s := rfl
theorem exec_vsrl (f x s) : exec (.vsrl f x) s = execVsrl f x s := rfl
theorem exec_vsra (f x s) : exec (.vsra f x) s = execVsra f x s := rfl
theorem exec_vmin (f x s) : exec (.vmin f x) s = execVmin f x s := rfl
theorem exec_vmax (f x s) : exec (.vmax f x) s = execVmax f x s := rfl
theorem exec_vminu (f x s) : exec (.vminu f x) s = execVminu f x s := rfl
theorem exec_vmaxu (f x s) : exec (.vmaxu f x) s = execVmaxu f x s := rfl
theorem exec_vmul (f x s) : exec (.vmul f x) s = execVmul f x s := rfl
theorem exec_vmulh (f x s) : exec (.vmulh f x) s = execVmulh f x s := rfl
theorem exec_vmulhu (f x s) : exec (.vmulhu f x) s = execVmulhu f x s := rfl
theorem exec_vaddVx (f x s) : exec (.vaddVx f x) s = execVaddVx f x s := rfl
theorem exec_vsubVx (f x s) : exec (.vsubVx f x) s = execVsubVx f x s := rfl
theorem exec_vandVx (f x s) : exec (.vandVx f x) s = execVandVx f x s := rfl
theorem exec_vorVx (f x s) : exec (.vorVx f x) s = execVorVx f x s := rfl
theorem exec_vxorVx (f x s) : exec (.vxorVx f x) s = execVxorVx f x s := rfl
theorem exec_vandnVx (f x s) : exec (.vandnVx f x) s = execVandnVx f x s := rfl
theorem exec_vsllVx (f x s) : exec (.vsllVx f x) s = execVsllVx f x s := rfl
theorem exec_vsrlVx (f x s) : exec (.vsrlVx f x) s = execVsrlVx f x s := rfl
theorem exec_vsraVx (f x s) : exec (.vsraVx f x) s = execVsraVx f x s := rfl
theorem exec_vminVx (f x s) : exec (.vminVx f x) s = execVminVx f x s := rfl
theorem exec_vmaxVx (f x s) : exec (.vmaxVx f x) s = execVmaxVx f x s := rfl
theorem exec_vminuVx (f x s) : exec (.vminuVx f x) s = execVminuVx f x s := rfl
theorem exec_vmaxuVx (f x s) : exec (.vmaxuVx f x) s = execVmaxuVx f x s := rfl
theorem exec_vmulVx (f x s) : exec (.vmulVx f x) s = execVmulVx f x s := rfl
theorem exec_vmulhVx (f x s) : exec (.vmulhVx f x) s = execVmulhVx f x s := rfl
theorem exec_vmulhuVx (f x s) : exec (.vmulhuVx f x) s = execVmulhuVx f x s := rfl
theorem exec_vmulq (f x s) : exec (.vmulq f x) s = execVmulq f x s := rfl
theorem exec_vsrar (f x s) : exec (.vsrar f x) s = execVsrar f x s := rfl
theorem exec_vcmpeq (f x s) : exec (.vcmpeq f x) s = execVcmpeq f x s := rfl
theorem exec_vcmpne (f x s) : exec (.vcmpne f x) s = execVcmpne f x s := rfl
theorem exec_vcmplt (f x s) : exec (.vcmplt f x) s = execVcmplt f x s := rfl
theorem exec_vcmple (f x s) : exec (.vcmple f x) s = execVcmple f x s := rfl
theorem exec_vcmpltu (f x s) : exec (.vcmpltu f x) s = execVcmpltu f x s := rfl
theorem exec_vcmpleu (f x s) : exec (.vcmpleu f x) s = execVcmpleu f x s := rfl
theorem exec_vmand (f x s) : exec (.vmand f x) s = execVmand f x s := rfl
theorem exec_vmor (f x s) : exec (.vmor f x) s = execVmor f x s := rfl
theorem exec_vmxor (f x s) : exec (.vmxor f x) s = execVmxor f x s := rfl
theorem exec_vmandn (f x s) : exec (.vmandn f x) s = execVmandn f x s := rfl
theorem exec_vcompress (f x s) : exec (.vcompress f x) s = execVcompress f x s := rfl
theorem exec_vexpand (f x s) : exec (.vexpand f x) s = execVexpand f x s := rfl
theorem exec_vmerge (f x s) : exec (.vmerge f x) s = execVmerge f x s := rfl
theorem exec_vpopc (f x s) : exec (.vpopc f x) s = execVpopc f x s := rfl
theorem exec_vfirst (f x s) : exec (.vfirst f x) s = execVfirst f x s := rfl
theorem exec_viota (f x s) : exec (.viota f x) s = execViota f x s := rfl
theorem exec_vacclr (f x s) : exec (.vacclr f x) s = execVacclr f x s := rfl
theorem exec_vacadd (f x s) : exec (.vacadd f x) s = execVacadd f x s := rfl
theorem exec_vacaddu (f x s) : exec (.vacaddu f x) s = execVacaddu f x s := rfl
theorem exec_vacmac (f x s) : exec (.vacmac f x) s = execVacmac f x s := rfl
theorem exec_vacmsu (f x s) : exec (.vacmsu f x) s = execVacmsu f x s := rfl
theorem exec_vacsum (f x s) : exec (.vacsum f x) s = execVacsum f x s := rfl
theorem exec_vacrd (f x s) : exec (.vacrd f x) s = execVacrd f x s := rfl
theorem exec_vbina (f x s) : exec (.vbina f x) s = execVbina f x s := rfl
theorem exec_vbinb (f x s) : exec (.vbinb f x) s = execVbinb f x s := rfl
theorem exec_vsort (f x s) : exec (.vsort f x) s = execVsort f x s := rfl
theorem exec_vsortp (f x s) : exec (.vsortp f x) s = execVsortp f x s := rfl
theorem exec_vmrglo (f x s) : exec (.vmrglo f x) s = execVmrglo f x s := rfl
theorem exec_vmrghi (f x s) : exec (.vmrghi f x) s = execVmrghi f x s := rfl
theorem exec_vmv (f x s) : exec (.vmv f x) s = execVmv f x s := rfl
theorem exec_vget (f x s) : exec (.vget f x) s = execVget f x s := rfl
theorem exec_vput (f x s) : exec (.vput f x) s = execVput f x s := rfl
theorem exec_vsplat (f x s) : exec (.vsplat f x) s = execVsplat f x s := rfl
theorem exec_vld (f x s) : exec (.vld f x) s = execVld f x s := rfl
theorem exec_vldL (f x s) : exec (.vldL f x) s = execVldL f x s := rfl
theorem exec_vldff (f x s) : exec (.vldff f x) s = execVldff f x s := rfl
theorem exec_vst (f x s) : exec (.vst f x) s = execVst f x s := rfl
theorem exec_vstL (f x s) : exec (.vstL f x) s = execVstL f x s := rfl
theorem exec_vlds (f x s) : exec (.vlds f x) s = execVlds f x s := rfl
theorem exec_vldsL (f x s) : exec (.vldsL f x) s = execVldsL f x s := rfl
theorem exec_vsts (f x s) : exec (.vsts f x) s = execVsts f x s := rfl
theorem exec_vstsL (f x s) : exec (.vstsL f x) s = execVstsL f x s := rfl
theorem exec_vgath (f x s) : exec (.vgath f x) s = execVgath f x s := rfl
theorem exec_vgathL (f x s) : exec (.vgathL f x) s = execVgathL f x s := rfl
theorem exec_vgathff (f x s) : exec (.vgathff f x) s = execVgathff f x s := rfl
theorem exec_vscat (f x s) : exec (.vscat f x) s = execVscat f x s := rfl
theorem exec_vscatL (f x s) : exec (.vscatL f x) s = execVscatL f x s := rfl
theorem exec_movs (f x s) : exec (.movs f x) s = execMovs f x s := rfl
theorem exec_fills (f x s) : exec (.fills f x) s = execFills f x s := rfl
theorem exec_cmps (f x s) : exec (.cmps f x) s = execCmps f x s := rfl
theorem exec_scans (f x s) : exec (.scans f x) s = execScans f x s := rfl
theorem exec_matchs (f x s) : exec (.matchs f x) s = execMatchs f x s := rfl
theorem exec_amlk (f x s) : exec (.amlk f x) s = execAmlk f x s := rfl
theorem exec_amwr (f x s) : exec (.amwr f x) s = execAmwr f x s := rfl
theorem exec_amrd (f x s) : exec (.amrd f x) s = execAmrd f x s := rfl
theorem exec_dginit (f x s) : exec (.dginit f x) s = execDginit f x s := rfl
theorem exec_dgupd (f x s) : exec (.dgupd f x) s = execDgupd f x s := rfl
theorem exec_dgfin (f x s) : exec (.dgfin f x) s = execDgfin f x s := rfl
theorem exec_dgabt (f x s) : exec (.dgabt f x) s = execDgabt f x s := rfl
theorem exec_dgcmp (f x s) : exec (.dgcmp f x) s = execDgcmp f x s := rfl
theorem exec_saddleOp (f word s) : exec (.saddleOp f word) s = execSaddleOp f word s := rfl
theorem exec_illegalInstruction (f word s) : exec (.illegalInstruction f word) s = execIllegalInstruction f word s := rfl
theorem exec_fetchFault (f s) : exec (.fetchFault f) s = execFetchFault f s := rfl
theorem exec_d0ToD3hot (fn s) : exec (.d0ToD3hot fn) s = execD0ToD3hot fn s := rfl
theorem exec_pcieHotReset (t s) : exec (.pcieHotReset t) s = execPcieHotReset t s := rfl
theorem exec_hostCompletion (n gen a c s) : exec (.hostCompletion n gen a c) s = execHostCompletion n gen a c s := rfl
theorem exec_mainPowerOn (s) : exec .mainPowerOn s = execMainPowerOn s := rfl
theorem exec_mainPowerOff (cut s) : exec (.mainPowerOff cut) s = execMainPowerOff cut s := rfl
theorem exec_calendarStop (s) : exec .calendarStop s = execCalendarStop s := rfl
theorem exec_bringupStepComplete (e s) : exec (.bringupStepComplete e) s = execBringupStepComplete e s := rfl
theorem exec_resultDigestChunk (u jid buffer s) : exec (.resultDigestChunk u jid buffer) s = execResultDigestChunk u jid buffer s := rfl
theorem exec_kdpResponseExpiry (o tag s) : exec (.kdpResponseExpiry o tag) s = execKdpResponseExpiry o tag s := rfl

end Sys2Proof.Machine
end

