-- ==== Sys2Proof/Laws/Forager.lean ====
section
/-!
SUPPORT. What the shared operation of the Forager commands can do: one lemma for each way in which it ends.
-/

namespace Sys2Proof.Machine

/-- A Forager that does not execute leaves the state as it is. -/
theorem runFgr_absent {f : FId} {w : W32} {chk : FRegs → Option Nat} {body : State → Fgr → State × FRes} {s : State}
    (h : s.fgr? f = none) : runFgr f w chk body s = .next s := by
  simp [runFgr, h]

theorem runFgr_asleep {f : FId} {w : W32} {chk : FRegs → Option Nat} {body : State → Fgr → State × FRes} {s : State} {g : Fgr}
    (h : s.fgr? f = some g) (hl : s.fgrLive f g = false) : runFgr f w chk body s = .next s := by
  simp [runFgr, h, hl]

/-- A trap that has come due is delivered in place of the instruction. -/
theorem runFgr_due {f : FId} {w : W32} {chk : FRegs → Option Nat} {body : State → Fgr → State × FRes} {s : State} {g : Fgr}
    (h : s.fgr? f = some g) (hl : s.fgrLive f g = true) (hd : g.regs.due = true) :
    runFgr f w chk body s = .next (s.takeArith f g.regs) := by
  simp [runFgr, h, hl, hd]

/-- A check that fails raises its cause with the word in TVAL. -/
theorem runFgr_refused {f : FId} {w : W32} {chk : FRegs → Option Nat} {body : State → Fgr → State × FRes} {s : State} {g : Fgr} {c : Nat}
    (h : s.Runs f g) (hc : chk g.regs = some c) :
    runFgr f w chk body s = .next (s.preciseTrap f g.regs c (w.setWidth 64)) := by
  obtain ⟨h1, h2, h3⟩ := h
  simp [runFgr, h1, h2, h3, hc]

/-- The body runs and its result is finished. -/
theorem runFgr_body {f : FId} {w : W32} {chk : FRegs → Option Nat} {body : State → Fgr → State × FRes} {s : State} {g : Fgr}
    (h : s.Runs f g) (hc : chk g.regs = none) :
    runFgr f w chk body s = .next ((body s g).1.finish f g.regs (body s g).2) := by
  obtain ⟨h1, h2, h3⟩ := h
  simp [runFgr, h1, h2, h3, hc]

/-- Retirement with quiet registers delivers no trap. -/
theorem retireFgr_quiet {f : FId} {s : State} {g : Fgr} {r : FRegs} {t : Option (BitVec 48)} (hq : r.Quiet) :
    s.retireFgr f g.regs r t false = s.retired f g r t := by
  have h : ((g.regs.retire r t (Config.instrCycles s.draw)).pend.isSome &&
      (g.regs.pend.isNone && r.fxprecise)) = false := by
    rcases hq with hn | hf
    · simp [FRegs.retire, hn]
    · simp [hf]
  simp only [State.retireFgr, State.retired, Bool.false_or, h]
  rfl

end Sys2Proof.Machine
end

