-- ==== Sys2Proof/Laws/Memory.lean ====
section
/-!
SUPPORT. The byte memories: every memory operation keeps the canonical form, a byte reads back what was written to it, and a write leaves every other
byte alone.
-/

namespace Sys2Proof.Machine

-- THE CANONICAL FORM ------------------------------------------------------------------------------------------------------------------------------

theorem Memory.wfFrom_cons {lo k : Nat} {v : Byte} {t : List Host.Cell} :
    Memory.wfFrom lo ((k, v) :: t) = true ↔ lo ≤ k ∧ v ≠ 0 ∧ Memory.wfFrom (k + 1) t = true := by
  simp [Memory.wfFrom, and_assoc]

/-- A lower floor asks less. -/
theorem Memory.wfFrom_mono {lo hi : Nat} {m : List Host.Cell} (h : lo ≤ hi) (hw : Memory.wfFrom hi m = true) : Memory.wfFrom lo m = true := by
  cases m with
  | nil => rfl
  | cons c t =>
    obtain ⟨k, v⟩ := c
    rw [Memory.wfFrom_cons] at hw ⊢
    exact ⟨by omega, hw.2⟩

theorem Memory.wf_nil : Memory.wf [] = true := rfl

theorem memSet_wfFrom {m : List Host.Cell} {lo a : Nat} {b : Byte} (hl : lo ≤ a) (hw : Memory.wfFrom lo m = true) :
    Memory.wfFrom lo (memSet m a b) = true := by
  induction m generalizing lo with
  | nil =>
    unfold memSet
    split
    · rfl
    · rename_i hb
      simp [Memory.wfFrom, hl]
      exact hb
  | cons c t ih =>
    obtain ⟨k, v⟩ := c
    rw [Memory.wfFrom_cons] at hw
    unfold memSet
    split
    · rename_i h1
      split
      · exact Memory.wfFrom_cons.mpr hw
      · rename_i hb
        exact Memory.wfFrom_cons.mpr ⟨hl, hb, Memory.wfFrom_cons.mpr ⟨h1, hw.2⟩⟩
    · split
      · split
        · exact Memory.wfFrom_mono (by omega) hw.2.2
        · rename_i hb
          exact Memory.wfFrom_cons.mpr ⟨hw.1, hb, hw.2.2⟩
      · exact Memory.wfFrom_cons.mpr ⟨hw.1, hw.2.1, ih (by omega) hw.2.2⟩

/-- Writing one byte keeps the canonical form. -/
theorem memSet_wf {m : List Host.Cell} (a : Nat) (b : Byte) (hw : Memory.wf m = true) : Memory.wf (memSet m a b) = true :=
  memSet_wfFrom (Nat.zero_le a) hw

/-- Writing bytes keeps the canonical form. -/
theorem memWrite_wf {m : List Host.Cell} (a : Nat) (bs : List Byte) (hw : Memory.wf m = true) : Memory.wf (memWrite m a bs) = true := by
  induction bs generalizing m a with
  | nil => exact hw
  | cons b bs ih => exact ih (a + 1) (memSet_wf a b hw)

/-- Dropping entries keeps the canonical form. -/
theorem Memory.wfFrom_filter {m : List Host.Cell} {lo : Nat} (p : Host.Cell → Bool) (hw : Memory.wfFrom lo m = true) :
    Memory.wfFrom lo (m.filter p) = true := by
  induction m generalizing lo with
  | nil => rfl
  | cons c t ih =>
    obtain ⟨k, v⟩ := c
    rw [Memory.wfFrom_cons] at hw
    rw [List.filter_cons]
    split
    · exact Memory.wfFrom_cons.mpr ⟨hw.1, hw.2.1, ih hw.2.2⟩
    · exact ih (Memory.wfFrom_mono (by omega) hw.2.2)

/-- Zeroing a range keeps the canonical form. -/
theorem memZero_wf {m : List Host.Cell} (a n : Nat) (hw : Memory.wf m = true) : Memory.wf (memZero m a n) = true :=
  Memory.wfFrom_filter _ hw

/-- Undefined contents keep the canonical form. -/
theorem undefine_wf (s : State) (n a k : Nat) (hw : Memory.wf s.mem = true) : Memory.wf (s.undefine n a k).mem = true := by
  have step : ∀ (l : List Nat) (m : List Host.Cell), Memory.wf m = true → Memory.wf (l.foldl (fun m j => match s.translate n (a + j) with
      | none => m
      | some (_, x) => memSet m (x.key n) (Config.undefinedByte s.draw (a + j))) m) = true := by
    intro l
    induction l with
    | nil => exact fun _ h => h
    | cons j t ih =>
      intro m h
      simp only [List.foldl_cons]
      apply ih
      split
      · exact h
      · exact memSet_wf _ _ h
  exact step _ _ hw

/-- A reset, which keeps the host's bytes alone, keeps the canonical form. -/
theorem hostCells_wf {m : List Host.Cell} (hw : Memory.wf m = true) : Memory.wf (hostCells m) = true :=
  Memory.wfFrom_filter _ hw

/-- The memory of the reset state stands in its canonical form. -/
theorem reset_mem_wf : Memory.wf State.reset.mem = true := rfl

-- READS -----------------------------------------------------------------------------------------------------------------------------------------------

/-- Below the floor nothing is listed. -/
theorem memGet_below {m : List Host.Cell} {lo a : Nat} (hw : Memory.wfFrom lo m = true) (h : a < lo) : memGet m a = 0 := by
  cases m with
  | nil => rfl
  | cons c t =>
    obtain ⟨k, v⟩ := c
    rw [Memory.wfFrom_cons] at hw
    simp [memGet, show a < k by omega]

theorem memGet_memSet_from {m : List Host.Cell} {lo : Nat} (a x : Nat) (b : Byte) (hw : Memory.wfFrom lo m = true) :
    memGet (memSet m a b) x = if x = a then b else memGet m x := by
  induction m generalizing lo with
  | nil =>
    unfold memSet
    split <;> rename_i hb
    · simp [memGet, hb]
    · simp only [memGet]; split <;> split <;> first | rfl | omega
  | cons c t ih =>
    obtain ⟨k, v⟩ := c
    rw [Memory.wfFrom_cons] at hw
    have ht : ∀ y, y ≤ k → memGet t y = 0 := fun y hy => memGet_below hw.2.2 (by omega)
    unfold memSet
    split
    · rename_i h1
      by_cases hb : b = 0
      · rw [if_pos hb]
        by_cases hx : x = a
        · simp [hb, hx, memGet, h1]
        · simp [hx]
      · rw [if_neg hb]
        by_cases hx : x = a
        · simp [hx, memGet]
        · by_cases hlt : x < a
          · simp [hx, hlt, memGet, show x < k by omega]
          · simp [hx, hlt, memGet]
    · split
      · split <;> rename_i h1 h2 hb
        · subst h2
          simp only [memGet]
          by_cases hx : x = a
          · simp [hx, hb, ht a (Nat.le_refl a)]
          · by_cases hlt : x < a
            · simp [hx, hlt, ht x (by omega)]
            · simp [hx, hlt]
        · subst h2
          simp only [memGet]; split <;> (try split) <;> first | rfl | omega
      · simp only [memGet, ih hw.2.2]; split <;> (try split) <;> (try split) <;> first | rfl | omega

/-- A byte reads back what was written to it, and every other byte is as before. -/
theorem memGet_memSet {m : List Host.Cell} (a x : Nat) (b : Byte) (hw : Memory.wf m = true) :
    memGet (memSet m a b) x = if x = a then b else memGet m x :=
  memGet_memSet_from a x b hw

theorem memGet_filter_from {m : List Host.Cell} {lo : Nat} (p : Nat → Bool) (x : Nat) (hw : Memory.wfFrom lo m = true) :
    memGet (m.filter fun c => p c.1) x = if p x = true then memGet m x else 0 := by
  induction m generalizing lo with
  | nil => simp [memGet]
  | cons c t ih =>
    obtain ⟨k, v⟩ := c
    rw [Memory.wfFrom_cons] at hw
    have hx : x < k → memGet t x = 0 := fun h => memGet_below hw.2.2 (by omega)
    rw [List.filter_cons]
    by_cases hk : p k = true
    · simp only [hk, if_true, memGet, ih hw.2.2]
      split
      · simp
      · split
        · rename_i h; subst h; simp [hk]
        · rfl
    · simp only [hk, memGet, ih hw.2.2, Bool.false_eq_true, if_false]
      by_cases hp : p x = true
      · by_cases hlt : x < k
        · simp [hp, hlt, hx hlt]
        · have hne : x ≠ k := by rintro rfl; exact hk hp
          simp [hp, hlt, hne]
      · simp [hp]

/-- A zeroed range reads zero, and every other byte is as before. -/
theorem memGet_memZero {m : List Host.Cell} (a n x : Nat) (hw : Memory.wf m = true) :
    memGet (memZero m a n) x = if x < a ∨ a + n ≤ x then memGet m x else 0 := by
  have h := memGet_filter_from (fun k => decide (k < a) || decide (a + n ≤ k)) x hw
  simpa [memZero] using h

/-- A reset keeps the host's bytes and no other. -/
theorem memGet_hostCells {m : List Host.Cell} (x : Nat) (hw : Memory.wf m = true) :
    memGet (hostCells m) x = if 2 ^ 48 ≤ x then memGet m x else 0 := by
  have h := memGet_filter_from (fun k => decide (2 ^ 48 ≤ k)) x hw
  simpa [hostCells] using h

end Sys2Proof.Machine
end

