-- ==== Sys2Proof/Laws/State.lean ====
section
/-!
SUPPORT. What each update of the state leaves alone, one lemma for each field, and what the updated place reads as afterwards.
-/

namespace Sys2Proof.Machine

-- modDie ----------------------------------------------------------------------------------------------

@[simp] theorem State.modDie_pending (s : State) (d : Nat) (f : Die → Die) : (s.modDie d f).pending = s.pending := rfl
@[simp] theorem State.modDie_part (s : State) (d : Nat) (f : Die → Die) : (s.modDie d f).part = s.part := rfl
@[simp] theorem State.modDie_frame (s : State) (d : Nat) (f : Die → Die) : (s.modDie d f).frame = s.frame := rfl
@[simp] theorem State.modDie_insts (s : State) (d : Nat) (f : Die → Die) : (s.modDie d f).insts = s.insts := rfl
@[simp] theorem State.modDie_jobs (s : State) (d : Nat) (f : Die → Die) : (s.modDie d f).jobs = s.jobs := rfl
@[simp] theorem State.modDie_cpls (s : State) (d : Nat) (f : Die → Die) : (s.modDie d f).cpls = s.cpls := rfl
@[simp] theorem State.modDie_changes (s : State) (d : Nat) (f : Die → Die) : (s.modDie d f).changes = s.changes := rfl
@[simp] theorem State.modDie_pages (s : State) (d : Nat) (f : Die → Die) : (s.modDie d f).pages = s.pages := rfl
@[simp] theorem State.modDie_mem (s : State) (d : Nat) (f : Die → Die) : (s.modDie d f).mem = s.mem := rfl
@[simp] theorem State.modDie_poison (s : State) (d : Nat) (f : Die → Die) : (s.modDie d f).poison = s.poison := rfl
@[simp] theorem State.modDie_ats (s : State) (d : Nat) (f : Die → Die) : (s.modDie d f).ats = s.ats := rfl
@[simp] theorem State.modDie_settings (s : State) (d : Nat) (f : Die → Die) : (s.modDie d f).settings = s.settings := rfl
@[simp] theorem State.modDie_keeper (s : State) (d : Nat) (f : Die → Die) : (s.modDie d f).keeper = s.keeper := rfl
@[simp] theorem State.modDie_propolis (s : State) (d : Nat) (f : Die → Die) : (s.modDie d f).propolis = s.propolis := rfl
@[simp] theorem State.modDie_events (s : State) (d : Nat) (f : Die → Die) : (s.modDie d f).events = s.events := rfl
@[simp] theorem State.modDie_power (s : State) (d : Nat) (f : Die → Die) : (s.modDie d f).power = s.power := rfl
@[simp] theorem State.modDie_fabric (s : State) (d : Nat) (f : Die → Die) : (s.modDie d f).fabric = s.fabric := rfl
@[simp] theorem State.modDie_saddle (s : State) (d : Nat) (f : Die → Die) : (s.modDie d f).saddle = s.saddle := rfl
@[simp] theorem State.modDie_out (s : State) (d : Nat) (f : Die → Die) : (s.modDie d f).out = s.out := rfl
@[simp] theorem State.modDie_fetchRound (s : State) (d : Nat) (f : Die → Die) : (s.modDie d f).fetchRound = s.fetchRound := rfl
@[simp] theorem State.modDie_nextJid (s : State) (d : Nat) (f : Die → Die) : (s.modDie d f).nextJid = s.nextJid := rfl
@[simp] theorem State.modDie_nextMid (s : State) (d : Nat) (f : Die → Die) : (s.modDie d f).nextMid = s.nextMid := rfl
@[simp] theorem State.modDie_draw (s : State) (d : Nat) (f : Die → Die) : (s.modDie d f).draw = s.draw := rfl

-- modFgr ----------------------------------------------------------------------------------------------

@[simp] theorem State.modFgr_pending (s : State) (f : FId) (h : Fgr → Fgr) : (s.modFgr f h).pending = s.pending := rfl
@[simp] theorem State.modFgr_part (s : State) (f : FId) (h : Fgr → Fgr) : (s.modFgr f h).part = s.part := rfl
@[simp] theorem State.modFgr_frame (s : State) (f : FId) (h : Fgr → Fgr) : (s.modFgr f h).frame = s.frame := rfl
@[simp] theorem State.modFgr_insts (s : State) (f : FId) (h : Fgr → Fgr) : (s.modFgr f h).insts = s.insts := rfl
@[simp] theorem State.modFgr_jobs (s : State) (f : FId) (h : Fgr → Fgr) : (s.modFgr f h).jobs = s.jobs := rfl
@[simp] theorem State.modFgr_cpls (s : State) (f : FId) (h : Fgr → Fgr) : (s.modFgr f h).cpls = s.cpls := rfl
@[simp] theorem State.modFgr_changes (s : State) (f : FId) (h : Fgr → Fgr) : (s.modFgr f h).changes = s.changes := rfl
@[simp] theorem State.modFgr_pages (s : State) (f : FId) (h : Fgr → Fgr) : (s.modFgr f h).pages = s.pages := rfl
@[simp] theorem State.modFgr_mem (s : State) (f : FId) (h : Fgr → Fgr) : (s.modFgr f h).mem = s.mem := rfl
@[simp] theorem State.modFgr_poison (s : State) (f : FId) (h : Fgr → Fgr) : (s.modFgr f h).poison = s.poison := rfl
@[simp] theorem State.modFgr_ats (s : State) (f : FId) (h : Fgr → Fgr) : (s.modFgr f h).ats = s.ats := rfl
@[simp] theorem State.modFgr_settings (s : State) (f : FId) (h : Fgr → Fgr) : (s.modFgr f h).settings = s.settings := rfl
@[simp] theorem State.modFgr_keeper (s : State) (f : FId) (h : Fgr → Fgr) : (s.modFgr f h).keeper = s.keeper := rfl
@[simp] theorem State.modFgr_propolis (s : State) (f : FId) (h : Fgr → Fgr) : (s.modFgr f h).propolis = s.propolis := rfl
@[simp] theorem State.modFgr_events (s : State) (f : FId) (h : Fgr → Fgr) : (s.modFgr f h).events = s.events := rfl
@[simp] theorem State.modFgr_power (s : State) (f : FId) (h : Fgr → Fgr) : (s.modFgr f h).power = s.power := rfl
@[simp] theorem State.modFgr_fabric (s : State) (f : FId) (h : Fgr → Fgr) : (s.modFgr f h).fabric = s.fabric := rfl
@[simp] theorem State.modFgr_saddle (s : State) (f : FId) (h : Fgr → Fgr) : (s.modFgr f h).saddle = s.saddle := rfl
@[simp] theorem State.modFgr_out (s : State) (f : FId) (h : Fgr → Fgr) : (s.modFgr f h).out = s.out := rfl
@[simp] theorem State.modFgr_fetchRound (s : State) (f : FId) (h : Fgr → Fgr) : (s.modFgr f h).fetchRound = s.fetchRound := rfl
@[simp] theorem State.modFgr_nextJid (s : State) (f : FId) (h : Fgr → Fgr) : (s.modFgr f h).nextJid = s.nextJid := rfl
@[simp] theorem State.modFgr_nextMid (s : State) (f : FId) (h : Fgr → Fgr) : (s.modFgr f h).nextMid = s.nextMid := rfl
@[simp] theorem State.modFgr_draw (s : State) (f : FId) (h : Fgr → Fgr) : (s.modFgr f h).draw = s.draw := rfl

-- modAmu ----------------------------------------------------------------------------------------------

@[simp] theorem State.modAmu_pending (s : State) (d : Nat) (f : Amu → Amu) : (s.modAmu d f).pending = s.pending := rfl
@[simp] theorem State.modAmu_part (s : State) (d : Nat) (f : Amu → Amu) : (s.modAmu d f).part = s.part := rfl
@[simp] theorem State.modAmu_frame (s : State) (d : Nat) (f : Amu → Amu) : (s.modAmu d f).frame = s.frame := rfl
@[simp] theorem State.modAmu_insts (s : State) (d : Nat) (f : Amu → Amu) : (s.modAmu d f).insts = s.insts := rfl
@[simp] theorem State.modAmu_jobs (s : State) (d : Nat) (f : Amu → Amu) : (s.modAmu d f).jobs = s.jobs := rfl
@[simp] theorem State.modAmu_cpls (s : State) (d : Nat) (f : Amu → Amu) : (s.modAmu d f).cpls = s.cpls := rfl
@[simp] theorem State.modAmu_changes (s : State) (d : Nat) (f : Amu → Amu) : (s.modAmu d f).changes = s.changes := rfl
@[simp] theorem State.modAmu_pages (s : State) (d : Nat) (f : Amu → Amu) : (s.modAmu d f).pages = s.pages := rfl
@[simp] theorem State.modAmu_mem (s : State) (d : Nat) (f : Amu → Amu) : (s.modAmu d f).mem = s.mem := rfl
@[simp] theorem State.modAmu_poison (s : State) (d : Nat) (f : Amu → Amu) : (s.modAmu d f).poison = s.poison := rfl
@[simp] theorem State.modAmu_ats (s : State) (d : Nat) (f : Amu → Amu) : (s.modAmu d f).ats = s.ats := rfl
@[simp] theorem State.modAmu_settings (s : State) (d : Nat) (f : Amu → Amu) : (s.modAmu d f).settings = s.settings := rfl
@[simp] theorem State.modAmu_keeper (s : State) (d : Nat) (f : Amu → Amu) : (s.modAmu d f).keeper = s.keeper := rfl
@[simp] theorem State.modAmu_propolis (s : State) (d : Nat) (f : Amu → Amu) : (s.modAmu d f).propolis = s.propolis := rfl
@[simp] theorem State.modAmu_events (s : State) (d : Nat) (f : Amu → Amu) : (s.modAmu d f).events = s.events := rfl
@[simp] theorem State.modAmu_power (s : State) (d : Nat) (f : Amu → Amu) : (s.modAmu d f).power = s.power := rfl
@[simp] theorem State.modAmu_fabric (s : State) (d : Nat) (f : Amu → Amu) : (s.modAmu d f).fabric = s.fabric := rfl
@[simp] theorem State.modAmu_saddle (s : State) (d : Nat) (f : Amu → Amu) : (s.modAmu d f).saddle = s.saddle := rfl
@[simp] theorem State.modAmu_out (s : State) (d : Nat) (f : Amu → Amu) : (s.modAmu d f).out = s.out := rfl
@[simp] theorem State.modAmu_fetchRound (s : State) (d : Nat) (f : Amu → Amu) : (s.modAmu d f).fetchRound = s.fetchRound := rfl
@[simp] theorem State.modAmu_nextJid (s : State) (d : Nat) (f : Amu → Amu) : (s.modAmu d f).nextJid = s.nextJid := rfl
@[simp] theorem State.modAmu_nextMid (s : State) (d : Nat) (f : Amu → Amu) : (s.modAmu d f).nextMid = s.nextMid := rfl
@[simp] theorem State.modAmu_draw (s : State) (d : Nat) (f : Amu → Amu) : (s.modAmu d f).draw = s.draw := rfl

-- modCc -----------------------------------------------------------------------------------------------

@[simp] theorem State.modCc_pending (s : State) (d : Nat) (f : CombCache → CombCache) : (s.modCc d f).pending = s.pending := rfl
@[simp] theorem State.modCc_part (s : State) (d : Nat) (f : CombCache → CombCache) : (s.modCc d f).part = s.part := rfl
@[simp] theorem State.modCc_frame (s : State) (d : Nat) (f : CombCache → CombCache) : (s.modCc d f).frame = s.frame := rfl
@[simp] theorem State.modCc_insts (s : State) (d : Nat) (f : CombCache → CombCache) : (s.modCc d f).insts = s.insts := rfl
@[simp] theorem State.modCc_jobs (s : State) (d : Nat) (f : CombCache → CombCache) : (s.modCc d f).jobs = s.jobs := rfl
@[simp] theorem State.modCc_cpls (s : State) (d : Nat) (f : CombCache → CombCache) : (s.modCc d f).cpls = s.cpls := rfl
@[simp] theorem State.modCc_changes (s : State) (d : Nat) (f : CombCache → CombCache) : (s.modCc d f).changes = s.changes := rfl
@[simp] theorem State.modCc_pages (s : State) (d : Nat) (f : CombCache → CombCache) : (s.modCc d f).pages = s.pages := rfl
@[simp] theorem State.modCc_mem (s : State) (d : Nat) (f : CombCache → CombCache) : (s.modCc d f).mem = s.mem := rfl
@[simp] theorem State.modCc_poison (s : State) (d : Nat) (f : CombCache → CombCache) : (s.modCc d f).poison = s.poison := rfl
@[simp] theorem State.modCc_ats (s : State) (d : Nat) (f : CombCache → CombCache) : (s.modCc d f).ats = s.ats := rfl
@[simp] theorem State.modCc_settings (s : State) (d : Nat) (f : CombCache → CombCache) : (s.modCc d f).settings = s.settings := rfl
@[simp] theorem State.modCc_keeper (s : State) (d : Nat) (f : CombCache → CombCache) : (s.modCc d f).keeper = s.keeper := rfl
@[simp] theorem State.modCc_propolis (s : State) (d : Nat) (f : CombCache → CombCache) : (s.modCc d f).propolis = s.propolis := rfl
@[simp] theorem State.modCc_events (s : State) (d : Nat) (f : CombCache → CombCache) : (s.modCc d f).events = s.events := rfl
@[simp] theorem State.modCc_power (s : State) (d : Nat) (f : CombCache → CombCache) : (s.modCc d f).power = s.power := rfl
@[simp] theorem State.modCc_fabric (s : State) (d : Nat) (f : CombCache → CombCache) : (s.modCc d f).fabric = s.fabric := rfl
@[simp] theorem State.modCc_saddle (s : State) (d : Nat) (f : CombCache → CombCache) : (s.modCc d f).saddle = s.saddle := rfl
@[simp] theorem State.modCc_out (s : State) (d : Nat) (f : CombCache → CombCache) : (s.modCc d f).out = s.out := rfl
@[simp] theorem State.modCc_fetchRound (s : State) (d : Nat) (f : CombCache → CombCache) : (s.modCc d f).fetchRound = s.fetchRound := rfl
@[simp] theorem State.modCc_nextJid (s : State) (d : Nat) (f : CombCache → CombCache) : (s.modCc d f).nextJid = s.nextJid := rfl
@[simp] theorem State.modCc_nextMid (s : State) (d : Nat) (f : CombCache → CombCache) : (s.modCc d f).nextMid = s.nextMid := rfl
@[simp] theorem State.modCc_draw (s : State) (d : Nat) (f : CombCache → CombCache) : (s.modCc d f).draw = s.draw := rfl

-- modWay ----------------------------------------------------------------------------------------------

@[simp] theorem State.modWay_pending (s : State) (d w : Nat) (f : Way → Way) : (s.modWay d w f).pending = s.pending := rfl
@[simp] theorem State.modWay_part (s : State) (d w : Nat) (f : Way → Way) : (s.modWay d w f).part = s.part := rfl
@[simp] theorem State.modWay_frame (s : State) (d w : Nat) (f : Way → Way) : (s.modWay d w f).frame = s.frame := rfl
@[simp] theorem State.modWay_insts (s : State) (d w : Nat) (f : Way → Way) : (s.modWay d w f).insts = s.insts := rfl
@[simp] theorem State.modWay_jobs (s : State) (d w : Nat) (f : Way → Way) : (s.modWay d w f).jobs = s.jobs := rfl
@[simp] theorem State.modWay_cpls (s : State) (d w : Nat) (f : Way → Way) : (s.modWay d w f).cpls = s.cpls := rfl
@[simp] theorem State.modWay_changes (s : State) (d w : Nat) (f : Way → Way) : (s.modWay d w f).changes = s.changes := rfl
@[simp] theorem State.modWay_pages (s : State) (d w : Nat) (f : Way → Way) : (s.modWay d w f).pages = s.pages := rfl
@[simp] theorem State.modWay_mem (s : State) (d w : Nat) (f : Way → Way) : (s.modWay d w f).mem = s.mem := rfl
@[simp] theorem State.modWay_poison (s : State) (d w : Nat) (f : Way → Way) : (s.modWay d w f).poison = s.poison := rfl
@[simp] theorem State.modWay_ats (s : State) (d w : Nat) (f : Way → Way) : (s.modWay d w f).ats = s.ats := rfl
@[simp] theorem State.modWay_settings (s : State) (d w : Nat) (f : Way → Way) : (s.modWay d w f).settings = s.settings := rfl
@[simp] theorem State.modWay_keeper (s : State) (d w : Nat) (f : Way → Way) : (s.modWay d w f).keeper = s.keeper := rfl
@[simp] theorem State.modWay_propolis (s : State) (d w : Nat) (f : Way → Way) : (s.modWay d w f).propolis = s.propolis := rfl
@[simp] theorem State.modWay_events (s : State) (d w : Nat) (f : Way → Way) : (s.modWay d w f).events = s.events := rfl
@[simp] theorem State.modWay_power (s : State) (d w : Nat) (f : Way → Way) : (s.modWay d w f).power = s.power := rfl
@[simp] theorem State.modWay_fabric (s : State) (d w : Nat) (f : Way → Way) : (s.modWay d w f).fabric = s.fabric := rfl
@[simp] theorem State.modWay_saddle (s : State) (d w : Nat) (f : Way → Way) : (s.modWay d w f).saddle = s.saddle := rfl
@[simp] theorem State.modWay_out (s : State) (d w : Nat) (f : Way → Way) : (s.modWay d w f).out = s.out := rfl
@[simp] theorem State.modWay_fetchRound (s : State) (d w : Nat) (f : Way → Way) : (s.modWay d w f).fetchRound = s.fetchRound := rfl
@[simp] theorem State.modWay_nextJid (s : State) (d w : Nat) (f : Way → Way) : (s.modWay d w f).nextJid = s.nextJid := rfl
@[simp] theorem State.modWay_nextMid (s : State) (d w : Nat) (f : Way → Way) : (s.modWay d w f).nextMid = s.nextMid := rfl
@[simp] theorem State.modWay_draw (s : State) (d w : Nat) (f : Way → Way) : (s.modWay d w f).draw = s.draw := rfl

-- modStack --------------------------------------------------------------------------------------------

@[simp] theorem State.modStack_pending (s : State) (k : Nat) (f : Stack → Stack) : (s.modStack k f).pending = s.pending := rfl
@[simp] theorem State.modStack_part (s : State) (k : Nat) (f : Stack → Stack) : (s.modStack k f).part = s.part := rfl
@[simp] theorem State.modStack_frame (s : State) (k : Nat) (f : Stack → Stack) : (s.modStack k f).frame = s.frame := rfl
@[simp] theorem State.modStack_insts (s : State) (k : Nat) (f : Stack → Stack) : (s.modStack k f).insts = s.insts := rfl
@[simp] theorem State.modStack_jobs (s : State) (k : Nat) (f : Stack → Stack) : (s.modStack k f).jobs = s.jobs := rfl
@[simp] theorem State.modStack_cpls (s : State) (k : Nat) (f : Stack → Stack) : (s.modStack k f).cpls = s.cpls := rfl
@[simp] theorem State.modStack_changes (s : State) (k : Nat) (f : Stack → Stack) : (s.modStack k f).changes = s.changes := rfl
@[simp] theorem State.modStack_pages (s : State) (k : Nat) (f : Stack → Stack) : (s.modStack k f).pages = s.pages := rfl
@[simp] theorem State.modStack_mem (s : State) (k : Nat) (f : Stack → Stack) : (s.modStack k f).mem = s.mem := rfl
@[simp] theorem State.modStack_poison (s : State) (k : Nat) (f : Stack → Stack) : (s.modStack k f).poison = s.poison := rfl
@[simp] theorem State.modStack_ats (s : State) (k : Nat) (f : Stack → Stack) : (s.modStack k f).ats = s.ats := rfl
@[simp] theorem State.modStack_settings (s : State) (k : Nat) (f : Stack → Stack) : (s.modStack k f).settings = s.settings := rfl
@[simp] theorem State.modStack_keeper (s : State) (k : Nat) (f : Stack → Stack) : (s.modStack k f).keeper = s.keeper := rfl
@[simp] theorem State.modStack_propolis (s : State) (k : Nat) (f : Stack → Stack) : (s.modStack k f).propolis = s.propolis := rfl
@[simp] theorem State.modStack_events (s : State) (k : Nat) (f : Stack → Stack) : (s.modStack k f).events = s.events := rfl
@[simp] theorem State.modStack_power (s : State) (k : Nat) (f : Stack → Stack) : (s.modStack k f).power = s.power := rfl
@[simp] theorem State.modStack_fabric (s : State) (k : Nat) (f : Stack → Stack) : (s.modStack k f).fabric = s.fabric := rfl
@[simp] theorem State.modStack_saddle (s : State) (k : Nat) (f : Stack → Stack) : (s.modStack k f).saddle = s.saddle := rfl
@[simp] theorem State.modStack_out (s : State) (k : Nat) (f : Stack → Stack) : (s.modStack k f).out = s.out := rfl
@[simp] theorem State.modStack_fetchRound (s : State) (k : Nat) (f : Stack → Stack) : (s.modStack k f).fetchRound = s.fetchRound := rfl
@[simp] theorem State.modStack_nextJid (s : State) (k : Nat) (f : Stack → Stack) : (s.modStack k f).nextJid = s.nextJid := rfl
@[simp] theorem State.modStack_nextMid (s : State) (k : Nat) (f : Stack → Stack) : (s.modStack k f).nextMid = s.nextMid := rfl
@[simp] theorem State.modStack_draw (s : State) (k : Nat) (f : Stack → Stack) : (s.modStack k f).draw = s.draw := rfl

-- modStat ---------------------------------------------------------------------------------------------

@[simp] theorem State.modStat_pending (s : State) (d : Nat) (f : DieStat → DieStat) : (s.modStat d f).pending = s.pending := rfl
@[simp] theorem State.modStat_part (s : State) (d : Nat) (f : DieStat → DieStat) : (s.modStat d f).part = s.part := rfl
@[simp] theorem State.modStat_frame (s : State) (d : Nat) (f : DieStat → DieStat) : (s.modStat d f).frame = s.frame := rfl
@[simp] theorem State.modStat_insts (s : State) (d : Nat) (f : DieStat → DieStat) : (s.modStat d f).insts = s.insts := rfl
@[simp] theorem State.modStat_jobs (s : State) (d : Nat) (f : DieStat → DieStat) : (s.modStat d f).jobs = s.jobs := rfl
@[simp] theorem State.modStat_cpls (s : State) (d : Nat) (f : DieStat → DieStat) : (s.modStat d f).cpls = s.cpls := rfl
@[simp] theorem State.modStat_changes (s : State) (d : Nat) (f : DieStat → DieStat) : (s.modStat d f).changes = s.changes := rfl
@[simp] theorem State.modStat_pages (s : State) (d : Nat) (f : DieStat → DieStat) : (s.modStat d f).pages = s.pages := rfl
@[simp] theorem State.modStat_mem (s : State) (d : Nat) (f : DieStat → DieStat) : (s.modStat d f).mem = s.mem := rfl
@[simp] theorem State.modStat_poison (s : State) (d : Nat) (f : DieStat → DieStat) : (s.modStat d f).poison = s.poison := rfl
@[simp] theorem State.modStat_ats (s : State) (d : Nat) (f : DieStat → DieStat) : (s.modStat d f).ats = s.ats := rfl
@[simp] theorem State.modStat_settings (s : State) (d : Nat) (f : DieStat → DieStat) : (s.modStat d f).settings = s.settings := rfl
@[simp] theorem State.modStat_keeper (s : State) (d : Nat) (f : DieStat → DieStat) : (s.modStat d f).keeper = s.keeper := rfl
@[simp] theorem State.modStat_propolis (s : State) (d : Nat) (f : DieStat → DieStat) : (s.modStat d f).propolis = s.propolis := rfl
@[simp] theorem State.modStat_events (s : State) (d : Nat) (f : DieStat → DieStat) : (s.modStat d f).events = s.events := rfl
@[simp] theorem State.modStat_power (s : State) (d : Nat) (f : DieStat → DieStat) : (s.modStat d f).power = s.power := rfl
@[simp] theorem State.modStat_fabric (s : State) (d : Nat) (f : DieStat → DieStat) : (s.modStat d f).fabric = s.fabric := rfl
@[simp] theorem State.modStat_saddle (s : State) (d : Nat) (f : DieStat → DieStat) : (s.modStat d f).saddle = s.saddle := rfl
@[simp] theorem State.modStat_out (s : State) (d : Nat) (f : DieStat → DieStat) : (s.modStat d f).out = s.out := rfl
@[simp] theorem State.modStat_fetchRound (s : State) (d : Nat) (f : DieStat → DieStat) : (s.modStat d f).fetchRound = s.fetchRound := rfl
@[simp] theorem State.modStat_nextJid (s : State) (d : Nat) (f : DieStat → DieStat) : (s.modStat d f).nextJid = s.nextJid := rfl
@[simp] theorem State.modStat_nextMid (s : State) (d : Nat) (f : DieStat → DieStat) : (s.modStat d f).nextMid = s.nextMid := rfl
@[simp] theorem State.modStat_draw (s : State) (d : Nat) (f : DieStat → DieStat) : (s.modStat d f).draw = s.draw := rfl

-- modInstStat -----------------------------------------------------------------------------------------

@[simp] theorem State.modInstStat_pending (s : State) (d n : Nat) (f : InstStat → InstStat) : (s.modInstStat d n f).pending = s.pending := rfl
@[simp] theorem State.modInstStat_part (s : State) (d n : Nat) (f : InstStat → InstStat) : (s.modInstStat d n f).part = s.part := rfl
@[simp] theorem State.modInstStat_frame (s : State) (d n : Nat) (f : InstStat → InstStat) : (s.modInstStat d n f).frame = s.frame := rfl
@[simp] theorem State.modInstStat_insts (s : State) (d n : Nat) (f : InstStat → InstStat) : (s.modInstStat d n f).insts = s.insts := rfl
@[simp] theorem State.modInstStat_jobs (s : State) (d n : Nat) (f : InstStat → InstStat) : (s.modInstStat d n f).jobs = s.jobs := rfl
@[simp] theorem State.modInstStat_cpls (s : State) (d n : Nat) (f : InstStat → InstStat) : (s.modInstStat d n f).cpls = s.cpls := rfl
@[simp] theorem State.modInstStat_changes (s : State) (d n : Nat) (f : InstStat → InstStat) : (s.modInstStat d n f).changes = s.changes := rfl
@[simp] theorem State.modInstStat_pages (s : State) (d n : Nat) (f : InstStat → InstStat) : (s.modInstStat d n f).pages = s.pages := rfl
@[simp] theorem State.modInstStat_mem (s : State) (d n : Nat) (f : InstStat → InstStat) : (s.modInstStat d n f).mem = s.mem := rfl
@[simp] theorem State.modInstStat_poison (s : State) (d n : Nat) (f : InstStat → InstStat) : (s.modInstStat d n f).poison = s.poison := rfl
@[simp] theorem State.modInstStat_ats (s : State) (d n : Nat) (f : InstStat → InstStat) : (s.modInstStat d n f).ats = s.ats := rfl
@[simp] theorem State.modInstStat_settings (s : State) (d n : Nat) (f : InstStat → InstStat) : (s.modInstStat d n f).settings = s.settings := rfl
@[simp] theorem State.modInstStat_keeper (s : State) (d n : Nat) (f : InstStat → InstStat) : (s.modInstStat d n f).keeper = s.keeper := rfl
@[simp] theorem State.modInstStat_propolis (s : State) (d n : Nat) (f : InstStat → InstStat) : (s.modInstStat d n f).propolis = s.propolis := rfl
@[simp] theorem State.modInstStat_events (s : State) (d n : Nat) (f : InstStat → InstStat) : (s.modInstStat d n f).events = s.events := rfl
@[simp] theorem State.modInstStat_power (s : State) (d n : Nat) (f : InstStat → InstStat) : (s.modInstStat d n f).power = s.power := rfl
@[simp] theorem State.modInstStat_fabric (s : State) (d n : Nat) (f : InstStat → InstStat) : (s.modInstStat d n f).fabric = s.fabric := rfl
@[simp] theorem State.modInstStat_saddle (s : State) (d n : Nat) (f : InstStat → InstStat) : (s.modInstStat d n f).saddle = s.saddle := rfl
@[simp] theorem State.modInstStat_out (s : State) (d n : Nat) (f : InstStat → InstStat) : (s.modInstStat d n f).out = s.out := rfl
@[simp] theorem State.modInstStat_fetchRound (s : State) (d n : Nat) (f : InstStat → InstStat) : (s.modInstStat d n f).fetchRound = s.fetchRound := rfl
@[simp] theorem State.modInstStat_nextJid (s : State) (d n : Nat) (f : InstStat → InstStat) : (s.modInstStat d n f).nextJid = s.nextJid := rfl
@[simp] theorem State.modInstStat_nextMid (s : State) (d n : Nat) (f : InstStat → InstStat) : (s.modInstStat d n f).nextMid = s.nextMid := rfl
@[simp] theorem State.modInstStat_draw (s : State) (d n : Nat) (f : InstStat → InstStat) : (s.modInstStat d n f).draw = s.draw := rfl

-- setCtx ----------------------------------------------------------------------------------------------

@[simp] theorem State.setCtx_pending (s : State) (d i : Nat) (c : Ctx) : (s.setCtx d i c).pending = s.pending := rfl
@[simp] theorem State.setCtx_part (s : State) (d i : Nat) (c : Ctx) : (s.setCtx d i c).part = s.part := rfl
@[simp] theorem State.setCtx_frame (s : State) (d i : Nat) (c : Ctx) : (s.setCtx d i c).frame = s.frame := rfl
@[simp] theorem State.setCtx_insts (s : State) (d i : Nat) (c : Ctx) : (s.setCtx d i c).insts = s.insts := rfl
@[simp] theorem State.setCtx_jobs (s : State) (d i : Nat) (c : Ctx) : (s.setCtx d i c).jobs = s.jobs := rfl
@[simp] theorem State.setCtx_cpls (s : State) (d i : Nat) (c : Ctx) : (s.setCtx d i c).cpls = s.cpls := rfl
@[simp] theorem State.setCtx_changes (s : State) (d i : Nat) (c : Ctx) : (s.setCtx d i c).changes = s.changes := rfl
@[simp] theorem State.setCtx_pages (s : State) (d i : Nat) (c : Ctx) : (s.setCtx d i c).pages = s.pages := rfl
@[simp] theorem State.setCtx_mem (s : State) (d i : Nat) (c : Ctx) : (s.setCtx d i c).mem = s.mem := rfl
@[simp] theorem State.setCtx_poison (s : State) (d i : Nat) (c : Ctx) : (s.setCtx d i c).poison = s.poison := rfl
@[simp] theorem State.setCtx_ats (s : State) (d i : Nat) (c : Ctx) : (s.setCtx d i c).ats = s.ats := rfl
@[simp] theorem State.setCtx_settings (s : State) (d i : Nat) (c : Ctx) : (s.setCtx d i c).settings = s.settings := rfl
@[simp] theorem State.setCtx_keeper (s : State) (d i : Nat) (c : Ctx) : (s.setCtx d i c).keeper = s.keeper := rfl
@[simp] theorem State.setCtx_propolis (s : State) (d i : Nat) (c : Ctx) : (s.setCtx d i c).propolis = s.propolis := rfl
@[simp] theorem State.setCtx_events (s : State) (d i : Nat) (c : Ctx) : (s.setCtx d i c).events = s.events := rfl
@[simp] theorem State.setCtx_power (s : State) (d i : Nat) (c : Ctx) : (s.setCtx d i c).power = s.power := rfl
@[simp] theorem State.setCtx_fabric (s : State) (d i : Nat) (c : Ctx) : (s.setCtx d i c).fabric = s.fabric := rfl
@[simp] theorem State.setCtx_saddle (s : State) (d i : Nat) (c : Ctx) : (s.setCtx d i c).saddle = s.saddle := rfl
@[simp] theorem State.setCtx_out (s : State) (d i : Nat) (c : Ctx) : (s.setCtx d i c).out = s.out := rfl
@[simp] theorem State.setCtx_fetchRound (s : State) (d i : Nat) (c : Ctx) : (s.setCtx d i c).fetchRound = s.fetchRound := rfl
@[simp] theorem State.setCtx_nextJid (s : State) (d i : Nat) (c : Ctx) : (s.setCtx d i c).nextJid = s.nextJid := rfl
@[simp] theorem State.setCtx_nextMid (s : State) (d i : Nat) (c : Ctx) : (s.setCtx d i c).nextMid = s.nextMid := rfl
@[simp] theorem State.setCtx_draw (s : State) (d i : Nat) (c : Ctx) : (s.setCtx d i c).draw = s.draw := rfl

-- modInst ---------------------------------------------------------------------------------------------

@[simp] theorem State.modInst_pending (s : State) (n : Nat) (f : Inst → Inst) : (s.modInst n f).pending = s.pending := rfl
@[simp] theorem State.modInst_part (s : State) (n : Nat) (f : Inst → Inst) : (s.modInst n f).part = s.part := rfl
@[simp] theorem State.modInst_frame (s : State) (n : Nat) (f : Inst → Inst) : (s.modInst n f).frame = s.frame := rfl
@[simp] theorem State.modInst_dies (s : State) (n : Nat) (f : Inst → Inst) : (s.modInst n f).dies = s.dies := rfl
@[simp] theorem State.modInst_jobs (s : State) (n : Nat) (f : Inst → Inst) : (s.modInst n f).jobs = s.jobs := rfl
@[simp] theorem State.modInst_cpls (s : State) (n : Nat) (f : Inst → Inst) : (s.modInst n f).cpls = s.cpls := rfl
@[simp] theorem State.modInst_changes (s : State) (n : Nat) (f : Inst → Inst) : (s.modInst n f).changes = s.changes := rfl
@[simp] theorem State.modInst_pages (s : State) (n : Nat) (f : Inst → Inst) : (s.modInst n f).pages = s.pages := rfl
@[simp] theorem State.modInst_mem (s : State) (n : Nat) (f : Inst → Inst) : (s.modInst n f).mem = s.mem := rfl
@[simp] theorem State.modInst_poison (s : State) (n : Nat) (f : Inst → Inst) : (s.modInst n f).poison = s.poison := rfl
@[simp] theorem State.modInst_ats (s : State) (n : Nat) (f : Inst → Inst) : (s.modInst n f).ats = s.ats := rfl
@[simp] theorem State.modInst_settings (s : State) (n : Nat) (f : Inst → Inst) : (s.modInst n f).settings = s.settings := rfl
@[simp] theorem State.modInst_keeper (s : State) (n : Nat) (f : Inst → Inst) : (s.modInst n f).keeper = s.keeper := rfl
@[simp] theorem State.modInst_propolis (s : State) (n : Nat) (f : Inst → Inst) : (s.modInst n f).propolis = s.propolis := rfl
@[simp] theorem State.modInst_events (s : State) (n : Nat) (f : Inst → Inst) : (s.modInst n f).events = s.events := rfl
@[simp] theorem State.modInst_power (s : State) (n : Nat) (f : Inst → Inst) : (s.modInst n f).power = s.power := rfl
@[simp] theorem State.modInst_fabric (s : State) (n : Nat) (f : Inst → Inst) : (s.modInst n f).fabric = s.fabric := rfl
@[simp] theorem State.modInst_saddle (s : State) (n : Nat) (f : Inst → Inst) : (s.modInst n f).saddle = s.saddle := rfl
@[simp] theorem State.modInst_out (s : State) (n : Nat) (f : Inst → Inst) : (s.modInst n f).out = s.out := rfl
@[simp] theorem State.modInst_fetchRound (s : State) (n : Nat) (f : Inst → Inst) : (s.modInst n f).fetchRound = s.fetchRound := rfl
@[simp] theorem State.modInst_nextJid (s : State) (n : Nat) (f : Inst → Inst) : (s.modInst n f).nextJid = s.nextJid := rfl
@[simp] theorem State.modInst_nextMid (s : State) (n : Nat) (f : Inst → Inst) : (s.modInst n f).nextMid = s.nextMid := rfl
@[simp] theorem State.modInst_draw (s : State) (n : Nat) (f : Inst → Inst) : (s.modInst n f).draw = s.draw := rfl

-- modKdw ----------------------------------------------------------------------------------------------

@[simp] theorem State.modKdw_pending (s : State) (fn : Nat) (f : Kdw → Kdw) : (s.modKdw fn f).pending = s.pending := rfl
@[simp] theorem State.modKdw_part (s : State) (fn : Nat) (f : Kdw → Kdw) : (s.modKdw fn f).part = s.part := rfl
@[simp] theorem State.modKdw_frame (s : State) (fn : Nat) (f : Kdw → Kdw) : (s.modKdw fn f).frame = s.frame := rfl
@[simp] theorem State.modKdw_dies (s : State) (fn : Nat) (f : Kdw → Kdw) : (s.modKdw fn f).dies = s.dies := rfl
@[simp] theorem State.modKdw_jobs (s : State) (fn : Nat) (f : Kdw → Kdw) : (s.modKdw fn f).jobs = s.jobs := rfl
@[simp] theorem State.modKdw_cpls (s : State) (fn : Nat) (f : Kdw → Kdw) : (s.modKdw fn f).cpls = s.cpls := rfl
@[simp] theorem State.modKdw_changes (s : State) (fn : Nat) (f : Kdw → Kdw) : (s.modKdw fn f).changes = s.changes := rfl
@[simp] theorem State.modKdw_pages (s : State) (fn : Nat) (f : Kdw → Kdw) : (s.modKdw fn f).pages = s.pages := rfl
@[simp] theorem State.modKdw_mem (s : State) (fn : Nat) (f : Kdw → Kdw) : (s.modKdw fn f).mem = s.mem := rfl
@[simp] theorem State.modKdw_poison (s : State) (fn : Nat) (f : Kdw → Kdw) : (s.modKdw fn f).poison = s.poison := rfl
@[simp] theorem State.modKdw_ats (s : State) (fn : Nat) (f : Kdw → Kdw) : (s.modKdw fn f).ats = s.ats := rfl
@[simp] theorem State.modKdw_settings (s : State) (fn : Nat) (f : Kdw → Kdw) : (s.modKdw fn f).settings = s.settings := rfl
@[simp] theorem State.modKdw_keeper (s : State) (fn : Nat) (f : Kdw → Kdw) : (s.modKdw fn f).keeper = s.keeper := rfl
@[simp] theorem State.modKdw_propolis (s : State) (fn : Nat) (f : Kdw → Kdw) : (s.modKdw fn f).propolis = s.propolis := rfl
@[simp] theorem State.modKdw_events (s : State) (fn : Nat) (f : Kdw → Kdw) : (s.modKdw fn f).events = s.events := rfl
@[simp] theorem State.modKdw_power (s : State) (fn : Nat) (f : Kdw → Kdw) : (s.modKdw fn f).power = s.power := rfl
@[simp] theorem State.modKdw_fabric (s : State) (fn : Nat) (f : Kdw → Kdw) : (s.modKdw fn f).fabric = s.fabric := rfl
@[simp] theorem State.modKdw_saddle (s : State) (fn : Nat) (f : Kdw → Kdw) : (s.modKdw fn f).saddle = s.saddle := rfl
@[simp] theorem State.modKdw_out (s : State) (fn : Nat) (f : Kdw → Kdw) : (s.modKdw fn f).out = s.out := rfl
@[simp] theorem State.modKdw_fetchRound (s : State) (fn : Nat) (f : Kdw → Kdw) : (s.modKdw fn f).fetchRound = s.fetchRound := rfl
@[simp] theorem State.modKdw_nextJid (s : State) (fn : Nat) (f : Kdw → Kdw) : (s.modKdw fn f).nextJid = s.nextJid := rfl
@[simp] theorem State.modKdw_nextMid (s : State) (fn : Nat) (f : Kdw → Kdw) : (s.modKdw fn f).nextMid = s.nextMid := rfl
@[simp] theorem State.modKdw_draw (s : State) (fn : Nat) (f : Kdw → Kdw) : (s.modKdw fn f).draw = s.draw := rfl

-- modSq -----------------------------------------------------------------------------------------------

@[simp] theorem State.modSq_pending (s : State) (n q : Nat) (f : Sq → Sq) : (s.modSq n q f).pending = s.pending := rfl
@[simp] theorem State.modSq_part (s : State) (n q : Nat) (f : Sq → Sq) : (s.modSq n q f).part = s.part := rfl
@[simp] theorem State.modSq_frame (s : State) (n q : Nat) (f : Sq → Sq) : (s.modSq n q f).frame = s.frame := rfl
@[simp] theorem State.modSq_dies (s : State) (n q : Nat) (f : Sq → Sq) : (s.modSq n q f).dies = s.dies := rfl
@[simp] theorem State.modSq_jobs (s : State) (n q : Nat) (f : Sq → Sq) : (s.modSq n q f).jobs = s.jobs := rfl
@[simp] theorem State.modSq_cpls (s : State) (n q : Nat) (f : Sq → Sq) : (s.modSq n q f).cpls = s.cpls := rfl
@[simp] theorem State.modSq_changes (s : State) (n q : Nat) (f : Sq → Sq) : (s.modSq n q f).changes = s.changes := rfl
@[simp] theorem State.modSq_pages (s : State) (n q : Nat) (f : Sq → Sq) : (s.modSq n q f).pages = s.pages := rfl
@[simp] theorem State.modSq_mem (s : State) (n q : Nat) (f : Sq → Sq) : (s.modSq n q f).mem = s.mem := rfl
@[simp] theorem State.modSq_poison (s : State) (n q : Nat) (f : Sq → Sq) : (s.modSq n q f).poison = s.poison := rfl
@[simp] theorem State.modSq_ats (s : State) (n q : Nat) (f : Sq → Sq) : (s.modSq n q f).ats = s.ats := rfl
@[simp] theorem State.modSq_settings (s : State) (n q : Nat) (f : Sq → Sq) : (s.modSq n q f).settings = s.settings := rfl
@[simp] theorem State.modSq_keeper (s : State) (n q : Nat) (f : Sq → Sq) : (s.modSq n q f).keeper = s.keeper := rfl
@[simp] theorem State.modSq_propolis (s : State) (n q : Nat) (f : Sq → Sq) : (s.modSq n q f).propolis = s.propolis := rfl
@[simp] theorem State.modSq_events (s : State) (n q : Nat) (f : Sq → Sq) : (s.modSq n q f).events = s.events := rfl
@[simp] theorem State.modSq_power (s : State) (n q : Nat) (f : Sq → Sq) : (s.modSq n q f).power = s.power := rfl
@[simp] theorem State.modSq_fabric (s : State) (n q : Nat) (f : Sq → Sq) : (s.modSq n q f).fabric = s.fabric := rfl
@[simp] theorem State.modSq_saddle (s : State) (n q : Nat) (f : Sq → Sq) : (s.modSq n q f).saddle = s.saddle := rfl
@[simp] theorem State.modSq_out (s : State) (n q : Nat) (f : Sq → Sq) : (s.modSq n q f).out = s.out := rfl
@[simp] theorem State.modSq_fetchRound (s : State) (n q : Nat) (f : Sq → Sq) : (s.modSq n q f).fetchRound = s.fetchRound := rfl
@[simp] theorem State.modSq_nextJid (s : State) (n q : Nat) (f : Sq → Sq) : (s.modSq n q f).nextJid = s.nextJid := rfl
@[simp] theorem State.modSq_nextMid (s : State) (n q : Nat) (f : Sq → Sq) : (s.modSq n q f).nextMid = s.nextMid := rfl
@[simp] theorem State.modSq_draw (s : State) (n q : Nat) (f : Sq → Sq) : (s.modSq n q f).draw = s.draw := rfl

-- modCq -----------------------------------------------------------------------------------------------

@[simp] theorem State.modCq_pending (s : State) (n q : Nat) (f : Cq → Cq) : (s.modCq n q f).pending = s.pending := rfl
@[simp] theorem State.modCq_part (s : State) (n q : Nat) (f : Cq → Cq) : (s.modCq n q f).part = s.part := rfl
@[simp] theorem State.modCq_frame (s : State) (n q : Nat) (f : Cq → Cq) : (s.modCq n q f).frame = s.frame := rfl
@[simp] theorem State.modCq_dies (s : State) (n q : Nat) (f : Cq → Cq) : (s.modCq n q f).dies = s.dies := rfl
@[simp] theorem State.modCq_jobs (s : State) (n q : Nat) (f : Cq → Cq) : (s.modCq n q f).jobs = s.jobs := rfl
@[simp] theorem State.modCq_cpls (s : State) (n q : Nat) (f : Cq → Cq) : (s.modCq n q f).cpls = s.cpls := rfl
@[simp] theorem State.modCq_changes (s : State) (n q : Nat) (f : Cq → Cq) : (s.modCq n q f).changes = s.changes := rfl
@[simp] theorem State.modCq_pages (s : State) (n q : Nat) (f : Cq → Cq) : (s.modCq n q f).pages = s.pages := rfl
@[simp] theorem State.modCq_mem (s : State) (n q : Nat) (f : Cq → Cq) : (s.modCq n q f).mem = s.mem := rfl
@[simp] theorem State.modCq_poison (s : State) (n q : Nat) (f : Cq → Cq) : (s.modCq n q f).poison = s.poison := rfl
@[simp] theorem State.modCq_ats (s : State) (n q : Nat) (f : Cq → Cq) : (s.modCq n q f).ats = s.ats := rfl
@[simp] theorem State.modCq_settings (s : State) (n q : Nat) (f : Cq → Cq) : (s.modCq n q f).settings = s.settings := rfl
@[simp] theorem State.modCq_keeper (s : State) (n q : Nat) (f : Cq → Cq) : (s.modCq n q f).keeper = s.keeper := rfl
@[simp] theorem State.modCq_propolis (s : State) (n q : Nat) (f : Cq → Cq) : (s.modCq n q f).propolis = s.propolis := rfl
@[simp] theorem State.modCq_events (s : State) (n q : Nat) (f : Cq → Cq) : (s.modCq n q f).events = s.events := rfl
@[simp] theorem State.modCq_power (s : State) (n q : Nat) (f : Cq → Cq) : (s.modCq n q f).power = s.power := rfl
@[simp] theorem State.modCq_fabric (s : State) (n q : Nat) (f : Cq → Cq) : (s.modCq n q f).fabric = s.fabric := rfl
@[simp] theorem State.modCq_saddle (s : State) (n q : Nat) (f : Cq → Cq) : (s.modCq n q f).saddle = s.saddle := rfl
@[simp] theorem State.modCq_out (s : State) (n q : Nat) (f : Cq → Cq) : (s.modCq n q f).out = s.out := rfl
@[simp] theorem State.modCq_fetchRound (s : State) (n q : Nat) (f : Cq → Cq) : (s.modCq n q f).fetchRound = s.fetchRound := rfl
@[simp] theorem State.modCq_nextJid (s : State) (n q : Nat) (f : Cq → Cq) : (s.modCq n q f).nextJid = s.nextJid := rfl
@[simp] theorem State.modCq_nextMid (s : State) (n q : Nat) (f : Cq → Cq) : (s.modCq n q f).nextMid = s.nextMid := rfl
@[simp] theorem State.modCq_draw (s : State) (n q : Nat) (f : Cq → Cq) : (s.modCq n q f).draw = s.draw := rfl

-- modMbx ----------------------------------------------------------------------------------------------

@[simp] theorem State.modMbx_pending (s : State) (n : Nat) (pf : Bool) (f : MbxSide → MbxSide) : (s.modMbx n pf f).pending = s.pending := rfl
@[simp] theorem State.modMbx_part (s : State) (n : Nat) (pf : Bool) (f : MbxSide → MbxSide) : (s.modMbx n pf f).part = s.part := rfl
@[simp] theorem State.modMbx_frame (s : State) (n : Nat) (pf : Bool) (f : MbxSide → MbxSide) : (s.modMbx n pf f).frame = s.frame := rfl
@[simp] theorem State.modMbx_dies (s : State) (n : Nat) (pf : Bool) (f : MbxSide → MbxSide) : (s.modMbx n pf f).dies = s.dies := rfl
@[simp] theorem State.modMbx_jobs (s : State) (n : Nat) (pf : Bool) (f : MbxSide → MbxSide) : (s.modMbx n pf f).jobs = s.jobs := rfl
@[simp] theorem State.modMbx_cpls (s : State) (n : Nat) (pf : Bool) (f : MbxSide → MbxSide) : (s.modMbx n pf f).cpls = s.cpls := rfl
@[simp] theorem State.modMbx_changes (s : State) (n : Nat) (pf : Bool) (f : MbxSide → MbxSide) : (s.modMbx n pf f).changes = s.changes := rfl
@[simp] theorem State.modMbx_pages (s : State) (n : Nat) (pf : Bool) (f : MbxSide → MbxSide) : (s.modMbx n pf f).pages = s.pages := rfl
@[simp] theorem State.modMbx_mem (s : State) (n : Nat) (pf : Bool) (f : MbxSide → MbxSide) : (s.modMbx n pf f).mem = s.mem := rfl
@[simp] theorem State.modMbx_poison (s : State) (n : Nat) (pf : Bool) (f : MbxSide → MbxSide) : (s.modMbx n pf f).poison = s.poison := rfl
@[simp] theorem State.modMbx_ats (s : State) (n : Nat) (pf : Bool) (f : MbxSide → MbxSide) : (s.modMbx n pf f).ats = s.ats := rfl
@[simp] theorem State.modMbx_settings (s : State) (n : Nat) (pf : Bool) (f : MbxSide → MbxSide) : (s.modMbx n pf f).settings = s.settings := rfl
@[simp] theorem State.modMbx_keeper (s : State) (n : Nat) (pf : Bool) (f : MbxSide → MbxSide) : (s.modMbx n pf f).keeper = s.keeper := rfl
@[simp] theorem State.modMbx_propolis (s : State) (n : Nat) (pf : Bool) (f : MbxSide → MbxSide) : (s.modMbx n pf f).propolis = s.propolis := rfl
@[simp] theorem State.modMbx_events (s : State) (n : Nat) (pf : Bool) (f : MbxSide → MbxSide) : (s.modMbx n pf f).events = s.events := rfl
@[simp] theorem State.modMbx_power (s : State) (n : Nat) (pf : Bool) (f : MbxSide → MbxSide) : (s.modMbx n pf f).power = s.power := rfl
@[simp] theorem State.modMbx_fabric (s : State) (n : Nat) (pf : Bool) (f : MbxSide → MbxSide) : (s.modMbx n pf f).fabric = s.fabric := rfl
@[simp] theorem State.modMbx_saddle (s : State) (n : Nat) (pf : Bool) (f : MbxSide → MbxSide) : (s.modMbx n pf f).saddle = s.saddle := rfl
@[simp] theorem State.modMbx_out (s : State) (n : Nat) (pf : Bool) (f : MbxSide → MbxSide) : (s.modMbx n pf f).out = s.out := rfl
@[simp] theorem State.modMbx_fetchRound (s : State) (n : Nat) (pf : Bool) (f : MbxSide → MbxSide) : (s.modMbx n pf f).fetchRound = s.fetchRound := rfl
@[simp] theorem State.modMbx_nextJid (s : State) (n : Nat) (pf : Bool) (f : MbxSide → MbxSide) : (s.modMbx n pf f).nextJid = s.nextJid := rfl
@[simp] theorem State.modMbx_nextMid (s : State) (n : Nat) (pf : Bool) (f : MbxSide → MbxSide) : (s.modMbx n pf f).nextMid = s.nextMid := rfl
@[simp] theorem State.modMbx_draw (s : State) (n : Nat) (pf : Bool) (f : MbxSide → MbxSide) : (s.modMbx n pf f).draw = s.draw := rfl

-- modJob ----------------------------------------------------------------------------------------------

@[simp] theorem State.modJob_pending (s : State) (jid : Nat) (f : Job → Job) : (s.modJob jid f).pending = s.pending := rfl
@[simp] theorem State.modJob_part (s : State) (jid : Nat) (f : Job → Job) : (s.modJob jid f).part = s.part := rfl
@[simp] theorem State.modJob_frame (s : State) (jid : Nat) (f : Job → Job) : (s.modJob jid f).frame = s.frame := rfl
@[simp] theorem State.modJob_dies (s : State) (jid : Nat) (f : Job → Job) : (s.modJob jid f).dies = s.dies := rfl
@[simp] theorem State.modJob_insts (s : State) (jid : Nat) (f : Job → Job) : (s.modJob jid f).insts = s.insts := rfl
@[simp] theorem State.modJob_cpls (s : State) (jid : Nat) (f : Job → Job) : (s.modJob jid f).cpls = s.cpls := rfl
@[simp] theorem State.modJob_changes (s : State) (jid : Nat) (f : Job → Job) : (s.modJob jid f).changes = s.changes := rfl
@[simp] theorem State.modJob_pages (s : State) (jid : Nat) (f : Job → Job) : (s.modJob jid f).pages = s.pages := rfl
@[simp] theorem State.modJob_mem (s : State) (jid : Nat) (f : Job → Job) : (s.modJob jid f).mem = s.mem := rfl
@[simp] theorem State.modJob_poison (s : State) (jid : Nat) (f : Job → Job) : (s.modJob jid f).poison = s.poison := rfl
@[simp] theorem State.modJob_ats (s : State) (jid : Nat) (f : Job → Job) : (s.modJob jid f).ats = s.ats := rfl
@[simp] theorem State.modJob_settings (s : State) (jid : Nat) (f : Job → Job) : (s.modJob jid f).settings = s.settings := rfl
@[simp] theorem State.modJob_keeper (s : State) (jid : Nat) (f : Job → Job) : (s.modJob jid f).keeper = s.keeper := rfl
@[simp] theorem State.modJob_propolis (s : State) (jid : Nat) (f : Job → Job) : (s.modJob jid f).propolis = s.propolis := rfl
@[simp] theorem State.modJob_events (s : State) (jid : Nat) (f : Job → Job) : (s.modJob jid f).events = s.events := rfl
@[simp] theorem State.modJob_power (s : State) (jid : Nat) (f : Job → Job) : (s.modJob jid f).power = s.power := rfl
@[simp] theorem State.modJob_fabric (s : State) (jid : Nat) (f : Job → Job) : (s.modJob jid f).fabric = s.fabric := rfl
@[simp] theorem State.modJob_saddle (s : State) (jid : Nat) (f : Job → Job) : (s.modJob jid f).saddle = s.saddle := rfl
@[simp] theorem State.modJob_out (s : State) (jid : Nat) (f : Job → Job) : (s.modJob jid f).out = s.out := rfl
@[simp] theorem State.modJob_fetchRound (s : State) (jid : Nat) (f : Job → Job) : (s.modJob jid f).fetchRound = s.fetchRound := rfl
@[simp] theorem State.modJob_nextJid (s : State) (jid : Nat) (f : Job → Job) : (s.modJob jid f).nextJid = s.nextJid := rfl
@[simp] theorem State.modJob_nextMid (s : State) (jid : Nat) (f : Job → Job) : (s.modJob jid f).nextMid = s.nextMid := rfl
@[simp] theorem State.modJob_draw (s : State) (jid : Nat) (f : Job → Job) : (s.modJob jid f).draw = s.draw := rfl

-- modDist ---------------------------------------------------------------------------------------------

@[simp] theorem State.modDist_pending (s : State) (jid : Nat) (f : Dist → Dist) : (s.modDist jid f).pending = s.pending := rfl
@[simp] theorem State.modDist_part (s : State) (jid : Nat) (f : Dist → Dist) : (s.modDist jid f).part = s.part := rfl
@[simp] theorem State.modDist_frame (s : State) (jid : Nat) (f : Dist → Dist) : (s.modDist jid f).frame = s.frame := rfl
@[simp] theorem State.modDist_dies (s : State) (jid : Nat) (f : Dist → Dist) : (s.modDist jid f).dies = s.dies := rfl
@[simp] theorem State.modDist_insts (s : State) (jid : Nat) (f : Dist → Dist) : (s.modDist jid f).insts = s.insts := rfl
@[simp] theorem State.modDist_cpls (s : State) (jid : Nat) (f : Dist → Dist) : (s.modDist jid f).cpls = s.cpls := rfl
@[simp] theorem State.modDist_changes (s : State) (jid : Nat) (f : Dist → Dist) : (s.modDist jid f).changes = s.changes := rfl
@[simp] theorem State.modDist_pages (s : State) (jid : Nat) (f : Dist → Dist) : (s.modDist jid f).pages = s.pages := rfl
@[simp] theorem State.modDist_mem (s : State) (jid : Nat) (f : Dist → Dist) : (s.modDist jid f).mem = s.mem := rfl
@[simp] theorem State.modDist_poison (s : State) (jid : Nat) (f : Dist → Dist) : (s.modDist jid f).poison = s.poison := rfl
@[simp] theorem State.modDist_ats (s : State) (jid : Nat) (f : Dist → Dist) : (s.modDist jid f).ats = s.ats := rfl
@[simp] theorem State.modDist_settings (s : State) (jid : Nat) (f : Dist → Dist) : (s.modDist jid f).settings = s.settings := rfl
@[simp] theorem State.modDist_keeper (s : State) (jid : Nat) (f : Dist → Dist) : (s.modDist jid f).keeper = s.keeper := rfl
@[simp] theorem State.modDist_propolis (s : State) (jid : Nat) (f : Dist → Dist) : (s.modDist jid f).propolis = s.propolis := rfl
@[simp] theorem State.modDist_events (s : State) (jid : Nat) (f : Dist → Dist) : (s.modDist jid f).events = s.events := rfl
@[simp] theorem State.modDist_power (s : State) (jid : Nat) (f : Dist → Dist) : (s.modDist jid f).power = s.power := rfl
@[simp] theorem State.modDist_fabric (s : State) (jid : Nat) (f : Dist → Dist) : (s.modDist jid f).fabric = s.fabric := rfl
@[simp] theorem State.modDist_saddle (s : State) (jid : Nat) (f : Dist → Dist) : (s.modDist jid f).saddle = s.saddle := rfl
@[simp] theorem State.modDist_out (s : State) (jid : Nat) (f : Dist → Dist) : (s.modDist jid f).out = s.out := rfl
@[simp] theorem State.modDist_fetchRound (s : State) (jid : Nat) (f : Dist → Dist) : (s.modDist jid f).fetchRound = s.fetchRound := rfl
@[simp] theorem State.modDist_nextJid (s : State) (jid : Nat) (f : Dist → Dist) : (s.modDist jid f).nextJid = s.nextJid := rfl
@[simp] theorem State.modDist_nextMid (s : State) (jid : Nat) (f : Dist → Dist) : (s.modDist jid f).nextMid = s.nextMid := rfl
@[simp] theorem State.modDist_draw (s : State) (jid : Nat) (f : Dist → Dist) : (s.modDist jid f).draw = s.draw := rfl

-- modFlow ---------------------------------------------------------------------------------------------

@[simp] theorem State.modFlow_pending (s : State) (jid fi : Nat) (f : FlowSt → FlowSt) : (s.modFlow jid fi f).pending = s.pending := rfl
@[simp] theorem State.modFlow_part (s : State) (jid fi : Nat) (f : FlowSt → FlowSt) : (s.modFlow jid fi f).part = s.part := rfl
@[simp] theorem State.modFlow_frame (s : State) (jid fi : Nat) (f : FlowSt → FlowSt) : (s.modFlow jid fi f).frame = s.frame := rfl
@[simp] theorem State.modFlow_dies (s : State) (jid fi : Nat) (f : FlowSt → FlowSt) : (s.modFlow jid fi f).dies = s.dies := rfl
@[simp] theorem State.modFlow_insts (s : State) (jid fi : Nat) (f : FlowSt → FlowSt) : (s.modFlow jid fi f).insts = s.insts := rfl
@[simp] theorem State.modFlow_cpls (s : State) (jid fi : Nat) (f : FlowSt → FlowSt) : (s.modFlow jid fi f).cpls = s.cpls := rfl
@[simp] theorem State.modFlow_changes (s : State) (jid fi : Nat) (f : FlowSt → FlowSt) : (s.modFlow jid fi f).changes = s.changes := rfl
@[simp] theorem State.modFlow_pages (s : State) (jid fi : Nat) (f : FlowSt → FlowSt) : (s.modFlow jid fi f).pages = s.pages := rfl
@[simp] theorem State.modFlow_mem (s : State) (jid fi : Nat) (f : FlowSt → FlowSt) : (s.modFlow jid fi f).mem = s.mem := rfl
@[simp] theorem State.modFlow_poison (s : State) (jid fi : Nat) (f : FlowSt → FlowSt) : (s.modFlow jid fi f).poison = s.poison := rfl
@[simp] theorem State.modFlow_ats (s : State) (jid fi : Nat) (f : FlowSt → FlowSt) : (s.modFlow jid fi f).ats = s.ats := rfl
@[simp] theorem State.modFlow_settings (s : State) (jid fi : Nat) (f : FlowSt → FlowSt) : (s.modFlow jid fi f).settings = s.settings := rfl
@[simp] theorem State.modFlow_keeper (s : State) (jid fi : Nat) (f : FlowSt → FlowSt) : (s.modFlow jid fi f).keeper = s.keeper := rfl
@[simp] theorem State.modFlow_propolis (s : State) (jid fi : Nat) (f : FlowSt → FlowSt) : (s.modFlow jid fi f).propolis = s.propolis := rfl
@[simp] theorem State.modFlow_events (s : State) (jid fi : Nat) (f : FlowSt → FlowSt) : (s.modFlow jid fi f).events = s.events := rfl
@[simp] theorem State.modFlow_power (s : State) (jid fi : Nat) (f : FlowSt → FlowSt) : (s.modFlow jid fi f).power = s.power := rfl
@[simp] theorem State.modFlow_fabric (s : State) (jid fi : Nat) (f : FlowSt → FlowSt) : (s.modFlow jid fi f).fabric = s.fabric := rfl
@[simp] theorem State.modFlow_saddle (s : State) (jid fi : Nat) (f : FlowSt → FlowSt) : (s.modFlow jid fi f).saddle = s.saddle := rfl
@[simp] theorem State.modFlow_out (s : State) (jid fi : Nat) (f : FlowSt → FlowSt) : (s.modFlow jid fi f).out = s.out := rfl
@[simp] theorem State.modFlow_fetchRound (s : State) (jid fi : Nat) (f : FlowSt → FlowSt) : (s.modFlow jid fi f).fetchRound = s.fetchRound := rfl
@[simp] theorem State.modFlow_nextJid (s : State) (jid fi : Nat) (f : FlowSt → FlowSt) : (s.modFlow jid fi f).nextJid = s.nextJid := rfl
@[simp] theorem State.modFlow_nextMid (s : State) (jid fi : Nat) (f : FlowSt → FlowSt) : (s.modFlow jid fi f).nextMid = s.nextMid := rfl
@[simp] theorem State.modFlow_draw (s : State) (jid fi : Nat) (f : FlowSt → FlowSt) : (s.modFlow jid fi f).draw = s.draw := rfl

-- modStage --------------------------------------------------------------------------------------------

@[simp] theorem State.modStage_pending (s : State) (jid i : Nat) (f : StageSt → StageSt) : (s.modStage jid i f).pending = s.pending := rfl
@[simp] theorem State.modStage_part (s : State) (jid i : Nat) (f : StageSt → StageSt) : (s.modStage jid i f).part = s.part := rfl
@[simp] theorem State.modStage_frame (s : State) (jid i : Nat) (f : StageSt → StageSt) : (s.modStage jid i f).frame = s.frame := rfl
@[simp] theorem State.modStage_dies (s : State) (jid i : Nat) (f : StageSt → StageSt) : (s.modStage jid i f).dies = s.dies := rfl
@[simp] theorem State.modStage_insts (s : State) (jid i : Nat) (f : StageSt → StageSt) : (s.modStage jid i f).insts = s.insts := rfl
@[simp] theorem State.modStage_cpls (s : State) (jid i : Nat) (f : StageSt → StageSt) : (s.modStage jid i f).cpls = s.cpls := rfl
@[simp] theorem State.modStage_changes (s : State) (jid i : Nat) (f : StageSt → StageSt) : (s.modStage jid i f).changes = s.changes := rfl
@[simp] theorem State.modStage_pages (s : State) (jid i : Nat) (f : StageSt → StageSt) : (s.modStage jid i f).pages = s.pages := rfl
@[simp] theorem State.modStage_mem (s : State) (jid i : Nat) (f : StageSt → StageSt) : (s.modStage jid i f).mem = s.mem := rfl
@[simp] theorem State.modStage_poison (s : State) (jid i : Nat) (f : StageSt → StageSt) : (s.modStage jid i f).poison = s.poison := rfl
@[simp] theorem State.modStage_ats (s : State) (jid i : Nat) (f : StageSt → StageSt) : (s.modStage jid i f).ats = s.ats := rfl
@[simp] theorem State.modStage_settings (s : State) (jid i : Nat) (f : StageSt → StageSt) : (s.modStage jid i f).settings = s.settings := rfl
@[simp] theorem State.modStage_keeper (s : State) (jid i : Nat) (f : StageSt → StageSt) : (s.modStage jid i f).keeper = s.keeper := rfl
@[simp] theorem State.modStage_propolis (s : State) (jid i : Nat) (f : StageSt → StageSt) : (s.modStage jid i f).propolis = s.propolis := rfl
@[simp] theorem State.modStage_events (s : State) (jid i : Nat) (f : StageSt → StageSt) : (s.modStage jid i f).events = s.events := rfl
@[simp] theorem State.modStage_power (s : State) (jid i : Nat) (f : StageSt → StageSt) : (s.modStage jid i f).power = s.power := rfl
@[simp] theorem State.modStage_fabric (s : State) (jid i : Nat) (f : StageSt → StageSt) : (s.modStage jid i f).fabric = s.fabric := rfl
@[simp] theorem State.modStage_saddle (s : State) (jid i : Nat) (f : StageSt → StageSt) : (s.modStage jid i f).saddle = s.saddle := rfl
@[simp] theorem State.modStage_out (s : State) (jid i : Nat) (f : StageSt → StageSt) : (s.modStage jid i f).out = s.out := rfl
@[simp] theorem State.modStage_fetchRound (s : State) (jid i : Nat) (f : StageSt → StageSt) : (s.modStage jid i f).fetchRound = s.fetchRound := rfl
@[simp] theorem State.modStage_nextJid (s : State) (jid i : Nat) (f : StageSt → StageSt) : (s.modStage jid i f).nextJid = s.nextJid := rfl
@[simp] theorem State.modStage_nextMid (s : State) (jid i : Nat) (f : StageSt → StageSt) : (s.modStage jid i f).nextMid = s.nextMid := rfl
@[simp] theorem State.modStage_draw (s : State) (jid i : Nat) (f : StageSt → StageSt) : (s.modStage jid i f).draw = s.draw := rfl

-- modTable --------------------------------------------------------------------------------------------

@[simp] theorem State.modTable_pending (s : State) (jid ti : Nat) (f : Table → Table) : (s.modTable jid ti f).pending = s.pending := rfl
@[simp] theorem State.modTable_part (s : State) (jid ti : Nat) (f : Table → Table) : (s.modTable jid ti f).part = s.part := rfl
@[simp] theorem State.modTable_frame (s : State) (jid ti : Nat) (f : Table → Table) : (s.modTable jid ti f).frame = s.frame := rfl
@[simp] theorem State.modTable_dies (s : State) (jid ti : Nat) (f : Table → Table) : (s.modTable jid ti f).dies = s.dies := rfl
@[simp] theorem State.modTable_insts (s : State) (jid ti : Nat) (f : Table → Table) : (s.modTable jid ti f).insts = s.insts := rfl
@[simp] theorem State.modTable_cpls (s : State) (jid ti : Nat) (f : Table → Table) : (s.modTable jid ti f).cpls = s.cpls := rfl
@[simp] theorem State.modTable_changes (s : State) (jid ti : Nat) (f : Table → Table) : (s.modTable jid ti f).changes = s.changes := rfl
@[simp] theorem State.modTable_pages (s : State) (jid ti : Nat) (f : Table → Table) : (s.modTable jid ti f).pages = s.pages := rfl
@[simp] theorem State.modTable_mem (s : State) (jid ti : Nat) (f : Table → Table) : (s.modTable jid ti f).mem = s.mem := rfl
@[simp] theorem State.modTable_poison (s : State) (jid ti : Nat) (f : Table → Table) : (s.modTable jid ti f).poison = s.poison := rfl
@[simp] theorem State.modTable_ats (s : State) (jid ti : Nat) (f : Table → Table) : (s.modTable jid ti f).ats = s.ats := rfl
@[simp] theorem State.modTable_settings (s : State) (jid ti : Nat) (f : Table → Table) : (s.modTable jid ti f).settings = s.settings := rfl
@[simp] theorem State.modTable_keeper (s : State) (jid ti : Nat) (f : Table → Table) : (s.modTable jid ti f).keeper = s.keeper := rfl
@[simp] theorem State.modTable_propolis (s : State) (jid ti : Nat) (f : Table → Table) : (s.modTable jid ti f).propolis = s.propolis := rfl
@[simp] theorem State.modTable_events (s : State) (jid ti : Nat) (f : Table → Table) : (s.modTable jid ti f).events = s.events := rfl
@[simp] theorem State.modTable_power (s : State) (jid ti : Nat) (f : Table → Table) : (s.modTable jid ti f).power = s.power := rfl
@[simp] theorem State.modTable_fabric (s : State) (jid ti : Nat) (f : Table → Table) : (s.modTable jid ti f).fabric = s.fabric := rfl
@[simp] theorem State.modTable_saddle (s : State) (jid ti : Nat) (f : Table → Table) : (s.modTable jid ti f).saddle = s.saddle := rfl
@[simp] theorem State.modTable_out (s : State) (jid ti : Nat) (f : Table → Table) : (s.modTable jid ti f).out = s.out := rfl
@[simp] theorem State.modTable_fetchRound (s : State) (jid ti : Nat) (f : Table → Table) : (s.modTable jid ti f).fetchRound = s.fetchRound := rfl
@[simp] theorem State.modTable_nextJid (s : State) (jid ti : Nat) (f : Table → Table) : (s.modTable jid ti f).nextJid = s.nextJid := rfl
@[simp] theorem State.modTable_nextMid (s : State) (jid ti : Nat) (f : Table → Table) : (s.modTable jid ti f).nextMid = s.nextMid := rfl
@[simp] theorem State.modTable_draw (s : State) (jid ti : Nat) (f : Table → Table) : (s.modTable jid ti f).draw = s.draw := rfl

-- modArea ---------------------------------------------------------------------------------------------

@[simp] theorem State.modArea_pending (s : State) (jid ai : Nat) (f : Area → Area) : (s.modArea jid ai f).pending = s.pending := rfl
@[simp] theorem State.modArea_part (s : State) (jid ai : Nat) (f : Area → Area) : (s.modArea jid ai f).part = s.part := rfl
@[simp] theorem State.modArea_frame (s : State) (jid ai : Nat) (f : Area → Area) : (s.modArea jid ai f).frame = s.frame := rfl
@[simp] theorem State.modArea_dies (s : State) (jid ai : Nat) (f : Area → Area) : (s.modArea jid ai f).dies = s.dies := rfl
@[simp] theorem State.modArea_insts (s : State) (jid ai : Nat) (f : Area → Area) : (s.modArea jid ai f).insts = s.insts := rfl
@[simp] theorem State.modArea_cpls (s : State) (jid ai : Nat) (f : Area → Area) : (s.modArea jid ai f).cpls = s.cpls := rfl
@[simp] theorem State.modArea_changes (s : State) (jid ai : Nat) (f : Area → Area) : (s.modArea jid ai f).changes = s.changes := rfl
@[simp] theorem State.modArea_pages (s : State) (jid ai : Nat) (f : Area → Area) : (s.modArea jid ai f).pages = s.pages := rfl
@[simp] theorem State.modArea_mem (s : State) (jid ai : Nat) (f : Area → Area) : (s.modArea jid ai f).mem = s.mem := rfl
@[simp] theorem State.modArea_poison (s : State) (jid ai : Nat) (f : Area → Area) : (s.modArea jid ai f).poison = s.poison := rfl
@[simp] theorem State.modArea_ats (s : State) (jid ai : Nat) (f : Area → Area) : (s.modArea jid ai f).ats = s.ats := rfl
@[simp] theorem State.modArea_settings (s : State) (jid ai : Nat) (f : Area → Area) : (s.modArea jid ai f).settings = s.settings := rfl
@[simp] theorem State.modArea_keeper (s : State) (jid ai : Nat) (f : Area → Area) : (s.modArea jid ai f).keeper = s.keeper := rfl
@[simp] theorem State.modArea_propolis (s : State) (jid ai : Nat) (f : Area → Area) : (s.modArea jid ai f).propolis = s.propolis := rfl
@[simp] theorem State.modArea_events (s : State) (jid ai : Nat) (f : Area → Area) : (s.modArea jid ai f).events = s.events := rfl
@[simp] theorem State.modArea_power (s : State) (jid ai : Nat) (f : Area → Area) : (s.modArea jid ai f).power = s.power := rfl
@[simp] theorem State.modArea_fabric (s : State) (jid ai : Nat) (f : Area → Area) : (s.modArea jid ai f).fabric = s.fabric := rfl
@[simp] theorem State.modArea_saddle (s : State) (jid ai : Nat) (f : Area → Area) : (s.modArea jid ai f).saddle = s.saddle := rfl
@[simp] theorem State.modArea_out (s : State) (jid ai : Nat) (f : Area → Area) : (s.modArea jid ai f).out = s.out := rfl
@[simp] theorem State.modArea_fetchRound (s : State) (jid ai : Nat) (f : Area → Area) : (s.modArea jid ai f).fetchRound = s.fetchRound := rfl
@[simp] theorem State.modArea_nextJid (s : State) (jid ai : Nat) (f : Area → Area) : (s.modArea jid ai f).nextJid = s.nextJid := rfl
@[simp] theorem State.modArea_nextMid (s : State) (jid ai : Nat) (f : Area → Area) : (s.modArea jid ai f).nextMid = s.nextMid := rfl
@[simp] theorem State.modArea_draw (s : State) (jid ai : Nat) (f : Area → Area) : (s.modArea jid ai f).draw = s.draw := rfl

-- modResult -------------------------------------------------------------------------------------------

@[simp] theorem State.modResult_pending (s : State) (jid stage : Nat) (f : ResultBuf → ResultBuf) : (s.modResult jid stage f).pending = s.pending := rfl
@[simp] theorem State.modResult_part (s : State) (jid stage : Nat) (f : ResultBuf → ResultBuf) : (s.modResult jid stage f).part = s.part := rfl
@[simp] theorem State.modResult_frame (s : State) (jid stage : Nat) (f : ResultBuf → ResultBuf) : (s.modResult jid stage f).frame = s.frame := rfl
@[simp] theorem State.modResult_dies (s : State) (jid stage : Nat) (f : ResultBuf → ResultBuf) : (s.modResult jid stage f).dies = s.dies := rfl
@[simp] theorem State.modResult_insts (s : State) (jid stage : Nat) (f : ResultBuf → ResultBuf) : (s.modResult jid stage f).insts = s.insts := rfl
@[simp] theorem State.modResult_cpls (s : State) (jid stage : Nat) (f : ResultBuf → ResultBuf) : (s.modResult jid stage f).cpls = s.cpls := rfl
@[simp] theorem State.modResult_changes (s : State) (jid stage : Nat) (f : ResultBuf → ResultBuf) : (s.modResult jid stage f).changes = s.changes := rfl
@[simp] theorem State.modResult_pages (s : State) (jid stage : Nat) (f : ResultBuf → ResultBuf) : (s.modResult jid stage f).pages = s.pages := rfl
@[simp] theorem State.modResult_mem (s : State) (jid stage : Nat) (f : ResultBuf → ResultBuf) : (s.modResult jid stage f).mem = s.mem := rfl
@[simp] theorem State.modResult_poison (s : State) (jid stage : Nat) (f : ResultBuf → ResultBuf) : (s.modResult jid stage f).poison = s.poison := rfl
@[simp] theorem State.modResult_ats (s : State) (jid stage : Nat) (f : ResultBuf → ResultBuf) : (s.modResult jid stage f).ats = s.ats := rfl
@[simp] theorem State.modResult_settings (s : State) (jid stage : Nat) (f : ResultBuf → ResultBuf) : (s.modResult jid stage f).settings = s.settings := rfl
@[simp] theorem State.modResult_keeper (s : State) (jid stage : Nat) (f : ResultBuf → ResultBuf) : (s.modResult jid stage f).keeper = s.keeper := rfl
@[simp] theorem State.modResult_propolis (s : State) (jid stage : Nat) (f : ResultBuf → ResultBuf) : (s.modResult jid stage f).propolis = s.propolis := rfl
@[simp] theorem State.modResult_events (s : State) (jid stage : Nat) (f : ResultBuf → ResultBuf) : (s.modResult jid stage f).events = s.events := rfl
@[simp] theorem State.modResult_power (s : State) (jid stage : Nat) (f : ResultBuf → ResultBuf) : (s.modResult jid stage f).power = s.power := rfl
@[simp] theorem State.modResult_fabric (s : State) (jid stage : Nat) (f : ResultBuf → ResultBuf) : (s.modResult jid stage f).fabric = s.fabric := rfl
@[simp] theorem State.modResult_saddle (s : State) (jid stage : Nat) (f : ResultBuf → ResultBuf) : (s.modResult jid stage f).saddle = s.saddle := rfl
@[simp] theorem State.modResult_out (s : State) (jid stage : Nat) (f : ResultBuf → ResultBuf) : (s.modResult jid stage f).out = s.out := rfl
@[simp] theorem State.modResult_fetchRound (s : State) (jid stage : Nat) (f : ResultBuf → ResultBuf) : (s.modResult jid stage f).fetchRound = s.fetchRound := rfl
@[simp] theorem State.modResult_nextJid (s : State) (jid stage : Nat) (f : ResultBuf → ResultBuf) : (s.modResult jid stage f).nextJid = s.nextJid := rfl
@[simp] theorem State.modResult_nextMid (s : State) (jid stage : Nat) (f : ResultBuf → ResultBuf) : (s.modResult jid stage f).nextMid = s.nextMid := rfl
@[simp] theorem State.modResult_draw (s : State) (jid stage : Nat) (f : ResultBuf → ResultBuf) : (s.modResult jid stage f).draw = s.draw := rfl

-- modLog ----------------------------------------------------------------------------------------------

@[simp] theorem State.modLog_pending (s : State) (f : AuditLog → AuditLog) : (s.modLog f).pending = s.pending := rfl
@[simp] theorem State.modLog_part (s : State) (f : AuditLog → AuditLog) : (s.modLog f).part = s.part := rfl
@[simp] theorem State.modLog_frame (s : State) (f : AuditLog → AuditLog) : (s.modLog f).frame = s.frame := rfl
@[simp] theorem State.modLog_dies (s : State) (f : AuditLog → AuditLog) : (s.modLog f).dies = s.dies := rfl
@[simp] theorem State.modLog_insts (s : State) (f : AuditLog → AuditLog) : (s.modLog f).insts = s.insts := rfl
@[simp] theorem State.modLog_jobs (s : State) (f : AuditLog → AuditLog) : (s.modLog f).jobs = s.jobs := rfl
@[simp] theorem State.modLog_cpls (s : State) (f : AuditLog → AuditLog) : (s.modLog f).cpls = s.cpls := rfl
@[simp] theorem State.modLog_changes (s : State) (f : AuditLog → AuditLog) : (s.modLog f).changes = s.changes := rfl
@[simp] theorem State.modLog_pages (s : State) (f : AuditLog → AuditLog) : (s.modLog f).pages = s.pages := rfl
@[simp] theorem State.modLog_mem (s : State) (f : AuditLog → AuditLog) : (s.modLog f).mem = s.mem := rfl
@[simp] theorem State.modLog_poison (s : State) (f : AuditLog → AuditLog) : (s.modLog f).poison = s.poison := rfl
@[simp] theorem State.modLog_ats (s : State) (f : AuditLog → AuditLog) : (s.modLog f).ats = s.ats := rfl
@[simp] theorem State.modLog_settings (s : State) (f : AuditLog → AuditLog) : (s.modLog f).settings = s.settings := rfl
@[simp] theorem State.modLog_propolis (s : State) (f : AuditLog → AuditLog) : (s.modLog f).propolis = s.propolis := rfl
@[simp] theorem State.modLog_events (s : State) (f : AuditLog → AuditLog) : (s.modLog f).events = s.events := rfl
@[simp] theorem State.modLog_power (s : State) (f : AuditLog → AuditLog) : (s.modLog f).power = s.power := rfl
@[simp] theorem State.modLog_fabric (s : State) (f : AuditLog → AuditLog) : (s.modLog f).fabric = s.fabric := rfl
@[simp] theorem State.modLog_saddle (s : State) (f : AuditLog → AuditLog) : (s.modLog f).saddle = s.saddle := rfl
@[simp] theorem State.modLog_out (s : State) (f : AuditLog → AuditLog) : (s.modLog f).out = s.out := rfl
@[simp] theorem State.modLog_fetchRound (s : State) (f : AuditLog → AuditLog) : (s.modLog f).fetchRound = s.fetchRound := rfl
@[simp] theorem State.modLog_nextJid (s : State) (f : AuditLog → AuditLog) : (s.modLog f).nextJid = s.nextJid := rfl
@[simp] theorem State.modLog_nextMid (s : State) (f : AuditLog → AuditLog) : (s.modLog f).nextMid = s.nextMid := rfl
@[simp] theorem State.modLog_draw (s : State) (f : AuditLog → AuditLog) : (s.modLog f).draw = s.draw := rfl

-- modPort ---------------------------------------------------------------------------------------------

@[simp] theorem State.modPort_pending (s : State) (p : Nat) (g : Port → Port) : (s.modPort p g).pending = s.pending := rfl
@[simp] theorem State.modPort_part (s : State) (p : Nat) (g : Port → Port) : (s.modPort p g).part = s.part := rfl
@[simp] theorem State.modPort_frame (s : State) (p : Nat) (g : Port → Port) : (s.modPort p g).frame = s.frame := rfl
@[simp] theorem State.modPort_dies (s : State) (p : Nat) (g : Port → Port) : (s.modPort p g).dies = s.dies := rfl
@[simp] theorem State.modPort_insts (s : State) (p : Nat) (g : Port → Port) : (s.modPort p g).insts = s.insts := rfl
@[simp] theorem State.modPort_jobs (s : State) (p : Nat) (g : Port → Port) : (s.modPort p g).jobs = s.jobs := rfl
@[simp] theorem State.modPort_cpls (s : State) (p : Nat) (g : Port → Port) : (s.modPort p g).cpls = s.cpls := rfl
@[simp] theorem State.modPort_changes (s : State) (p : Nat) (g : Port → Port) : (s.modPort p g).changes = s.changes := rfl
@[simp] theorem State.modPort_pages (s : State) (p : Nat) (g : Port → Port) : (s.modPort p g).pages = s.pages := rfl
@[simp] theorem State.modPort_mem (s : State) (p : Nat) (g : Port → Port) : (s.modPort p g).mem = s.mem := rfl
@[simp] theorem State.modPort_poison (s : State) (p : Nat) (g : Port → Port) : (s.modPort p g).poison = s.poison := rfl
@[simp] theorem State.modPort_ats (s : State) (p : Nat) (g : Port → Port) : (s.modPort p g).ats = s.ats := rfl
@[simp] theorem State.modPort_settings (s : State) (p : Nat) (g : Port → Port) : (s.modPort p g).settings = s.settings := rfl
@[simp] theorem State.modPort_keeper (s : State) (p : Nat) (g : Port → Port) : (s.modPort p g).keeper = s.keeper := rfl
@[simp] theorem State.modPort_propolis (s : State) (p : Nat) (g : Port → Port) : (s.modPort p g).propolis = s.propolis := rfl
@[simp] theorem State.modPort_events (s : State) (p : Nat) (g : Port → Port) : (s.modPort p g).events = s.events := rfl
@[simp] theorem State.modPort_power (s : State) (p : Nat) (g : Port → Port) : (s.modPort p g).power = s.power := rfl
@[simp] theorem State.modPort_saddle (s : State) (p : Nat) (g : Port → Port) : (s.modPort p g).saddle = s.saddle := rfl
@[simp] theorem State.modPort_out (s : State) (p : Nat) (g : Port → Port) : (s.modPort p g).out = s.out := rfl
@[simp] theorem State.modPort_fetchRound (s : State) (p : Nat) (g : Port → Port) : (s.modPort p g).fetchRound = s.fetchRound := rfl
@[simp] theorem State.modPort_nextJid (s : State) (p : Nat) (g : Port → Port) : (s.modPort p g).nextJid = s.nextJid := rfl
@[simp] theorem State.modPort_nextMid (s : State) (p : Nat) (g : Port → Port) : (s.modPort p g).nextMid = s.nextMid := rfl
@[simp] theorem State.modPort_draw (s : State) (p : Nat) (g : Port → Port) : (s.modPort p g).draw = s.draw := rfl

-- drawn -----------------------------------------------------------------------------------------------

@[simp] theorem State.drawn_pending (s : State) : (s.drawn).pending = s.pending := rfl
@[simp] theorem State.drawn_part (s : State) : (s.drawn).part = s.part := rfl
@[simp] theorem State.drawn_frame (s : State) : (s.drawn).frame = s.frame := rfl
@[simp] theorem State.drawn_dies (s : State) : (s.drawn).dies = s.dies := rfl
@[simp] theorem State.drawn_insts (s : State) : (s.drawn).insts = s.insts := rfl
@[simp] theorem State.drawn_jobs (s : State) : (s.drawn).jobs = s.jobs := rfl
@[simp] theorem State.drawn_cpls (s : State) : (s.drawn).cpls = s.cpls := rfl
@[simp] theorem State.drawn_changes (s : State) : (s.drawn).changes = s.changes := rfl
@[simp] theorem State.drawn_pages (s : State) : (s.drawn).pages = s.pages := rfl
@[simp] theorem State.drawn_mem (s : State) : (s.drawn).mem = s.mem := rfl
@[simp] theorem State.drawn_poison (s : State) : (s.drawn).poison = s.poison := rfl
@[simp] theorem State.drawn_ats (s : State) : (s.drawn).ats = s.ats := rfl
@[simp] theorem State.drawn_settings (s : State) : (s.drawn).settings = s.settings := rfl
@[simp] theorem State.drawn_keeper (s : State) : (s.drawn).keeper = s.keeper := rfl
@[simp] theorem State.drawn_propolis (s : State) : (s.drawn).propolis = s.propolis := rfl
@[simp] theorem State.drawn_events (s : State) : (s.drawn).events = s.events := rfl
@[simp] theorem State.drawn_power (s : State) : (s.drawn).power = s.power := rfl
@[simp] theorem State.drawn_fabric (s : State) : (s.drawn).fabric = s.fabric := rfl
@[simp] theorem State.drawn_saddle (s : State) : (s.drawn).saddle = s.saddle := rfl
@[simp] theorem State.drawn_out (s : State) : (s.drawn).out = s.out := rfl
@[simp] theorem State.drawn_fetchRound (s : State) : (s.drawn).fetchRound = s.fetchRound := rfl
@[simp] theorem State.drawn_nextJid (s : State) : (s.drawn).nextJid = s.nextJid := rfl
@[simp] theorem State.drawn_nextMid (s : State) : (s.drawn).nextMid = s.nextMid := rfl

-- emit ------------------------------------------------------------------------------------------------

@[simp] theorem State.emit_pending (s : State) (o : Out) : (s.emit o).pending = s.pending := rfl
@[simp] theorem State.emit_part (s : State) (o : Out) : (s.emit o).part = s.part := rfl
@[simp] theorem State.emit_frame (s : State) (o : Out) : (s.emit o).frame = s.frame := rfl
@[simp] theorem State.emit_dies (s : State) (o : Out) : (s.emit o).dies = s.dies := rfl
@[simp] theorem State.emit_insts (s : State) (o : Out) : (s.emit o).insts = s.insts := rfl
@[simp] theorem State.emit_jobs (s : State) (o : Out) : (s.emit o).jobs = s.jobs := rfl
@[simp] theorem State.emit_cpls (s : State) (o : Out) : (s.emit o).cpls = s.cpls := rfl
@[simp] theorem State.emit_changes (s : State) (o : Out) : (s.emit o).changes = s.changes := rfl
@[simp] theorem State.emit_pages (s : State) (o : Out) : (s.emit o).pages = s.pages := rfl
@[simp] theorem State.emit_mem (s : State) (o : Out) : (s.emit o).mem = s.mem := rfl
@[simp] theorem State.emit_poison (s : State) (o : Out) : (s.emit o).poison = s.poison := rfl
@[simp] theorem State.emit_ats (s : State) (o : Out) : (s.emit o).ats = s.ats := rfl
@[simp] theorem State.emit_settings (s : State) (o : Out) : (s.emit o).settings = s.settings := rfl
@[simp] theorem State.emit_keeper (s : State) (o : Out) : (s.emit o).keeper = s.keeper := rfl
@[simp] theorem State.emit_propolis (s : State) (o : Out) : (s.emit o).propolis = s.propolis := rfl
@[simp] theorem State.emit_events (s : State) (o : Out) : (s.emit o).events = s.events := rfl
@[simp] theorem State.emit_power (s : State) (o : Out) : (s.emit o).power = s.power := rfl
@[simp] theorem State.emit_fabric (s : State) (o : Out) : (s.emit o).fabric = s.fabric := rfl
@[simp] theorem State.emit_saddle (s : State) (o : Out) : (s.emit o).saddle = s.saddle := rfl
@[simp] theorem State.emit_fetchRound (s : State) (o : Out) : (s.emit o).fetchRound = s.fetchRound := rfl
@[simp] theorem State.emit_nextJid (s : State) (o : Out) : (s.emit o).nextJid = s.nextJid := rfl
@[simp] theorem State.emit_nextMid (s : State) (o : Out) : (s.emit o).nextMid = s.nextMid := rfl
@[simp] theorem State.emit_draw (s : State) (o : Out) : (s.emit o).draw = s.draw := rfl

-- READING AN UPDATED PLACE ----------------------------------------------------------------------------------------------------

@[simp] theorem State.drawn_draw (s : State) : s.drawn.draw = s.draw + 1 := rfl
@[simp] theorem State.emit_out (s : State) (o : Out) : (s.emit o).out = s.out ++ [o] := rfl

@[simp] theorem State.modDie_length (s : State) (d : Nat) (f : Die → Die) : (s.modDie d f).dies.length = s.dies.length := by
  simp [State.modDie]

@[simp] theorem State.modInst_length (s : State) (n : Nat) (f : Inst → Inst) : (s.modInst n f).insts.length = s.insts.length := by
  simp [State.modInst]

/-- A die of the machine reads as changed. -/
theorem State.dieD_modDie {s : State} {d : Nat} (f : Die → Die) (h : d < s.dies.length) : (s.modDie d f).dieD d = f (s.dieD d) := by
  simp [State.dieD, State.modDie, h]

/-- Every other die reads as before. -/
theorem State.dieD_modDie_ne {s : State} {d e : Nat} (f : Die → Die) (h : e ≠ d) : (s.modDie d f).dieD e = s.dieD e := by
  simp [State.dieD, State.modDie, Ne.symm h]

theorem State.instD_modInst {s : State} {n : Nat} (f : Inst → Inst) (h : n < s.insts.length) : (s.modInst n f).instD n = f (s.instD n) := by
  simp [State.instD, State.modInst, h]

theorem State.instD_modInst_ne {s : State} {n k : Nat} (f : Inst → Inst) (h : k ≠ n) : (s.modInst n f).instD k = s.instD k := by
  simp [State.instD, State.modInst, Ne.symm h]

/-- A Forager reads as changed. -/
theorem State.fgr?_modFgr {s : State} {f : FId} {g : Fgr} (h : Fgr → Fgr) (hg : s.fgr? f = some g) : (s.modFgr f h).fgr? f = some (h g) := by
  unfold State.fgr? at hg ⊢
  obtain ⟨d, hd, hf⟩ := Option.bind_eq_some_iff.mp hg
  simp [State.modFgr, State.modDie, hd, hf]

/-- Every other Forager reads as before. -/
theorem State.fgr?_modFgr_ne {s : State} {f e : FId} (h : Fgr → Fgr) (hne : e ≠ f) : (s.modFgr f h).fgr? e = s.fgr? e := by
  unfold State.fgr?
  by_cases hd : f.die = e.die
  · have hk : f.fgr ≠ e.fgr := by
      intro hk; apply hne; cases e; cases f; simp_all
    cases h1 : s.dies[e.die]? <;> simp [State.modFgr, State.modDie, hd, hk, h1]
  · simp [State.modFgr, State.modDie, hd]

-- REGISTERS OF A FORAGER ------------------------------------------------------------------------------------------------------

@[simp] theorem FRegs.setG_v (r : FRegs) (i : BitVec 5) (v : W64) : (r.setG i v).v = r.v := by
  unfold FRegs.setG; split <;> rfl
@[simp] theorem FRegs.setG_a (r : FRegs) (i : BitVec 5) (v : W64) : (r.setG i v).a = r.a := by
  unfold FRegs.setG; split <;> rfl
@[simp] theorem FRegs.setG_va (r : FRegs) (i : BitVec 5) (v : W64) : (r.setG i v).va = r.va := by
  unfold FRegs.setG; split <;> rfl
@[simp] theorem FRegs.setG_pc (r : FRegs) (i : BitVec 5) (v : W64) : (r.setG i v).pc = r.pc := by
  unfold FRegs.setG; split <;> rfl
@[simp] theorem FRegs.setG_fxcsr (r : FRegs) (i : BitVec 5) (v : W64) : (r.setG i v).fxcsr = r.fxcsr := by
  unfold FRegs.setG; split <;> rfl
@[simp] theorem FRegs.setG_fxepc (r : FRegs) (i : BitVec 5) (v : W64) : (r.setG i v).fxepc = r.fxepc := by
  unfold FRegs.setG; split <;> rfl
@[simp] theorem FRegs.setG_coreCtl (r : FRegs) (i : BitVec 5) (v : W64) : (r.setG i v).coreCtl = r.coreCtl := by
  unfold FRegs.setG; split <;> rfl
@[simp] theorem FRegs.setG_vl (r : FRegs) (i : BitVec 5) (v : W64) : (r.setG i v).vl = r.vl := by
  unfold FRegs.setG; split <;> rfl
@[simp] theorem FRegs.setG_vtype (r : FRegs) (i : BitVec 5) (v : W64) : (r.setG i v).vtype = r.vtype := by
  unfold FRegs.setG; split <;> rfl
@[simp] theorem FRegs.setG_vstart (r : FRegs) (i : BitVec 5) (v : W64) : (r.setG i v).vstart = r.vstart := by
  unfold FRegs.setG; split <;> rfl
@[simp] theorem FRegs.setG_lc (r : FRegs) (i : BitVec 5) (v : W64) : (r.setG i v).lc = r.lc := by
  unfold FRegs.setG; split <;> rfl
@[simp] theorem FRegs.setG_ls (r : FRegs) (i : BitVec 5) (v : W64) : (r.setG i v).ls = r.ls := by
  unfold FRegs.setG; split <;> rfl
@[simp] theorem FRegs.setG_le (r : FRegs) (i : BitVec 5) (v : W64) : (r.setG i v).le = r.le := by
  unfold FRegs.setG; split <;> rfl
@[simp] theorem FRegs.setG_tepc (r : FRegs) (i : BitVec 5) (v : W64) : (r.setG i v).tepc = r.tepc := by
  unfold FRegs.setG; split <;> rfl
@[simp] theorem FRegs.setG_tcause (r : FRegs) (i : BitVec 5) (v : W64) : (r.setG i v).tcause = r.tcause := by
  unfold FRegs.setG; split <;> rfl
@[simp] theorem FRegs.setG_tval (r : FRegs) (i : BitVec 5) (v : W64) : (r.setG i v).tval = r.tval := by
  unfold FRegs.setG; split <;> rfl
@[simp] theorem FRegs.setG_cycle (r : FRegs) (i : BitVec 5) (v : W64) : (r.setG i v).cycle = r.cycle := by
  unfold FRegs.setG; split <;> rfl
@[simp] theorem FRegs.setG_instret (r : FRegs) (i : BitVec 5) (v : W64) : (r.setG i v).instret = r.instret := by
  unfold FRegs.setG; split <;> rfl
@[simp] theorem FRegs.setG_pend (r : FRegs) (i : BitVec 5) (v : W64) : (r.setG i v).pend = r.pend := by
  unfold FRegs.setG; split <;> rfl

@[simp] theorem FRegs.setV_g (r : FRegs) (i : BitVec 5) (v : W1024) : (r.setV i v).g = r.g := rfl
@[simp] theorem FRegs.setV_a (r : FRegs) (i : BitVec 5) (v : W1024) : (r.setV i v).a = r.a := rfl
@[simp] theorem FRegs.setV_va (r : FRegs) (i : BitVec 5) (v : W1024) : (r.setV i v).va = r.va := rfl
@[simp] theorem FRegs.setV_pc (r : FRegs) (i : BitVec 5) (v : W1024) : (r.setV i v).pc = r.pc := rfl
@[simp] theorem FRegs.setV_fxcsr (r : FRegs) (i : BitVec 5) (v : W1024) : (r.setV i v).fxcsr = r.fxcsr := rfl
@[simp] theorem FRegs.setV_fxepc (r : FRegs) (i : BitVec 5) (v : W1024) : (r.setV i v).fxepc = r.fxepc := rfl
@[simp] theorem FRegs.setV_coreCtl (r : FRegs) (i : BitVec 5) (v : W1024) : (r.setV i v).coreCtl = r.coreCtl := rfl
@[simp] theorem FRegs.setV_vl (r : FRegs) (i : BitVec 5) (v : W1024) : (r.setV i v).vl = r.vl := rfl
@[simp] theorem FRegs.setV_vtype (r : FRegs) (i : BitVec 5) (v : W1024) : (r.setV i v).vtype = r.vtype := rfl
@[simp] theorem FRegs.setV_vstart (r : FRegs) (i : BitVec 5) (v : W1024) : (r.setV i v).vstart = r.vstart := rfl
@[simp] theorem FRegs.setV_lc (r : FRegs) (i : BitVec 5) (v : W1024) : (r.setV i v).lc = r.lc := rfl
@[simp] theorem FRegs.setV_ls (r : FRegs) (i : BitVec 5) (v : W1024) : (r.setV i v).ls = r.ls := rfl
@[simp] theorem FRegs.setV_le (r : FRegs) (i : BitVec 5) (v : W1024) : (r.setV i v).le = r.le := rfl
@[simp] theorem FRegs.setV_tepc (r : FRegs) (i : BitVec 5) (v : W1024) : (r.setV i v).tepc = r.tepc := rfl
@[simp] theorem FRegs.setV_tcause (r : FRegs) (i : BitVec 5) (v : W1024) : (r.setV i v).tcause = r.tcause := rfl
@[simp] theorem FRegs.setV_tval (r : FRegs) (i : BitVec 5) (v : W1024) : (r.setV i v).tval = r.tval := rfl
@[simp] theorem FRegs.setV_cycle (r : FRegs) (i : BitVec 5) (v : W1024) : (r.setV i v).cycle = r.cycle := rfl
@[simp] theorem FRegs.setV_instret (r : FRegs) (i : BitVec 5) (v : W1024) : (r.setV i v).instret = r.instret := rfl
@[simp] theorem FRegs.setV_pend (r : FRegs) (i : BitVec 5) (v : W1024) : (r.setV i v).pend = r.pend := rfl

@[simp] theorem FRegs.setW_g (r : FRegs) (i : BitVec 5) (w : W128) : (r.setW i w).g = r.g := rfl
@[simp] theorem FRegs.setW_a (r : FRegs) (i : BitVec 5) (w : W128) : (r.setW i w).a = r.a := rfl
@[simp] theorem FRegs.setW_va (r : FRegs) (i : BitVec 5) (w : W128) : (r.setW i w).va = r.va := rfl
@[simp] theorem FRegs.setW_pc (r : FRegs) (i : BitVec 5) (w : W128) : (r.setW i w).pc = r.pc := rfl
@[simp] theorem FRegs.setW_fxcsr (r : FRegs) (i : BitVec 5) (w : W128) : (r.setW i w).fxcsr = r.fxcsr := rfl
@[simp] theorem FRegs.setW_fxepc (r : FRegs) (i : BitVec 5) (w : W128) : (r.setW i w).fxepc = r.fxepc := rfl
@[simp] theorem FRegs.setW_coreCtl (r : FRegs) (i : BitVec 5) (w : W128) : (r.setW i w).coreCtl = r.coreCtl := rfl
@[simp] theorem FRegs.setW_vl (r : FRegs) (i : BitVec 5) (w : W128) : (r.setW i w).vl = r.vl := rfl
@[simp] theorem FRegs.setW_vtype (r : FRegs) (i : BitVec 5) (w : W128) : (r.setW i w).vtype = r.vtype := rfl
@[simp] theorem FRegs.setW_vstart (r : FRegs) (i : BitVec 5) (w : W128) : (r.setW i w).vstart = r.vstart := rfl
@[simp] theorem FRegs.setW_lc (r : FRegs) (i : BitVec 5) (w : W128) : (r.setW i w).lc = r.lc := rfl
@[simp] theorem FRegs.setW_ls (r : FRegs) (i : BitVec 5) (w : W128) : (r.setW i w).ls = r.ls := rfl
@[simp] theorem FRegs.setW_le (r : FRegs) (i : BitVec 5) (w : W128) : (r.setW i w).le = r.le := rfl
@[simp] theorem FRegs.setW_tepc (r : FRegs) (i : BitVec 5) (w : W128) : (r.setW i w).tepc = r.tepc := rfl
@[simp] theorem FRegs.setW_tcause (r : FRegs) (i : BitVec 5) (w : W128) : (r.setW i w).tcause = r.tcause := rfl
@[simp] theorem FRegs.setW_tval (r : FRegs) (i : BitVec 5) (w : W128) : (r.setW i w).tval = r.tval := rfl
@[simp] theorem FRegs.setW_cycle (r : FRegs) (i : BitVec 5) (w : W128) : (r.setW i w).cycle = r.cycle := rfl
@[simp] theorem FRegs.setW_instret (r : FRegs) (i : BitVec 5) (w : W128) : (r.setW i w).instret = r.instret := rfl
@[simp] theorem FRegs.setW_pend (r : FRegs) (i : BitVec 5) (w : W128) : (r.setW i w).pend = r.pend := rfl

@[simp] theorem FRegs.setA_g (r : FRegs) (i : BitVec 2) (v : W144) : (r.setA i v).g = r.g := rfl
@[simp] theorem FRegs.setA_v (r : FRegs) (i : BitVec 2) (v : W144) : (r.setA i v).v = r.v := rfl
@[simp] theorem FRegs.setA_va (r : FRegs) (i : BitVec 2) (v : W144) : (r.setA i v).va = r.va := rfl
@[simp] theorem FRegs.setA_pc (r : FRegs) (i : BitVec 2) (v : W144) : (r.setA i v).pc = r.pc := rfl
@[simp] theorem FRegs.setA_fxcsr (r : FRegs) (i : BitVec 2) (v : W144) : (r.setA i v).fxcsr = r.fxcsr := rfl
@[simp] theorem FRegs.setA_fxepc (r : FRegs) (i : BitVec 2) (v : W144) : (r.setA i v).fxepc = r.fxepc := rfl
@[simp] theorem FRegs.setA_coreCtl (r : FRegs) (i : BitVec 2) (v : W144) : (r.setA i v).coreCtl = r.coreCtl := rfl
@[simp] theorem FRegs.setA_vl (r : FRegs) (i : BitVec 2) (v : W144) : (r.setA i v).vl = r.vl := rfl
@[simp] theorem FRegs.setA_vtype (r : FRegs) (i : BitVec 2) (v : W144) : (r.setA i v).vtype = r.vtype := rfl
@[simp] theorem FRegs.setA_vstart (r : FRegs) (i : BitVec 2) (v : W144) : (r.setA i v).vstart = r.vstart := rfl
@[simp] theorem FRegs.setA_lc (r : FRegs) (i : BitVec 2) (v : W144) : (r.setA i v).lc = r.lc := rfl
@[simp] theorem FRegs.setA_ls (r : FRegs) (i : BitVec 2) (v : W144) : (r.setA i v).ls = r.ls := rfl
@[simp] theorem FRegs.setA_le (r : FRegs) (i : BitVec 2) (v : W144) : (r.setA i v).le = r.le := rfl
@[simp] theorem FRegs.setA_tepc (r : FRegs) (i : BitVec 2) (v : W144) : (r.setA i v).tepc = r.tepc := rfl
@[simp] theorem FRegs.setA_tcause (r : FRegs) (i : BitVec 2) (v : W144) : (r.setA i v).tcause = r.tcause := rfl
@[simp] theorem FRegs.setA_tval (r : FRegs) (i : BitVec 2) (v : W144) : (r.setA i v).tval = r.tval := rfl
@[simp] theorem FRegs.setA_cycle (r : FRegs) (i : BitVec 2) (v : W144) : (r.setA i v).cycle = r.cycle := rfl
@[simp] theorem FRegs.setA_instret (r : FRegs) (i : BitVec 2) (v : W144) : (r.setA i v).instret = r.instret := rfl
@[simp] theorem FRegs.setA_pend (r : FRegs) (i : BitVec 2) (v : W144) : (r.setA i v).pend = r.pend := rfl

@[simp] theorem FRegs.setVa_g (r : FRegs) (i : BitVec 2) (v : WVA) : (r.setVa i v).g = r.g := rfl
@[simp] theorem FRegs.setVa_v (r : FRegs) (i : BitVec 2) (v : WVA) : (r.setVa i v).v = r.v := rfl
@[simp] theorem FRegs.setVa_a (r : FRegs) (i : BitVec 2) (v : WVA) : (r.setVa i v).a = r.a := rfl
@[simp] theorem FRegs.setVa_pc (r : FRegs) (i : BitVec 2) (v : WVA) : (r.setVa i v).pc = r.pc := rfl
@[simp] theorem FRegs.setVa_fxcsr (r : FRegs) (i : BitVec 2) (v : WVA) : (r.setVa i v).fxcsr = r.fxcsr := rfl
@[simp] theorem FRegs.setVa_fxepc (r : FRegs) (i : BitVec 2) (v : WVA) : (r.setVa i v).fxepc = r.fxepc := rfl
@[simp] theorem FRegs.setVa_coreCtl (r : FRegs) (i : BitVec 2) (v : WVA) : (r.setVa i v).coreCtl = r.coreCtl := rfl
@[simp] theorem FRegs.setVa_vl (r : FRegs) (i : BitVec 2) (v : WVA) : (r.setVa i v).vl = r.vl := rfl
@[simp] theorem FRegs.setVa_vtype (r : FRegs) (i : BitVec 2) (v : WVA) : (r.setVa i v).vtype = r.vtype := rfl
@[simp] theorem FRegs.setVa_vstart (r : FRegs) (i : BitVec 2) (v : WVA) : (r.setVa i v).vstart = r.vstart := rfl
@[simp] theorem FRegs.setVa_lc (r : FRegs) (i : BitVec 2) (v : WVA) : (r.setVa i v).lc = r.lc := rfl
@[simp] theorem FRegs.setVa_ls (r : FRegs) (i : BitVec 2) (v : WVA) : (r.setVa i v).ls = r.ls := rfl
@[simp] theorem FRegs.setVa_le (r : FRegs) (i : BitVec 2) (v : WVA) : (r.setVa i v).le = r.le := rfl
@[simp] theorem FRegs.setVa_tepc (r : FRegs) (i : BitVec 2) (v : WVA) : (r.setVa i v).tepc = r.tepc := rfl
@[simp] theorem FRegs.setVa_tcause (r : FRegs) (i : BitVec 2) (v : WVA) : (r.setVa i v).tcause = r.tcause := rfl
@[simp] theorem FRegs.setVa_tval (r : FRegs) (i : BitVec 2) (v : WVA) : (r.setVa i v).tval = r.tval := rfl
@[simp] theorem FRegs.setVa_cycle (r : FRegs) (i : BitVec 2) (v : WVA) : (r.setVa i v).cycle = r.cycle := rfl
@[simp] theorem FRegs.setVa_instret (r : FRegs) (i : BitVec 2) (v : WVA) : (r.setVa i v).instret = r.instret := rfl
@[simp] theorem FRegs.setVa_pend (r : FRegs) (i : BitVec 2) (v : WVA) : (r.setVa i v).pend = r.pend := rfl

@[simp] theorem FRegs.rg_zero (r : FRegs) : r.rg 0 = 0 := by simp [FRegs.rg]

/-- A general register reads back what was written; G0 reads 0 (R209). -/
theorem FRegs.rg_setG (r : FRegs) (i k : BitVec 5) (v : W64) : (r.setG i v).rg k = if k = 0 then 0 else if k = i then v else r.rg k := by
  by_cases hk : k = 0#5
  · simp [FRegs.rg, hk]
  · by_cases hi : i = 0#5
    · subst hi; simp [FRegs.setG, hk]
    · by_cases h : k = i
      · subst h; simp [FRegs.rg, FRegs.setG, hk]
      · have hn : i.toNat ≠ k.toNat := fun e => h (BitVec.eq_of_toNat_eq e.symm)
        simp [FRegs.rg, FRegs.setG, hk, hi, h, Vector.getElem_set, hn]

theorem FRegs.rv_setV (r : FRegs) (i k : BitVec 5) (v : W1024) : (r.setV i v).rv k = if k = i then v else r.rv k := by
  by_cases h : k = i
  · subst h; simp [FRegs.rv, FRegs.setV]
  · have hn : i.toNat ≠ k.toNat := fun e => h (BitVec.eq_of_toNat_eq e.symm)
    simp [FRegs.rv, FRegs.setV, h, Vector.getElem_set, hn]

theorem FRegs.ra_setA (r : FRegs) (i k : BitVec 2) (v : W144) : (r.setA i v).ra k = if k = i then v else r.ra k := by
  by_cases h : k = i
  · subst h; simp [FRegs.ra, FRegs.setA]
  · have hn : i.toNat ≠ k.toNat := fun e => h (BitVec.eq_of_toNat_eq e.symm)
    simp [FRegs.ra, FRegs.setA, h, Vector.getElem_set, hn]

theorem FRegs.rva_setVa (r : FRegs) (i k : BitVec 2) (v : WVA) : (r.setVa i v).rva k = if k = i then v else r.rva k := by
  by_cases h : k = i
  · subst h; simp [FRegs.rva, FRegs.setVa]
  · have hn : i.toNat ≠ k.toNat := fun e => h (BitVec.eq_of_toNat_eq e.symm)
    simp [FRegs.rva, FRegs.setVa, h, Vector.getElem_set, hn]

end Sys2Proof.Machine
end

