-- ==== Sys2Proof/WellFormed.lean ====
section
/-!
DEFINITION. Which commands are well formed: each operand lies in the range that the spec gives to what it names. The meanings take any operand; outside its
range a die, a function, a unit or a register does not exist, and the command changes nothing.
-/

namespace Sys2Proof

/-- A die, a ring link or an event group is one of 8 (R13, R15, R473). -/
def dieOk (d : Nat) : Bool := decide (d < 8)

/-- An instance, a function, an endpoint ID or another byte (R365, R435). -/
def byteOk (n : Nat) : Bool := decide (n < 256)

/-- A way of a Comb cache, a stack, a channel, a bank, a port or a result buffer is one of 16 (R297, R302, R310, R353, R396). -/
def nibOk (n : Nat) : Bool := decide (n < 16)

/-- A queue ID of an instance (R334). -/
def queueOk (q : Nat) : Bool := decide (q < 4096)

/-- An MMIO access has 4 or 8 bytes (R332). -/
def sizeOk (n : Nat) : Bool := n == 4 || n == 8

/-- A link width (R327). -/
def widthOk (w : Nat) : Bool := w == 1 || w == 4 || w == 8 || w == 16

/-- A fabric port, or none for the out-of-band port. -/
def portOpt (p : Option Nat) : Bool := p.elim true nibOk

/-- A die has 68 physical Foragers (R190). -/
def FId.wf (f : FId) : Bool := dieOk f.die && decide (f.fgr < 68)

/-- A die has 30 fixed units (R203). -/
def UId.wf (u : UId) : Bool := dieOk u.die && decide (u.unit < 30)

/-- An origin names a VF, an endpoint or a peer that can be (R425, R435, R436). -/
def Origin.wf : Origin → Bool
  | .loc | .hostPf => true
  | .hostVf n => decide (1 ≤ n) && byteOk n
  | .oobMctp eid binding => byteOk eid && decide (binding < 3)
  | .oobEth peer => dieOk peer

/-- A Ridge link of the package (R15). -/
def Ridge.wf : Ridge → Bool
  | .crest d => dieOk d
  | .ring l => dieOk l
  | .saddle => true

/-- A register of the four of EVT_PEND or EVT_MASK, or an origin (R473, R475). -/
def EvtCh.wf : EvtCh → Bool
  | .dict o _ => o.wf
  | .reg n _ => decide (n < 4)

/-- A queue of an instance; a job's number is the model's own. -/
def HostAccess.wf : HostAccess → Bool
  | .job _ => true
  | .sq q => queueOk q
  | .cq q => queueOk q

/-- The window of a function, or a session by its place. -/
def SegHolder.wf : SegHolder → Bool
  | .window fn => byteOk fn
  | .session _ => true

/-- Dies and Foragers that exist. -/
def BringupEnv.wf (e : BringupEnv) : Bool := e.failedDies.all dieOk && e.failedFgrs.all (·.wf)

/-- A command is well formed. -/
def Instr.wf : Instr → Bool
  | .frameTick => true
  | .morselSave f => f.wf
  | .morselResume f => f.wf
  | .evictedRestore f => f.wf
  | .overrunLimitReached die _ stage => dieOk die && decide (stage < 64)
  | .framePeriod o _ => o.wf
  | .frameNumberRead fn _ => byteOk fn
  | .syncModeSet o => o.wf
  | .syncModeClear o => o.wf
  | .t0TaiNs o _ => o.wf
  | .ptpMessage _ => true
  | .lockingComplete _ => true
  | .enterHoldover => true
  | .relock => true
  | .calDiscipline _ _ => true
  | .morselDispatch die _ _ => dieOk die
  | .readyLimit n o _ => byteOk n && o.wf
  | .statHold fn _ => byteOk fn
  | .statHoldExpired fn => byteOk fn
  | .retire die o _ => dieOk die && o.wf
  | .foragerErrThresh f => f.wf
  | .columnStreamerMorsel u => u.wf
  | .clearMorsel u => u.wf
  | .build u => u.wf
  | .probeInner u => u.wf
  | .probeLeft u => u.wf
  | .probeSemi u => u.wf
  | .probeAnti u => u.wf
  | .group u => u.wf
  | .drainMorsel u => u.wf
  | .sortIngest u => u.wf
  | .sortMerge u => u.wf
  | .sortFinal u => u.wf
  | .topnIngest u => u.wf
  | .topnFinal u => u.wf
  | .lookup u => u.wf
  | .load u => u.wf
  | .row u => u.wf
  | .stream u => u.wf
  | .amuBlockClear die block => dieOk die && decide (block < 64)
  | .amuSweepStep die => dieOk die
  | .shadowFault die index => dieOk die && decide (index < 32768)
  | .sqTailDoorbell fn q size _ => byteOk fn && queueOk q && sizeOk size
  | .cqHeadDoorbell fn q size _ => byteOk fn && queueOk q && sizeOk size
  | .aqCfg fn size _ => byteOk fn && sizeOk size
  | .adminDisableDone fn => byteOk fn
  | .cqStall n q => byteOk n && queueOk q
  | .chainFetch => true
  | .jobAdmit n => byteOk n
  | .createSq n => byteOk n
  | .deleteSq n => byteOk n
  | .sqDeleteComplete n q => byteOk n && queueOk q
  | .createCq n => byteOk n
  | .deleteCq n => byteOk n
  | .loadImage n => byteOk n
  | .loadImageChecksDone n => byteOk n
  | .unloadImage n => byteOk n
  | .imageUnloadComplete n slot => byteOk n && decide (slot < 64)
  | .abortJob n => byteOk n
  | .getStatusPage n => byteOk n
  | .job n => byteOk n
  | .controlPacketsMissing _ dev => decide (dev < 2048)
  | .flr fn _ => byteOk fn
  | .d3hotToD0 fn _ => byteOk fn
  | .vfEnable _ numVfs _ => byteOk numVfs
  | .atsInvalidation n _ _ => byteOk n
  | .linkDown => true
  | .linkUp width speed _ => widthOk width && decide (1 ≤ speed) && decide (speed ≤ 6)
  | .registerWrite fn off size _ => byteOk fn && decide (off < 0x1000000) && sizeOk size
  | .enable n o _ => byteOk n && o.wf
  | .disable n o _ => byteOk n && o.wf
  | .reset n o _ => byteOk n && o.wf
  | .instResetDone n => byteOk n
  | .freezeDrain n o _ => byteOk n && o.wf
  | .freezeAbort n o _ => byteOk n && o.wf
  | .freezeTimeout n => byteOk n
  | .thaw n o _ => byteOk n && o.wf
  | .coreFrames n o _ => byteOk n && o.wf
  | .share n kind o _ => byteOk n && decide (kind < 5) && o.wf
  | .fabricShare n o _ => byteOk n && o.wf
  | .imgStore n o _ => byteOk n && o.wf
  | .sqQuota n o _ => byteOk n && o.wf
  | .cqQuota n o _ => byteOk n && o.wf
  | .pasid n o _ => byteOk n && o.wf
  | .ptPages n o _ => byteOk n && o.wf
  | .ptWrite n o _ => byteOk n && o.wf
  | .regions n o _ => byteOk n && o.wf
  | .ccWays n _ o _ => byteOk n && o.wf
  | .wayCleanDone die way => dieOk die && nibOk way
  | .waySweepDone die n => dieOk die && byteOk n
  | .pageReleaseCleanDone page => decide (page < 262144)
  | .zeroFillDone page => decide (page < 262144)
  | .ccLock n _ o _ => byteOk n && o.wf
  | .clean n o => byteOk n && o.wf
  | .cleanInval n o => byteOk n && o.wf
  | .invalDone n => byteOk n
  | .dirtyCtl n o _ => byteOk n && o.wf
  | .powerDown die way => dieOk die && nibOk way
  | .powerDownDone die way => dieOk die && nibOk way
  | .powerUp die way => dieOk die && nibOk way
  | .powerUpDone die way => dieOk die && nibOk way
  | .wayEnable die way => dieOk die && nibOk way
  | .ccWayDisable die way => dieOk die && nibOk way
  | .ccWayDisabled die way => dieOk die && nibOk way
  | .wayErrWindowEnd die way => dieOk die && nibOk way
  | .ccCtl die size _ => dieOk die && sizeOk size
  | .ccDrainDone die => dieOk die
  | .patrolScrub stack _ => nibOk stack
  | .bankSpare stack channel bank => nibOk stack && nibOk channel && nibOk bank
  | .bankSpareCopyDone stack channel => nibOk stack && nibOk channel
  | .pageOut n => byteOk n
  | .pageIn n => byteOk n
  | .imageOut n => byteOk n
  | .imageIn n => byteOk n
  | .migCopyDone n => byteOk n
  | .stateImage n o _ => byteOk n && o.wf
  | .restoreChecksDone n => byteOk n
  | .mbxPost fn n size _ => byteOk fn && byteOk n && sizeOk size
  | .mbxAck fn n size _ => byteOk fn && byteOk n && sizeOk size
  | .saddleEnable o => o.wf
  | .saddleEnableDone _ => true
  | .saddleDisable o => o.wf
  | .saddleDisableDone => true
  | .saddlePortDown => true
  | .saddleTimeout => true
  | .saddleResponse f _ _ _ => f.wf
  | .ridgeCrcError l => l.wf
  | .ridgeLaneFail l => l.wf
  | .crestLinkDown die _ => dieOk die
  | .ringLinkDown link _ => dieOk link
  | .ringRequestTimeout _ die => dieOk die
  | .combUe die _ => dieOk die
  | .crestUe => true
  | .foragerUe f => f.wf
  | .dieFence o _ _ => o.wf
  | .dieFenceComplete die => dieOk die
  | .data port _ => nibOk port
  | .control port _ _ => nibOk port
  | .fabricLoss _ => true
  | .joinTimeout _ => true
  | .portDown port => nibOk port
  | .portUp port => nibOk port
  | .portDisable port o => nibOk port && o.wf
  | .portEnable port o => nibOk port && o.wf
  | .neighborSolicitation port _ => portOpt port
  | .echoRequest port _ _ => portOpt port
  | .deviceId o _ => o.wf
  | .portMode o _ => o.wf
  | .vfVectors o _ => o.wf
  | .read fn _ => byteOk fn
  | .write fn _ => byteOk fn
  | .segRead fn _ => byteOk fn
  | .segWrite fn _ => byteOk fn
  | .endXfer fn _ => byteOk fn
  | .abort fn _ => byteOk fn
  | .kdwDataWrite fn size _ => byteOk fn && sizeOk size
  | .kdwDataRead fn size => byteOk fn && sizeOk size
  | .kdpRead o _ => o.wf
  | .kdpWrite o _ => o.wf
  | .segReadStart o _ => o.wf
  | .segWriteStart o _ => o.wf
  | .segData o _ => o.wf
  | .segEnd o _ => o.wf
  | .segAbort o _ => o.wf
  | .segTimeout h => h.wf
  | .setEndpointId eid binding newEid => byteOk eid && decide (binding < 3) && byteOk newEid
  | .getEndpointId eid binding => byteOk eid && decide (binding < 3)
  | .getMctpVersionSupport eid binding msgType => byteOk eid && decide (binding < 3) && byteOk msgType
  | .getMessageTypeSupport eid binding => byteOk eid && decide (binding < 3)
  | .getVendorDefinedMessageSupport eid binding selector => byteOk eid && decide (binding < 3) && byteOk selector
  | .dictWrite o index subIx _ _ => o.wf && decide (index < 65536) && byteOk subIx
  | .persistCommit _ => true
  | .logAck o _ => o.wf
  | .logMode o _ => o.wf
  | .logRead o => o.wf
  | .calTime o _ => o.wf
  | .calState o _ => o.wf
  | .quoteReq n o _ => byteOk n && o.wf
  | .quoteSigned => true
  | .measExtend o _ => o.wf
  | .imeasExtend n o _ => byteOk n && o.wf
  | .svnRaise o _ => o.wf
  | .fwStage o _ => o.wf
  | .fwSwitch o _ => o.wf
  | .fwSwitchFail => true
  | .evtAck c => c.wf
  | .evtMask c => c.wf
  | .eventHoldoffEnd g => dieOk g
  | .keeperWatchdog => true
  | .keeperRestart => true
  | .warmReset o _ => o.wf
  | .deviceClassError => true
  | .perstAssert => true
  | .perstDeassert => true
  | .bringupTimeout => true
  | .railFault rail => decide (rail < 6)
  | .thermalSample temps => (temps.length == 9)
  | .throttleStepUp => true
  | .arithTrapDelivery f => f.wf
  | .add f _ => f.wf
  | .sub f _ => f.wf
  | .neg f _ => f.wf
  | .abs f _ => f.wf
  | .and f _ => f.wf
  | .or f _ => f.wf
  | .xor f _ => f.wf
  | .andn f _ => f.wf
  | .sll f _ => f.wf
  | .srl f _ => f.wf
  | .sra f _ => f.wf
  | .ror f _ => f.wf
  | .min f _ => f.wf
  | .max f _ => f.wf
  | .minu f _ => f.wf
  | .maxu f _ => f.wf
  | .seq f _ => f.wf
  | .slt f _ => f.wf
  | .sltu f _ => f.wf
  | .clz f _ => f.wf
  | .ctz f _ => f.wf
  | .popc f _ => f.wf
  | .bswap f _ => f.wf
  | .addcy f _ => f.wf
  | .addc f _ => f.wf
  | .subby f _ => f.wf
  | .subb f _ => f.wf
  | .addi f _ => f.wf
  | .andi f _ => f.wf
  | .ori f _ => f.wf
  | .xori f _ => f.wf
  | .slli f _ => f.wf
  | .srli f _ => f.wf
  | .srai f _ => f.wf
  | .slti f _ => f.wf
  | .lui f _ => f.wf
  | .auipc f _ => f.wf
  | .srar f _ => f.wf
  | .mul f _ => f.wf
  | .mulh f _ => f.wf
  | .mulhu f _ => f.wf
  | .mulw f _ => f.wf
  | .mulwu f _ => f.wf
  | .mulq f _ => f.wf
  | .div f _ => f.wf
  | .divu f _ => f.wf
  | .rem f _ => f.wf
  | .remu f _ => f.wf
  | .divw f _ => f.wf
  | .divwu f _ => f.wf
  | .accclr f _ => f.wf
  | .accadd f _ => f.wf
  | .accaddw f _ => f.wf
  | .accmac f _ => f.wf
  | .accmsu f _ => f.wf
  | .accwr f _ => f.wf
  | .accrd f _ => f.wf
  | .accrdw f _ => f.wf
  | .accrdx f _ => f.wf
  | .bina f _ => f.wf
  | .binb f _ => f.wf
  | .lb f _ => f.wf
  | .lh f _ => f.wf
  | .lw f _ => f.wf
  | .ld f _ => f.wf
  | .lbu f _ => f.wf
  | .lhu f _ => f.wf
  | .lwu f _ => f.wf
  | .lq f _ => f.wf
  | .sb f _ => f.wf
  | .sh f _ => f.wf
  | .sw f _ => f.wf
  | .sd f _ => f.wf
  | .sq f _ => f.wf
  | .lbL f _ => f.wf
  | .lhL f _ => f.wf
  | .lwL f _ => f.wf
  | .ldL f _ => f.wf
  | .lbuL f _ => f.wf
  | .lhuL f _ => f.wf
  | .lwuL f _ => f.wf
  | .lqL f _ => f.wf
  | .sbL f _ => f.wf
  | .shL f _ => f.wf
  | .swL f _ => f.wf
  | .sdL f _ => f.wf
  | .sqL f _ => f.wf
  | .amoadd f _ => f.wf
  | .amoswap f _ => f.wf
  | .amocas f _ => f.wf
  | .fence f _ => f.wf
  | .fenceRel f _ => f.wf
  | .fenceAcq f _ => f.wf
  | .beq f _ => f.wf
  | .bne f _ => f.wf
  | .blt f _ => f.wf
  | .bge f _ => f.wf
  | .bltu f _ => f.wf
  | .bgeu f _ => f.wf
  | .jal f _ => f.wf
  | .jalr f _ => f.wf
  | .loop f _ => f.wf
  | .abar f _ => f.wf
  | .mdone f _ => f.wf
  | .memit f _ => f.wf
  | .brk f _ => f.wf
  | .rtp f _ => f.wf
  | .rdcr f _ => f.wf
  | .wrcr f _ => f.wf
  | .setcr f _ => f.wf
  | .clrcr f _ => f.wf
  | .vsetvl f _ => f.wf
  | .vadd f _ => f.wf
  | .vsub f _ => f.wf
  | .vneg f _ => f.wf
  | .vabs f _ => f.wf
  | .vand f _ => f.wf
  | .vor f _ => f.wf
  | .vxor f _ => f.wf
  | .vandn f _ => f.wf
  | .vsll f _ => f.wf
  | .vsrl f _ => f.wf
  | .vsra f _ => f.wf
  | .vmin f _ => f.wf
  | .vmax f _ => f.wf
  | .vminu f _ => f.wf
  | .vmaxu f _ => f.wf
  | .vmul f _ => f.wf
  | .vmulh f _ => f.wf
  | .vmulhu f _ => f.wf
  | .vaddVx f _ => f.wf
  | .vsubVx f _ => f.wf
  | .vandVx f _ => f.wf
  | .vorVx f _ => f.wf
  | .vxorVx f _ => f.wf
  | .vandnVx f _ => f.wf
  | .vsllVx f _ => f.wf
  | .vsrlVx f _ => f.wf
  | .vsraVx f _ => f.wf
  | .vminVx f _ => f.wf
  | .vmaxVx f _ => f.wf
  | .vminuVx f _ => f.wf
  | .vmaxuVx f _ => f.wf
  | .vmulVx f _ => f.wf
  | .vmulhVx f _ => f.wf
  | .vmulhuVx f _ => f.wf
  | .vmulq f _ => f.wf
  | .vsrar f _ => f.wf
  | .vcmpeq f _ => f.wf
  | .vcmpne f _ => f.wf
  | .vcmplt f _ => f.wf
  | .vcmple f _ => f.wf
  | .vcmpltu f _ => f.wf
  | .vcmpleu f _ => f.wf
  | .vmand f _ => f.wf
  | .vmor f _ => f.wf
  | .vmxor f _ => f.wf
  | .vmandn f _ => f.wf
  | .vcompress f _ => f.wf
  | .vexpand f _ => f.wf
  | .vmerge f _ => f.wf
  | .vpopc f _ => f.wf
  | .vfirst f _ => f.wf
  | .viota f _ => f.wf
  | .vacclr f _ => f.wf
  | .vacadd f _ => f.wf
  | .vacaddu f _ => f.wf
  | .vacmac f _ => f.wf
  | .vacmsu f _ => f.wf
  | .vacsum f _ => f.wf
  | .vacrd f _ => f.wf
  | .vbina f _ => f.wf
  | .vbinb f _ => f.wf
  | .vsort f _ => f.wf
  | .vsortp f _ => f.wf
  | .vmrglo f _ => f.wf
  | .vmrghi f _ => f.wf
  | .vmv f _ => f.wf
  | .vget f _ => f.wf
  | .vput f _ => f.wf
  | .vsplat f _ => f.wf
  | .vld f _ => f.wf
  | .vldL f _ => f.wf
  | .vldff f _ => f.wf
  | .vst f _ => f.wf
  | .vstL f _ => f.wf
  | .vlds f _ => f.wf
  | .vldsL f _ => f.wf
  | .vsts f _ => f.wf
  | .vstsL f _ => f.wf
  | .vgath f _ => f.wf
  | .vgathL f _ => f.wf
  | .vgathff f _ => f.wf
  | .vscat f _ => f.wf
  | .vscatL f _ => f.wf
  | .movs f _ => f.wf
  | .fills f _ => f.wf
  | .cmps f _ => f.wf
  | .scans f _ => f.wf
  | .matchs f _ => f.wf
  | .amlk f _ => f.wf
  | .amwr f _ => f.wf
  | .amrd f _ => f.wf
  | .dginit f _ => f.wf
  | .dgupd f _ => f.wf
  | .dgfin f _ => f.wf
  | .dgabt f _ => f.wf
  | .dgcmp f _ => f.wf
  | .saddleOp f _ => f.wf
  | .illegalInstruction f _ => f.wf
  | .fetchFault f => f.wf
  | .d0ToD3hot fn => byteOk fn
  | .pcieHotReset _ => true
  | .hostCompletion n _ a _ => byteOk n && a.wf
  | .mainPowerOn => true
  | .mainPowerOff _ => true
  | .calendarStop => true
  | .bringupStepComplete e => e.wf
  | .resultDigestChunk u _ buffer => u.wf && nibOk buffer
  | .kdpResponseExpiry o tag => o.wf && byteOk tag

end Sys2Proof
end

