-- ==== Sys2Proof/Tests/Slice0.lean ====
section
/-!
SUPPORT. The tests: ill-formed commands that WellFormed refuses; one step on small states, with the results of the spec's own examples; and for every
statement with hypotheses the states and operands that meet them, clause by clause.
-/

namespace Sys2Proof.Tests
set_option Elab.async false
open Sys2Proof.Machine

-- THE STATES OF THE TESTS -----------------------------------------------------------------------------------------------------------------------------

/-- The Forager of the tests. -/
def tf : FId := { die := 0, fgr := 3 }

/-- Format REG with its registers. -/
def rrr (rd ra rb : BitVec 5) : RegF := { rs := 0, ss := 0, rb := rb, ra := ra, rd := rd }

/-- Format IMM. -/
def rri (rd ra : BitVec 5) (imm : BitVec 12) : ImmF := { imm := imm, ra := ra, rd := rd }

/-- Forager 3 of die 0 with these registers, as after reset idle in Runtime mode unless they say otherwise. -/
def withRegs (r : FRegs) : State := State.reset.modFgr tf fun g => { g with regs := r }

/-- Registers with two general registers set: G1 and G2. -/
def gregs (a b : W64) : FRegs := (FRegs.reset.setG 1 a).setG 2 b

theorem withRegs_runs (r : FRegs) (h : r.due = false) : (withRegs r).Runs tf { Fgr.reset with regs := r } := by
  refine ⟨rfl, ?_, h⟩
  rfl

/-- The state after a command. -/
def after : Host.Outcome State Fault Refusal → Option State
  | .next s => some s
  | _ => none

/-- The registers of the Forager of the tests after a command. -/
def regsAfter (o : Host.Outcome State Fault Refusal) : Option FRegs := ((after o).bind (·.fgr? tf)).map (·.regs)

-- ILL-FORMED COMMANDS -----------------------------------------------------------------------------------------------------------------------------------

theorem test_wf_die : (Instr.amuSweepStep 8).wf = false ∧ (Instr.amuSweepStep 7).wf = true := by decide
theorem test_wf_byte : (Instr.invalDone 256).wf = false ∧ (Instr.invalDone 255).wf = true := by decide
theorem test_wf_way : (Instr.powerDown 0 16).wf = false ∧ (Instr.powerDown 0 15).wf = true := by decide
theorem test_wf_queue : (Instr.cqStall 1 4096).wf = false ∧ (Instr.cqStall 1 4095).wf = true := by decide
theorem test_wf_size : (Instr.kdwDataRead 0 2).wf = false ∧ (Instr.kdwDataRead 0 4).wf = true := by decide
theorem test_wf_width : (Instr.linkUp 2 1 0).wf = false ∧ (Instr.linkUp 16 6 0).wf = true := by decide
theorem test_wf_speed : (Instr.linkUp 16 7 0).wf = false ∧ (Instr.linkUp 16 0 0).wf = false := by decide
theorem test_wf_port : (Instr.neighborSolicitation (some 16) 0).wf = false ∧ (Instr.neighborSolicitation none 0).wf = true := by decide
theorem test_wf_forager : (Instr.fetchFault ⟨0, 68⟩).wf = false ∧ (Instr.fetchFault ⟨7, 67⟩).wf = true := by decide
theorem test_wf_unit : (Instr.build ⟨0, 30, 0⟩).wf = false ∧ (Instr.build ⟨0, 29, 0⟩).wf = true := by decide
theorem test_wf_origin_vf : (Instr.saddleEnable (.hostVf 0)).wf = false ∧ (Instr.saddleEnable (.hostVf 1)).wf = true := by decide
theorem test_wf_origin_mctp : (Instr.saddleEnable (.oobMctp 8 3)).wf = false ∧ (Instr.saddleEnable (.oobMctp 8 2)).wf = true := by decide
theorem test_wf_origin_eth : (Instr.saddleEnable (.oobEth 8)).wf = false ∧ (Instr.saddleEnable (.oobEth 7)).wf = true := by decide
theorem test_wf_ridge : (Instr.ridgeCrcError (.crest 8)).wf = false ∧ (Instr.ridgeCrcError (.ring 7)).wf = true := by decide
theorem test_wf_event_register : (Instr.evtAck (.reg 4 0)).wf = false ∧ (Instr.evtMask (.reg 3 0)).wf = true := by decide
theorem test_wf_host_access : (Instr.hostCompletion 0 0 (.sq 4096) .refused).wf = false ∧ (Instr.hostCompletion 0 0 (.cq 4095) .refused).wf = true := by
  decide
theorem test_wf_segment_holder : (Instr.segTimeout (.window 256)).wf = false ∧ (Instr.segTimeout (.session 9)).wf = true := by decide
theorem test_wf_bringup : (Instr.bringupStepComplete { ms := 0, failedDies := [8], failedFgrs := [], saddleReport := none }).wf = false := by decide
theorem test_wf_stage : (Instr.overrunLimitReached 0 1 64).wf = false ∧ (Instr.overrunLimitReached 0 1 63).wf = true := by decide
theorem test_wf_block : (Instr.amuBlockClear 0 64).wf = false ∧ (Instr.amuBlockClear 0 63).wf = true := by decide
theorem test_wf_entry : (Instr.shadowFault 0 32768).wf = false ∧ (Instr.shadowFault 0 32767).wf = true := by decide
theorem test_wf_slot : (Instr.imageUnloadComplete 0 64).wf = false ∧ (Instr.imageUnloadComplete 0 63).wf = true := by decide
theorem test_wf_device : (Instr.controlPacketsMissing 0 2048).wf = false ∧ (Instr.controlPacketsMissing 0 2047).wf = true := by decide
theorem test_wf_offset : (Instr.registerWrite 0 0x1000000 8 0).wf = false ∧ (Instr.registerWrite 0 0xFFFFF8 8 0).wf = true := by decide
theorem test_wf_share : (Instr.share 0 5 .loc []).wf = false ∧ (Instr.share 0 4 .loc []).wf = true := by decide
theorem test_wf_page : (Instr.zeroFillDone 262144).wf = false ∧ (Instr.zeroFillDone 262143).wf = true := by decide
theorem test_wf_object : (Instr.dictWrite .loc 65536 0 [] 0).wf = false ∧ (Instr.dictWrite .loc 65535 255 [] 0).wf = true := by decide
theorem test_wf_rail : (Instr.railFault 6).wf = false ∧ (Instr.railFault 5).wf = true := by decide
theorem test_wf_sensors : (Instr.thermalSample [0]).wf = false ∧ (Instr.thermalSample [0, 0, 0, 0, 0, 0, 0, 0, 0]).wf = true := by decide

-- INSTRUCTION WORDS -------------------------------------------------------------------------------------------------------------------------------------

/-- ADD G3, G1, G2 under SATS: [31:26] FN 0, [25:24] RS 0, [23:22] SS 2, [21:17] RB 2, [16:12] RA 1, [11:7] RD 3, [6:0] 0x01 (R244). -/
theorem test_word_reg : regWord 0x01 0 { rs := 0, ss := 2, rb := 2, ra := 1, rd := 3 } = 0b000000_00_10_00010_00001_00011_0000001#32 := by decide
/-- SHF carries SH6 in [31:26] (R244). -/
theorem test_word_shf : shfWord 0x03 { sh6 := 5, rs := 1, ss := 2, rb := 0, ra := 1, rd := 3 } = 0b000101_01_10_00000_00001_00011_0000011#32 := by decide
/-- IMM carries IMM12 in [31:20] and FN3 in [19:17] (R244). -/
theorem test_word_imm : immWord 0x02 7 (rri 3 1 0xFFF) = 0b111111111111_111_00001_00011_0000010#32 := by decide

-- SCALAR RESULTS ------------------------------------------------------------------------------------------------------------------------------------------

/-- The 128-bit addition of R223: 0x1_FFFF_FFFF_FFFF_FFFF + 1, low words first: 0 with CY = 1, then 1 + 0 + 1 = 2. -/
theorem test_addcy : (regsAfter (exec (.addcy tf (rrr 3 1 2)) (withRegs (gregs (BitVec.allOnes 64) 1)))).map (fun r => (r.rg 3, r.fxcsr)) =
    some (0, 0x1000) := by decide +kernel
theorem test_addc : (regsAfter (exec (.addc tf (rrr 3 1 2)) (withRegs { gregs 1 0 with fxcsr := 0x1000 }))).map (fun r => (r.rg 3, r.fxcsr)) =
    some (2, 0) := by decide +kernel
/-- MAX + 1 wraps with OV under WRAP and stays with SAT under saturation (R219). -/
theorem test_add_wraps : (regsAfter (exec (.add tf { rrr 3 1 2 with ss := 1 }) (withRegs (gregs 0x7FFFFFFFFFFFFFFF 1)))).map (fun r => (r.rg 3, r.fxcsr)) =
    some (0x8000000000000000, 0x10) := by decide +kernel
theorem test_add_saturates :
    (regsAfter (exec (.add tf { rrr 3 1 2 with ss := 2 }) (withRegs (gregs 0x7FFFFFFFFFFFFFFF 1)))).map (fun r => (r.rg 3, r.fxcsr)) =
    some (0x7FFFFFFFFFFFFFFF, 0x20) := by decide +kernel
/-- A write to G0 is discarded (R209). -/
theorem test_g0 : (regsAfter (exec (.ori tf (rri 0 1 5)) (withRegs (gregs 1 0)))).map (fun r => r.rg 0) = some 0 := by decide +kernel
/-- The division of R229: 984,580,300 by 3 is 328,193,433 remainder 1, in 19 cycles. -/
theorem test_div : (regsAfter (exec (.div tf (rrr 3 1 2)) (withRegs (gregs 984580300 3)))).map (fun r => r.rg 3) = some 328193433 := by decide +kernel
theorem test_rem : (regsAfter (exec (.rem tf (rrr 3 1 2)) (withRegs (gregs 984580300 3)))).map (fun r => r.rg 3) = some 1 := by decide +kernel
theorem test_div_cycles : divideCycles false 64 984580300 3 = 19 := by decide +kernel
/-- REM of MIN by −1 is 0 and sets no flag (R228). -/
theorem test_rem_min : (regsAfter (exec (.rem tf (rrr 3 1 2)) (withRegs (gregs 0x8000000000000000 (BitVec.allOnes 64))))).map (fun r => (r.rg 3, r.fxcsr)) =
    some (0, 0) := by decide +kernel
/-- The table of R221, in quarters and halves: 2.75, 2.5, −2.5 and −0.5. -/
theorem test_rounding : ((List.range 6).map fun rm => [(roundShift rm 11 2).1, (roundShift rm 5 1).1, (roundShift rm (-5) 1).1, (roundShift rm (-1) 1).1]) =
    [[3, 2, -2, 0], [3, 3, -3, -1], [2, 2, -2, 0], [2, 2, -3, -1], [3, 3, -2, 0], [3, 3, -2, 0]] := by decide +kernel
/-- LOOP with a count of 2 and a body of 1 sets LC, LS and LE (R265). -/
theorem test_loop : (regsAfter (exec (.loop tf (rri 0 1 1)) (withRegs { gregs 2 0 with pc := 0x100 }))).map (fun r => (r.lc, r.ls, r.le, r.pc)) =
    some (2, 0x104, 0x104, 0x104) := by decide +kernel
/-- The end of a loop body: LC falls and the body runs again (R265). -/
theorem test_loop_end : (regsAfter (exec (.addi tf (rri 3 1 1)) (withRegs { gregs 2 0 with pc := 0x104, lc := 2, ls := 0x104, le := 0x104 }))).map
    (fun r => (r.lc, r.pc)) = some (1, 0x104) := by decide +kernel
/-- Runtime mode: a misaligned load stops the Forager with cause 0x07 and the address in TVAL (R232, R233). -/
theorem test_misaligned : (regsAfter (exec (.ldL tf (rri 3 1 4)) (withRegs (gregs 1 0)))).map (fun r => (r.tcause, r.tval)) = some (0x07, 5) := by
  decide +kernel
/-- A store and a load of LDM (R248). -/
theorem test_ldm : ((after (exec (.shL tf (rri 2 1 0)) (withRegs (gregs 0x3FFFE 0xABCD)))).bind fun s => regsAfter (exec (.lbuL tf (rri 4 1 1)) s)).map
    (fun r => r.rg 4) = some 0xAB := by decide +kernel
/-- The last byte of LDM is at 0x3FFFF (R248). -/
theorem test_ldm_end : (regsAfter (exec (.lwL tf (rri 3 1 0)) (withRegs (gregs 0x40000 0)))).map (fun r => (r.tcause, r.tval)) = some (0x05, 0x40000) := by
  decide +kernel
/-- VSETVL with SEW 16 and 40 readings left (the example of R265): VL is 40. -/
theorem test_vsetvl : (regsAfter (exec (.vsetvl tf (rri 3 1 1)) (withRegs (gregs 40 0)))).map (fun r => (r.rg 3, r.vl, r.vtype)) = some (40, 40, 1) := by
  decide +kernel
/-- CMPS of "ab" and "ac" in LDM stops at the difference with −1 (R267). -/
theorem test_cmps :
    (regsAfter (exec (.cmps tf { fn := 3, rs := 0, ss := 0, rb := 6, ra := 4, rd := 8 })
      ((withRegs (((FRegs.reset.setG 4 0x10).setG 5 0x20).setG 6 2)).modFgr tf fun g => { g with
        ldm := [(0x10, 0x61), (0x11, 0x62), (0x20, 0x61), (0x21, 0x63)] }))).map (fun r => (r.rg 4, r.rg 5, r.rg 6, r.rg 8)) =
    some (0x11, 0x21, 1, BitVec.allOnes 64) := by decide +kernel
/-- SHA-256 of "abc" (FIPS 180-4, which R452 names). -/
theorem test_sha : (sha256 [0x61, 0x62, 0x63]).take 4 = [0xBA, 0x78, 0x16, 0xBF] := by decide +kernel
/-- CRC-32C of "123456789", the check value of the polynomial that R431 names. -/
theorem test_crc : crc32c [0x31, 0x32, 0x33, 0x34, 0x35, 0x36, 0x37, 0x38, 0x39] = 0xE3069283 := by decide +kernel

-- WITNESSES: FORAGERS -------------------------------------------------------------------------------------------------------------------------------------

theorem wit_EmptyQueueIdles : State.reset.pending = [] := rfl
theorem wit_IntegerResults : (withRegs (gregs 5 63)).Runs tf { Fgr.reset with regs := gregs 5 63 } ∧ (gregs 5 63).Quiet ∧
    badReg {} (rrr 31 1 2) = false ∧ badReg { rb := false } (rrr 31 1 0) = false ∧ ((rri 31 1 63).imm).toNat < 64 :=
  ⟨withRegs_runs _ (by decide +kernel), .inl (by decide +kernel), by decide, by decide, by decide⟩
/-- The largest number plus 1 with FXPRECISE = 0 and OVE = 1: the result wraps and a trap is pending, not delivered. -/
theorem wit_IntegerResults_overflow : let r := { gregs 0x7FFFFFFFFFFFFFFF 1 with fxcsr := 0x10000 }
    let p := fitted 64 (r.selectsSat 1) ((r.rg 1).toInt + (r.rg 2).toInt)
    (withRegs r).Runs tf { Fgr.reset with regs := r } ∧ badReg { ss := true } { rrr 3 1 2 with ss := 1 } = false ∧ p.2 = 0x10 ∧
    ((r.setG 3 p.1).flagged p.2).pend = some { cause := 9, after := 0 } ∧ ((r.setG 3 p.1).flagged p.2).Quiet :=
  ⟨withRegs_runs _ (by decide +kernel), by decide, by decide +kernel, by decide +kernel, .inr (by decide +kernel)⟩
theorem wit_RoundingModes : (5 : Nat) ≤ 5 := by decide
theorem wit_RoundedResults : let r := { gregs 11 0 with fxcsr := 5 }
    (withRegs r).Runs tf { Fgr.reset with regs := r } ∧ r.fxcsr.toNat % 8 ≤ 5 ∧
    badShf { ss := true, rs := true, rb := false } { sh6 := 63, rs := 3, ss := 2, rb := 0, ra := 1, rd := 3 } = false ∧
    badShf { ss := true, rs := true } { sh6 := 63, rs := 0, ss := 0, rb := 2, ra := 1, rd := 3 } = false ∧
    badAcr { sh7 := 127, rs := 1, ss := 1, an := 3, rsv := 0, rd := 3 } = false ∧
    ((r.setG 3 (fitted 64 (r.selectsSat 2) 0).1).flagged ((fitted 64 (r.selectsSat 2) 0).2 ||| inexact (r.rg 1).toInt 63)).Quiet :=
  ⟨withRegs_runs _ (by decide +kernel), by decide +kernel, by decide, by decide, by decide, .inr (by decide +kernel)⟩
theorem wit_AccumulatorResults : let r := (gregs 1 0).setA 3 (BitVec.intMax 144)
    (withRegs r).Runs tf { Fgr.reset with regs := r } ∧ r.Quiet ∧ badReg { ra := false, rb := false } (rrr 3 0 0) = false ∧ (rrr 3 1 0).rd.toNat < 4 ∧
    badReg { rb := false } (rrr 3 1 0) = false ∧ (fitted 144 false ((r.ra 3).toInt + (r.rg 1).toInt)).2 = 0x10 ∧
    ((r.setA 3 (fitted 144 false ((r.ra 3).toInt + (r.rg 1).toInt)).1).flagged 0x10).Quiet :=
  ⟨withRegs_runs _ (by decide +kernel), .inl (by decide +kernel), by decide, by decide, by decide, by decide +kernel, .inl (by decide +kernel)⟩
theorem wit_DivideResults : let r := gregs 0x8000000000000000 0
    (withRegs r).Runs tf { Fgr.reset with regs := r } ∧ badReg { ss := true } (rrr 3 1 2) = false ∧ r.rg 2 = 0 ∧
    ((r.setG 3 0x8000000000000000).flagged 0x40).Quiet :=
  ⟨withRegs_runs _ (by decide +kernel), by decide, by decide +kernel, .inl (by decide +kernel)⟩
theorem wit_DivideResults_overflow : let r := gregs 0x8000000000000000 (BitVec.allOnes 64)
    r.rg 2 ≠ 0 ∧ (fitted 64 false ((r.rg 1).toInt.tdiv (r.rg 2).toInt)).2 = 0x10 := by decide +kernel
/-- The lane −0, and NaN in every element of a register at SEW 128. -/
theorem wit_BinnedLanes : let r := { FRegs.reset.setW 1 (1#128 <<< 119) with vtype := 4, vl := 8 }
    (withRegs r).Runs tf { Fgr.reset with regs := r } ∧ r.Quiet ∧ badReg { rb := false } (rrr 3 1 0) = false ∧ r.sew = 128 ∧
    (r.rw 1).getLsbD 119 = true :=
  ⟨withRegs_runs _ (by decide +kernel), .inl (by decide +kernel), by decide, by decide +kernel, by decide +kernel⟩
theorem wit_BinnedLanes_sew : FRegs.reset.sew ≠ 128 := by decide +kernel
theorem wit_RetiringChangesOneForager : State.reset.fgr? tf = some Fgr.reset := rfl
/-- At the loop end with LC = 1: the body is left. -/
theorem wit_Retiring_atEnd : let r := { FRegs.reset with lc := 1, le := 0x40, pc := 0x40 }
    (withRegs r).fgr? tf = some { Fgr.reset with regs := r } ∧ r.lc ≠ 0 ∧ r.pc = r.le.setWidth 48 := by
  exact ⟨rfl, by decide +kernel, by decide +kernel⟩
theorem wit_TrapEntry : State.reset.fgr? tf = some Fgr.reset ∧ (0x0B : Nat) < 0x0C ∧ (FRegs.reset.setMode 0).mode = 0 ∧
    (FRegs.reset.setMode 2).mode = 2 ∧ FRegs.reset.mode = 1 := ⟨rfl, by decide, by decide +kernel, by decide +kernel, by decide +kernel⟩
theorem wit_ReservedFieldsTrap : badReg {} { rrr 3 1 2 with ss := 3 } = true ∧ badReg { ss := true } { rrr 3 1 2 with ss := 3 } = true ∧
    64 ≤ ((rri 3 1 64).imm).toNat ∧ (rri 0 1 0).imm = 0 ∧ ((rri 3 1 5).imm).toNat % 8 ≥ 5 := by decide
theorem wit_TrapCommands : badReg { rd := false, ra := false, rb := false } (rrr 0 0 0) = false ∧ (0x06#32).toNat % 128 = 0x06 ∧
    (0x6F#32).toNat % 128 = 0x6F := by decide
/-- FN 0x3F of major opcode 0x01 is unassigned. -/
theorem wit_TrapCommands_fn : let w : W32 := 0xFC000001
    (∃ row ∈ regRows, row.op = w.extractLsb' 0 7) ∧ ∀ row ∈ regRows, ¬ (row.op = w.extractLsb' 0 7 ∧ row.fn = w.extractLsb' 26 6) := by
  constructor
  · exact ⟨⟨.add, 0x01, 0x00, { ss := true }⟩, by simp [regRows], by decide⟩
  · decide +kernel

theorem wit_ArithmeticTrapDelivery : let r := { gregs 0x7FFFFFFFFFFFFFFF 1 with fxcsr := 0x10000, coreCtl := 0x4004 }
    let p := fitted 64 (r.selectsSat 0) ((r.rg 1).toInt + (r.rg 2).toInt)
    (withRegs r).Runs tf { Fgr.reset with regs := r } ∧ badReg { ss := true } (rrr 3 1 2) = false ∧ r.pend = none ∧ r.fxprecise = true ∧
    r.fxcsr.getLsbD 16 = true ∧ p.2 = 0x10 :=
  ⟨withRegs_runs _ (by decide +kernel), by decide, by decide +kernel, by decide +kernel, by decide +kernel, by decide +kernel⟩
/-- 64 later instructions have completed: due; 63: not. -/
theorem wit_ArithmeticTrapDelivery_due : let r := { FRegs.reset with pend := some { cause := 9, after := 64 } }
    (withRegs r).fgr? tf = some { Fgr.reset with regs := r } ∧ (withRegs r).fgrLive tf { Fgr.reset with regs := r } = true ∧ r.due = true ∧
    ({ FRegs.reset with pend := some { cause := 9, after := 63 } } : FRegs).due = false := by
  exact ⟨rfl, rfl, by decide +kernel, by decide +kernel⟩

-- WITNESSES: MEMORY -----------------------------------------------------------------------------------------------------------------------------------------

/-- The last double word of LDM is done, one that starts 4 bytes later is misaligned, the next is past the end. -/
theorem wit_LoadsAndStores_ldm : let g := { Fgr.reset with regs := gregs 0x3FFF8 0 }
    (withRegs g.regs).load tf g true 0x3FFF8 8 = .ok (memRead g.ldm 0x3FFF8 8) (withRegs g.regs) ∧ (0x3FFFC : Nat) % 8 ≠ 0 ∧
    (0x40000 : Nat) % 8 = 0 ∧ (withRegs g.regs).load tf g true 0x40000 8 = .bad := by
  exact ⟨rfl, by decide, by decide, rfl⟩
theorem wit_MemoryReadsBack : Memory.wf [(3, 1), (5, 0xFF)] = true := by decide

/-- A job of one stage that reads a table page, its image, and a morsel of it: what the memory witnesses stand on. -/
def tStage : Stage where
  kind := .forager
  prio := 0
  source := false
  sink := false
  aggFinal := false
  ins := []
  outs := []
  morselRows := 8
  codeSec := none
  constSec := none
  entryOff := 0
  param := []
  placement := 0
  maxHops := 0
  partFn := 0
  base := 1000
  perRow := 0
  perVar := 0
  maxRows := 8
  maxVar := 0

def tImage : Image where
  bytes := []
  digest := []
  stages := [tStage]
  flows := []
  sections := []
  minComb := 1
  framePeriod := 16
  requires := 0
  formatMinor := 0
  runtimeMin := 0

def tJob : Job where
  jid := 7
  inst := 1
  gen := 0
  sqid := 1
  sqHead := 0
  cqid := 1
  cid := 5
  handle := 0x40
  image := tImage
  state := .running
  strictLen := false
  resultDigest := false
  inputs := []
  tables := []
  areas := []
  results := []
  arenas := []
  statusAddr := 0
  admitFrame := 0
  order := 0
  dieSet := [0]
  parts := []
  stages := []
  flows := []
  failure := none
  abort := false
  flags := 0
  dist := none
  chain := []

def tMorsel : Morsel where
  mid := 9
  jid := 7
  inst := 1
  gen := 0
  stage := 0
  kind := .normal
  origin := 0
  frag := 0
  last := true
  seq := 0
  rows := 0
  heap := 0
  desc := []
  flow := none
  src := none
  entry := 0
  level := 0
  bound := 1000
  start := 0
  overruns := 0
  placed := 0
  outAt := 0
  outBytes := 0
  bufs := []
  excess := false

/-- Instance 1 with page 0 of its space on device page 8 of die 0, writable, and the job. -/
def jobState (r : FRegs) : State :=
  (({ State.reset with jobs := [tJob] } : State).modInst 1 fun i => { i with
    state := .enabled, pt := [(0, 0xC000000001000000)], alloc := { i.alloc with ptPages := 1 } }).modFgr tf fun g =>
    { g with regs := r, run := .running, morsel := some tMorsel }

def jobFgr (r : FRegs) : Fgr := { Fgr.reset with regs := r, run := .running, morsel := some tMorsel }

/-- Pipeline mode. -/
def pregs (a b : W64) : FRegs := (gregs a b).setMode 0

theorem jobState_runs (r : FRegs) (h : r.due = false) : (jobState r).Runs tf (jobFgr r) := ⟨rfl, rfl, h⟩

-- The state of the tests of instance memory: no image stands in any window.
/-- The job state without the job's image: no window. -/
def memState (r : FRegs) : State := { jobState r with jobs := [] }

theorem memState_runs (r : FRegs) (h : r.due = false) : (memState r).Runs tf (jobFgr r) := ⟨rfl, rfl, h⟩

/-- Byte 0x100 of instance page 0, in device page 8: mapped, writable, sound, in no cache; page 1 is not mapped. -/
theorem wit_MemoryAccesses : let s := memState (pregs 0 0)
    (pregs 0 0).mode ≠ 2 ∧ (jobFgr (pregs 0 0)).morsel = some tMorsel ∧ windowRead (s.windows tMorsel) 0x100 8 = none ∧
    inWindow (s.windows tMorsel) 0x100 = false ∧ s.translate 1 0x100 = some (0xC000000001000000, .rlm 0x1000100) ∧
    s.poisoned (.rlm 0x1000100) = false ∧ s.pageBusy 1 (.rlm 0x1000100) = false ∧ assocGet ((Loc.rlm 0x1000100).key 1 / 64) (jobFgr (pregs 0 0)).dcache = none ∧
    (0xC000000001000000 : W64).getLsbD 62 = true ∧ s.translate 1 0x200000 = none := by decide +kernel
theorem wit_MemoryAccesses_poisoned : ({ memState (pregs 0 0) with poison := [0x40004] } : State).poisoned (.rlm 0x1000100) = true ∧
    ({ memState (pregs 0 0) with poison := [0x40004] } : State).translate 1 0x100 = some (0xC000000001000000, .rlm 0x1000100) := by decide +kernel
theorem wit_MemoryAccesses_filling : ({ memState (pregs 0 0) with pages := [{ page := 8, inst := 1, fill := true }] } : State).pageBusy 1 (.rlm 0x1000100) = true := by
  decide +kernel
theorem wit_MemoryAccesses_readOnly : let s := (memState (pregs 0 0)).modInst 1 fun i => { i with pt := [(0, 0x8000000001000000)] }
    s.translate 1 0x100 = some (0x8000000001000000, .rlm 0x1000100) ∧ (0x8000000001000000 : W64).getLsbD 62 = false := by decide +kernel
/-- The parameter block of a stage stands in a window. -/
theorem wit_MemoryAccesses_window :
    let s : State := { memState (pregs 0 0) with jobs := [{ tJob with image := { tImage with stages := [{ tStage with param := [1, 2, 3] }] } }] }
    ∃ a ws, windowRead (s.windows tMorsel) a 3 = some ws ∧ inWindow (s.windows tMorsel) a = true := by
  refine ⟨Config.sectionBase 0x40 128, ?_⟩
  simp [State.windows, State.job?, memState, jobState, tJob, tImage, tStage, tMorsel, windowRead, inWindow]
theorem wit_LoadsAndStores_memory : let r := pregs 0x100 7
    (memState r).Runs tf (jobFgr r) ∧ r.Quiet ∧ (r.rg 1 + (0 : BitVec 12).signExtend 64).toNat % 8 = 0 :=
  ⟨memState_runs _ (by decide +kernel), .inl (by decide +kernel), by decide +kernel⟩
theorem wit_AtomicsAndFences : let r := pregs 0x100 7
    (memState r).Runs tf (jobFgr r) ∧ badReg {} (rrr 3 1 2) = false ∧ (r.rg 1).toNat % 8 = 0 ∧ (pregs 0x101 7).mode ≠ 2 ∧ ((pregs 0x101 7).rg 1).toNat % 8 ≠ 0 ∧
    r.Quiet ∧ badReg { rd := false, ra := false, rb := false } (rrr 0 0 0) = false :=
  ⟨memState_runs _ (by decide +kernel), by decide, by decide +kernel, by decide +kernel, by decide +kernel, .inl (by decide +kernel), by decide⟩
/-- AMOCAS with another value in memory stores nothing; with the value it stores. -/
theorem test_amocas : ((after (exec (.amocas tf (rrr 3 1 2)) (memState ((pregs 0x100 7).setG 3 1)))).map fun s => memRead s.mem 0x1000100 8) = some (zeros 8) ∧
    ((after (exec (.amocas tf (rrr 3 1 2)) (memState (pregs 0x100 7)))).map fun s => memRead s.mem 0x1000100 8) = some [7, 0, 0, 0, 0, 0, 0, 0] := by
  decide +kernel
theorem wit_ControlTransfer : let r := pregs 0x104 0
    (memState r).Runs tf (jobFgr r) ∧ r.Quiet ∧ (r.rg 1 + (0 : BitVec 12).signExtend 64).toNat % 4 = 0 ∧
    (r.rg 1 + (1 : BitVec 12).signExtend 64).toNat % 4 ≠ 0 ∧ (rri 0 2 1).imm ≠ 0 ∧ r.rg 2 = 0 ∧ r.rg 1 ≠ 0 :=
  ⟨memState_runs _ (by decide +kernel), .inl (by decide +kernel), by decide +kernel, by decide +kernel, by decide +kernel, by decide +kernel, by decide +kernel⟩
/-- BNE −4: the target is 16 bytes before the branch (R247). -/
theorem test_branch : (regsAfter (exec (.bne tf { off := -4, rb := 2, ra := 1 }) (withRegs { gregs 1 2 with pc := 0x110 }))).map (·.pc) = some 0x100 := by
  decide +kernel

-- Control registers: FXCSR from Pipeline mode, TVAL from Pipeline mode, CORE_CTL, an unlisted number.
theorem wit_ControlRegisters : let r := pregs 0x30000 0
    (memState r).Runs tf (jobFgr r) ∧ r.Quiet ∧ r.mode = 0 ∧ r.mode ≤ 2 ∧ r.pend = none ∧
    (0x000, (fun r : FRegs => r.fxcsr), true) ∈ crRows ∧ (0x102, (fun r : FRegs => r.tval), false) ∈ crRows ∧
    (∀ row ∈ crRows, (0x003 : BitVec 12) ≠ row.1) :=
  ⟨memState_runs _ (by decide +kernel), .inl (by decide +kernel), by decide +kernel, by decide +kernel, by decide +kernel, by simp [crRows],
    by simp [crRows], by simp [crRows]⟩
theorem test_wrcr : (regsAfter (exec (.wrcr tf (rri 0 1 0)) (memState (pregs 0x30003 0)))).map (·.fxcsr) = some 0x30003 ∧
    (regsAfter (exec (.wrcr tf (rri 0 1 0)) (memState (pregs 0x30007 0)))).map (fun r => r.mode) = some 1 := by decide +kernel
/-- CTM is set from Pipeline mode; MODE is not. -/
theorem test_setcr_ctm : (regsAfter (exec (.setcr tf (rri 0 1 2)) (memState (pregs 1 0)))).map (fun r => (r.coreCtl.getLsbD 0, r.mode)) = some (true, 0) := by
  decide +kernel
/-- A reserved bit, a reserved rounding mode, a mode that may not write, FXEPC to zero, and a pending trap that a cleared OVE delivers. -/
theorem wit_ControlRegisters_clauses : let r := pregs 0 0
    (0x80000000#64 &&& ~~~0x310FF#64 ≠ 0) ∧ crValueReserved 0x000 r 7 = true ∧ crValueReserved 0x000 r 5 = false ∧
    (let p := { r with fxcsr := 0x10000, pend := some { cause := 9, after := 0 } }
     (p.fxcsr &&& ~~~(0#64)) &&& 0x30000#64 ≠ 0 ∧ p.due = false) := by decide +kernel
theorem wit_ControlRegisters_coreCtl : let r := pregs 1 6
    let v := r.coreCtl ||| r.rg 1
    v &&& ~~~0x0007#64 = r.coreCtl &&& ~~~0x0007#64 ∧ v &&& ~~~0xC007#64 = 0 ∧ v &&& 0x0006#64 = r.coreCtl &&& 0x0006#64 ∧
    (r.coreCtl ||| r.rg 2) &&& 0x0006#64 ≠ r.coreCtl &&& 0x0006#64 := by decide +kernel

-- Output of a morsel: a descriptor of no column at G2, and an arena on the die.
/-- The job with an arena of 64 KiB on die 0. -/
def arenaState (r : FRegs) : State := { jobState r with jobs := [{ tJob with arenas := [{ die := 0, addr := 0x1000, bytes := 0x10000, live := [] }] }] }

theorem place_isSome (a : Arena) (size draw o : Nat) (h : a.firstFit size = some o) : ∃ p, a.place size draw = some p := by
  unfold Arena.place
  dsimp only
  split
  · exact ⟨_, rfl⟩
  · exact ⟨o, h⟩

theorem wit_MorselOutput : let r := pregs 0 0x100
    (arenaState r).Runs tf (jobFgr r) ∧ r.mode = 0 ∧ r.Quiet ∧ r.pend = none ∧ badReg { rd := false, ra := false, rb := false } (rrr 0 0 0) = false ∧
    (jobFgr r).outDesc = .ok (zeros 32) ∧ (jobFgr r).morsel = some tMorsel :=
  ⟨⟨rfl, rfl, by decide +kernel⟩, by decide +kernel, .inl (by decide +kernel), by decide +kernel, by decide, by decide +kernel, rfl⟩
theorem wit_MorselOutput_memit : let r := pregs 0 0x100
    ∃ j st t u a b, (arenaState r).jobOf tMorsel = some j ∧ j.image.stage? 0 = some st ∧ (arenaState r).placeOut tf j st tMorsel false (zeros 32) = .ok t ∧
      t.takeBuffer 7 0 (outBufferBytes (j.image.outLimits st) (zeros 32)) = .ok (u, a, b) := by
  refine ⟨{ tJob with arenas := [{ die := 0, addr := 0x1000, bytes := 0x10000, live := [] }] }, tStage, arenaState (pregs 0 0x100), ?_⟩
  obtain ⟨p, hp⟩ := place_isSome { die := 0, addr := 0x1000, bytes := 0x10000, live := [] } (outBufferBytes (tImage.outLimits tStage) (zeros 32))
    (arenaState (pregs 0 0x100)).draw 0 (by decide +kernel)
  refine ⟨(arenaState (pregs 0 0x100)).drawn.modJob 7 fun j => j.modArena 0 fun a => { a with live := (p, outBufferBytes (tImage.outLimits tStage) (zeros 32)) :: a.live },
    p, 0x1000 + p, rfl, rfl, rfl, ?_⟩
  show (match Arena.place { die := 0, addr := 0x1000, bytes := 0x10000, live := [] } (outBufferBytes (tImage.outLimits tStage) (zeros 32))
    (arenaState (pregs 0 0x100)).draw with | none => Except.error Config.stMemFault | some o => Except.ok _) = _
  rw [hp]; rfl
/-- Without an arena the buffer is refused. -/
theorem wit_MorselOutput_refused : ∃ e, (jobState (pregs 0 0x100)).takeBuffer 7 0 64 = .error e := ⟨_, rfl⟩
/-- G2 points 16 bytes before the end of LDM: the first byte past it is at 0x40000. -/
theorem wit_MorselOutput_past : (jobFgr (pregs 0 0x3FFF0)).outDesc = .error 0x40000 := by decide +kernel
theorem wit_MorselOutput_pending : let r := { pregs 0 0x100 with pend := some { cause := 9, after := 63 } }
    (jobState r).Runs tf (jobFgr r) ∧ r.mode = 0 := ⟨jobState_runs _ (by decide +kernel), by decide +kernel⟩
theorem wit_MorselOutput_rtp : (withRegs (gregs 0 0)).Runs tf { Fgr.reset with regs := gregs 0 0 } ∧ (gregs 0 0).mode = 1 :=
  ⟨withRegs_runs _ (by decide +kernel), by decide +kernel⟩

-- WITNESSES: VECTORS AND STRINGS ----------------------------------------------------------------------------------------------------------------------------

/-- Two 32-bit elements, the last of which wraps. -/
def vregs : FRegs := { ((FRegs.reset.setV 1 0x7FFFFFFF00000001).setV 2 0x0000000100000002) with vtype := 2, vl := 2 }
theorem test_vadd : (regsAfter (exec (.vadd tf { rrr 3 1 2 with ss := 1 }) (withRegs vregs))).map (fun r => (r.rv 3, r.fxcsr, r.vstart)) =
    some (0x8000000000000003, 0x10, 0) := by decide +kernel
/-- The greatest element alone: VSTART 1. -/
theorem test_vadd_vstart : (regsAfter (exec (.vaddVx tf { rrr 3 1 4 with ss := 2 }) (withRegs { vregs.setG 4 1 with vstart := 1 }))).map
    (fun r => (r.rv 3, r.fxcsr)) = some (0x7FFFFFFF00000000, 0x20) := by decide +kernel
theorem wit_VectorElements : (withRegs vregs).Runs tf { Fgr.reset with regs := vregs } ∧ badReg { ss := true } { rrr 3 1 2 with ss := 1 } = false ∧
    badReg { ss := true, rb := false } (rrr 3 1 0) = false ∧ badReg {} (rrr 3 1 2) = false ∧ vregs.Quiet ∧ (vregs.flagged 0x10).Quiet :=
  ⟨withRegs_runs _ (by decide +kernel), by decide, by decide, by decide, .inl (by decide +kernel), .inl (by decide +kernel)⟩
/-- SEW 32: a shift of 31 rounds, one of 32 is reserved; VACRD at 79 and 80. -/
theorem wit_VectorRounding : vregs.fxcsr.toNat % 8 ≤ 5 ∧ vregs.sew = 32 ∧
    badShf { ss := true, rs := true } { sh6 := 31, rs := 3, ss := 2, rb := 2, ra := 1, rd := 3 } = false ∧
    badShf { ss := true, rs := true, rb := false } { sh6 := 32, rs := 3, ss := 2, rb := 0, ra := 1, rd := 3 } = false ∧
    badAcr { sh7 := 79, rs := 3, ss := 2, an := 3, rsv := 0, rd := 3 } = false ∧ badAcr { sh7 := 80, rs := 3, ss := 2, an := 3, rsv := 0, rd := 3 } = false := by
  decide +kernel
theorem test_vsrar : (regsAfter (exec (.vsrar tf { sh6 := 1, rs := 1, ss := 0, rb := 0, ra := 1, rd := 3 }) (withRegs vregs))).map (fun r => (r.rv 3, r.fxcsr)) =
    some (0x4000000000000000, 0x80) := by decide +kernel
theorem wit_VectorMasksAndMoves : (withRegs vregs).Runs tf { Fgr.reset with regs := vregs } ∧ vregs.Quiet ∧ badReg {} (rrr 3 1 2) = false ∧
    badReg { rb := false } (rrr 3 1 0) = false ∧ badReg { ra := false, rb := false } (rrr 3 0 0) = false ∧ (rri 3 0 12).imm.toNat < 16 ∧
    (rri 3 0 12).imm.toNat % 8 < 5 :=
  ⟨withRegs_runs _ (by decide +kernel), .inl (by decide +kernel), by decide, by decide, by decide, by decide, by decide⟩
theorem test_vcompress : (regsAfter (exec (.vcompress tf (rrr 3 1 4)) (withRegs (vregs.setV 4 2)))).map (fun r => r.rv 3) = some 0x7FFFFFFF := by decide +kernel
theorem wit_VectorAccumulators : (withRegs vregs).Runs tf { Fgr.reset with regs := vregs } ∧ (rrr 3 1 2).rd.toNat < 4 ∧
    badReg { ra := false, rb := false } (rrr 3 0 0) = false ∧ badReg { rb := false } (rrr 3 1 0) = false ∧ badReg { ra := false } (rrr 3 0 3) = false ∧
    vregs.vl.toNat ≤ vlMax vregs.vtype :=
  ⟨withRegs_runs _ (by decide +kernel), by decide, by decide, by decide, by decide, by decide +kernel⟩
theorem test_vacmac : (regsAfter (exec (.vacmac tf (rrr 3 1 2)) (withRegs vregs))).map (fun r => (vaLane (r.rva 3) 32 0, vaLane (r.rva 3) 32 1)) =
    some (2, 0x7FFFFFFF) := by decide +kernel
theorem wit_VectorSorts : badReg { rb := false } (rrr 2 1 0) = false ∧ badReg {} (rrr 2 1 3) = false ∧ (rrr 2 1 3).rd.getLsbD 0 = false ∧
    (rrr 31 1 3).rd.getLsbD 0 = true ∧ badReg {} (rrr 31 1 3) = false := by decide
theorem test_vsort : (regsAfter (exec (.vsort tf (rrr 3 1 0)) (withRegs vregs))).map (fun r => r.rv 3) = some 0x7FFFFFFF00000001 ∧
    (regsAfter (exec (.vsort tf (rrr 3 3 0)) (withRegs (vregs.setV 3 0x0000000100000002)))).map (fun r => r.rv 3) = some 0x0000000200000001 := by
  decide +kernel

/-- Two elements of 4 bytes, the second of which lies past the end of LDM. -/
theorem wit_VectorMemory_fault : let r := vregs.setG 1 0x3FFFC
    (withRegs r).Runs tf { Fgr.reset with regs := r } ∧
    ((List.range r.vl.toNat).filter fun i => decide (r.vstart.toNat ≤ i)) = [0] ++ 1 :: [] ∧
    (r.rg 1 + (0 : BitVec 12).signExtend 64 + BitVec.ofNat 64 (1 * (r.sew / 8))).toNat % (r.sew / 8) = 0 ∧
    (r.rg 1 + (1 : BitVec 12).signExtend 64 + BitVec.ofNat 64 (1 * (r.sew / 8))).toNat % (r.sew / 8) ≠ 0 :=
  ⟨withRegs_runs _ (by decide +kernel), by decide +kernel, by decide +kernel, by decide +kernel⟩
theorem test_vld_fault : (regsAfter (exec (.vldL tf (rri 3 1 0)) (withRegs (vregs.setG 1 0x3FFFC)))).map (fun r => (r.vstart, r.tcause, r.tval)) =
    some (1, 0x05, 0x40000) := by decide +kernel
theorem wit_VectorMemory : let r := { vregs.setG 1 0x3FFFC with vl := 1 }
    (withRegs r).Runs tf { Fgr.reset with regs := r } ∧ r.Quiet ∧ badReg {} (rrr 3 1 2) = false ∧
    (rrr 3 1 31).rb.toNat + (r.vl.toNat - 1) * (if r.vtype.getLsbD 3 then 64 else 32) / 1024 ≤ 31 ∧
    (∃ t u, LoadsAll tf { Fgr.reset with regs := r } true 3 (fun i => r.rg 1 + BitVec.ofNat 64 (i * 4)) [0] (withRegs r) r t u) ∧
    (∃ t, StoresAll tf { Fgr.reset with regs := r } true r 2 (fun i => r.rg 1 + BitVec.ofNat 64 (i * 4)) [0] (withRegs r) t) := by
  refine ⟨withRegs_runs _ (by decide +kernel), .inl (by decide +kernel), by decide, by decide +kernel, ?_, ?_⟩
  · exact ⟨_, _, .elem (by decide +kernel) rfl (.done _ _)⟩
  · exact ⟨_, .elem (by decide +kernel) rfl (.done _)⟩
/-- In Service mode the first-fault loads run: element 0 is done, element 1 faults, VL becomes 1. -/
theorem wit_VectorMemory_firstFault : let r := (vregs.setG 1 0x200000).setMode 2
    (withRegs r).Runs tf { Fgr.reset with regs := r } ∧ r.mode = 2 ∧ ([0] : List Nat) ≠ [] ∧ vregs.mode ≠ 2 ∧ (rrr 3 1 0).rb = 0 ∧ vregs.vl.toNat ≤ 16 :=
  ⟨withRegs_runs _ (by decide +kernel), by decide +kernel, by decide, by decide +kernel, by decide, by decide +kernel⟩

/-- String registers G4, G5 and G6, in LDM. -/
def sregs (a b n : W64) : FRegs := ((FRegs.reset.setG 4 a).setG 5 b).setG 6 n
def strf (fn : BitVec 6) (rd : BitVec 5) : StrF := { fn := fn, rs := 0, ss := 0, rb := 6, ra := 4, rd := rd }
theorem wit_StringInstructions : let r := sregs 0x3FFFE 0 1
    (withRegs r).Runs tf { Fgr.reset with regs := r } ∧ r.Quiet ∧ strSound (strf 3 0) true ∧ strSound (strf 1 8) false ∧ (strf 3 0).fn.toNat < 4 ∧
    (strf 1 8).fn.toNat < 2 ∧ (strf 3 8).rd ≠ (strf 3 8).ra ∧ (strf 3 8).rd ≠ (strf 3 8).ra + 1 ∧ (strf 3 8).rd ≠ (strf 3 8).rb ∧ r.rg 8 = 0 ∧
    r.rg 5 = 0 ∧ (sregs 0 1 1).rg 5 ≠ 0 ∧ (r.setG 8 1).rg 8 ≠ 0 := by
  refine ⟨withRegs_runs _ (by decide +kernel), .inl (by decide +kernel), ?_, ?_, ?_⟩
  · unfold strSound; decide
  · unfold strSound; decide
  · decide +kernel
theorem wit_StringInstructions_moves : let r := sregs 0x3FFFE 0 1
    ∃ t, Moves tf { Fgr.reset with regs := r } true true 1 0x3FFFE 0 (withRegs r) t :=
  ⟨_, .byte (.byte rfl (.done _ _)) rfl (.done _ _ _)⟩
theorem wit_StringInstructions_fills : let r := sregs 0x3FFFF 0 1
    ∃ t, Fills tf { Fgr.reset with regs := r } true 0xAB 1 0x3FFFF (withRegs r) t := ⟨_, .byte rfl (.done _ _)⟩
theorem wit_StringInstructions_reserved : ¬ strSound (strf 1 0) true ∨ (strf 1 4).rd = (strf 1 4).ra := .inr rfl
theorem wit_StringInstructions_unsound : ¬ strSound { strf 1 0 with ra := 0 } false ∧ ¬ strSound { strf 1 0 with ra := 5 } true ∧ 4 ≤ (strf 4 0).fn.toNat ∧
    2 ≤ (strf 2 0).fn.toNat := by
  refine ⟨fun h => h.1 rfl, fun h => absurd (h.2.2.2 rfl).1 (by decide), by decide, by decide⟩
theorem wit_StringInstructions_compares : let r := sregs 0x3FFFF 0 1
    ∃ v k t, Compares tf { Fgr.reset with regs := r } true true 1 0x3FFFF 0 (withRegs r) v k t :=
  ⟨_, _, _, .same (.byte rfl (.done _ _)) (.byte rfl (.done _ _)) (.equal _ _ _)⟩
theorem wit_StringInstructions_finds : let r := sregs 0x3FFFF 0 1
    ∃ t, Finds tf { Fgr.reset with regs := r } true [0] 1 0x3FFFF (withRegs r) true 0 t := by
  exact ⟨withRegs (sregs 0x3FFFF 0 1), .here (ReadsAll.byte (n := 0) (l := []) (bs := [0]) rfl (.done _ _))⟩

-- WITNESSES: EVENTS, TIME, FRAMES ---------------------------------------------------------------------------------------------------------------------------

/-- The device in READY with its link up and instance 0 enabled. -/
def readyState : State := { State.reset with power := { State.reset.power with devState := .ready, step := 0, linkUp := true, vfEnable := true, numVfs := 1 } }.modInst 0
  fun i => { i with state := .enabled }

/-- Source 0 is reserved in no part; 255 is DIE_FENCE of die 7; 5 is reserved. -/
theorem wit_Events : readyState.eventLive 0 = true ∧ readyState.eventLive 5 = false ∧ readyState.eventLive 255 = true ∧ (3 : Nat) < 4 := by decide +kernel
theorem wit_Events_host : readyState.HostWrites 0 := by refine ⟨by decide +kernel, by decide +kernel, by decide +kernel⟩
/-- EN_0 = 1 with vector 5 unmasked, and group 0 in these hold-offs. -/
def evState (h : BitVec 8) : State := { readyState with events := { readyState.events with vec := 0x85, mask := 0, holdoff := h } }.modInst 0 fun i =>
  { i with msix := { i.msix with masked := [] } }
theorem wit_Events_fresh : let s := evState 0
    s.events.pend.getLsbD 0 = false ∧ s.events.mask.getLsbD 0 = false ∧ s.events.vec.getLsbD 7 = true ∧ s.events.holdoff.getLsbD 0 = false ∧
    (evState 1).events.holdoff.getLsbD 0 = true ∧ s.events.vec.toNat / 2 ^ 0 % 64 = 5 := by decide +kernel
theorem test_event_message : ((evState 0).raise 0).out = [.msix 0 5] ∧ ((evState 0).raise 0).events.holdoff = 1 ∧ ((evState 1).raise 0).events.merged = 1 := by
  decide +kernel
theorem wit_Events_masked : ((evState 0).instD 0).msix.masked.contains 5 = false ∧ (readyState.instD 0).msix.masked.contains 5 = true := by decide +kernel
theorem wit_Events_pendingUnmasked : ∀ k, k < 256 → readyState.events.pend.getLsbD k = false := by decide +kernel
/-- Keeper takes the write of `data` to object `i`:`sub`. -/
def takes (s : State) (o : Origin) (i sub : Nat) (data : List Byte) : Bool :=
  s.keeperUp && !s.keeperHolds && match s.access o true i sub with
    | .error _ => false
    | .ok (x, m) => m.sizeOk data.length && (s.valueCheck x sub data).isNone && s.logRoom x sub
theorem takes_accepts {s : State} {o : Origin} {i sub : Nat} {data : List Byte} (h : takes s o i sub data = true) : ∃ x m, s.Accepts o i sub data x m := by
  unfold takes at h
  cases ha : s.access o true i sub with
  | error e => simp [ha] at h
  | ok p =>
    obtain ⟨x, m⟩ := p
    simp [ha, Option.isNone_iff_eq_none] at h
    exact ⟨x, m, h.1.1, h.1.2, ha, h.2.1.1, h.2.1.2, h.2.2⟩
theorem wit_Events_ack : takes readyState .hostPf 0x8000 2 (zeros 32) = true ∧ takes readyState .loc 0x8000 3 (zeros 32) = true := by decide +kernel
theorem wit_Events_holdoffEnd : (1#8).getLsbD 0 = true ∧ (0#8).getLsbD 7 = false ∧ (evState 1).events.vec.getLsbD (8 * 0 + 7) = true := by decide +kernel

/-- The time unit in a SYNC_STATE with these good intervals. -/
def syncState (y : SyncSt) (k : Nat) : State := { readyState with frame := { readyState.frame with sync := y, good := k } }
theorem wit_TimeUnit : readyState.framesRun = true ∧ (syncState .locked 16).framesRun = true ∧ (1000 : Nat) < (1001 : Int).natAbs ∧ ¬ 1000 < (-1000 : Int).natAbs ∧
    (syncState .alignLost 15).frame.sync = .alignLost ∧ 16 ≤ (syncState .alignLost 15).frame.good + 1 ∧ (syncState .locking 16).frame.stretchTo = none ∧
    0 < readyState.frame.periodActive ∧ readyState.keeper.rwp.t0TaiNs.toNat ≤ 1000 ∧ readyState.keeper.restarting = false := by decide +kernel
theorem wit_FrameTick : readyState.framesRun = true ∧
    (((readyState.elapse (readyState.frameEndNs - readyState.power.uptimeNs)).advanceParts).commitStep readyState.frame.opens).power.warmPending = none := by
  decide +kernel
theorem wit_FrameTick_warm : (((({ readyState with power := { readyState.power with warmPending := some 1 } } : State).elapse 16000).advanceParts).commitStep 1).power.warmPending
    = some 1 := by decide +kernel
/-- A boundary in READY: frame 1 begins. -/
theorem test_open_frame : readyState.openFrame.frame.number = 1 ∧ readyState.openFrame.tbPtr = 1 ∧ readyState.openFrame.frame.sync = .free := by decide +kernel
theorem wit_FrameTick_modes : readyState.keeper.rwp.syncMode = 0 ∧ readyState.frame.stretchTo.isSome = false := by decide +kernel

-- WITNESSES: MORSELS AND FIXED UNITS ----------------------------------------------------------------------------------------------------------------------

/-- The morsel has been preempted, parked, or evicted. -/
def fgrState (g : Fgr) : State := (jobState (pregs 0 0)).modFgr tf fun _ => g
theorem wit_MorselContexts : let g := { jobFgr (pregs 0 0) with run := .preempted }
    (fgrState g).fgr? tf = some g ∧ (fgrState g).unitsLive 0 = true ∧ g.regs.pend = none ∧ g.evictNext = false := ⟨rfl, rfl, by decide +kernel, rfl⟩
theorem wit_MorselContexts_pending : let g := { jobFgr { pregs 0 0 with pend := some { cause := 9, after := 3 } } with run := .preempted }
    (fgrState g).fgr? tf = some g ∧ g.regs.pend.isSome = true := ⟨rfl, by decide +kernel⟩
theorem wit_MorselContexts_parked : let g := { jobFgr (pregs 0 0) with run := .parked, save := pregs 1 2 }
    (fgrState g).fgr? tf = some g ∧ g.run = .parked ∧ (fgrState g).resumable tMorsel = true := ⟨rfl, rfl, by decide +kernel⟩
/-- Forager 3 of die 0 is logical Forager 0, idle; instance 1 has one core frame there. -/
def mappedState : State := (((jobState (pregs 0 0)).modFgr tf fun _ => Fgr.reset).modDie 0 fun d => { d with map := [some 3] }).modInst 1 fun i => { i with
  alloc := { i.alloc with coreFrames := 1, readyLimit := 8 } }
/-- An evicted context on die 0. -/
def savedState : State := mappedState.modDie 0 fun d => { d with saved := [{ morsel := tMorsel, regs := pregs 1 2, ldm := [(3, 4)] }] }
theorem wit_MorselContexts_evicted : savedState.fgr? tf = some Fgr.reset ∧ (savedState.dieD 0).idleFgrs.any (·.2 == 3) = true ∧
    savedState.nextSaved 0 = some { morsel := tMorsel, regs := pregs 1 2, ldm := [(3, 4)] } := by decide +kernel
theorem wit_MorselContexts_limit : let s := (jobState (pregs 0 0)).modFgr tf fun g => { g with morsel := some { tMorsel with overruns := 8 } }
    (s.fgr? tf).bind (·.morsel) = some { tMorsel with overruns := 8 } ∧ s.frame.overrunLimit ≤ 8 := by decide +kernel

/-- A ready list of the job. -/
def readyJobs (l : List Morsel) : State := mappedState.modDie 0 fun d => { d with ready := l }
theorem wit_Dispatch : let s := readyJobs [{ tMorsel with mid := 10, entry := 5, level := 1 }, tMorsel]
    s.unitsLive 0 = true ∧ (0 : Nat) < s.unitCycles ∧ ((s.atCycle 0).candidates 0 .forager).map (·.1.mid) = [9, 10] := by decide +kernel
theorem wit_Dispatch_verdicts : let s := readyJobs [tMorsel]
    ((s.atCycle 0).verdict 0 0 .forager tJob tStage tMorsel matches .fgr 0 3) = true ∧
    ((s.atCycle (s.unitCycles - 1)).verdict 0 (s.unitCycles - 1) .forager tJob tStage tMorsel matches .defer) = true ∧
    (s.candidates 0 .hash).length = 0 := by decide +kernel

/-- A signed lane of 8 bytes; −0, the quiet NaN, the least subnormal, infinity, the greatest number. -/
theorem wit_ColumnForms : signedLane 4 = true ∧ signedLane 6 = false ∧ (leBytes 8 (2 ^ 63)).length = 8 := by decide +kernel
theorem test_binned : binnedLane (2 ^ 63) = 2 ^ 119 ∧ binnedLane 0x7FF0000000000000 = 2 * 2 ^ 126 ∧ binnedLane 0xFFF0000000000000 = 3 * 2 ^ 126 ∧
    binnedLane 0x7FF8000000000000 = 2 ^ 126 ∧ binnedLane 1 = 2 := by decide +kernel
theorem test_order_key : leNat (orderKey 0x0C 8 true (leBytes 8 (2 ^ 63))) = 2 ^ 63 ∧ leNat (orderKey 0x0C 8 true (leBytes 8 0)) = 2 ^ 63 ∧
    orderKey 4 8 false (leBytes 8 (2 ^ 63)) = zeros 8 := by decide +kernel

/-- Unit 0 of die 0, a Column Streamer, holds a morsel of a streamer stage. -/
def unitState : State :=
  let st := { tStage with kind := .streamer }
  ({ jobState (pregs 0 0) with jobs := [{ tJob with image := { tImage with stages := [st] } }] } : State).modDie 0 fun d => { d with
    units := d.units.modify 0 fun x => { x with morsel := some tMorsel } }
theorem wit_UnitMorsels : let st := { tStage with kind := .streamer }
    unitState.HoldsMorsel { die := 0, unit := 0, used := 100 } tMorsel { tJob with image := { tImage with stages := [st] } } st :=
  ⟨rfl, rfl, by decide +kernel, rfl⟩
theorem wit_UnitMorsels_row : ∃ row ∈ unitRows, row.picks unitState { die := 0, unit := 0, used := 100 } { tStage with kind := .streamer } tMorsel = true :=
  ⟨⟨.columnStreamerMorsel, fun _ _ st m => st.kind == .streamer && m.kind == .normal, streamerWork⟩, by simp [unitRows], rfl⟩

/-- A table of one bucket with inline keys, whose first slot holds the key 5 or nothing. -/
def tTable : Table where
  addr := 0
  mode := 0
  bucketBits := 0
  partBits := 0
  keyBytes := 4
  linkMax := 0
  recordQ8 := 0
  flags := 2
  seed := 0
  poolBytes := 0
  spillBase := 0
  spillBytes := 0
  bases := [0]
  builds := true
  sealed := true
  rows := 1
  nullKeys := 0
  spilled := []
  spillUse := []
  chunks := []
  partRows := []
  layout := none
  drained := false
def tKeys : List (Column × Nat) := [({ ltype := 3, form := 1, lane := 4, scale := 0, dict := (0, 0), cells := [some [5, 0, 0, 0]] }, 4)]
def tableState (full : Bool) : State := { jobState (pregs 0 0) with
  jobs := [{ tJob with tables := [tTable] }]
  mem := if full then memWrite [] 0x1000000 (leBytes 8 (tagOf (tableHash [5, 0, 0, 0] 0) * 2 ^ 48 + 2 ^ 47 + 5)) else [] }
theorem wit_ProbeResults (b : Bool) : (tableState b).table? 7 0 = some tTable ∧ rowKeyNull tKeys 0 = false ∧
    tTable.spilled.contains (tTable.partOf (tableHash (rowKey tKeys 0) tTable.seed)) = false ∧ tTable.inlined = true := by
  cases b <;> decide +kernel
theorem wit_ProbeResults_absent : ((tableState false).findKey 1 tTable 0 (tableHash (rowKey tKeys 0) tTable.seed) (rowKey tKeys 0)).toOption = some [] := by
  decide +kernel
theorem wit_ProbeResults_present : ((tableState true).findKey 1 tTable 0 (tableHash (rowKey tKeys 0) tTable.seed) (rowKey tKeys 0)).toOption = some [0] := by
  decide +kernel

theorem test_split : splitRows 2 10 [4, 5, 6] [] 0 = [[4, 5], [6]] ∧ splitRows 3 10 [4, 5, 6] [] 0 = [[4, 5], [6]] := by decide +kernel
theorem wit_Outputs_split : (0 : Nat) < 2 ∧ ∀ h ∈ [4, 5, 6], h ≤ 10 := by decide
theorem wit_Outputs_arena : ∃ o, ({ die := 0, addr := 0x1000, bytes := 0x10000, live := [(0, 64)] } : Arena).place 64 0 = some o :=
  place_isSome _ _ _ _ (show Arena.firstFit _ _ = some 64 by decide +kernel)
/-- A flow that waits for origin 3. -/
def tFlow : FlowSt where
  state := .opened
  nextOrigin := 3
  nextFrag := 0
  held := []
  done := false
  seq := 3
def flowState : State := { jobState (pregs 0 0) with jobs := [{ tJob with flows := [tFlow] }] }
theorem wit_OrderedRelease : flowState.job? 7 = some { tJob with flows := [tFlow] } ∧ flowState.flowSt? 7 0 = some tFlow ∧
    tFlow.held.length < Config.window ∧ ¬ ((4 : Nat) = tFlow.nextOrigin ∧ (0 : Nat) = tFlow.nextFrag) := by decide +kernel
theorem wit_MergeOrder : cellOrder 1 (some [1]) (some [2]) = 1 ∧ cellOrder 0 (some [1]) (some [2]) = -1 ∧ cellOrder 0 none (some [2]) = -1 := by
  decide +kernel

-- WITNESSES: THE MATCH UNIT, DIGESTS AND THE SADDLE PORT ----------------------------------------------------------------------------------------------------

/-- Instance 1 owns block 0 of die 0, with these entries. -/
def amuState (l : List (Nat × AmuEntry)) (r : FRegs) : State := (jobState r).modDie 0 fun d => { d with
  amu := { d.amu with array := l, blocks := { owner := some 1, logical := 0, clearing := false } :: d.amu.blocks.drop 1 } }
/-- Priority 7 at 3 and 2, priority 5 at 1: 2 answers. An entry that cares about no bit matches every key. -/
def amuRows : List (Nat × AmuEntry) :=
  [(1, { AmuEntry.empty with valid := true, prio := 5 }), (2, { AmuEntry.empty with valid := true, prio := 7 }),
   (3, { AmuEntry.empty with valid := true, prio := 7 })]
theorem wit_MatchPort_lookup : (((amuState amuRows (pregs 0 0)).dieD 0).amu.lookup 1 0).map (·.1) = some 2 ∧
    (((amuState [] (pregs 0 0)).dieD 0).amu.lookup 1 0).map (·.1) = none := by decide +kernel
theorem wit_MatchPort : let r := pregs 0 0
    (amuState amuRows r).Runs tf (jobFgr r) ∧ badReg {} (rrr 3 0 2) = false ∧ (jobFgr r).morsel = some tMorsel ∧ r.Quiet ∧ r.mode = 0 ∧
    (amuState amuRows r).amuStale 1 0 = false :=
  ⟨⟨rfl, rfl, by decide +kernel⟩, by decide, rfl, .inl (by decide +kernel), by decide +kernel, by decide +kernel⟩
theorem wit_MatchPort_stale : let s := (amuState amuRows (pregs 0 0)).modInst 1 fun i => { i with amuState := i.amuState.set 0 2 }
    s.amuStale 1 0 = true := by decide +kernel
theorem wit_MatchPort_images : let r := gregs 0x40 32767
    r.mode ≠ 0 ∧ (r.rg 1).toNat % 64 = 0 ∧ inLdm (r.rg 1).toNat 64 = true ∧ r.Quiet ∧ ¬ 32767 < (r.rg 2).toNat ∧
    32767 < ((gregs 0x40 32768).rg 2).toNat ∧ ((gregs 0x48 0).rg 1).toNat % 64 ≠ 0 ∧ shadowReserved (zeros 64) = false ∧
    shadowReserved (zeros 63 ++ [1]) = true ∧ (State.reset.dieD 0).amu.clearing 32767 = false :=
  ⟨by decide +kernel, by decide +kernel, by decide +kernel, .inl (by decide +kernel), by decide +kernel, by decide +kernel, by decide +kernel,
    by decide +kernel, by decide +kernel, by decide +kernel⟩
theorem test_amlk : (regsAfter (exec (.amlk tf (rrr 3 0 2)) (amuState amuRows (pregs 0 0)))).map (fun r => r.rg 3) = some 2 ∧
    (regsAfter (exec (.amlk tf (rrr 3 0 2)) (amuState [] (pregs 0 0)))).map (fun r => r.rg 3) = some 0xFFFFFFFF := by decide +kernel

theorem wit_MatchArray : State.reset.memWf ∧ 0 < State.reset.dies.length := ⟨rfl, by decide⟩
theorem wit_MatchArray_clear : let s := State.reset.modDie 0 fun d => { d with
      amu := { d.amu with blocks := { owner := some 1, logical := 0, clearing := true } :: d.amu.blocks.drop 1 } }
    (s.dieD 0).amu.blocks[0]? = some { owner := some 1, logical := 0, clearing := true } ∧ s.unitsLive 0 = true := by decide +kernel
/-- The last entry of the sweep, sound. -/
theorem wit_MatchArray_sweep : let s := State.reset.modDie 0 fun d => { d with amu := { d.amu with sweep := 32767 } }
    s.unitsLive 0 = true ∧ (s.dieD 0).amu.sweep + 1 = 32768 ∧ (s.dieD 0).amu.clearing 32767 = false ∧
    (byteAt (s.shadow 0 32767) 0x2C).testBit 1 = false := by decide +kernel
theorem wit_MatchArray_fault : let s := amuState amuRows (pregs 0 0)
    s.memWf ∧ s.unitsLive 0 = true ∧ 1 < s.insts.length ∧ (s.instD 1).amuState.length = 8 ∧
    ((s.dieD 0).amu.blocks.getD (2 / 512) AmuBlock.reset).owner = some 1 := ⟨rfl, by decide +kernel⟩

/-- Context 0 of die 0 is held by the morsel, after these bytes. -/
def ctxState (bs : List Byte) (r : FRegs) : State := (jobState r).modDie 0 fun d => { d with
  ctxs := d.ctxs.set 0 { holder := .morsel 9, inst := 1, sha := shaUpdate shaInit bs } }
theorem wit_Digests : let r := pregs 0x100 1
    (jobState r).Runs tf (jobFgr r) ∧ (jobFgr r).morsel = some tMorsel ∧ r.Quiet ∧ badReg { ra := false, rb := false } (rrr 3 0 0) = false ∧
    badReg {} (rrr 3 1 2) = false ∧ badReg { rb := false } (rrr 4 3 0) = false ∧ badReg { rd := false, rb := false } (rrr 0 3 0) = false :=
  ⟨jobState_runs _ (by decide +kernel), rfl, .inl (by decide +kernel), by decide, by decide, by decide, by decide⟩
/-- The instance has a share of two digest engines and no context yet; with no share the port answers BUSY. -/
def digestShare (s : State) : State := s.modInst 1 fun i => { i with alloc := { i.alloc with shareDg := 0x0202020202020202 } }
theorem wit_Digests_contexts : (digestShare (jobState (pregs 0 0))).freeCtx 0 1 = some 0 ∧
    (jobState (pregs 0 0)).freeCtx 0 1 = none := by decide +kernel
theorem wit_Digests_held : ∃ ctx, ((ctxState [1, 2] (pregs 0x100 1)).dieD 0).ctxs[0]? = some ctx ∧ ctx.holder = .morsel tMorsel.mid := ⟨_, rfl, rfl⟩
theorem take_split (o : State × List Byte × TakeEnd) (h : (match o.2.2 with | .finished => true | _ => false) = true) :
    ∃ (t : State) (bs : List Byte), o = (t, bs.reverse, .finished) := by
  obtain ⟨t, bs, e⟩ := o
  cases e with
  | finished => exact ⟨t, bs.reverse, by rw [List.reverse_reverse]⟩
  | fault a => exact absurd h (by simp)
  | wait => exact absurd h (by simp)
theorem wit_Digests_takes : let s := memState (pregs 0x100 1)
    (∃ (t : State) (bs : List Byte), s.takeBytes tf 0x100 1 [] = (t, bs.reverse, .finished)) ∧ (pregs 0x100 1).rg 2 ≠ 0 ∧ (pregs 0x100 0).rg 2 = 0 :=
  ⟨take_split _ (by decide +kernel), by decide +kernel, by decide +kernel⟩
theorem wit_Digests_charge : ((digestShare (ctxState [1, 2] (pregs 0x100 1))).digestCharge 0 1 1).isSome = true := by decide +kernel
theorem wit_Digests_foreign : ∀ c, ((jobState (pregs 0 0)).dieD 0).ctxs[((pregs 0 0).rg 3).toNat]? = some c → c.holder ≠ .morsel tMorsel.mid := by
  intro c h
  have : c = Ctx.reset := by
    have hr : ((jobState (pregs 0 0)).dieD 0).ctxs[((pregs 0 0).rg 3).toNat]? = some Ctx.reset := by decide +kernel
    rw [hr] at h; exact (Option.some.inj h).symm
  subst this
  decide
theorem wit_Digests_cmp : badReg {} (rrr 3 4 6) = false ∧ (rrr 3 4 6).ra.getLsbD 0 = false ∧ (rrr 3 4 6).rb.getLsbD 0 = false ∧
    (jobState (pregs 0 0)).propolis.cmpFlip = 0 := by decide +kernel

/-- The Saddle site enabled, with an operation of the Forager in flight. -/
def saddleState (l : List SaddleReq) (w : FgrRun) : State := { (jobState (pregs 0 0)).modFgr tf fun g => { g with run := w } with
  saddle := { State.reset.saddle with state := 2, inflight := l } }
theorem wit_SaddlePort : (jobState (pregs 0 0)).Runs tf (jobFgr (pregs 0 0)) ∧ (0x74 : Nat) ≤ (0x7F#32).toNat % 128 ∧
    (jobState (pregs 0 0)).saddleTakes = false ∧ (saddleState [] .running).Runs tf (jobFgr (pregs 0 0)) ∧
    (saddleState [] .running).saddleTakes = true :=
  ⟨jobState_runs _ (by decide +kernel), by decide, by decide +kernel, ⟨rfl, rfl, by decide +kernel⟩, by decide +kernel⟩
theorem wit_SaddlePort_response : let q : SaddleReq := { who := tf, inst := 1, gen := 0 }
    let s := saddleState [q] (.saddle 3)
    s.fgr? tf = some { jobFgr (pregs 0 0) with run := .saddle 3 } ∧ s.saddle.inflight.find? (fun r => r.who == tf && r.gen == 0) = some q ∧
    (s.instD 1).gen = 0 ∧ (pregs 0 0).Quiet ∧ (pregs 0 0).mode = 0 :=
  ⟨rfl, by decide +kernel, by decide +kernel, .inl (by decide +kernel), by decide +kernel⟩
theorem wit_SaddlePort_stale : let q : SaddleReq := { who := tf, inst := 1, gen := 5 }
    let s := saddleState [q] (.saddle 3)
    s.saddle.inflight.find? (fun r => r.who == tf && r.gen == 5) = some q ∧ (5 : BitVec 16) ≠ (s.instD q.inst).gen := by decide +kernel
theorem wit_SaddlePort_timeout : let s := saddleState [{ who := tf, inst := 1, gen := 0 }] (.saddle 3)
    s.powered = true ∧ s.saddle.state = 2 ∧ s.saddle.inflight ≠ [] := by decide +kernel

-- WITNESSES: QUEUES, IMAGES AND JOBS ------------------------------------------------------------------------------------------------------------------------

/-- `n` bytes with these fields in them, zero elsewhere. -/
def lay (n : Nat) (fs : List (Nat × List Byte)) : List Byte :=
  (List.range n).map fun i => ((fs.find? fun f => decide (f.1 ≤ i ∧ i < f.1 + f.2.length)).map fun f => f.2.getD (i - f.1) 0).getD 0

/-- SQ 1 of 16 entries and CQ 1 of 16 entries, in a state of their own. -/
def tSq (st : QState) (h t : Nat) : Sq where
  qid := 1
  cqid := 1
  depthLog2 := 4
  cls := 0
  base := 0x10000
  state := st
  head := h
  tail := t
  held := false
  deleters := []
def tCq (st : QState) (h t : Nat) : Cq where
  qid := 1
  depthLog2 := 4
  base := 0x20000
  vector := 3
  intEn := true
  shadowEn := false
  shadow := 0
  state := st
  head := h
  tail := t
  reserved := 0
  stall := 64
  stallRaised := false
  deleters := []
def queueState (q : Sq) (c : Cq) : State := readyState.modInst 1 fun i => { i with state := .enabled, sqs := [q], cqs := [c] }

/-- HEAD 14, TAIL 2: a tail of 2 or 3 goes on, one of 15 turns back, 16 is no index; a CQ head from 14 may go to TAIL 2 and not to 3. -/
theorem wit_QueueRegisters : let s := queueState (tSq .active 14 2) (tCq .active 14 2)
    s.HostWrites 1 ∧ (s.instD 1).sq? 1 = some (tSq .active 14 2) ∧ (s.instD 1).cq? 1 = some (tCq .active 14 2) ∧ (s.instD 1).sq? 4095 = none ∧
    (s.instD 1).cq? 0 = none ∧ (s.instD 1).aq.disabling = false ∧ (3 + 16 - 14 % 16) % 16 = 5 ∧ (2 + 16 - 14 % 16) % 16 = 4 ∧
    (15 + 16 - 14 % 16) % 16 = 1 := by
  refine ⟨⟨by decide +kernel, by decide +kernel, by decide +kernel⟩, by decide +kernel⟩
theorem test_doorbells : let s := queueState (tSq .active 14 2) (tCq .active 14 2)
    ((after (exec (.sqTailDoorbell 1 1 4 3) s)).bind fun t => (t.instD 1).sq? 1) = some (tSq .active 14 3) ∧
    ((after (exec (.sqTailDoorbell 1 1 4 15) s)).bind fun t => (t.instD 1).sq? 1) = some (tSq .error 14 2) ∧
    ((after (exec (.cqHeadDoorbell 1 1 4 2) s)).bind fun t => (t.instD 1).cq? 1) = some (tCq .active 2 2) ∧
    ((after (exec (.cqHeadDoorbell 1 1 4 3) s)).bind fun t => (t.instD 1).cq? 1) = some (tCq .error 14 2) := by decide +kernel
theorem wit_QueueRegisters_closed : (tSq .error 0 0).state ≠ .active ∧ (tSq .deleting 0 0).state ≠ .active := by decide
theorem wit_QueueRegisters_stall : let s := queueState (tSq .active 0 0) (tCq .active 0 0)
    s.settings.cqStallFrames ≤ (tCq .active 0 0).stall ∧ (tCq .active 0 0).stallRaised = false := by decide +kernel
/-- AQ_CFG: EN, INT_EN, vector 3, CQ of 2^4, SQ of 2^5. -/
theorem wit_QueueRegisters_aq : readyState.HostWrites 0 ∧ aqCfgBad 0x80032405 (readyState.vectors 0) = false ∧ aqCfgBad 0x32405 (readyState.vectors 0) = false ∧
    (readyState.instD 0).aq.en = false ∧ (readyState.instD 0).aq.disabling = false := by
  refine ⟨⟨by decide +kernel, by decide +kernel, by decide +kernel⟩, by decide +kernel⟩
def aqState (en dis : Bool) : State := readyState.modInst 0 fun i => { i with aq := { i.aq with
  en := en, disabling := dis, vector := 3, shadowEn := false, intEn := true, cqLog2 := 4, sqLog2 := 5 } }
theorem wit_QueueRegisters_enabled : let a := ((aqState true false).instD 0).aq
    let v := 0x80032405
    let w := 0x80032406
    ({ a with vector := v / 2 ^ 16 % 2 ^ 12, shadowEn := v.testBit 14, intEn := v.testBit 13, cqLog2 := v / 2 ^ 8 % 2 ^ 5, sqLog2 := v % 2 ^ 5 } : AdminRegs) = a ∧
    ({ a with vector := w / 2 ^ 16 % 2 ^ 12, shadowEn := w.testBit 14, intEn := w.testBit 13, cqLog2 := w / 2 ^ 8 % 2 ^ 5, sqLog2 := w % 2 ^ 5 } : AdminRegs) ≠ a ∧
    aqCfgBad w ((aqState true false).vectors 0) = false := by decide +kernel
theorem wit_QueueRegisters_disabling : ((aqState false true).instD 0).aq.disabling = true ∧ ((aqState false true).instD 0).cq? 0 = none := by decide +kernel

/-- Slot 0 of the PF side of VF 1 is FULL. -/
def mbxState (st : InstSt) : State := readyState.modInst 1 fun i => { i with state := st, mbxPf := { i.mbxPf with txFull := 1 } }
theorem wit_HostRegisters : (mbxState .enabled).HostWrites 0 ∧ (mbxState .enabled).HostWrites 1 ∧ ((mbxState .enabled).instD 1).mbxPf.txFull = 1 ∧
    ((2 : BitVec 8) &&& ~~~1 ≠ 0) ∧ ((1 : BitVec 8) &&& ~~~1 = 0) ∧ ((2 : BitVec 8) &&& 1 = 0) ∧ (mbxState .frozen).HostWrites 0 := by
  refine ⟨⟨by decide +kernel, by decide +kernel, by decide +kernel⟩, ⟨by decide +kernel, by decide +kernel, by decide +kernel⟩, by decide +kernel,
    by decide, by decide, by decide, ⟨by decide +kernel, by decide +kernel, by decide +kernel⟩⟩
theorem wit_HostRegisters_hold : ((5 : W64) &&& 0xFFFFFFFF0000FFF8 = 0) ∧ ((0x8080808080808080 : W64) &&& 0x4040404040404040 = 0) := by decide
theorem wit_HostRegisters_expired : let s := readyState.modInst 1 fun i => { i with stat := { i.stat with holdActive := true, holdLeft := 0 } }
    (s.instD 1).stat.holdActive = true ∧ (s.instD 1).stat.holdLeft = 0 := by decide +kernel
theorem wit_HostRegisters_refused : ({ readyState with power := { readyState.power with devState := .booting } } : State).fnLive 0 = true ∧
    inKdw 0 0x2C040 = false ∧ (readyState.modInst 1 fun i => { i with state := .resetting }).fnLive 1 = true ∧
    ¬ (((4 : Nat) = 4 ∨ (4 : Nat) = 8) ∧ (0x2C042 : Nat) % 4 = 0) := by decide +kernel

/-- Chains of entries with FIRST, LAST, opcode 0x10 and a CID. -/
def chainEnt (flags : Byte) (cid : Nat) : List Byte := lay 128 [(0, [0x10, flags]), (2, leBytes 2 cid)]
theorem wit_QueueCommands_chain : let chain := [chainEnt 1 7, chainEnt 0 7, chainEnt 2 7]
    chain.head? = some (chainEnt 1 7) ∧ chain.length ≤ 64 ∧ entFirst (chainEnt 1 7) = true ∧
    (∀ x ∈ chain, entOpcode x = entOpcode (chainEnt 1 7) ∧ entCid x = entCid (chainEnt 1 7)) ∧ (∀ x ∈ chain.drop 1, entFirst x = false) ∧
    (∀ x ∈ chain.dropLast, entLast x = false) ∧ (∀ x, chain.getLast? = some x → entLast x = true) := by
  refine ⟨by decide +kernel, by decide +kernel, by decide +kernel, by decide +kernel, by decide +kernel, by decide +kernel, ?_⟩
  intro x h
  have : x = chainEnt 2 7 := by simpa using h.symm
  subst this
  decide +kernel
/-- SQ 1 holds one entry, opcode 0: fetched, it is rejected. -/
theorem wit_QueueCommands_fetch : let s := queueState (tSq .active 0 1) (tCq .active 0 0)
    s.power.mainPower = true ∧ s.power.perst = false ∧ s.power.devState = .ready ∧ s.nextServed.map (fun x => (x.1, x.2.1)) = some (1, tSq .active 0 1) ∧
    (queueState (tSq .active 1 1) (tCq .active 0 0)).nextServed.isNone = true ∧
    s.checkChain 1 { sqid := 1, sqHead := 1, cid := 0, opcode := 0, entries := [zeros 128] } false = some Config.stInvalidOpcode ∧
    s.checkChain 1 { sqid := 0, sqHead := 1, cid := 0, opcode := 7, entries := [lay 128 [(0, [7, 3]), (4, [1, 0])]] } false = none := by decide +kernel
/-- Instance 1 has fetched an admin chain. -/
def adminState (e : List Byte) : State := (queueState (tSq .active 1 1) (tCq .active 0 0)).modInst 1 fun i => { i with
  fetched := [{ sqid := 0, sqHead := 1, cid := 5, opcode := byteAt e 0, entries := [e] }], alloc := { i.alloc with sqQuota := 2, cqQuota := 1 } }
def admin (op : Byte) (q c : Nat) : List Byte := lay 128 [(0, [op, 3, 5, 0]), (4, leBytes 2 q), (6, leBytes 2 c), (8, [4])]
theorem wit_QueueCommands_createSq : let s := adminState (admin 1 2 1)
    (s.adminNext 1 1).isSome = true ∧ ¬ (s.sqExists 1 2 = true ∨ field (admin 1 2 1) 6 2 = 0 ∨
      ((s.instD 1).cq? (field (admin 1 2 1) 6 2)).elim false (·.state == .active) = false) ∧ s.sqCount 1 < (s.instD 1).alloc.sqQuota ∧
    (adminState (admin 1 1 1)).sqExists 1 1 = true ∧
    (s.modInst 1 fun i => { i with alloc := { i.alloc with sqQuota := 1 } }).sqCount 1 = 1 := by decide +kernel
theorem wit_QueueCommands_createCq : let s := adminState (admin 3 2 1)
    (s.adminNext 1 3).isSome = true ∧ s.cqExists 1 2 = false ∧ (s.instD 1).alloc.cqQuota ≤ s.cqCount 1 ∧ s.cqExists 1 1 = true ∧
    (s.modInst 1 fun i => { i with alloc := { i.alloc with cqQuota := 2 } }).cqCount 1 < 2 := by decide +kernel
theorem wit_QueueCommands_delete : ((adminState (admin 2 1 0)).adminNext 1 2).isSome = true ∧ ((adminState (admin 4 1 0)).adminNext 1 4).isSome = true ∧
    ((adminState (admin 2 1 0)).instD 1).sq? 1 = some (tSq .active 1 1) ∧ ((adminState (admin 2 1 0)).instD 1).sq? 2 = none ∧
    (((adminState (admin 4 1 0)).instD 1).sqs ++ (adminState (admin 4 1 0)).newSqs 1).any (·.cqid == 1) = true ∧
    (((adminState (admin 4 1 0)).instD 1).sqs ++ (adminState (admin 4 1 0)).newSqs 1).any (·.cqid == 2) = false := by decide +kernel
/-- ABORT_JOB for CID 5 of SQ 1: the running job of the tests; CID 6 is known of no job, CID 7 of one that has ended. -/
theorem wit_QueueCommands_abort : let s : State := { adminState (admin 7 1 5) with jobs := [tJob] }
    let e := (s.modInst 1 fun i => { i with ended := [(1, 7, 0)] })
    (s.adminNext 1 7).isSome = true ∧ (s.jobs.filter fun j => j.inst == 1 && j.state == .running && (j.sqid == 1 && j.cid == 5)).length = 1 ∧
    (s.jobs.filter fun j => j.inst == 1 && j.state == .running && (j.sqid == 1 && j.cid == 6)).length = 0 ∧
    (e.instD 1).ended.any (fun x => x.1 == 1 && x.2.1 == 7) = true ∧ (e.instD 1).ended.any (fun x => x.1 == 1 && x.2.1 == 6) = false := by decide +kernel
/-- GET_STATUS_PAGE for page 1 with 4 KiB at address 0x1000 of instance 1, which is mapped. -/
def pageEnt : List Byte := lay 128 [(0, [8, 3, 5, 0, 1]), (8, leBytes 8 0x1000), (16, leBytes 4 4096)]
theorem wit_QueueCommands_page : let s := (adminState pageEnt).modInst 1 fun i => { i with pt := [(0, 0xC000000001000000)], alloc := { i.alloc with ptPages := 1 } }
    (s.adminNext 1 8).isSome = true ∧ 16 ≤ field pageEnt 16 4 ∧
    (((s.modInst 1 fun i => { i with fetched := [] }).writeInst 1 0x1000 (zeros 16)).isSome = true) := by decide +kernel
theorem wit_QueueCommands_deleted : let s := queueState (tSq .deleting 1 1) (tCq .active 0 0)
    (s.instD 1).sq? 1 = some (tSq .deleting 1 1) ∧ s.sqDrained 1 1 = true := by decide +kernel

/-- An image of one Column Streamer stage, source and sink, that selects column 0 (R67 to R73, R119): header, section table, stage table at 256, binding at 320,
bounds at 384, parameters at 448. -/
def tBody : List Byte := lay 464 [(0, [0x4F, 0x56, 0x50, 0x49, 0x4D, 0x41, 0x47, 0x45]), (8, [1]), (0x0C, [128]), (0x0E, [4]), (0x10, leBytes 8 496), (0x18, [128]),
  (0x20, [1]), (0x26, [1]),
  (128, [1]), (132, [1]), (136, leBytes 8 256), (144, [64]), (160, [3]), (164, [1]), (168, leBytes 8 320), (176, [8]),
  (192, [4]), (196, [1]), (200, leBytes 8 384), (208, [32]), (224, [7]), (232, leBytes 8 448), (240, [16]),
  (258, [1, 0, 3]), (264, List.replicate 16 0xFF), (280, leBytes 4 64), (284, List.replicate 4 0xFF), (296, [16]),
  (386, [1]), (388, leBytes 4 1000), (400, leBytes 4 64), (448, [1]), (458, [4])]
def tBytes : List Byte := tBody ++ sha256 tBody

/-- LOAD_IMAGE of the image, which lies at 0x1000 of the instance. -/
def loadEnt : List Byte := lay 128 [(0, [5, 3, 5, 0]), (8, leBytes 8 0x1000), (16, leBytes 8 496), (32, sha256 tBody)]
def loadState : State := ((adminState loadEnt).modInst 1 fun i => { i with
  pt := [(0, 0xC000000001000000)], alloc := { i.alloc with ptPages := 1, imgStore := 1 } })
theorem wit_Images : let s := loadState
    (s.adminNext 1 5).isSome = true ∧ s.loading < 4 ∧ 256 ≤ field loadEnt 16 8 ∧ field loadEnt 16 8 ≤ 0x1000000 ∧ s.storeRoom 1 496 = true ∧
    s.firstUnreadable 1 0x1000 496 = none ∧ s.propolis.cmpFlip = 0 ∧ (s.firstUnreadable 1 0x1FFF00 496).isSome = true ∧
    (s.instD 1).images.length < 64 := by decide +kernel
theorem wit_Images_room : (adminState loadEnt).storeRoom 1 496 = false := by decide +kernel
/-- It passes the checks; with a wrong digest in the entry it fails the first of them. -/
theorem wit_Images_checked : (loadState.checkImage tBytes (sha256 tBody)).toOption.isSome = true := by decide +kernel
theorem wit_Images_fails : (match loadState.checkImage tBytes (zeros 32) with | .error e => some e | .ok _ => none) =
    some (Config.stImgDigest, 0xFFFFFFFF) := by decide +kernel

/-- A checked image waits in slot 3 of instance 1 with load counter 0x3FFFFFF. -/
def slotState (x : Slot) (jobs : List Job) : State := { (readyState.modInst 1 fun i => { i with state := .enabled, images := [x], loadCtr := 0x3FFFFFF }) with
  jobs := jobs }
def tSlot : Slot where
  slot := 3
  handle := 0x43
  image := tImage
  req := []
  loading := false
  unloading := false
  waiters := [(5, 1)]
theorem wit_Images_done : ((slotState { tSlot with req := zeros 128, loading := true } []).instD 1).images.find? (·.req != []) =
    some { tSlot with req := zeros 128, loading := true } := by decide +kernel
/-- Load tags run to 0x3FFFFFF and go on at 1 (R78): slot 3 under the last tag is handle 0xFFFFFFC3. -/
theorem test_handle : ((after (exec (.loadImageChecksDone 1) (slotState { tSlot with req := [0], loading := true, waiters := [] } []))).map fun s =>
    ((s.instD 1).images.map (·.handle), (s.instD 1).loadCtr)) = some ([0xFFFFFFC3], 1) := by decide +kernel
def unloadEnt : List Byte := lay 128 [(0, [6, 3, 5, 0]), (4, [0x43])]
theorem wit_Images_unload : let s := (adminState unloadEnt).modInst 1 fun i => { i with images := [tSlot] }
    (s.adminNext 1 6).isSome = true ∧ ((s.instD 1).images.find? fun x => x.handle == BitVec.ofNat 32 (field unloadEnt 4 4) && !x.loading) = some tSlot ∧
    (((adminState unloadEnt).instD 1).images.find? fun x => x.handle == BitVec.ofNat 32 (field unloadEnt 4 4) && !x.loading) = none := by decide +kernel
theorem wit_Images_unloading : let x := { tSlot with unloading := true }
    ((slotState x []).instD 1).images.find? (fun x => x.slot == 3 && x.unloading) = some x ∧
    (∃ j ∈ (slotState x [{ tJob with handle := 0x43 }]).jobs, j.inst = 1 ∧ j.handle = x.handle) ∧
    ∀ j ∈ (slotState x [{ tJob with handle := 0x43, inst := 2 }]).jobs, j.inst = 1 → j.handle ≠ x.handle := by
  refine ⟨by decide +kernel, ⟨_, List.mem_singleton.2 rfl, rfl, rfl⟩, ?_⟩
  intro j hj hi
  have : j = { tJob with handle := 0x43, inst := 2 } := by simpa [slotState] using hj
  subst this
  exact absurd hi (by decide)

/-- A JOB of the image of one Column Streamer stage: its input, its result buffer, its arena on each die and its status lie in mapped pages. -/
def jobEnt : List Byte := lay 128 ([(0, [0x10, 1, 5, 0]), (4, [0x43]), (0x0A, [1, 0, 0, 1]), (0x10, leBytes 8 0x100000), (0x18, leBytes 4 4096), (0x1C, [16])] ++
  (List.range 7).map fun k => (0x28 + 8 * k, leBytes 8 (0x200000 * (k + 1))))
def jobChain : Chain where
  sqid := 1
  sqHead := 3
  cid := 5
  opcode := 0x10
  entries := [jobEnt, lay 128 [(0, [0x10, 0, 5, 0, 1, 1]), (8, leBytes 8 0x180000), (16, [1]), (20, [1])],
    lay 128 [(0, [0x10, 2, 5, 0, 4, 1]), (8, leBytes 8 0x1C0000), (16, leBytes 8 0x1000)]]
def waitState (jobs : List Job) : State := { (queueState (tSq .active 3 3) (tCq .active 0 0)).modInst 1 fun i => { i with
  fetched := [jobChain]
  images := [{ tSlot with image := parseImage tBytes, waiters := [] }]
  pt := (List.range 8).map fun k => (k, BitVec.ofNat 64 (0xC000000001000000 + 0x1000000000 * k))
  alloc := { i.alloc with ptPages := 8 } } with jobs := jobs }
theorem wit_Jobs : let s := waitState []
    (s.instD 1).state = .enabled ∧ (s.instD 1).d3hot = false ∧ s.power.devState = .ready ∧ (s.instD 1).fetched.find? (fun c => c.sqid != 0) = some jobChain := by
  decide +kernel
theorem wit_Jobs_checked : ((waitState []).checkJob 1 jobChain).toOption.isSome = true := by decide +kernel
theorem wit_Jobs_fails : (match (queueState (tSq .active 3 3) (tCq .active 0 0)).checkJob 1 jobChain with | .error e => some e | .ok _ => none) =
    some Config.stMemFault := by decide +kernel
theorem wit_Jobs_admissible : let s := waitState [{ tJob with state := .waiting, image := parseImage tBytes }]
    (s.admissible 1).isSome = true ∧ s.recheckImage (parseImage tBytes) = none ∧
    s.recheckImage { parseImage tBytes with requires := 1 } = some Config.stImgUnsupported := by decide +kernel
/-- A result buffer of 64 KiB whose first leaf no engine has hashed yet. -/
def tResult : ResultBuf where
  addr := 0x40000
  bytes := 0x20000
  stage := 0
  off := 0x10000
  held := []
  complete := []
  next := []
  nodes := []
  hashed := 0
  root := none
def leafState : State := { ((digestShare (jobState (pregs 0 0))).modDie 0 fun d => { d with
  ctxs := d.ctxs.set 0 { holder := .result 7, inst := 1, sha := shaInit } }) with
  jobs := [{ tJob with resultDigest := true, results := [tResult] }] }
theorem wit_Jobs_leaf : let s := leafState
    let x := (s.dieD 0).units.getD 14 UnitSt.reset
    s.job? 7 = some { tJob with resultDigest := true, results := [tResult] } ∧ ({ tJob with resultDigest := true } : Job).alive = true ∧
    s.unitsLive 0 = true ∧ x.morsel = none ∧ x.chargedTo 1 < s.shareCycles 1 .digest 0 ∧ (s.dieD 0).ctxOf (.result 7) = some 0 ∧
    65536 * (tResult.hashed + 1) ≤ tResult.off := by decide +kernel
theorem readInst_isSome (s : State) (n : Nat) : ∀ (k a : Nat), (∀ j, a ≤ j → j < a + k → (s.instByte n j).isSome = true) → (s.readInst n a k).isSome = true
  | 0, _, _ => rfl
  | k + 1, a, h => by
    have h1 := h a (Nat.le_refl a) (by omega)
    have h2 := readInst_isSome s n k (a + 1) fun j ha hb => h j (by omega) (by omega)
    unfold State.readInst
    cases hx : s.instByte n a with
    | none => rw [hx] at h1; exact absurd h1 (by decide)
    | some b =>
      cases hy : s.readInst n (a + 1) k with
      | none => rw [hy] at h2; exact absurd h2 (by decide)
      | some bs => rfl
/-- Page 0 of the instance is mapped, sound, on die 0. -/
theorem leaf_bytes (a : Nat) (h : a < 0x200000) : (leafState.instByte 1 a).isSome = true := by
  have he : (leafState.instD 1).entry a = (leafState.instD 1).entry 0 := by
    unfold Inst.entry
    have : a / Config.pageBytes = 0 / Config.pageBytes := by unfold Config.pageBytes; omega
    simp [this]
  unfold State.instByte State.translate
  have h0 : (leafState.instD 1).entry 0 = some 0xC000000001000000 := rfl
  have hp : ptePage 0xC000000001000000 * Config.pageBytes + a % Config.pageBytes = 0x1000000 + a := by
    have : ptePage 0xC000000001000000 * Config.pageBytes = 0x1000000 := by decide +kernel
    have h2 : a % Config.pageBytes = a := by unfold Config.pageBytes; omega
    omega
  have hl : leafState.locate false (0x1000000 + a) = some (.rlm (0x1000000 + a)) := by
    have hd : devDie (0x1000000 + a) = 0 := by unfold devDie; simp only [Config.windowBytes]; omega
    have ho : (0x1000000 + a) % Config.windowBytes = 0x1000000 + a := by simp only [Config.windowBytes]; omega
    have hk : (0 : Nat) < leafState.part.dies := by decide +kernel
    have hf : (leafState.dieD 0).fence.on = false := by decide +kernel
    unfold State.locate
    simp only [hd, ho, hk, hf, Bool.false_eq_true, if_false, true_and]
    rw [if_pos (by omega), if_pos (by omega)]
  have hq : leafState.poisoned (.rlm (0x1000000 + a)) = false := rfl
  rw [he, h0]
  simp only [hp, hl, hq]
  rfl
theorem wit_Jobs_leaf_bytes : (leafState.readInst 1 0x40000 65536).isSome = true :=
  readInst_isSome _ _ _ _ fun j _ h => leaf_bytes j (by omega)

-- WITNESSES: INSTANCES AND FUNCTIONS -----------------------------------------------------------------------------------------------------------------------

theorem wit_InstanceCommands : (State.reset.instD 1).staged = [] := by decide +kernel
theorem wit_InstanceCommands_staged : let i := { State.reset.instD 1 with staged := [{ left := 1, cmd := .enable }] }
    i.staged = [{ left := 1, cmd := .enable }] ∧ (InstCmd.enable ≠ .remove) ∧ (InstCmd.enable ≠ .restore) ∧ (InstCmd.enable ≠ .reset) := by decide +kernel
theorem wit_InstanceCommands_reset : let s := readyState.modInst 1 fun i => { i with state := .resetting, resetTo := .disabled }
    (s.instD 1).state = .resetting ∧ s.resetQuiet 1 = true := by decide +kernel
def exchangeJob : Job := { tJob with image := { tImage with stages := [{ tStage with kind := .exchange }], requires := 2 } }
theorem wit_InstanceCommands_timeout : let s : State := { (readyState.modInst 1 fun i => { i with state := .freezing, freezeTimeout := 100, freezingNs := 5 }) with
      jobs := [exchangeJob], frame := { readyState.frame with startNs := 100000005 } }
    (s.instD 1).state = .freezing ∧ (s.instD 1).freezeAborts = false ∧ (s.instD 1).freezingNs + (s.instD 1).freezeTimeout * 1000000 ≤ s.frame.startNs ∧
    ∃ j ∈ s.exchangeJobs 1, j.abort = false :=
  ⟨by decide +kernel, by decide +kernel, by decide +kernel, exchangeJob, by decide +kernel, rfl⟩
/-- 2 µs before the boundary a command waits for the next but one (R515). -/
theorem test_staged_late : let s (ns : Nat) : State := { (readyState.modInst 1 fun i => { i with state := .disabled }) with
      power := { readyState.power with uptimeNs := readyState.frameEndNs - ns } }
    ((s 2000).instCommand 1 .enable).map (fun t => (t.instD 1).staged) = some [{ left := 2, cmd := .enable }] ∧
    ((s 2001).instCommand 1 .enable).map (fun t => (t.instD 1).staged) = some [{ left := 1, cmd := .enable }] := by decide +kernel

theorem wit_FunctionResets : readyState.fnLive 0 = true ∧ readyState.fnLive 1 = true ∧ readyState.power.devState ≠ .booting ∧
    ({ readyState with power := { readyState.power with devState := .booting } } : State).fnLive 0 = true ∧
    ((readyState.modInst 1 fun i => { i with d3hot := true }).instD 1).d3hot = true ∧ (readyState.instD 1).kdw.state ≠ .segRead ∧
    (readyState.instD 1).kdw.state ≠ .segWrite ∧ (readyState.instD 200).state = .absent := by decide +kernel
theorem wit_FunctionResets_link : readyState.power.mainPower = true ∧ readyState.power.perst = false ∧ readyState.power.linkUp = true ∧
    ({ readyState with power := { readyState.power with linkUp := false } } : State).power.linkUp = false ∧ (16 : Nat) ∈ [1, 4, 8, 16] := by decide +kernel
theorem wit_FunctionResets_host : let s := queueState (tSq .active 0 0) (tCq .active 0 0)
    s.fnLive 1 = true ∧ (s.instD 1).gen ≠ (s.instD 1).gen + 1 ∧ (s.instD 1).sq? 1 = some (tSq .active 0 0) ∧ (s.instD 1).cq? 1 = some (tCq .active 0 0) := by
  decide +kernel

-- WITNESSES: MEMORY, ERRORS, THE FABRIC ---------------------------------------------------------------------------------------------------------------------

/-- Way 15 of die 7 in a state. -/
def tWay (st : WayState) : Way where
  state := st
  owner := none
  locked := false
  cerr := 2
  enablePending := false
  nextOwner := none
  leave := false
  disableAfter := false
def wayState (y : Way) : State := readyState.modDie 7 fun d => { d with cc := { d.cc with ways := d.cc.ways.set 15 y } }
theorem wit_CacheWays (st : WayState) : (15 : Nat) < 16 ∧ (wayState (tWay st)).dieRuns 7 = true ∧ (wayState (tWay st)).HostWrites 0 ∧
    (wayState (tWay st)).way 7 15 = tWay st := by
  cases st <;> exact ⟨by decide, by decide +kernel, ⟨by decide +kernel, by decide +kernel, by decide +kernel⟩, by decide +kernel⟩
theorem wit_CacheWays_after : (tWay .cleaning).disableAfter = false ∧ ({ tWay .cleaning with disableAfter := true } : Way).disableAfter = true ∧
    ((wayState { tWay .sweep with owner := some 1 }).way 7 15).state == .sweep ∧ ((wayState { tWay .sweep with owner := some 1 }).way 7 15).owner == some 1 := by
  decide +kernel
theorem wit_CacheWays_drain : let s := readyState.modCc 7 fun c => { c with draining := true }
    (s.dieD 7).cc.draining = true ∧ ∀ y ∈ (s.dieD 7).cc.ways, y.state ≠ .cleaning ∧ y.state ≠ .sweep := by decide +kernel

/-- The last granule of the patrol. -/
theorem wit_MemoryUpkeep : let s := readyState.modStack 15 fun x => { x with patrol := 402653183 }
    s.dieRuns 7 = true ∧ (s.stack 15).patrol + 1 = 402653184 ∧ granuleAddr 15 402653183 / 64 ∉ s.poison ∧
    granuleAddr 15 402653183 / 64 ∈ ({ s with poison := [granuleAddr 15 402653183 / 64] } : State).poison := by decide +kernel
theorem wit_MemoryUpkeep_banks : let s := readyState.modStack 0 fun x => { x with remapped := [(15, 3)] }
    s.dieRuns 0 = true ∧ (s.stack 0).remapped.contains (15, 3) = true ∧ (s.stack 0).remapped.contains (15, 4) = false ∧
    (s.stack 0).remapped.any (·.1 == 15) = true ∧ (s.stack 0).remapped.any (·.1 == 14) = false ∧ (s.stack 0).sparing = [] := by decide +kernel
theorem wit_MemoryUpkeep_pages : let w : PageWait := { page := 8, fill := false, inst := 1 }
    let v : PageWait := { page := 8, fill := true, inst := 1 }
    readyState.dieRuns (pageDie 8) = true ∧
    ({ readyState with pages := [w] } : State).pages.find? (fun w => w.page == 8 && !w.fill) = some w ∧
    ({ readyState with pages := [v] } : State).pages.find? (fun w => w.page == 8 && w.fill) = some v ∧
    (∀ x ∈ ({ readyState with pages := [v] } : State).pages, x.page = 8 → x.fill = true) ∧
    Memory.wf readyState.mem = true := by decide +kernel
theorem wit_MemoryUpkeep_range : ((readyState.modInst 1 fun i => { i with inval := some (true, 0, 1) }).instD 1).inval = some (true, 0, 1) := by decide +kernel

/-- One record of kind `k` for page 0 of instance 1, which is on die 0. -/
def migState (st : InstSt) (k page : Nat) (digest : List Byte) : State := ((jobState (pregs 0 0)).modInst 1 fun i => { i with
  state := st
  mig := { i.mig with recs := [{ kind := k, page := page, host := 0x100000, bytes := 0x80000000, digest := digest }], busy := true, next := 0, error := 0 }
  restore := some { image := zeros 64, accepted := false } }).modInst 0 fun i => { i with alloc := { i.alloc with shareDg := 1 } }
theorem wit_Migration : let s := { migState .disabled 1 0 [] with jobs := [] }
    s.powered = true ∧ (s.instD 1).migNext 1 = some { kind := 1, page := 0, host := 0x100000, bytes := 0x80000000, digest := [] } ∧
    s.migAdmits 1 1 = true ∧ (s.instD 1).rlmPage 0 = some 0x1000000 ∧ dieByte (s.instD 0).alloc.shareDg (devDie 0x1000000) ≠ 0 ∧ s.propolis.cmpFlip = 0 ∧
    (s.instD 1).rlmPage 1 = none := by decide +kernel
theorem wit_Migration_in : let s := { migState .disabled 2 0 [] with jobs := [] }
    (s.instD 1).migNext 2 = some { kind := 2, page := 0, host := 0x100000, bytes := 0x80000000, digest := [] } ∧ s.migAdmits 1 2 = true ∧
    (s.instD 1).rlmPage 0 = some 0x1000000 := by decide +kernel
/-- Any digest may stand in the record: the page's own, and one that it does not have. -/
theorem wit_Migration_digest (digest bs : List Byte) :
    (({ migState .disabled 2 0 digest with jobs := [] } : State).instD 1).migNext 2 =
      some { kind := 2, page := 0, host := 0x100000, bytes := 0x80000000, digest := digest } ∧ sha256 bs ≠ 0 :: sha256 bs :=
  ⟨rfl, fun h => absurd (congrArg List.length h) (by simp)⟩
theorem wit_Migration_image : let s := migState .frozen 3 0 []
    ((s.instD 1).migNext 3).isSome = true ∧ s.migAdmits 1 3 = true ∧
    ((s.instD 1).validPt.any fun e => pteRlm e.2 && !(s.instD 1).copied.any (·.1 == e.1)) = true ∧
    (((s.modInst 1 fun i => { i with copied := [(0, [])] }).instD 1).validPt.any fun e => pteRlm e.2 && !([0].contains e.1)) = false ∧
    ((s.modInst 1 fun i => { i with image := some (zeros 64) }).takeImage 1).2.length ≤ 64 := by decide +kernel
theorem wit_Migration_imageIn : let s := { migState .disabled 4 0 [] with jobs := [] }
    ((s.instD 1).migNext 4).isSome = true ∧ s.migAdmits 1 4 = true := by decide +kernel
theorem wit_Migration_done : let s := (migState .disabled 1 0 []).modInst 1 fun i => { i with mig := { i.mig with next := 1 } }
    (s.instD 1).mig.busy = true ∧ (s.instD 1).mig.recs.length ≤ (s.instD 1).mig.next := by decide +kernel
theorem wit_Migration_restore : let s := migState .disabled 1 0 []
    (s.instD 1).restore = some { image := zeros 64, accepted := false } ∧ s.powered = true ∧ s.propolis.cmpFlip = 0 ∧
    (zeros 64).drop 32 ≠ sha256 ((zeros 64).take 32) := by decide +kernel

theorem wit_Errors : readyState.powered = true ∧ readyState.dieHolds 7 = true ∧ 7 ∈ readyState.soundDies ∧ readyState.soundDies ≠ [7] := by decide +kernel
/-- Two errors within the hour, the earlier of them 1 ns short of it. -/
theorem wit_Errors_third : let s : State := { readyState with power := { readyState.power with uptimeNs := 3600000000000, devErrors := [1, 2] } }
    s.power.devState ≠ .failed ∧ 2 ≤ (s.power.devErrors.filter fun t => decide (s.power.uptimeNs < t + 3600000000000)).length ∧
    (({ s with power := { s.power with devErrors := [0, 2] } } : State).power.devErrors.filter fun t =>
      decide (s.power.uptimeNs < t + 3600000000000)).length < 2 := by decide +kernel
theorem wit_Errors_lastDie : let s : State := { readyState with dies := readyState.dies.mapIdx fun k d => if k = 3 then d else { d with active := false } }
    s.soundDies = [3] ∧ 4 ∉ s.soundDies := by decide +kernel
theorem wit_Errors_fence : let s := readyState.modDie 2 fun d => { d with fence := .running [1, 5] }
    (s.dieD 2).fence = .running [1, 5] := by decide +kernel
theorem wit_Errors_forager : readyState.dieRuns 7 = true ∧ (readyState.fgr? { die := 7, fgr := 67 }).isSome = true := by decide +kernel
theorem wit_Errors_links : (readyState.dieD 7).present = true ∧ (readyState.dieD 7).crestDown = false ∧ (readyState.dieD 7).ringDown = false ∧
    (saddleState [] .idle).powered = true ∧ (saddleState [] .idle).saddle.state = 2 := by decide +kernel
theorem wit_Errors_saddle : let s := fun (t d n : Bool) => ({ readyState with saddle := { readyState.saddle with training := t, disabling := d, disableNext := n } } : State)
    (s true false false).saddle.training = true ∧ (s false true false).saddle.disabling = true ∧ (s false true false).saddle.disableNext = false ∧
    (s false true false).saddle.inflight = [] := by decide +kernel
theorem wit_Errors_ring : let s := (jobState (pregs 0 0)).modDie 5 fun d => { d with ringDown := true }
    s.job? 7 = some tJob ∧ (∃ d ∈ s.dies, d.ringDown = true) ∧ tJob.state = .running ∧ 0 ∈ tJob.dieSet ∧
    (∃ m ∈ (s.dieD 0).morsels, m.jid = 7 ∧ m.stage < 0xFFFF) := by decide +kernel

/-- A sealed packet from device 2047 to device 1, and the device in exchange. -/
def tPkt (payload : List Byte) (control : Bool) : RtPkt := rtSealed {
  macOk := true, version := 1, flags := 0, plane := 0, srcDev := 2047, dstDev := 1, frame := 5, job := 9, dstInst := 1, srcInst := 1, dstGen := 0, flow := 0,
  seq := 3, morsel := 0, offset := 0, bytes := 0, crc := 0, payload := payload } control
/-- 3 packets granted of frame 5 of device 2047, of which packet 1 has come. -/
def fabricState (rx : List RxFrame) : State := { readyState with
  frame := { readyState.frame with number := 5, sync := .locked }
  fabric := { readyState.fabric with portModeActive := 1, deviceIdActive := some 1, exchange := true, rx := rx, ports := readyState.fabric.ports.map fun y => { y with state := .up } } }
def tRx (seqs : List Nat) (granted : Nat) : RxFrame := { dev := 2047, frame := 5, granted := granted, parts := 1, echo := [], seqs := seqs }
theorem wit_FabricPackets : let s := fabricState [tRx [1] 4]
    let p := tPkt [1, 2, 3] false
    s.receives 15 = true ∧ p.macOk = true ∧ p.flags &&& 0xFE = 0 ∧ p.srcDev.toNat < 2048 ∧ rtCrc p false = p.crc ∧ s.fabric.deviceIdActive = some p.dstDev.toNat ∧
    (s.rtDropped 15 false p).isNone = true ∧ (s.instD p.dstInst.toNat).gen = p.dstGen ∧ p.seq.toNat = 3 ∧
    s.fabric.rx.find? (fun x => x.dev == 2047 && x.frame == 5) = some (tRx [1] 4) ∧ (fabricState []).fabric.rx.find? (fun x => x.dev == 2047 && x.frame == 5) = none ∧
    (tRx [3] 4).seqs.contains 3 = true ∧ (tRx [] 3).granted ≤ 3 := by decide +kernel
theorem wit_FabricPackets_dropped : let s := fabricState []
    let p := tPkt [1, 2, 3] false
    (s.rtDropped 15 false { p with crc := p.crc + 1 }).isSome = true ∧ (s.rtDropped 15 false { p with macOk := false }).isSome = true ∧
    (s.rtDropped 15 false { p with flags := 2 }).isSome = true ∧ (s.rtDropped 15 false (rtSealed { p with srcDev := 1 } false)).isSome = true ∧
    (({ s with fabric := { s.fabric with exchange := false } } : State).rtDropped 15 false p).isSome = true := by decide +kernel
/-- A control packet of 16 µs frames and the port mode in force, and the same of another period and of another mode. -/
theorem wit_FabricPackets_control : let s := fabricState []
    let c := fun (a b : Nat) => tPkt ([BitVec.ofNat 8 a, BitVec.ofNat 8 b] ++ zeros 14) true
    (s.rtDropped 15 true (c s.frame.periodActive s.fabric.portModeActive)).isNone = true ∧
    (s.rtDropped 15 true (c (s.frame.periodActive + 1) s.fabric.portModeActive)).isSome = true ∧
    (s.rtDropped 15 true (c s.frame.periodActive (s.fabric.portModeActive + 1))).isSome = true := by decide +kernel

/-- A participant beside the device, and the distributed job. -/
def tDist (st : PartSt) (missing : Nat) (gs : List Grant) : Dist := { Dist.alone 1 with
  djid := 9
  devs := [1, 2047]
  state := st
  peers := [{ Peer.fresh 2047 with state := .running, missing := missing }]
  grantsOut := gs }
def distState (D : Dist) : State := { fabricState [{ tRx [0, 2] 3 with frame := 1 }] with
  jobs := [{ tJob with dist := some D }]
  frame := { (fabricState []).frame with number := 9 } }
theorem wit_FabricPackets_loss : let g : Grant := { dev := 2047, stage := 0, frame := 1, quanta := 3, got := 2 }
    let D := tDist .running 0 [g]
    let s := distState D
    s.distJobs.find? (fun x => x.1.jid == 7) = some ({ tJob with dist := some D }, D) ∧ ({ tJob with dist := some D } : Job).alive = true ∧
    s.fabric.exchange = true ∧ s.lostGrant D = some g := by decide +kernel
theorem wit_FabricPackets_join : let D := tDist .joining 0 []
    let s : State := { distState D with power := { readyState.power with uptimeNs := (distState D).fabric.joinTimeout * 1000000 } }
    s.distJobs.find? (fun x => x.1.jid == 7) = some ({ tJob with dist := some D }, D) ∧ D.state = .joining ∧
    D.admittedNs + s.fabric.joinTimeout * 1000000 ≤ s.power.uptimeNs := by decide +kernel
theorem wit_FabricPackets_missing : let D := tDist .running 8 []
    (distState D).distJobs.find? (fun x => x.2.djid == D.djid) = some ({ tJob with dist := some D }, D) ∧ D.state ≠ .joining ∧
    ∃ p ∈ D.peers, p.dev = 2047 ∧ p.state ≠ .failed ∧ 8 ≤ p.missing := by decide +kernel
theorem wit_FabricPackets_ports : (fabricState []).powered = true ∧ 15 < (fabricState []).fabric.portCount ∧ ((fabricState []).fabric.port 15).linked = true ∧
    (readyState.fabric.port 0).state ≠ .up := by decide +kernel
theorem wit_FabricPackets_icmp : let s : State := { readyState with keeper := { readyState.keeper with rwp := { readyState.keeper.rwp with oobAddr := 1 :: zeros 15 } } }
    s.answersFor none (1#128 <<< 120) = true ∧ readyState.answersFor (some 15) 1 = false := by
  refine ⟨?_, by decide +kernel⟩
  have h : ∀ a : BitVec 128, a == (1#128 <<< 120) → (decide (a = 1#128 <<< 120)) = true := by intro a ha; simpa using ha
  simp [State.answersFor]
  exact ⟨by decide +kernel, .inr (by decide +kernel)⟩

-- WITNESSES: POWER AND KEEPER ---------------------------------------------------------------------------------------------------------------------------------

def offState : State := { readyState with power := { readyState.power with mainPower := false } }
def bootState (k : Nat) : State := { readyState with power := { readyState.power with devState := .booting, step := k } }
theorem wit_PowerAndBringup : readyState.power.perst = false ∧ readyState.power.mainPower = true ∧ offState.power.mainPower = false ∧
    ({ readyState with power := { readyState.power with perst := true } } : State).power.perst = true := by decide +kernel
theorem wit_PowerAndBringup_steps (k : Nat) : (bootState k).powered = true ∧ (bootState k).power.devState = .booting ∧ (bootState k).power.step = k ∧
    (bootState k).power.linkUp = true := ⟨rfl, rfl, rfl, rfl⟩
theorem wit_PowerAndBringup_ways : let s := wayState (tWay .disabled)
    (s.dies[7]?.bind fun x => x.cc.ways[15]?) = some (tWay .disabled) := by decide +kernel
theorem wit_PowerAndBringup_cut : readyState.keeper.running = [] ∧
    ({ readyState with keeper := { readyState.keeper with waiting := [{ who := .plain .loc, index := 0x2000, sub := 1, data := [16], running := true }] } } :
      State).keeper.running ≠ [] := by decide +kernel
/-- The two copies: equal, either newer, either invalid. -/
theorem wit_PowerAndBringup_copies : let c := fun (v : Bool) (n : Nat) => ({ MramCopy.initial with valid := v, seq := BitVec.ofNat 32 n } : MramCopy)
    (c true 3).valid = true ∧ (c false 3).valid = false ∧ (c true 3).seq.toNat < (c true 4).seq.toNat := by decide +kernel
theorem wit_PowerAndBringup_thermal : readyState.powered = true ∧ (5 : Nat) < 6 ∧ 0 < readyState.insts.length ∧
    ([125, 0, 0, 0, 0, 0, 0, 0, 0].foldl max (-32768) : Int) = 125 ∧ (readyState.keeper.rwp.critC : Int) ≤ 125 := by decide +kernel
theorem wit_PowerAndBringup_clock : let s : State := { readyState with power := { readyState.power with
      uptimeNs := readyState.frame.startNs, coolFrames := 1024, fclkNow := 800 } }
    s.powered = true ∧ s.power.uptimeNs = s.frame.startNs ∧ 1024 ≤ s.power.coolFrames ∧ s.power.fclkNow < s.part.fclkMHz := by decide +kernel

theorem wit_KeeperService : let s : State := { readyState with keeper := { readyState.keeper with
      waiting := [{ who := .plain .loc, index := 0x2000, sub := 1, data := [16], running := true }] } }
    s.keeperUp = true ∧ s.keeper.restarting = false ∧ s.keeper.waiting.filter (·.running) ≠ [] ∧ s.power.recovery = false := by decide +kernel
/-- The fourth restart within the hour. -/
theorem wit_KeeperService_restart : let s : State := { readyState with
      keeper := { readyState.keeper with restarting := true, restartTimes := [1, 2, 3] }
      power := { readyState.power with uptimeNs := 3600000000000 } }
    s.keeper.restarting = true ∧ s.powered = true ∧ s.propolis.switch ≠ .newKeeper ∧
    4 ≤ ((s.keeper.restartTimes.filter fun t => decide (s.power.uptimeNs < t + 3600000000000)) ++ [s.power.uptimeNs]).length := by decide +kernel
theorem wit_KeeperService_switch : let s : State := { readyState with propolis := { readyState.propolis with switch := .newKeeper, signing := some (1, [2]) } }
    s.propolis.switch = .newKeeper ∧ s.powered = true ∧ s.propolis.signing = some (1, [2]) := by decide +kernel

-- WITNESSES: THE DICTIONARY -----------------------------------------------------------------------------------------------------------------------------------

/-- OVERRUN_LIMIT takes 1 and not 0; an object that is not there; a length; a full log under LOG_MODE 1; a value out of range. -/
theorem wit_DictionaryChecks : takes readyState .hostPf 0x2000 7 [1] = true ∧ (readyState.access .hostPf true 0x2001 0).toOption.isNone = true ∧
    ((readyState.access .hostPf true 0x2000 7).toOption.map fun p =>
      (p.2.sizeOk 3, (readyState.valueCheck p.1 7 [0]).isSome, decide (p.2.acc = .rwp))) = some (false, true, false) := by decide +kernel
theorem wit_DictionaryChecks_room : let s : State := { readyState with keeper := { readyState.keeper with log := { readyState.keeper.log with acked := 1 }, rwp := { readyState.keeper.rwp with logMode := 1 } } }
    s.logRoom .frame 7 = false := by decide +kernel
theorem wit_DictionaryChecks_access : objIndex 0x2000 = some .frame ∧ objIndex 0xFFFF = none ∧ readyState.objReady .frame 7 = true ∧
    readyState.objExists .frame 7 = true ∧ readyState.hasRight .hostPf true .frame 7 = true ∧ readyState.hasRight (.hostVf 1) true .frame 7 = false ∧
    readyState.hasRight (.oobMctp 8 1) false .frame 7 = true ∧ OIx.frame.obj 0xFF = none ∧ (OIx.frame.obj 3).map (·.acc) = some .ro ∧
    (OIx.pwr.obj 1).map (·.acc) = some .wo ∧ (State.reset.objReady (.inst 1) 2) = false := by decide +kernel

theorem wit_DictionaryChecks_stage : takes readyState .hostPf 0x8010 1 (zeros 8193) = true := by decide +kernel
theorem wit_DictionaryChecks_log : (match readyState.access .hostPf false 0xA000 5 with | .ok p => decide (p.1 = .log) | .error _ => false) = true := by
  decide +kernel

/-- The device with instance 1 DISABLED, a firmware image staged and a Saddle site; and what its objects take. -/
def rowState : State := { readyState.modInst 1 fun i => { i with
    state := .disabled, sinceReset := 16, alloc := { i.alloc with ptPages := 8 }, invalBase := 0, invalPages := 8 } with
  propolis := { readyState.propolis with fwState := 1 }, saddle := { readyState.saddle with state := 1 } }
def takesAll (s : State) (l : List (Nat × Nat × List Byte)) : Bool := l.all fun r => takes s .hostPf r.1 r.2.1 r.2.2
theorem wit_DictionaryWrites_rwp : takesAll rowState [(0x2000, 1, [8]), (0x2000, 1, [128]), (0x2000, 5, leBytes 8 7), (0x6000, 1, leBytes 2 2047), (0x6000, 3, [1]),
    (0x1010, 4, [31]), (0xA000, 1, [1]), (0x2000, 4, [1]), (0x2000, 4, [0])] = true := by decide +kernel
theorem wit_DictionaryWrites_resources : takesAll rowState ([(0x3001, 4, zeros 8), (0x3001, 10, [0]), (0x3001, 11, [0]), (0x1101, 1, leBytes 2 2),
    (0x1101, 2, leBytes 2 2), (0x1101, 3, leBytes 4 0xFFFFF), (0x5101, 1, zeros 4), (0x4101, 1, leBytes 4 16),
    (0x4101, 2, leBytes 4 7 ++ zeros 4 ++ leBytes 8 0xC000000001000000), (0x4101, 4, zeros 64), (0x4101, 5, leBytes 8 1), (0x4101, 6, leBytes 8 1)] ++
    (List.range 5).map fun k => (0x3001, 5 + k, zeros 8)) = true := by decide +kernel
theorem wit_DictionaryWrites_objects : takesAll rowState [(0x4101, 7, zeros 8), (0x4101, 8, zeros 8), (0x4101, 13, [1]), (0x3001, 20, zeros 64), (0x5010, 5, [67]),
    (0xA000, 6, zeros 4), (0xA010, 1, zeros 8), (0xA010, 5, [4]), (0x7101, 3, zeros 48), (0x7000, 2, 23 :: zeros 32), (0x7101, 2, 6 :: zeros 32),
    (0x7000, 4, zeros 4), (0x8010, 2, [1]), (0x9000, 1, [0x5A]), (0x8000, 2, zeros 32), (0x8000, 3, zeros 32), (0x8000, 6, [7])] = true := by decide +kernel
theorem wit_DictionaryWrites_fixed : takesAll rowState [(0x4101, 11, [1]), (0x4101, 11, [2]), (0x1009, 1, [2]), (0x6010, 1, [1]),
    (0x6010, 1, [2])] = true ∧
    takesAll { rowState with saddle := { rowState.saddle with state := 2 } } [(0x1009, 1, [1])] = true := by decide +kernel
theorem wit_DictionaryWrites_commands : takesAll rowState ([1, 3, 4, 5].map fun c => (0x3001, 2, [c])) = true ∧
    takesAll (rowState.modInst 1 fun i => { i with state := .frozen }) [(0x3001, 2, [6])] = true ∧
    takesAll (rowState.modInst 1 fun i => { i with state := .enabled }) [(0x3001, 2, [2])] = true := by decide +kernel

def kdwState (st : KdwState) (bs : List Byte) : State := readyState.modInst 1 fun i => { i with kdw := { i.kdw with state := st, bytes := bs, len := bs.length, index := 0x2000, sub := 7 } }
theorem wit_DictionaryWindows (st : KdwState) : (kdwState st []).fnLive 1 = true ∧ ((kdwState st []).instD 1).state ≠ .resetting ∧
    ((kdwState st []).instD 1).kdw.state = st := by
  cases st <;> decide +kernel
theorem wit_DictionaryWindows_serve : readyState.keeperUp = true ∧ readyState.keeperHolds = false ∧
    ({ readyState with keeper := { readyState.keeper with restarting := true } } : State).keeperHolds = true ∧
    (match (kdwState .idle []).readObject (.hostVf 1) 0x2000 1 with | .ok (_, m, bs) => (match m.ty with | .num .. => bs != [] | _ => false) | .error _ => false) = true ∧
    (match readyState.access .hostPf true 0x2000 7 with | .ok (_, m) => m.sizeOk 1 | .error _ => false) = true := by decide +kernel
theorem wit_DictionaryWindows_segments : let k := ((kdwState .segRead [1, 2, 3, 4, 5]).instD 1).kdw
    k.words + 8 / 4 ≤ (k.len + 3) / 4 ∧ k.words + 4 / 4 ≤ (k.len + 3) / 4 ∧ ({ k with words := 2 } : Kdw).words = (k.len + 3) / 4 ∧
    ({ k with words := 1 } : Kdw).words + 8 / 4 > (k.len + 3) / 4 := by decide +kernel
theorem wit_DictionaryWindows_sessions : let s : State := { readyState with keeper := { readyState.keeper with
      sessions := [{ who := .oobEth 0, index := 0x2000, sub := 7, isWrite := true, len := 4, bytes := [], lastOff := 0 }] } }
    0 < s.keeper.sessions.length := by decide +kernel

def kdpMsg (arg : W32) (body : List Byte) : KdpMsg := { version := 1, tag := 7, status := 0, index := 0x2000, sub := 7, rsv := 0, arg := arg, body := body }
theorem wit_KeeperProtocol : readyState.keeperUp = true ∧ readyState.power.recovery = false ∧ readyState.isPeer (.oobMctp 8 2) = true ∧
    readyState.isPeer (.oobEth 7) = false ∧ readyState.keeper.kept.find? (fun x => x.who == .oobMctp 8 2 && x.op == 1 && x.msg == kdpMsg 0 []) = none ∧
    readyState.underWay (.oobMctp 8 2) 1 (kdpMsg 0 []) = false ∧ readyState.keeperHolds = false ∧
    [1, 3, 4, 5, 6, 7].all (fun op => kdpMsgOk op (kdpMsg 0 [])) = true ∧ kdpMsgOk 2 (kdpMsg 0 [1]) = true ∧ kdpMsgOk 5 (kdpMsg 4 [1, 2, 3, 4]) = true ∧
    kdpMsgOk 1 (kdpMsg 1 []) = false := by decide +kernel
theorem wit_KeeperProtocol_objects :
    (match readyState.access (.oobMctp 8 2) true 0x2000 7 with | .ok (_, m) => m.sizeOk 1 && (match m.ty with | .num k _ => k == 1 | _ => false) | .error _ => false) = true ∧
    (match readyState.readObject (.oobMctp 8 2) 0x2000 7 with | .ok (_, m, bs) => (match m.ty with | .num .. => bs.length == 1 | _ => false) | .error _ => false) = true := by
  decide +kernel
/-- A session that writes 4 bytes, of which none has come, and one that reads 5, at their limits. -/
def sess (w : Bool) (len : Nat) (bs : List Byte) (last : Nat) : Session :=
  { who := .oobMctp 8 2, index := 0x2000, sub := 7, isWrite := w, len := len, bytes := bs, lastOff := last }
theorem wit_KeeperProtocol_sessions : (sess false 5 [1, 2, 3, 4, 5] 0).isWrite = false ∧ (4 % 4 = 0 ∧ 4 < (sess false 5 [1, 2, 3, 4, 5] 0).len) ∧
    ¬ (8 % 4 = 0 ∧ 8 < (sess false 5 [1, 2, 3, 4, 5] 0).len) ∧ (kdpMsg 0 [1, 2, 3, 4]).body.length % 4 = 0 ∧
    (kdpMsg 0 [1, 2, 3, 4]).arg.toNat = (sess true 4 [] 0).bytes.length ∧ (kdpMsg 0 [1, 2, 3, 4]).arg.toNat ≠ (sess true 8 [1, 2, 3, 4] 0).bytes.length ∧
    (kdpMsg 0 [1, 2, 3, 4]).arg.toNat = (sess true 8 [1, 2, 3, 4] 0).lastOff ∧ (kdpMsg 8 [1, 2, 3, 4]).arg.toNat ≠ (sess true 8 [1, 2, 3, 4] 0).lastOff ∧
    (sess true 4 [1, 2, 3, 4] 0).bytes.length = (sess true 4 [1, 2, 3, 4] 0).len ∧
    crc32c (sess true 4 [1, 2, 3, 4] 0).bytes = (kdpMsg (crc32c [1, 2, 3, 4]) []).arg ∧ (kdpMsg (crc32c [1, 2, 3, 4]) []).body = [] := by decide +kernel
theorem wit_MemoryStaysCanonical : State.reset.memWf ∧ step State.reset = .next State.reset := ⟨rfl, rfl⟩
theorem wit_StepRunsTheFrontCommand : step { State.reset with pending := [.linkDown] } = exec .linkDown State.reset := rfl
end Sys2Proof.Tests
end

section
/-!
PROOFS. Rounding an exact value (R220, R221): the value lies between its floor and the value above it, and each mode takes the right one of the two.
-/

namespace Sys2Proof.Machine

/-- Rounding toward zero goes up just from a negative value that is not exact. -/
theorem tdiv_of_floor {x fl : Int} {rem m : Nat} (hx : x = fl * m + rem) (hr : rem < m) :
    x.tdiv m = if rem ≠ 0 ∧ x < 0 then fl + 1 else fl := by
  have hm : (0 : Int) < m := by omega
  obtain ⟨hq, hmod⟩ : x / m = fl ∧ x % m = rem := (Int.ediv_emod_unique hm).2 ⟨by rw [hx]; ring, by omega, by omega⟩
  have hd : (m : Int) ∣ x ↔ rem = 0 := by rw [Int.dvd_iff_emod_eq_zero, hmod]; omega
  simp only [Int.tdiv_eq_ediv, hq, hd, Int.sign_eq_one_of_pos hm]
  split_ifs <;> omega

/-- The choice of `roundsUp` between the floor and the value above it is right in each mode (R221). -/
theorem rounds_of_roundsUp {rm sh rem m : Nat} {x fl : Int} (hrm : rm ≤ 5) (hm : (2 ^ sh : Int) = m) (hx : x = fl * m + rem) (hr : rem < m) :
    Rounds rm x sh (if roundsUp rm (decide (x < 0)) fl rem m then fl + 1 else fl) := by
  obtain ⟨hup, hdown, hback⟩ : (fl + 1) * (m : Int) = fl * m + m ∧ (fl - 1) * (m : Int) = fl * m - m ∧ (fl + 1 - 1) * (m : Int) = fl * m :=
    ⟨by ring, by ring, by ring⟩
  match rm, hrm with
  -- toward zero
  | 2, _ => simp [Rounds, roundsUp, hm, tdiv_of_floor hx hr]
  -- down
  | 3, _ => simp [Rounds, roundsUp, hm, hup, hx, hr]
  -- up, and the three modes that go to the nearest value and differ in a tie
  | 0, _ | 1, _ | 4, _ | 5, _ =>
    simp only [Rounds, roundsUp, hm]
    split_ifs with h <;> simp at h <;> omega

/-- What `roundShift` retains is `x / 2^sh` rounded in its mode. -/
theorem rounds_roundShift {rm : Nat} (x : Int) (sh : Nat) (hrm : rm ≤ 5) : Rounds rm x sh (roundShift rm x sh).1 := by
  have hpos : (0 : Int) < (2 ^ sh : Nat) := by positivity
  have hrem : (((x % (2 ^ sh : Nat)).toNat : Nat) : Int) = x % (2 ^ sh : Nat) := Int.toNat_of_nonneg (Int.emod_nonneg x hpos.ne')
  have hlt : x % (2 ^ sh : Nat) < (2 ^ sh : Nat) := Int.emod_lt_of_pos x hpos
  exact rounds_of_roundsUp hrm (by push_cast; rfl) (by rw [hrem, Int.ediv_mul_add_emod]) (by omega)

/-- The second result of `roundShift` tells whether a nonzero value is discarded. -/
theorem roundShift_inexact (rm : Nat) (x : Int) (sh : Nat) : (roundShift rm x sh).2 = true ↔ ¬ (2 ^ sh : Int) ∣ x := by
  have h0 : 0 ≤ x % (2 ^ sh : Int) := Int.emod_nonneg x (by positivity)
  rw [Int.dvd_iff_emod_eq_zero]
  simp [roundShift]
  omega

/-- Settles O5: between the floor of the value and the value above it each mode chooses as R221 says, and INX is a remainder other than 0. -/
theorem roundingModes : Obligations.RoundingModes :=
  fun rm x sh hrm => ⟨rounds_roundShift x sh hrm, roundShift_inexact rm x sh⟩

end Sys2Proof.Machine
end

section
/-!
PROOFS. The flag word and the fitting of the meanings in the terms of the statements (R215, R219, R220), and the rounded results.
-/

namespace Sys2Proof.Machine

-- FLAGS ------------------------------------------------------------------------------------------------------------------------------------

theorem FFlags.word_ov (x : FFlags) : x.word.getLsbD 4 = x.ov := by
  obtain ⟨ov, sat, dz, inx, inv⟩ := x
  revert ov sat dz inx inv
  decide

theorem FFlags.word_dz (x : FFlags) : x.word.getLsbD 6 = x.dz := by
  obtain ⟨ov, sat, dz, inx, inv⟩ := x
  revert ov sat dz inx inv
  decide

@[simp] theorem FFlags.word_none : ({} : FFlags).word = 0 := by decide
@[simp] theorem FFlags.word_ov_only : ({ ov := true } : FFlags).word = 0x10 := by decide
@[simp] theorem FFlags.word_sat_only : ({ sat := true } : FFlags).word = 0x20 := by decide
@[simp] theorem FFlags.word_dz_only : ({ dz := true } : FFlags).word = 0x40 := by decide

/-- INX beside the flags of the fitting (R220). -/
theorem FFlags.word_inx {x : FFlags} (b : Bool) (h : x.inx = false) : ({ x with inx := b } : FFlags).word = x.word ||| if b then 0x80 else 0 := by
  obtain ⟨ov, sat, dz, inx, inv⟩ := x
  subst h
  revert ov sat dz inv b
  decide

/-- Setting flags does what the flag word says. -/
theorem FRegs.flag_eq_flagged (r : FRegs) (x : FFlags) : r.flag x = r.flagged x.word := by
  simp only [FRegs.flag, FRegs.flagged, FFlags.word_ov, FFlags.word_dz]
  cases hc : r.arithCause x <;> cases hp : r.pend <;> simp_all [FRegs.arithCause, FRegs.ove, FRegs.dze]

theorem FRegs.flag_none (r : FRegs) : r.flag {} = r := by
  simp [FRegs.flag, FRegs.arithCause, FFlags.word]

-- FITTING ----------------------------------------------------------------------------------------------------------------------------------

theorem FRegs.saturates_eq_selectsSat (r : FRegs) (ss : BitVec 2) : r.saturates ss = r.selectsSat ss := by
  unfold FRegs.saturates FRegs.selectsSat FRegs.satd
  by_cases h : ss = 0#2 <;> simp [h]

/-- A code of `w` bits is its value modulo `2^w`. -/
theorem ofNat_ucode (w : Nat) (x : Int) : BitVec.ofNat w (ucode w x) = BitVec.ofInt w x := by
  have h : 0 ≤ x % (2 ^ w : Nat) := Int.emod_nonneg x (by positivity)
  apply BitVec.eq_of_toInt_eq
  rw [← BitVec.ofInt_natCast, ucode, Int.toNat_of_nonneg h, BitVec.toInt_ofInt, BitVec.toInt_ofInt, Int.emod_bmod]

/-- `fitS` fits as R219 says: the value, the flag word, and INX left to the rounding. -/
theorem fitS_eq_fitted (w : Nat) (sat : Bool) (x : Int) :
    (fitS w sat x).1 = (fitted w sat x).1 ∧ (fitS w sat x).2.word = (fitted w sat x).2 ∧ (fitS w sat x).2.inx = false := by
  have hcast : ((2 ^ (w - 1) : Nat) : Int) = 2 ^ (w - 1) := by push_cast; rfl
  have hpos : (0 : Int) < 2 ^ (w - 1) := by positivity
  have hrange : (-(2 ^ (w - 1) : Int) ≤ x ∧ x ≤ 2 ^ (w - 1) - 1) ↔ (-(2 ^ (w - 1) : Int) ≤ x ∧ x < 2 ^ (w - 1)) := by omega
  simp only [fitS, fitRange, fitted, hcast, hrange]
  by_cases hfit : -(2 ^ (w - 1) : Int) ≤ x ∧ x < 2 ^ (w - 1)
  · simp [hfit]
  cases sat with
  | false => simp [hfit, ofNat_ucode]
  | true =>
    have hlow : x < -(2 ^ (w - 1) : Int) ↔ x < 0 := by omega
    simp [hfit, hlow]

/-- `fitU` fits without a sign as R219 says. -/
theorem fitU_eq_fittedU (w : Nat) (sat : Bool) (n : Nat) :
    (fitU w sat n).1 = (fittedU w sat n).1 ∧ (fitU w sat n).2.word = (fittedU w sat n).2 := by
  have hpos : 0 < 2 ^ w := by positivity
  have hrange : ((0 : Int) ≤ n ∧ (n : Int) ≤ (2 ^ w : Nat) - 1) ↔ n < 2 ^ w := by omega
  have htop : BitVec.ofInt w (2 ^ w - 1) = BitVec.ofNat w (2 ^ w - 1) := by
    rw [← BitVec.ofInt_natCast, Nat.cast_sub hpos]
    push_cast
    rfl
  simp only [fitU, fitRange, fittedU, hrange]
  by_cases hfit : n < 2 ^ w
  · simp [hfit]
  cases sat with
  | false => simp [hfit, ofNat_ucode]
  | true => simp [hfit, htop, (Int.natCast_nonneg n).not_gt]

-- ROUNDED RESULTS --------------------------------------------------------------------------------------------------------------------------

theorem FRegs.rmOf_eq_selectsRm (r : FRegs) (rs : BitVec 2) : r.rmOf rs = r.selectsRm rs := by
  obtain rfl | rfl | rfl | rfl : rs = 0 ∨ rs = 1 ∨ rs = 2 ∨ rs = 3 := by revert rs; decide
  all_goals simp [FRegs.rmOf, FRegs.selectsRm, FRegs.rm, bits]

/-- No RS selects a mode that R221 does not define, unless RM itself holds one. -/
theorem FRegs.selectsRm_le (r : FRegs) (rs : BitVec 2) (h : r.fxcsr.toNat % 8 ≤ 5) : r.selectsRm rs ≤ 5 := by
  unfold FRegs.selectsRm
  split <;> omega

/-- The flags of a value that is rounded and then fitted: INX beside those of the fitting (R220). -/
theorem FRegs.flag_rounded (r : FRegs) (w : Nat) (sat : Bool) (rm : Nat) (x : Int) (sh : Nat) :
    r.flag { (fitS w sat (roundShift rm x sh).1).2 with inx := (roundShift rm x sh).2 } =
      r.flagged ((fitted w sat (roundShift rm x sh).1).2 ||| inexact x sh) := by
  obtain ⟨-, hword, hinx⟩ := fitS_eq_fitted w sat (roundShift rm x sh).1
  have hi : (if (roundShift rm x sh).2 then (0x80 : W64) else 0) = inexact x sh := by
    simp only [roundShift_inexact, Int.dvd_iff_emod_eq_zero, inexact, ite_not]
  rw [FRegs.flag_eq_flagged, FFlags.word_inx _ hinx, hword, hi]

/-- A result rounded under RS and fitted under SS into a general register. -/
theorem FRegs.putRound_eq (r : FRegs) (rd : BitVec 5) (ss rs : BitVec 2) (x : Int) (sh : Nat) :
    r.putRound rd ss rs x sh =
      let p := fitted 64 (r.selectsSat ss) (roundShift (r.selectsRm rs) x sh).1
      (r.setG rd p.1).flagged (p.2 ||| inexact x sh) := by
  simp only [FRegs.putRound, FRegs.flag_rounded, FRegs.rmOf_eq_selectsRm, FRegs.saturates_eq_selectsSat, (fitS_eq_fitted _ _ _).1]

/-- An instruction on registers whose check passes retires with the registers that it makes of them. -/
theorem runRegs_done {f : FId} {w : W32} {bad : Bool} {put : FRegs → FRegs} {s : State} {g : Fgr} {r : FRegs} (hr : s.Runs f g)
    (hb : bad = false) (hput : put g.regs = r) (hq : r.Quiet) :
    runRegs f w (chk5 bad) (fun r => .done (put r)) s = .next (s.retired f g r none) := by
  rw [runRegs, runFgr_body hr (by simp [chk5, hb])]
  simp only [hput, State.finish, retireFgr_quiet hq]

/-- Settles O6: each of the four rounds by `roundShift`, which O5 judges, then fits, with the flags of `FRegs.flag_rounded`. -/
theorem roundedResults : Obligations.RoundedResults := by
  intro f s g hr hrm
  have hround := fun (rs : BitVec 2) x sh => rounds_roundShift x sh (g.regs.selectsRm_le rs hrm)
  refine ⟨fun x hb => ⟨_, hround x.rs _ _, fun hq => ?_⟩, fun x hb => ⟨_, hround x.rs _ _, fun hq => ?_⟩,
    fun x hb => ⟨_, hround x.rs _ _, fun hq => ?_, fun hq => ?_⟩⟩
  · rw [exec_srar]
    exact runRegs_done hr hb (FRegs.putRound_eq ..) hq
  · rw [exec_mulq]
    exact runRegs_done hr hb (FRegs.putRound_eq ..) hq
  · rw [exec_accrd]
    exact runRegs_done hr hb (FRegs.putRound_eq ..) hq
  · rw [exec_accrdw]
    refine runRegs_done hr hb ?_ hq
    simp only [FRegs.flag_rounded, FRegs.rmOf_eq_selectsRm, FRegs.saturates_eq_selectsSat, (fitS_eq_fitted _ _ _).1]

end Sys2Proof.Machine
end

section
/-!
PROOFS. The divides (R228): their results, and the cycles of the divider (R229, R230).
-/

namespace Sys2Proof.Machine

-- CYCLES -----------------------------------------------------------------------------------------------------------------------------------

/-- The leading zeros of a number of `k` bits and its highest bit make up the `k` bits. -/
theorem leadingZeros_add_log2 {n k : Nat} (hn : n ≠ 0) (hk : n < 2 ^ k) : leadingZeros n k + n.log2 + 1 = k := by
  induction k with
  | zero => simp at hk; omega
  | succ k ih =>
    by_cases hlow : n < 2 ^ k
    · have hbit : bit n k = false := by simp [bit, Nat.div_eq_of_lt hlow]
      have := ih hlow
      simp only [leadingZeros, hbit, Bool.false_eq_true, if_false]
      omega
    · have hlog : n.log2 = k := (Nat.log2_eq_iff hn).2 ⟨by omega, hk⟩
      have hdiv : n / 2 ^ k = 1 := Nat.div_eq_of_lt_le (by omega) (by omega)
      simp [leadingZeros, bit, hdiv, hlog]

/-- The divider counts the leading zeros of both magnitudes, as R229 does. -/
theorem divCycles_eq_divideCycles {w n : Nat} (ctm : Bool) (d : Nat) (hn : n < 2 ^ w) : divCycles ctm w n d = divideCycles ctm w n d := by
  unfold divCycles divideCycles
  split_ifs with hc hw h
  · rfl
  · rfl
  · rfl
  · obtain ⟨hd0, hdn⟩ : d ≠ 0 ∧ d ≤ n := by omega
    have hn0 : n ≠ 0 := by omega
    have hlzn := leadingZeros_add_log2 hn0 hn
    have hlzd := leadingZeros_add_log2 hd0 (hdn.trans_lt hn)
    have hlog : d.log2 ≤ n.log2 := (Nat.le_log2 hn0).2 ((Nat.log2_self_le hd0).trans hdn)
    omega

theorem natAbs_toInt_lt {w : Nat} (v : BitVec w) : v.toInt.natAbs < 2 ^ w := by
  have hlo := v.le_two_mul_toInt
  have hhi := v.two_mul_toInt_lt
  have hcast : ((2 ^ w : Nat) : Int) = 2 ^ w := by push_cast; rfl
  have hpos : 0 < 2 ^ w := by positivity
  omega

theorem cycS_eq (x : RegF) (r : FRegs) :
    cycS x r = divideCycles (r.coreCtl.getLsbD 0) 64 (r.rg x.ra).toInt.natAbs (r.rg x.rb).toInt.natAbs :=
  divCycles_eq_divideCycles _ _ (natAbs_toInt_lt _)

theorem cycU_eq (x : RegF) (r : FRegs) : cycU x r = divideCycles (r.coreCtl.getLsbD 0) 64 (r.rg x.ra).toNat (r.rg x.rb).toNat :=
  divCycles_eq_divideCycles _ _ (r.rg x.ra).isLt

-- RESULTS ----------------------------------------------------------------------------------------------------------------------------------

theorem toInt_eq_zero_iff {w : Nat} {v : BitVec w} : v.toInt = 0 ↔ v = 0 := by
  rw [← BitVec.toInt_inj, BitVec.ofNat_eq_ofNat, BitVec.toInt_zero]

theorem toNat_eq_zero_iff {w : Nat} {v : BitVec w} : v.toNat = 0 ↔ v = 0 := by
  rw [← BitVec.toNat_inj, BitVec.ofNat_eq_ofNat, BitVec.toNat_zero]

theorem divSigned_of_zero {a b : Int} (h : b = 0) :
    divSigned a b = { quo := if 0 ≤ a then (2 ^ 63 : Nat) - 1 else -(2 ^ 63 : Nat), rem := a, dz := true } := if_pos h

theorem divSigned_of_ne_zero {a b : Int} (h : b ≠ 0) : divSigned a b = { quo := a.tdiv b, rem := a.tmod b, dz := false } := if_neg h

theorem divUnsigned_of_zero {a b : Nat} (h : b = 0) : divUnsigned a b = { quo := (2 ^ 64 : Nat) - 1, rem := a, dz := true } := if_pos h

theorem divUnsigned_of_ne_zero {a b : Nat} (h : b ≠ 0) : divUnsigned a b = { quo := (a / b : Nat), rem := (a % b : Nat), dz := false } := if_neg h

/-- The quotient by zero is the edge of the range on the side of the dividend, which SS leaves as it is (R228). -/
theorem fitS_edge (sat : Bool) (a : Int) : (fitS 64 sat (if 0 ≤ a then (2 ^ 63 : Nat) - 1 else -(2 ^ 63 : Nat))).1 =
    if a < 0 then 0x8000000000000000 else 0x7FFFFFFFFFFFFFFF := by
  by_cases h : a < 0
  · rw [if_neg (not_le.2 h), if_pos h]
    revert sat
    decide
  · rw [if_pos (not_lt.1 h), if_neg h]
    revert sat
    decide

theorem ofInt_allOnes : BitVec.ofInt 64 ((2 ^ 64 : Nat) - 1) = BitVec.allOnes 64 := by decide

/-- The unsigned quotient by zero is all ones, which SS leaves as it is. -/
theorem fitU_allOnes (sat : Bool) : (fitU 64 sat ((2 ^ 64 : Nat) - 1)).1 = BitVec.allOnes 64 := by
  revert sat
  decide

/-- A zero divisor sets DZ alone. -/
theorem FRegs.flag_dz (r : FRegs) (quo rem : Int) (fl : FFlags) : r.flag (dzFlag { quo := quo, rem := rem, dz := true } fl) = r.flagged 0x40 := by
  rw [dzFlag, if_pos rfl, FRegs.flag_eq_flagged, FFlags.word_dz_only]

/-- Another divisor leaves the flags of the fitting. -/
theorem dzFlag_nonzero (quo rem : Int) (fl : FFlags) : dzFlag { quo := quo, rem := rem, dz := false } fl = fl := rfl

/-- The low half of a wider dividend, as the remainder of a division by zero. -/
theorem ofInt_toInt_low (v : W128) : BitVec.ofInt 64 v.toInt = v.setWidth 64 :=
  v.signExtend_eq_setWidth_of_le (by decide)

/-- A divide whose check passes holds the divider and retires with the registers that it makes of them. -/
theorem divWith_done {f : FId} {fn : BitVec 6} {ss : Bool} {x : RegF} {cyc : FRegs → Nat} {put : FRegs → FRegs} {s : State} {g : Fgr}
    {c : Nat} {r : FRegs} (hr : s.Runs f g) (hb : badReg { ss := ss } x = false) (hc : cyc g.regs = c) (hput : put g.regs = r) (hq : r.Quiet) :
    divWith f fn ss x cyc put s = .next ((s.modFgr f fun h => { h with divCycles := c }).retired f g r none) := by
  rw [divWith, runFgr_body hr (by simp [chk5, hb])]
  simp only [hput, hc, State.finish, retireFgr_quiet hq]

/-- Settles O8, divide by divide, by zero and by another divisor: the registers with their flags, and the cycles of the divider. -/
theorem divideResults : Obligations.DivideResults := by
  intro f x s g hr
  dsimp only
  refine ⟨fun hb => ⟨fun h0 hq => ?_, fun h0 hq => ?_, fun h0 hq => ?_, fun h0 hq => ?_, fun h0 hq => ?_, fun h0 hq => ?_⟩,
    fun hb => ⟨fun h0 hq => ?_, fun h0 hq => ?_, fun h0 => ⟨fun hq => ?_, fun hq => ?_⟩, fun h0 => ⟨fun hq => ?_, fun hq => ?_⟩⟩⟩
  · rw [exec_div]
    exact divWith_done hr hb (cycS_eq x g.regs)
      (by simp only [divSigned_of_zero (toInt_eq_zero_iff.2 h0), fitS_edge, FRegs.flag_dz]) hq
  · rw [exec_div]
    exact divWith_done hr hb (cycS_eq x g.regs)
      (by simp only [divSigned_of_ne_zero (mt toInt_eq_zero_iff.1 h0), dzFlag_nonzero, FRegs.flag_eq_flagged, fitS_eq_fitted,
        FRegs.saturates_eq_selectsSat]) hq
  · rw [exec_divw]
    exact divWith_done hr hb (divCycles_eq_divideCycles _ _ (natAbs_toInt_lt _))
      (by simp only [divSigned_of_zero (toInt_eq_zero_iff.2 h0), fitS_edge, FRegs.flag_dz, wideResult, ofInt_toInt_low]) hq
  · rw [exec_divw]
    exact divWith_done hr hb (divCycles_eq_divideCycles _ _ (natAbs_toInt_lt _))
      (by simp only [divSigned_of_ne_zero (mt toInt_eq_zero_iff.1 h0), dzFlag_nonzero, FRegs.flag_eq_flagged, fitS_eq_fitted,
        FRegs.saturates_eq_selectsSat, wideResult]) hq
  · rw [exec_divwu]
    exact divWith_done hr hb (divCycles_eq_divideCycles _ _ (g.regs.rw x.ra).isLt)
      (by simp only [divUnsigned_of_zero (toNat_eq_zero_iff.2 h0), fitU_allOnes, FRegs.flag_dz, wideResult, BitVec.ofInt_natCast,
        BitVec.ofNat_toNat]) hq
  · rw [exec_divwu]
    exact divWith_done hr hb (divCycles_eq_divideCycles _ _ (g.regs.rw x.ra).isLt)
      (by simp only [divUnsigned_of_ne_zero (mt toNat_eq_zero_iff.1 h0), dzFlag_nonzero, FRegs.flag_eq_flagged, fitU_eq_fittedU,
        FRegs.saturates_eq_selectsSat, wideResult, BitVec.ofInt_natCast]) hq
  · rw [exec_divu]
    exact divWith_done hr hb (cycU_eq x g.regs) (by simp only [divUnsigned_of_zero (toNat_eq_zero_iff.2 h0), ofInt_allOnes, FRegs.flag_dz]) hq
  · rw [exec_divu]
    exact divWith_done hr hb (cycU_eq x g.regs)
      (by simp only [divUnsigned_of_ne_zero (mt toNat_eq_zero_iff.1 h0), dzFlag_nonzero, FRegs.flag_none, BitVec.ofInt_natCast]) hq
  · rw [exec_rem]
    exact divWith_done hr hb (cycS_eq x g.regs)
      (by simp only [divSigned_of_zero (toInt_eq_zero_iff.2 h0), FRegs.flag_dz, BitVec.ofInt_toInt]) hq
  · rw [exec_remu]
    exact divWith_done hr hb (cycU_eq x g.regs)
      (by simp only [divUnsigned_of_zero (toNat_eq_zero_iff.2 h0), FRegs.flag_dz, BitVec.ofInt_natCast, BitVec.ofNat_toNat, BitVec.setWidth_eq]) hq
  · rw [exec_rem]
    exact divWith_done hr hb (cycS_eq x g.regs)
      (by simp only [divSigned_of_ne_zero (mt toInt_eq_zero_iff.1 h0), dzFlag_nonzero, FRegs.flag_none]) hq
  · rw [exec_remu]
    exact divWith_done hr hb (cycU_eq x g.regs)
      (by simp only [divUnsigned_of_ne_zero (mt toNat_eq_zero_iff.1 h0), dzFlag_nonzero, FRegs.flag_none, BitVec.ofInt_natCast]) hq

end Sys2Proof.Machine
end

section
/-!
PROOFS. The elements of a vector register (R253, R254): what a write of elements stores and what it leaves, and the flags of the processed elements together.
-/

namespace Sys2Proof.Machine

-- WRITING ELEMENTS -------------------------------------------------------------------------------------------------------------------------

/-- The element of the model is the number that the bits of an element spell. -/
theorem elemAt_eq_toNat (v : W1024) (w i : Nat) : elemAt v w i = (elemBits v w i).toNat := rfl

theorem getLsbD_setElem (v : W1024) (w i n k : Nat) : (setElem v w i n).getLsbD k =
    if w * i ≤ k ∧ k < w * i + w then decide (k < 1024) && n.testBit (k - w * i) else v.getLsbD k := by
  have hin : (w * i ≤ k ∧ k < w * i + w) ↔ ¬ k < w * i ∧ k - w * i < w := by omega
  simp only [setElem, BitVec.getLsbD_or, BitVec.getLsbD_and, BitVec.getLsbD_not, BitVec.getLsbD_shiftLeft, BitVec.getLsbD_ofNat,
    Nat.testBit_two_pow_sub_one, Nat.testBit_mod_two_pow, hin]
  by_cases hk : k < 1024
  · have hsub : k - w * i < 1024 := by omega
    by_cases hlo : k < w * i <;> by_cases hhi : k - w * i < w <;> simp [hk, hsub, hlo, hhi]
  · simp [hk, BitVec.getLsbD_of_ge v k (Nat.le_of_not_lt hk)]

/-- An element that lies in the register reads back what was written to it. -/
theorem elemBits_setElem_same {w i : Nat} (v : W1024) (n : Nat) (h : w * i + w ≤ 1024) : elemBits (setElem v w i n) w i = BitVec.ofNat w n := by
  refine BitVec.eq_of_getLsbD_eq fun b hb => ?_
  simp only [elemBits, BitVec.getLsbD_extractLsb', getLsbD_setElem, BitVec.getLsbD_ofNat]
  simp [hb, show w * i + b < 1024 by omega]

/-- Every other element is as before. -/
theorem elemBits_setElem_ne {i j : Nat} (v : W1024) (w n : Nat) (h : i ≠ j) : elemBits (setElem v w j n) w i = elemBits v w i := by
  refine BitVec.eq_of_getLsbD_eq fun b hb => ?_
  have hout : ¬ (w * j ≤ w * i + b ∧ w * i + b < w * j + w) := by
    have hbelow : ∀ {m n : Nat}, m < n → w * m + w ≤ w * n := fun hmn => Nat.mul_le_mul_left w hmn
    rcases Nat.lt_or_gt_of_ne h with hlt | hlt
    · have := hbelow hlt
      omega
    · have := hbelow hlt
      omega
  simp only [elemBits, BitVec.getLsbD_extractLsb', getLsbD_setElem, hout, if_false]

/-- An element that none of the writes names is as before. -/
theorem elemBits_setElems_of_notMem {l : List (Nat × Nat)} {i : Nat} (v : W1024) (w : Nat) (h : i ∉ l.map (·.1)) :
    elemBits (setElems v w l) w i = elemBits v w i := by
  induction l generalizing v with
  | nil => rfl
  | cons p l ih =>
    obtain ⟨hp, hl⟩ : i ≠ p.1 ∧ i ∉ l.map (·.1) := by simpa using h
    exact (ih (setElem v w p.1 p.2) hl).trans (elemBits_setElem_ne v w p.2 hp)

/-- Of several writes to different elements each is read back. -/
theorem elemBits_setElems_of_mem {l : List (Nat × Nat)} {w i n : Nat} (v : W1024) (hw : w * i + w ≤ 1024) (hl : (l.map (·.1)).Nodup)
    (h : (i, n) ∈ l) : elemBits (setElems v w l) w i = BitVec.ofNat w n := by
  induction l generalizing v with
  | nil => cases h
  | cons p l ih =>
    obtain ⟨hp, hl⟩ := List.nodup_cons.1 hl
    rcases List.mem_cons.1 h with rfl | h
    · exact (elemBits_setElems_of_notMem _ w hp).trans (elemBits_setElem_same v n hw)
    · exact ih (setElem v w p.1 p.2) hl h

/-- An element below VLMAX lies in the register (R251). -/
theorem elem_in_register {r : FRegs} {i : Nat} (h : i < vlMax r.vtype) : r.sew * i + r.sew ≤ 1024 :=
  calc r.sew * i + r.sew = r.sew * (i + 1) := rfl
    _ ≤ r.sew * (1024 / r.sew) := Nat.mul_le_mul_left _ h
    _ ≤ 1024 := Nat.mul_div_le 1024 r.sew

-- FLAGS ------------------------------------------------------------------------------------------------------------------------------------

@[simp] theorem FRegs.flag_v (r : FRegs) (x : FFlags) : (r.flag x).v = r.v := by
  unfold FRegs.flag
  split <;> rfl

@[simp] theorem FRegs.rv_flag (r : FRegs) (x : FFlags) (i : BitVec 5) : (r.flag x).rv i = r.rv i := by simp [FRegs.rv]

/-- Flags without OV and DZ raise no trap, so that none is delivered which was not before (R235). -/
theorem FRegs.flag_quiet {r : FRegs} {x : FFlags} (h : x.ov = false ∧ x.dz = false) (hq : r.Quiet) : (r.flag x).Quiet := by
  simpa [FRegs.flag, FRegs.arithCause, h, FRegs.Quiet, FRegs.fxprecise] using hq

theorem ite_of_eq_or {a b c : Bool} (h : c = (a || b)) (m : W64) : (if c then m else 0#64) = (if a then m else 0#64) ||| (if b then m else 0#64) := by
  subst h
  cases a <;> cases b <;> simp

theorem FFlags.word_or (a b : FFlags) : (a.or b).word = a.word ||| b.word := by
  simp only [FFlags.word, ite_of_eq_or (c := (a.or b).ov) rfl, ite_of_eq_or (c := (a.or b).sat) rfl, ite_of_eq_or (c := (a.or b).dz) rfl,
    ite_of_eq_or (c := (a.or b).inx) rfl, ite_of_eq_or (c := (a.or b).inv) rfl]
  ac_rfl

/-- Collecting flags is collecting their words. -/
theorem word_foldl_or (l : List (Nat × Nat × FFlags)) (a : FFlags) :
    (l.foldl (fun a p => a.or p.2.2) a).word = l.foldl (fun w p => w ||| p.2.2.word) a.word := by
  induction l generalizing a with
  | nil => rfl
  | cons p l ih => simp [ih, FFlags.word_or]

/-- The flags of the processed elements together, as a word. -/
theorem word_allFlags (r : FRegs) (op : Nat → Nat × FFlags) :
    (allFlags (r.active.map fun i => (i, op i))).word = r.flagsOf fun i => (op i).2.word := by
  rw [allFlags, word_foldl_or, List.foldl_map]
  rfl

/-- No OV and no DZ comes of elements that set none. -/
theorem allFlags_no_trap {l : List (Nat × Nat × FFlags)} (h : ∀ p ∈ l, p.2.2.ov = false ∧ p.2.2.dz = false) :
    (allFlags l).ov = false ∧ (allFlags l).dz = false :=
  List.foldlRecOn l _ (motive := fun (x : FFlags) => x.ov = false ∧ x.dz = false) ⟨rfl, rfl⟩ fun x hx p hp => by simp [FFlags.or, hx, h p hp]

-- THE SHARED WRITES OF THE MEANINGS --------------------------------------------------------------------------------------------------------

@[simp] theorem FRegs.rv_vdone (r : FRegs) (i : BitVec 5) : r.vdone.rv i = r.rv i := rfl

theorem FRegs.mem_active {r : FRegs} {i : Nat} : i ∈ r.active ↔ r.processes i := by
  simp [FRegs.active, FRegs.processes, and_comm]

/-- `vmap` writes its results to the processed elements, with the flags of all of them. -/
theorem FRegs.elementwise_vmap (r : FRegs) (d : BitVec 5) (op : Nat → Nat × FFlags) :
    r.Elementwise (r.vmap d op) d (fun i => BitVec.ofNat r.sew (op i).1) (r.flagsOf fun i => (op i).2.word) := by
  have hrv : (r.vmap d op).rv d = setElems (r.rv d) r.sew (r.active.map fun i => (i, (op i).1)) := by
    simp [FRegs.vmap, FRegs.rv_setV, Function.comp_def]
  have hkeys : (r.active.map fun i => (i, (op i).1)).map (·.1) = r.active := by simp [Function.comp_def]
  refine ⟨?_, fun i hi => ⟨fun hp => ?_, fun hp => ?_⟩⟩
  · rw [hrv, ← word_allFlags, ← FRegs.flag_eq_flagged]
    simp [FRegs.vmap, FRegs.vdone, Function.comp_def]
  · rw [hrv]
    exact elemBits_setElems_of_mem _ (elem_in_register hi) (hkeys.symm ▸ List.nodup_range.filter _)
      (List.mem_map_of_mem (FRegs.mem_active.2 hp))
  · rw [hrv]
    exact elemBits_setElems_of_notMem _ _ (hkeys.symm ▸ mt FRegs.mem_active.1 hp)

/-- An element-wise instruction without OV and DZ raises no trap. -/
theorem FRegs.vmap_quiet {r : FRegs} {d : BitVec 5} {op : Nat → Nat × FFlags} (h : ∀ i, (op i).2.ov = false ∧ (op i).2.dz = false)
    (hq : r.Quiet) : (r.vmap d op).Quiet :=
  FRegs.flag_quiet (r := r.setV d _) (allFlags_no_trap fun p hp => by
    obtain ⟨i, -, rfl⟩ := List.mem_map.1 hp
    exact h i) hq

/-- The elements that a list is written to, from element 0 on; the others are as before. -/
theorem FRegs.elemBits_putElems {r : FRegs} {d : BitVec 5} {i : Nat} (l : List Nat) (h : i < vlMax r.vtype) :
    elemBits ((r.putElems d l).rv d) r.sew i = if i < l.length then BitVec.ofNat r.sew (l.getD i 0) else elemBits (r.rv d) r.sew i := by
  have hkeys : (l.zipIdx.map fun p => (p.2, p.1)).map (·.1) = List.range l.length := by
    simp [Function.comp_def, List.range_eq_range']
  simp only [FRegs.putElems, FRegs.rv_setV, if_true]
  split_ifs with hi
  · refine elemBits_setElems_of_mem _ (elem_in_register h) (hkeys ▸ List.nodup_range) (List.mem_map.2 ⟨(l[i], i), ?_, by simp [hi]⟩)
    simp [List.mk_mem_zipIdx_iff_getElem?, hi]
  · exact elemBits_setElems_of_notMem _ _ (by rw [hkeys]; simpa using hi)

/-- `runRegs_done` for a check that looks at the registers too. -/
theorem runRegs_done_of_check {f : FId} {w : W32} {chk : FRegs → Option Nat} {put : FRegs → FRegs} {s : State} {g : Fgr} (hr : s.Runs f g)
    (hc : chk g.regs = none) (hq : (put g.regs).Quiet) :
    runRegs f w chk (fun r => .done (put r)) s = .next (s.retired f g (put g.regs) none) := by
  rw [runRegs, runFgr_body hr hc]
  simp only [State.finish, retireFgr_quiet hq]

end Sys2Proof.Machine
end

section
/-!
PROOFS. The binned lanes (R118, R258): class, value, code and flags of a lane, in the scalar and in the vector forms.
-/

namespace Sys2Proof.Machine

-- THE FIELDS OF A LANE ---------------------------------------------------------------------------------------------------------------------

/-- A field of bits `lo` to `hi` as a number is that field as a bit vector. -/
theorem bits_eq_extractLsb' {n : Nat} (l : BitVec n) (hi lo : Nat) : bits l.toNat hi lo = (l.extractLsb' lo (hi + 1 - lo)).toNat := by
  rw [BitVec.extractLsb'_toNat, Nat.shiftRight_eq_div_pow, bits]

theorem laneClass_eq (l : W128) : laneClass l = (l.extractLsb' 126 2).toNat := bits_eq_extractLsb' l 127 126

theorem laneBin_eq (l : W128) : laneBin l = (l.extractLsb' 120 6).toNat := bits_eq_extractLsb' l 125 120

theorem laneClass_eq_zero {l : W128} : laneClass l = 0 ↔ l.extractLsb' 126 2 = 0 := by rw [laneClass_eq, toNat_eq_zero_iff]

theorem laneValue_eq (l : W128) :
    laneValue l = if l.extractLsb' 126 2 = 0 ∧ l.getLsbD 119 = false then (l.extractLsb' 0 119).signExtend 128 else 0 := by
  simp only [laneValue, laneNz, laneClass_eq_zero, Bool.not_eq_true']

/-- The value of a lane in an element of the one width that the vector forms accept. -/
theorem ofNat_laneValue {w : Nat} (hw : w = 128) (l : W128) : BitVec.ofNat w (laneValue l).toNat =
    if l.extractLsb' 126 2 = 0 ∧ l.getLsbD 119 = false then (l.extractLsb' 0 119).signExtend w else 0 := by
  subst hw
  rw [BitVec.ofNat_toNat, BitVec.setWidth_eq, laneValue_eq]

/-- The code of a lane, at every width. -/
theorem ofNat_laneCode (w : Nat) (l : W128) : BitVec.ofNat w (laneCode l) =
    if l.extractLsb' 126 2 = 0 then (if l.getLsbD 119 then 64 else (l.extractLsb' 120 6).setWidth w)
    else 64 + (l.extractLsb' 126 2).setWidth w := by
  have hnz : l.getLsbD 119 = laneNz l := rfl
  simp only [laneCode, laneClass_eq_zero, hnz]
  split_ifs
  · rfl
  · rw [laneBin_eq, BitVec.ofNat_toNat]
  · rw [laneClass_eq, BitVec.ofNat_add, BitVec.ofNat_toNat]
    rfl

/-- INV comes of a NaN and of an infinity. -/
theorem word_laneFlags (l : W128) : (laneFlags l).word = if l.extractLsb' 126 2 = 0 then 0 else 0x100 := by
  by_cases h : laneClass l = 0
  · rw [if_pos (laneClass_eq_zero.1 h), laneFlags, h]
    rfl
  · rw [if_neg (mt laneClass_eq_zero.2 h), laneFlags, bne_iff_ne.2 h]
    rfl

/-- A lane raises no arithmetic trap. -/
theorem laneFlags_no_trap (l : W128) : (laneFlags l).ov = false ∧ (laneFlags l).dz = false := ⟨rfl, rfl⟩

-- THE VECTOR FORMS -------------------------------------------------------------------------------------------------------------------------

/-- At SEW 128 each processed element takes what `value` makes of its lane, with INV of the lanes together. -/
theorem vbinWith_done {f : FId} {fn : BitVec 6} {x : RegF} {value : W128 → Nat} {s : State} {g : Fgr} {e : W128 → BitVec g.regs.sew}
    (hr : s.Runs f g) (hq : g.regs.Quiet) (hb : badReg { rb := false } x = false) (hsew : g.regs.sew = 128)
    (he : ∀ l, BitVec.ofNat g.regs.sew (value l) = e l) :
    ∃ r : FRegs, vbinWith f fn x value s = .next (s.retired f g r none) ∧
      g.regs.Elementwise r x.rd (fun i => e (elemBits (g.regs.rv x.ra) 128 i))
        (g.regs.flagsOf fun i => if (elemBits (g.regs.rv x.ra) 128 i).extractLsb' 126 2 = 0 then 0 else 0x100) := by
  refine ⟨_, runRegs_done_of_check hr (by simp [chk5, hb, hsew]) (FRegs.vmap_quiet (fun i => laneFlags_no_trap _) hq), ?_⟩
  simpa only [elemAt_eq_toNat, BitVec.ofNat_toNat, BitVec.setWidth_eq, word_laneFlags, he] using
    g.regs.elementwise_vmap x.rd fun i =>
      let lane := BitVec.ofNat 128 (elemAt (g.regs.rv x.ra) 128 i)
      (value lane, laneFlags lane)

/-- Any other SEW raises 0x03. -/
theorem vbinWith_wrong_sew {f : FId} {fn : BitVec 6} {x : RegF} {value : W128 → Nat} {s : State} {g : Fgr} (hr : s.Runs f g)
    (hsew : g.regs.sew ≠ 128) :
    vbinWith f fn x value s = .next (s.preciseTrap f g.regs 0x03 ((regWord 0x49 fn x).setWidth 64)) := by
  rw [vbinWith, runRegs]
  exact runFgr_refused hr (by simp [chk5, hsew])

/-- A write of a general register brings no trap. -/
theorem FRegs.setG_quiet {r : FRegs} {d : BitVec 5} {v : W64} (hq : r.Quiet) : (r.setG d v).Quiet := by
  simpa [FRegs.Quiet, FRegs.fxprecise] using hq

/-- Settles O9: a lane's value, code and flags by its class and NZ bit, in one register and in every processed element. -/
theorem binnedLanes : Obligations.BinnedLanes := by
  refine ⟨fun f x s g hr hq hb => ⟨?_, ?_⟩, fun f x s g hr hb => ⟨fun hsew hq => ⟨?_, ?_⟩, fun hsew => ⟨?_, ?_⟩⟩⟩
  · rw [exec_bina, ← laneValue_eq, ← word_laneFlags, ← FRegs.flag_eq_flagged]
    exact runRegs_done hr hb rfl (FRegs.flag_quiet (laneFlags_no_trap _) hq)
  · rw [exec_binb, ← ofNat_laneCode, ← word_laneFlags, ← FRegs.flag_eq_flagged]
    exact runRegs_done hr hb rfl (FRegs.flag_quiet (laneFlags_no_trap _) (FRegs.setG_quiet hq))
  · rw [exec_vbina]
    exact vbinWith_done hr hq hb hsew (ofNat_laneValue hsew)
  · rw [exec_vbinb]
    exact vbinWith_done hr hq hb hsew (ofNat_laneCode _)
  · rw [exec_vbina]
    exact vbinWith_wrong_sew hr hsew
  · rw [exec_vbinb]
    exact vbinWith_wrong_sew hr hsew

end Sys2Proof.Machine
end

section
/-!
PROOFS. The sorts and merges (R259): the stable insertion sort, the merge by heads, and the registers that they write.
-/

namespace Sys2Proof.Machine

-- THE STABLE SORT --------------------------------------------------------------------------------------------------------------------------

section StableSort
variable {α : Type} (key : α → Nat)

/-- Insertion adds the element and drops none. -/
theorem insertBy_perm (le : α → α → Bool) (x : α) (l : List α) : (insertBy le x l).Perm (x :: l) := by
  induction l with
  | nil => rfl
  | cons y t ih =>
    unfold insertBy
    split_ifs
    · exact (ih.cons y).trans (.swap x y t)
    · rfl

/-- Insertion keeps a list sorted by key. -/
theorem insertBy_pairwise {x : α} {l : List α} (h : l.Pairwise (key · ≤ key ·)) :
    (insertBy (fun a b => decide (key a ≤ key b)) x l).Pairwise (key · ≤ key ·) := by
  induction l with
  | nil => exact List.pairwise_singleton _ x
  | cons y t ih =>
    obtain ⟨hy, ht⟩ := List.pairwise_cons.1 h
    simp only [insertBy, decide_eq_true_eq]
    split_ifs with hle
    · refine List.pairwise_cons.2 ⟨fun z hz => ?_, ih ht⟩
      rcases List.mem_cons.1 ((insertBy_perm _ x t).mem_iff.1 hz) with rfl | hz
      · exact hle
      · exact hy z hz
    · refine List.pairwise_cons.2 ⟨fun z hz => ?_, h⟩
      rcases List.mem_cons.1 hz with rfl | hz
      · omega
      · have := hy z hz
        omega

/-- Insertion into a list sorted by key puts an element behind those of its own key, and leaves the order of every key as it is. -/
theorem filter_insertBy {x : α} {l : List α} (h : l.Pairwise (key · ≤ key ·)) (k : Nat) :
    (insertBy (fun a b => decide (key a ≤ key b)) x l).filter (key · == k) = (l ++ [x]).filter (key · == k) := by
  induction l with
  | nil => rfl
  | cons y t ih =>
    obtain ⟨hy, ht⟩ := List.pairwise_cons.1 h
    simp only [insertBy, decide_eq_true_eq]
    split_ifs with hle
    · rw [List.filter_cons, ih ht, List.cons_append, List.filter_cons]
    · by_cases hk : key x = k
      · have hnone : (y :: t).filter (key · == k) = [] := by
          refine List.filter_eq_nil_iff.2 fun z hz => ?_
          have : key y ≤ key z := (List.mem_cons.1 hz).elim (fun e => e ▸ le_rfl) (hy z)
          simp only [beq_iff_eq]
          omega
        rw [List.filter_cons, hnone, List.filter_append, hnone, List.filter_cons]
        rfl
      · simp [List.filter_cons, hk]

/-- Sorting one more element at the end of a list inserts it into the sorted list. -/
theorem sortBy_concat (le : α → α → Bool) (l : List α) (x : α) : sortBy le (l ++ [x]) = insertBy le x (sortBy le l) := by
  simp [sortBy]

theorem sortBy_perm (le : α → α → Bool) (l : List α) : (sortBy le l).Perm l := by
  induction l using List.reverseRecOn with
  | nil => rfl
  | append_singleton l x ih =>
    rw [sortBy_concat]
    exact (insertBy_perm le x _).trans ((ih.cons x).trans (List.perm_append_singleton x l).symm)

theorem sortBy_pairwise (l : List α) : (sortBy (fun a b => decide (key a ≤ key b)) l).Pairwise (key · ≤ key ·) := by
  induction l using List.reverseRecOn with
  | nil => exact List.Pairwise.nil
  | append_singleton l x ih =>
    rw [sortBy_concat]
    exact insertBy_pairwise key ih

/-- The elements of one key keep their order. -/
theorem filter_sortBy (l : List α) (k : Nat) :
    (sortBy (fun a b => decide (key a ≤ key b)) l).filter (key · == k) = l.filter (key · == k) := by
  induction l using List.reverseRecOn with
  | nil => rfl
  | append_singleton l x ih =>
    rw [sortBy_concat, filter_insertBy key (sortBy_pairwise key l), List.filter_append, ih, List.filter_append]

end StableSort

-- THE MERGE --------------------------------------------------------------------------------------------------------------------------------

/-- With enough fuel `mergeHeads` takes the smaller head each time. -/
theorem merges_mergeHeads {k : Nat} {a b : List Nat} (h : a.length + b.length ≤ k) : Merges a b (mergeHeads k a b) := by
  induction k generalizing a b with
  | zero =>
    obtain ⟨rfl, rfl⟩ : a = [] ∧ b = [] := by simpa using h
    exact .nilLeft []
  | succ k ih =>
    match a, b with
    | [], b => exact .nilLeft b
    | x :: a, [] => exact .nilRight (x :: a)
    | x :: a, y :: b =>
      simp only [List.length_cons] at h
      simp only [mergeHeads]
      split_ifs with hle
      · exact .left hle (ih (by simp only [List.length_cons]; omega))
      · exact .right (by omega) (ih (by simp only [List.length_cons]; omega))

/-- A merge drops nothing. -/
theorem Merges.length_eq {a b l : List Nat} (h : Merges a b l) : l.length = a.length + b.length := by
  induction h with
  | nilLeft | nilRight => simp
  | left | right => simp only [List.length_cons] at *; omega

-- REGISTERS --------------------------------------------------------------------------------------------------------------------------------

@[simp] theorem FRegs.length_values (r : FRegs) (i : BitVec 5) : (r.values i).length = r.vl.toNat := by simp [FRegs.values]

theorem FRegs.merges_merged (r : FRegs) (a b : BitVec 5) : Merges (r.values a) (r.values b) (r.merged a b) :=
  merges_mergeHeads (by simp; omega)

theorem FRegs.length_merged (r : FRegs) (a b : BitVec 5) : (r.merged a b).length = r.vl.toNat + r.vl.toNat := by
  simp [(r.merges_merged a b).length_eq]

/-- A list goes to V[d] alone. -/
theorem FRegs.putElems_eq_setV (r : FRegs) (d : BitVec 5) (l : List Nat) : r.putElems d l = r.setV d ((r.putElems d l).rv d) := by
  simp only [FRegs.putElems, FRegs.rv_setV, if_true]

theorem FRegs.putElems_quiet {r : FRegs} {d : BitVec 5} {l : List Nat} (hq : r.Quiet) : (r.putElems d l).Quiet := by
  simpa [FRegs.putElems, FRegs.Quiet, FRegs.fxprecise] using hq

theorem FRegs.vdone_quiet {r : FRegs} (hq : r.Quiet) : r.vdone.Quiet := hq

theorem FRegs.rv_putElems_ne {r : FRegs} {d e : BitVec 5} (l : List Nat) (h : e ≠ d) : (r.putElems d l).rv e = r.rv e := by
  simp only [FRegs.putElems, FRegs.rv_setV, if_neg h]

/-- A list of VL numbers is written to elements 0 to VL − 1. -/
theorem FRegs.listed_putElems {r : FRegs} {d : BitVec 5} {l : List Nat} (h : l.length = r.vl.toNat) :
    r.Listed (r.putElems d l).vdone d l := fun i hi => by
  rw [FRegs.rv_vdone, FRegs.elemBits_putElems l hi, h]

/-- Of a longer list the first VL numbers are written. -/
theorem FRegs.Listed.of_take {old r : FRegs} {d : BitVec 5} {l : List Nat} (h : old.Listed r d (l.take old.vl.toNat)) : old.Listed r d l :=
  fun i hi => (h i hi).trans (by split_ifs with hlt <;> simp [List.getD_eq_getElem?_getD, hlt])

/-- A vector instruction on registers whose check passes retires with VSTART 0. -/
theorem vregWith_done {f : FId} {op : BitVec 7} {fn : BitVec 6} {u : Uses} {x : RegF} {body : FRegs → FRegs} {s : State} {g : Fgr}
    (hr : s.Runs f g) (hb : badReg u x = false) (hq : (body g.regs).Quiet) :
    vregWith f op fn u x body s = .next (s.retired f g (body g.regs).vdone none) :=
  runRegs_done hr hb rfl (FRegs.vdone_quiet hq)

/-- An instruction that writes a list of VL numbers to V[RD]. -/
theorem vregWith_putElems {f : FId} {op : BitVec 7} {fn : BitVec 6} {u : Uses} {x : RegF} {list : FRegs → List Nat} {s : State} {g : Fgr}
    (hr : s.Runs f g) (hq : g.regs.Quiet) (hb : badReg u x = false) (hl : (list g.regs).length = g.regs.vl.toNat) :
    ∃ r : FRegs, vregWith f op fn u x (fun r => r.putElems x.rd (list r)) s = .next (s.retired f g r none) ∧
      r = { g.regs.setV x.rd (r.rv x.rd) with vstart := 0 } ∧ g.regs.Listed r x.rd (list g.regs) :=
  ⟨_, vregWith_done hr hb (FRegs.putElems_quiet hq), congrArg FRegs.vdone (FRegs.putElems_eq_setV ..), FRegs.listed_putElems hl⟩

/-- Writing two lists of VL numbers to two registers leaves both there. -/
theorem FRegs.putElems_putElems {r : FRegs} {d e : BitVec 5} {k l : List Nat} (hne : d ≠ e) (hk : k.length = r.vl.toNat)
    (hl : l.length = r.vl.toNat) :
    let q := ((r.putElems d k).putElems e l).vdone
    q = { (r.setV d (q.rv d)).setV e (q.rv e) with vstart := 0 } ∧ r.Listed q d k ∧ r.Listed q e l := by
  set p := r.putElems d k
  intro q
  have hd : q.rv d = p.rv d := FRegs.rv_putElems_ne l hne
  refine ⟨?_, fun i hi => ?_, fun i hi => ?_⟩
  · rw [hd, ← FRegs.putElems_eq_setV r d k]
    exact congrArg FRegs.vdone (FRegs.putElems_eq_setV p e l)
  · rw [hd]
    exact FRegs.listed_putElems hk i hi
  · rw [← FRegs.rv_putElems_ne (r := r) k hne.symm]
    exact FRegs.listed_putElems (r := p) hl i hi

/-- An odd RD of VSORTP raises 0x03. -/
theorem vsortp_odd {f : FId} {x : RegF} {s : State} {g : Fgr} (hr : s.Runs f g) (hodd : x.rd.getLsbD 0 = true) :
    exec (.vsortp f x) s = .next (s.preciseTrap f g.regs 0x03 ((regWord 0x4A 0x01 x).setWidth 64)) := by
  rw [exec_vsortp, execVsortp, runRegs]
  exact runFgr_refused hr (by simp [chk5, hodd])

/-- The pairs that VSORTP sorts: the elements of V[RA] with those of V[RB] (R259). -/
def FRegs.sortedPairs (r : FRegs) (x : RegF) : List (Nat × Nat) :=
  sortBy (fun p q => decide (p.1 ≤ q.1)) ((r.values x.ra).zip (r.values x.rb))

theorem FRegs.length_sortedPairs (r : FRegs) (x : RegF) : (r.sortedPairs x).length = r.vl.toNat := by
  simp [FRegs.sortedPairs, (sortBy_perm _ _).length_eq]

/-- The registers that VSORTP leaves: the keys of the sorted pairs in V[RD], their values in the next register. -/
def FRegs.putPairs (r : FRegs) (x : RegF) : FRegs :=
  ((r.putElems x.rd ((r.sortedPairs x).map (·.1))).putElems (x.rd + 1) ((r.sortedPairs x).map (·.2))).vdone

theorem execVsortp_eq (f : FId) (x : RegF) (s : State) : execVsortp f x s =
    runRegs f (regWord 0x4A 0x01 x) (chk5 (badReg {} x || x.rd.getLsbD 0)) (fun r => .done (r.putPairs x)) s := rfl

theorem FRegs.putPairs_quiet {r : FRegs} {x : RegF} (hq : r.Quiet) : (r.putPairs x).Quiet :=
  FRegs.vdone_quiet (FRegs.putElems_quiet (FRegs.putElems_quiet hq))

/-- An even RD of VSORTP takes the keys of the sorted pairs, and the next register their values. -/
theorem vsortp_even {f : FId} {x : RegF} {s : State} {g : Fgr} (hr : s.Runs f g) (hq : g.regs.Quiet) (hb : badReg {} x = false)
    (heven : x.rd.getLsbD 0 = false) :
    exec (.vsortp f x) s = .next (s.retired f g (g.regs.putPairs x) none) := by
  rw [exec_vsortp, execVsortp_eq]
  exact runRegs_done hr (by rw [hb, heven]; rfl) rfl (FRegs.putPairs_quiet hq)

theorem FRegs.listed_putPairs (r : FRegs) (x : RegF) :
    r.putPairs x = { (r.setV x.rd ((r.putPairs x).rv x.rd)).setV (x.rd + 1) ((r.putPairs x).rv (x.rd + 1)) with vstart := 0 } ∧
      r.Listed (r.putPairs x) x.rd ((r.sortedPairs x).map (·.1)) ∧ r.Listed (r.putPairs x) (x.rd + 1) ((r.sortedPairs x).map (·.2)) :=
  FRegs.putElems_putElems (by bv_omega) ((List.length_map _).trans (r.length_sortedPairs x)) ((List.length_map _).trans (r.length_sortedPairs x))

/-- Settles O26: VSORT and VSORTP by the stable sort, VMRGLO and VMRGHI as the two halves of one merge. -/
theorem vectorSorts : Obligations.VectorSorts := by
  intro f x s g hr hq
  refine ⟨fun hb => ?_, fun hb heven => ?_, fun _ hodd => vsortp_odd hr hodd,
    fun hb => ⟨_, g.regs.merges_merged x.ra x.rb, ?_, ?_⟩⟩
  · have hperm := sortBy_perm (· ≤ ·) (g.regs.values x.ra)
    obtain ⟨r, hexec, hframe, hlisted⟩ := vregWith_putElems (fn := 0x00) hr hq hb (list := fun r => sortBy (· ≤ ·) (r.elems x.ra))
      (hperm.length_eq.trans (g.regs.length_values x.ra))
    exact ⟨r, _, hexec, hperm, sortBy_pairwise id _, hframe, hlisted⟩
  · obtain ⟨hframe, hkeys, hvals⟩ := g.regs.listed_putPairs x
    exact ⟨_, _, vsortp_even hr hq hb heven, sortBy_perm _ _, sortBy_pairwise Prod.fst _, filter_sortBy Prod.fst _, hframe, hkeys, hvals⟩
  · obtain ⟨r, hexec, hframe, hlisted⟩ := vregWith_putElems (fn := 0x02) hr hq hb
      (list := fun r => (r.merged x.ra x.rb).take r.vl.toNat) (by simp [FRegs.length_merged])
    exact ⟨r, hexec, hframe, hlisted.of_take⟩
  · exact vregWith_putElems (fn := 0x03) hr hq hb (list := fun r => (r.merged x.ra x.rb).drop r.vl.toNat) (by simp [FRegs.length_merged])

end Sys2Proof.Machine
end

section
/-!
PROOFS. The step, the machine after a cold reset, and what a write to memory reads back.
-/

namespace Sys2Proof.Machine

/-- Settles O1: the front command is the one that `step` matches on. -/
theorem stepRunsTheFrontCommand : Obligations.StepRunsTheFrontCommand := fun _ _ _ => rfl

/-- Settles O2: an empty queue is the other branch of `step`. -/
theorem emptyQueueIdles : Obligations.EmptyQueueIdles := by
  intro s hs
  rw [step, hs]

theorem memGet_memWrite {m : List Host.Cell} (a : Nat) (bs : List Byte) (k : Nat) (hw : Memory.wf m = true) :
    memGet (memWrite m a bs) k = if a ≤ k ∧ k < a + bs.length then bs.getD (k - a) 0 else memGet m k := by
  induction bs generalizing m a with
  | nil => simp [memWrite]
  | cons b bs ih =>
    rw [memWrite, ih _ (memSet_wf a b hw), memGet_memSet a k b hw]
    rcases Nat.lt_trichotomy k a with h | rfl | h
    · rw [if_neg (by omega), if_neg (by omega), if_neg (by simp; omega)]
    · rw [if_neg (by omega), if_pos rfl, if_pos (by simp)]
      simp
    · obtain ⟨j, rfl⟩ : ∃ j, k = a + 1 + j := ⟨k - (a + 1), by omega⟩
      have hj : a + 1 + j - a = j + 1 := by omega
      have hlt : a + 1 + j < a + 1 + bs.length ↔ a + 1 + j < a + (b :: bs).length := by simp; omega
      simp only [hlt, hj, show a + 1 ≤ a + 1 + j by omega, show a ≤ a + 1 + j by omega, true_and, Nat.add_sub_cancel_left,
        List.getD_cons_succ, show ¬ a + 1 + j = a by omega, if_false]

/-- Settles O17, by induction on the bytes written. -/
theorem memoryReadsBack : Obligations.MemoryReadsBack :=
  fun _ a bs hw => ⟨memWrite_wf a bs hw, fun k => memGet_memWrite a bs k hw⟩


theorem instD_reset {n : Nat} (h : n < 256) : State.reset.instD n = Inst.reset Part.trv8hA n := by
  rw [State.instD, State.reset]
  simp [State.cold, h]

theorem fgr?_reset {f : FId} {g : Fgr} (h : State.reset.fgr? f = some g) : g = Fgr.reset := by
  simp only [State.fgr?, Option.bind_eq_some_iff] at h
  obtain ⟨d, hd, hg⟩ := h
  obtain ⟨k, -, rfl⟩ : ∃ k ∈ List.range 8, Die.reset Part.trv8hA k = d := List.mem_map.1 (List.mem_of_getElem? hd)
  exact List.eq_of_mem_replicate (List.mem_of_getElem? hg)

theorem rg_reset (i : BitVec 5) : FRegs.reset.rg i = 0 := by
  simp [FRegs.rg, FRegs.reset]

/-- Settles O60: the fields stand in `State.cold`; all instances and Foragers are as right after reset. -/
theorem resetValues : Obligations.ResetValues := by
  refine ⟨rfl, rfl, rfl, rfl, rfl, rfl, rfl, rfl, rfl, rfl, rfl, ?_, ?_, fun n _ hn => ?_, fun n hn => ?_, fun f g hg => ?_⟩
  · simp [State.reset, State.cold]
  · simp [State.reset, State.cold]
  · rw [instD_reset hn]
    rfl
  · rw [instD_reset hn]
    exact ⟨rfl, rfl, rfl, rfl, rfl⟩
  · rw [fgr?_reset hg]
    exact ⟨rfl, rfl, rfl, rfl, rg_reset⟩

end Sys2Proof.Machine
end

section
/-!
PROOFS. The scalar integer instructions (R209, R215, R219, R225, R247): the value of each row, and the flags of an exact signed value.
-/

namespace Sys2Proof.Machine

-- COUNTS OF BITS ------------------------------------------------------------------------------------------------------------------------------

theorem bit_toNat {w : Nat} (v : BitVec w) (i : Nat) : bit v.toNat i = v.getLsbD i := by
  rw [bit, BitVec.getLsbD, Nat.testBit_eq_decide_div_mod_eq]
  rfl

theorem leadingZeros_eq (n k : Nat) : leadingZeros n k = ((List.range k).takeWhile fun i => !bit n (k - 1 - i)).length := by
  induction k with
  | zero => rfl
  | succ k ih =>
    rw [leadingZeros, List.range_succ_eq_map, List.takeWhile_cons]
    cases hb : bit n k with
    | true => simp [hb]
    | false => simp [hb, ih, List.takeWhile_map, Function.comp_def, Nat.sub_sub, Nat.add_comm]

theorem trailingZeros_eq (n i k : Nat) : trailingZeros n i k = ((List.range k).takeWhile fun j => !bit n (i + j)).length := by
  induction k generalizing i with
  | zero => rfl
  | succ k ih =>
    have hrest : ∀ j, i + 1 + j = i + (j + 1) := by omega
    rw [trailingZeros, List.range_succ_eq_map, List.takeWhile_cons]
    cases hb : bit n i with
    | true => simp
    | false => simp [ih, List.takeWhile_map, Function.comp_def, hrest]

theorem popCount_eq (n k : Nat) : popCount n k = (List.range k).countP fun i => bit n i := by
  induction k with
  | zero => rfl
  | succ k ih => rw [popCount, List.range_succ, List.countP_append, List.countP_singleton, ih]

theorem leNat_lt (l : List Byte) : leNat l < 256 ^ l.length := by
  induction l with
  | nil => simp [leNat]
  | cons b l ih =>
    have := b.isLt
    rw [leNat, List.length_cons, Nat.pow_succ]
    omega

theorem toNat_append_byte {n : Nat} (a : BitVec n) (b : Byte) : (a ++ b).toNat = b.toNat + 256 * a.toNat := by
  rw [BitVec.toNat_append, ← Nat.shiftLeft_add_eq_or_of_lt b.isLt, Nat.shiftLeft_eq]
  omega

theorem byteSwap_eq (v : W64) : byteSwap v =
    (v.extractLsb' 0 8 ++ v.extractLsb' 8 8 ++ v.extractLsb' 16 8 ++ v.extractLsb' 24 8 ++
      v.extractLsb' 32 8 ++ v.extractLsb' 40 8 ++ v.extractLsb' 48 8 ++ v.extractLsb' 56 8 : BitVec 64) := by
  have hbyte : ∀ k, (v.extractLsb' k 8).toNat = v.toNat / 2 ^ k % 256 := fun k => by
    rw [BitVec.extractLsb'_toNat, Nat.shiftRight_eq_div_pow]
  have hle : ∀ l : List Byte, l.length = 8 → (BitVec.ofNat 64 (leNat l)).toNat = leNat l := fun l hl => by
    have := leNat_lt l
    rw [BitVec.toNat_ofNat, Nat.mod_eq_of_lt (by rw [hl] at this; exact this)]
  apply BitVec.eq_of_toNat_eq
  rw [byteSwap, hle _ (by simp [leBytes])]
  simp only [toNat_append_byte, hbyte, leBytes, leNat, List.reverse_cons, List.reverse_nil, List.nil_append, List.cons_append,
    BitVec.toNat_ofNat, Nat.div_div_eq_div_mul]
  simp

-- RESULTS -------------------------------------------------------------------------------------------------------------------------------------

section
variable {f : FId} {s : State} {g : Fgr}

theorem alu2_done {fn : BitVec 6} {x : RegF} {op : W64 → W64 → W64} {v : W64} (hr : s.Runs f g) (hq : g.regs.Quiet) (hb : badReg {} x = false)
    (hv : op (g.regs.rg x.ra) (g.regs.rg x.rb) = v) : alu2 f fn x op s = .next (s.retired f g (g.regs.setG x.rd v) none) :=
  runRegs_done hr hb (by rw [hv]) (FRegs.setG_quiet hq)

theorem alu1_done {fn : BitVec 6} {x : RegF} {op : W64 → W64} {v : W64} (hr : s.Runs f g) (hq : g.regs.Quiet)
    (hb : badReg { rb := false } x = false) (hv : op (g.regs.rg x.ra) = v) :
    alu1 f fn x op s = .next (s.retired f g (g.regs.setG x.rd v) none) :=
  runRegs_done hr hb (by rw [hv]) (FRegs.setG_quiet hq)

theorem aluImm_done {fn : BitVec 3} {x : ImmF} {op : W64 → W64 → W64} {v : W64} (hr : s.Runs f g) (hq : g.regs.Quiet)
    (hv : op (g.regs.rg x.ra) (x.imm.signExtend 64) = v) : aluImm f fn x op s = .next (s.retired f g (g.regs.setG x.rd v) none) :=
  runRegs_done hr rfl (by rw [hv]) (FRegs.setG_quiet hq)

/-- A count below 64 leaves nothing in IMM12[11:6] (R277). -/
theorem shiftImm_done {fn : BitVec 3} {x : ImmF} {op : W64 → Nat → W64} (hr : s.Runs f g) (hq : g.regs.Quiet) (hk : x.imm.toNat < 64) :
    shiftImm f fn x op s = .next (s.retired f g (g.regs.setG x.rd (op (g.regs.rg x.ra) x.imm.toNat)) none) := by
  have hhigh : x.imm.extractLsb' 6 6 = 0 := by
    apply BitVec.eq_of_toNat_eq
    simp [BitVec.extractLsb'_toNat, Nat.shiftRight_eq_div_pow, Nat.div_eq_of_lt hk]
  have hlow : (x.imm.extractLsb' 0 6).toNat = x.imm.toNat := by
    simp [BitVec.extractLsb'_toNat, Nat.mod_eq_of_lt hk]
  exact runRegs_done hr (by rw [hhigh]; rfl) (by rw [hlow]) (FRegs.setG_quiet hq)

theorem mulWith_done {fn : BitVec 6} {x : RegF} {put : FRegs → W64 → W64 → FRegs} {r : FRegs} (hr : s.Runs f g) (hb : badReg {} x = false)
    (hput : put g.regs (g.regs.rg x.ra) (g.regs.rg x.rb) = r) (hq : r.Quiet) : mulWith f fn x put s = .next (s.retired f g r none) :=
  runRegs_done hr hb hput hq

/-- An instruction on registers whose check passes retires with what it makes of them, whatever trap then pends. -/
theorem runRegs_retires {w : W32} {bad : Bool} {put : FRegs → FRegs} {r : FRegs} (hr : s.Runs f g) (hb : bad = false) (hput : put g.regs = r) :
    runRegs f w (chk5 bad) (fun r => .done (put r)) s = .next (s.retireFgr f g.regs r none false) := by
  rw [runRegs, runFgr_body hr (by simp [chk5, hb])]
  simp only [hput, State.finish]

/-- The registers after an exact signed value has been written under SS. -/
def FRegs.signedTo (r : FRegs) (rd : BitVec 5) (ss : BitVec 2) (v : Int) : FRegs :=
  (r.setG rd (fitted 64 (r.selectsSat ss) v).1).flagged (fitted 64 (r.selectsSat ss) v).2

theorem FRegs.putS_eq (r : FRegs) (rd : BitVec 5) (ss : BitVec 2) (v : Int) : r.putS rd ss v = r.signedTo rd ss v := by
  simp only [FRegs.putS, FRegs.signedTo, FRegs.saturates_eq_selectsSat, FRegs.flag_eq_flagged, fitS_eq_fitted]

theorem aluS2_retires {fn : BitVec 6} {x : RegF} {op : Int → Int → Int} (hr : s.Runs f g) (hb : badReg { ss := true } x = false) :
    aluS2 f fn x op s =
      .next (s.retireFgr f g.regs (g.regs.signedTo x.rd x.ss (op (g.regs.rg x.ra).toInt (g.regs.rg x.rb).toInt)) none false) :=
  runRegs_retires hr hb (FRegs.putS_eq ..)

theorem aluS1_retires {fn : BitVec 6} {x : RegF} {op : Int → Int} (hr : s.Runs f g) (hb : badReg { ss := true, rb := false } x = false) :
    aluS1 f fn x op s = .next (s.retireFgr f g.regs (g.regs.signedTo x.rd x.ss (op (g.regs.rg x.ra).toInt)) none false) :=
  runRegs_retires hr hb (FRegs.putS_eq ..)

end

theorem shiftCount_eq (v : W64) : shiftCount v = (v.extractLsb' 0 6).toNat := by
  simp [shiftCount, BitVec.extractLsb'_toNat]

theorem flagWord_eq {b : Bool} {p : Prop} [Decidable p] (h : b = true ↔ p) : flagWord b = if p then 1 else 0 := by
  simp only [flagWord, h]

theorem extract_high_ofInt (e : Int) : BitVec.ofInt 64 (e / (2 ^ 64 : Nat)) = (BitVec.ofInt 128 e).extractLsb' 64 64 := by
  apply BitVec.eq_of_toNat_eq
  rw [BitVec.extractLsb'_toNat, BitVec.toNat_ofInt, BitVec.toNat_ofInt, Nat.shiftRight_eq_div_pow]
  omega


theorem ofInt_mul_toInt {w n : Nat} (a b : BitVec w) : BitVec.ofInt n (a.toInt * b.toInt) = a.signExtend n * b.signExtend n :=
  BitVec.ofInt_mul _ _

theorem ofNat_mul_toNat {w n : Nat} (a b : BitVec w) : BitVec.ofNat n (a.toNat * b.toNat) = a.setWidth n * b.setWidth n := by
  rw [BitVec.ofNat_mul, BitVec.ofNat_toNat, BitVec.ofNat_toNat]

/-- The upper half of an unsigned product. -/
theorem mulhu_eq (a b : W64) : BitVec.ofNat 64 (a.toNat * b.toNat / 2 ^ 64) = (a.setWidth 128 * b.setWidth 128).extractLsb' 64 64 := by
  have h := extract_high_ofInt ((a.toNat * b.toNat : Nat) : Int)
  rwa [← Int.natCast_ediv, BitVec.ofInt_natCast, BitVec.ofInt_natCast, ofNat_mul_toNat] at h

theorem twoSource_result : ∀ row ∈ twoSourceRows, ∀ (f : FId) (x : RegF) (s : State) (g : Fgr), s.Runs f g → g.regs.Quiet → badReg {} x = false →
    exec (row.1 f x) s = .next (s.retired f g (g.regs.setG x.rd (row.2 (g.regs.rg x.ra) (g.regs.rg x.rb))) none) := by
  intro row hrow f x s g hr hq hb
  simp only [twoSourceRows, List.mem_cons, List.not_mem_nil, or_false] at hrow
  rcases hrow with rfl | rfl | rfl | rfl | rfl | rfl | rfl | rfl | rfl | rfl | rfl | rfl | rfl | rfl | rfl | rfl | rfl
  · exact (exec_and ..).trans (alu2_done hr hq hb rfl)
  · exact (exec_or ..).trans (alu2_done hr hq hb rfl)
  · exact (exec_xor ..).trans (alu2_done hr hq hb rfl)
  · exact (exec_andn ..).trans (alu2_done hr hq hb rfl)
  · exact (exec_sll ..).trans (alu2_done hr hq hb (by rw [shiftCount_eq]))
  · exact (exec_srl ..).trans (alu2_done hr hq hb (by rw [shiftCount_eq]))
  · exact (exec_sra ..).trans (alu2_done hr hq hb (by rw [shiftCount_eq]))
  · exact (exec_ror ..).trans (alu2_done hr hq hb (by rw [shiftCount_eq]))
  · exact (exec_min ..).trans (alu2_done hr hq hb (by simp only [BitVec.sle_iff_toInt_le]))
  · exact (exec_max ..).trans (alu2_done hr hq hb (by simp only [BitVec.sle_iff_toInt_le]))
  · exact (exec_minu ..).trans (alu2_done hr hq hb (by simp only [BitVec.ule_iff_toNat_le]))
  · exact (exec_maxu ..).trans (alu2_done hr hq hb (by simp only [BitVec.ule_iff_toNat_le]))
  · exact (exec_seq ..).trans (alu2_done hr hq hb (flagWord_eq (by simp)))
  · exact (exec_slt ..).trans (alu2_done hr hq hb (flagWord_eq BitVec.slt_iff_toInt_lt))
  · exact (exec_sltu ..).trans (alu2_done hr hq hb (flagWord_eq BitVec.ult_iff_toNat_lt))
  · exact (exec_mulh ..).trans (mulWith_done hr hb (by rw [extract_high_ofInt, ofInt_mul_toInt]) (FRegs.setG_quiet hq))
  · exact (exec_mulhu ..).trans (mulWith_done hr hb (by rw [mulhu_eq]) (FRegs.setG_quiet hq))

theorem oneSource_result : ∀ row ∈ oneSourceRows, ∀ (f : FId) (x : RegF) (s : State) (g : Fgr), s.Runs f g → g.regs.Quiet →
    badReg { rb := false } x = false → exec (row.1 f x) s = .next (s.retired f g (g.regs.setG x.rd (row.2 (g.regs.rg x.ra))) none) := by
  intro row hrow f x s g hr hq hb
  simp only [oneSourceRows, List.mem_cons, List.not_mem_nil, or_false] at hrow
  rcases hrow with rfl | rfl | rfl | rfl
  · exact (exec_clz ..).trans (alu1_done hr hq hb (by simp only [leadingZeros_eq, bit_toNat]))
  · exact (exec_ctz ..).trans (alu1_done hr hq hb (by simp only [trailingZeros_eq, bit_toNat, Nat.zero_add]))
  · exact (exec_popc ..).trans (alu1_done hr hq hb (by simp only [popCount_eq, bit_toNat]))
  · exact (exec_bswap ..).trans (alu1_done hr hq hb (byteSwap_eq _))

theorem immediate_result : ∀ row ∈ immediateRows, ∀ (f : FId) (x : ImmF) (s : State) (g : Fgr), s.Runs f g → g.regs.Quiet →
    exec (row.1 f x) s = .next (s.retired f g (g.regs.setG x.rd (row.2 (g.regs.rg x.ra) (x.imm.signExtend 64))) none) := by
  intro row hrow f x s g hr hq
  simp only [immediateRows, List.mem_cons, List.not_mem_nil, or_false] at hrow
  rcases hrow with rfl | rfl | rfl | rfl | rfl
  · exact (exec_addi ..).trans (aluImm_done hr hq rfl)
  · exact (exec_andi ..).trans (aluImm_done hr hq rfl)
  · exact (exec_ori ..).trans (aluImm_done hr hq rfl)
  · exact (exec_xori ..).trans (aluImm_done hr hq rfl)
  · exact (exec_slti ..).trans (aluImm_done hr hq (flagWord_eq BitVec.slt_iff_toInt_lt))

theorem shift_result : ∀ row ∈ shiftRows, ∀ (f : FId) (x : ImmF) (s : State) (g : Fgr), s.Runs f g → g.regs.Quiet → x.imm.toNat < 64 →
    exec (row.1 f x) s = .next (s.retired f g (g.regs.setG x.rd (row.2 (g.regs.rg x.ra) x.imm.toNat)) none) := by
  intro row hrow f x s g hr hq hk
  simp only [shiftRows, List.mem_cons, List.not_mem_nil, or_false] at hrow
  rcases hrow with rfl | rfl | rfl
  · exact (exec_slli ..).trans (shiftImm_done hr hq hk)
  · exact (exec_srli ..).trans (shiftImm_done hr hq hk)
  · exact (exec_srai ..).trans (shiftImm_done hr hq hk)

theorem upperImm_eq (x : JmpF) : upperImm x = x.imm.signExtend 64 <<< 12 := by
  apply BitVec.eq_of_getLsbD_eq
  intro i hi
  simp only [upperImm, BitVec.getLsbD_signExtend, BitVec.getLsbD_append, BitVec.getLsbD_shiftLeft, BitVec.msb_append, hi]
  by_cases hlow : i < 12
  · simp [hlow, show ¬ 32 ≤ i by omega]
  · simp [hlow, show i - 12 < 64 by omega, show i < 32 ↔ i - 12 < 20 by omega]

theorem signed_retires : ∀ row ∈ signedRows, ∀ (f : FId) (x : RegF) (s : State) (g : Fgr), s.Runs f g → badReg row.2.1 x = false →
    exec (row.1 f x) s = .next (s.retireFgr f g.regs
      (g.regs.signedTo x.rd x.ss (row.2.2 (g.regs.rg x.ra).toInt (g.regs.rg x.rb).toInt)) none false) := by
  intro row hrow f x s g hr hb
  simp only [signedRows, List.mem_cons, List.not_mem_nil, or_false] at hrow
  rcases hrow with rfl | rfl | rfl | rfl | rfl
  · exact (exec_add ..).trans (aluS2_retires hr hb)
  · exact (exec_sub ..).trans (aluS2_retires hr hb)
  · exact (exec_neg ..).trans (aluS1_retires hr hb)
  · have habs : ((g.regs.rg x.ra).toInt.natAbs : Int) = if (g.regs.rg x.ra).toInt < 0 then -(g.regs.rg x.ra).toInt else (g.regs.rg x.ra).toInt := by
      split <;> omega
    rw [exec_abs, execAbs, aluS1_retires hr hb, habs]
  · exact (exec_mul ..).trans (runRegs_retires hr hb (FRegs.putS_eq ..))

theorem signed_result : ∀ row ∈ signedRows, ∀ (f : FId) (x : RegF) (s : State) (g : Fgr), s.Runs f g → badReg row.2.1 x = false →
    let p := fitted 64 (g.regs.selectsSat x.ss) (row.2.2 (g.regs.rg x.ra).toInt (g.regs.rg x.rb).toInt)
    ((g.regs.setG x.rd p.1).flagged p.2).Quiet →
    exec (row.1 f x) s = .next (s.retired f g ((g.regs.setG x.rd p.1).flagged p.2) none) := by
  intro row hrow f x s g hr hb p hq
  rw [signed_retires row hrow f x s g hr hb]
  exact congrArg _ (retireFgr_quiet hq)

/-- Settles O3, row by row: the model's value of each row is that of the rule. -/
theorem integerResults : Obligations.IntegerResults :=
  ⟨⟨twoSource_result, oneSource_result, immediate_result, shift_result, fun f x s g hr hq =>
    ⟨(exec_lui ..).trans (runRegs_done hr rfl (by rw [upperImm_eq]) (FRegs.setG_quiet hq)),
     (exec_auipc ..).trans (runRegs_done hr rfl (by rw [upperImm_eq]) (FRegs.setG_quiet hq))⟩⟩,
   signed_result⟩

end Sys2Proof.Machine
end

section
/-!
PROOFS. The carry chain (R223), the wide products and the scalar accumulators (R225 to R227).
-/

namespace Sys2Proof.Machine

-- THE CARRY -----------------------------------------------------------------------------------------------------------------------------------

theorem getLsbD_0x1000 (i : Nat) : (0x1000#64).getLsbD i = decide (i = 12) := by
  have : (0x1000#64) = BitVec.twoPow 64 12 := by decide
  rw [this, BitVec.getLsbD_twoPow]
  simp [eq_comm]

theorem FRegs.cy_setCy (r : FRegs) (c : Bool) : (r.setCy c).fxcsr.getLsbD 12 = c := by
  cases c <;> simp [FRegs.setCy]

theorem FRegs.setCy_other (r : FRegs) (c : Bool) {i : Nat} (h : i ≠ 12) : (r.setCy c).fxcsr.getLsbD i = r.fxcsr.getLsbD i := by
  by_cases hi : i < 64
  · cases c <;> simp only [FRegs.setCy, Bool.false_eq_true, if_true, if_false, BitVec.getLsbD_or, BitVec.getLsbD_and, BitVec.getLsbD_not,
      getLsbD_0x1000, h, hi] <;> simp
  · rw [BitVec.getLsbD_of_ge _ _ (by omega), BitVec.getLsbD_of_ge _ _ (by omega)]

/-- A carry instruction: `v` is the exact value, and a carry or a borrow shows as a value outside 0 to 2^64 − 1. -/
theorem aluCy_done {f : FId} {fn : BitVec 6} {x : RegF} {op : Bool → Int → Int → Int} {s : State} {g : Fgr} {v : Int} {c : Bool}
    (hr : s.Runs f g) (hq : g.regs.Quiet) (hb : badReg {} x = false) (hv : op g.regs.cy (g.regs.rg x.ra).toNat (g.regs.rg x.rb).toNat = v)
    (hc : decide (v < 0 ∨ (2 ^ 64 : Nat) ≤ v) = c) :
    ∃ r : FRegs, aluCy f fn x op s = .next (s.retired f g r none) ∧
      r = { g.regs.setG x.rd (BitVec.ofInt 64 v) with fxcsr := r.fxcsr } ∧
      r.fxcsr.getLsbD 12 = c ∧ ∀ i, i ≠ 12 → r.fxcsr.getLsbD i = g.regs.fxcsr.getLsbD i := by
  refine ⟨(g.regs.setG x.rd (BitVec.ofInt 64 v)).setCy c, runRegs_done hr hb (by rw [hv, hc]) (FRegs.setG_quiet hq), rfl, ?_, fun i hi => ?_⟩
  · rw [FRegs.cy_setCy]
  · rw [FRegs.setCy_other _ _ hi, FRegs.setG_fxcsr]

/-- Settles O4: each row's exact value, and that its carry or borrow is the value leaving 64 bits. -/
theorem carryChain : Obligations.CarryChain := by
  intro row hrow f x s g hr hq hb
  have ha := (g.regs.rg x.ra).isLt
  have hb' := (g.regs.rg x.rb).isLt
  simp only [carryRows, List.mem_cons, List.not_mem_nil, or_false] at hrow
  rcases hrow with rfl | rfl | rfl | rfl
  · rw [exec_addcy]
    refine aluCy_done hr hq hb rfl (decide_eq_decide.2 ?_)
    dsimp only
    omega
  · rw [exec_addc]
    refine aluCy_done hr hq hb (by simp only [FRegs.cy]; push_cast; rfl) (decide_eq_decide.2 ?_)
    dsimp only
    omega
  · rw [exec_subby]
    refine aluCy_done hr hq hb rfl (decide_eq_decide.2 ?_)
    dsimp only
    omega
  · rw [exec_subb]
    refine aluCy_done hr hq hb (by simp only [FRegs.cy]; push_cast; rfl) (decide_eq_decide.2 ?_)
    dsimp only
    omega

theorem extractLsb'_eq_setWidth {w : Nat} (v : BitVec w) (k n : Nat) : v.extractLsb' k n = (v >>> k).setWidth n := by
  apply BitVec.eq_of_toNat_eq
  simp

-- THE ACCUMULATORS ----------------------------------------------------------------------------------------------------------------------------

/-- RD below 4 names an accumulator, with nothing in RD[11:9] (R246, R277). -/
theorem badAcc_eq {rd : BitVec 5} (h : rd.toNat < 4) : badAcc rd = false ∧ accOf rd = rd.setWidth 2 := by
  revert rd
  decide

section
variable {f : FId} {s : State} {g : Fgr}

theorem accWith_done {fn : BitVec 6} {u : Uses} {x : RegF} {body : FRegs → FRegs} {r : FRegs} (hr : s.Runs f g) (hb : badReg u x = false)
    (hd : x.rd.toNat < 4) (hbody : body g.regs = r) (hq : r.Quiet) : accWith f fn u x body s = .next (s.retired f g r none) :=
  runRegs_done hr (by rw [hb, (badAcc_eq hd).1]; rfl) hbody hq

theorem FRegs.accumulate_eq (r : FRegs) (n : BitVec 2) (v : Int) : r.accumulate n v =
    (r.setA n (fitted 144 false ((r.ra n).toInt + v)).1).flagged (fitted 144 false ((r.ra n).toInt + v)).2 := by
  simp only [FRegs.accumulate, FRegs.flag_eq_flagged, fitS_eq_fitted]

theorem accumulate_done {fn : BitVec 6} {u : Uses} {x : RegF} {e : FRegs → Int} {v : Int} (hr : s.Runs f g) (hb : badReg u x = false)
    (hd : x.rd.toNat < 4) (hv : e g.regs = v)
    (hq : ((g.regs.setA (x.rd.setWidth 2) (fitted 144 false ((g.regs.ra (x.rd.setWidth 2)).toInt + v)).1).flagged
      (fitted 144 false ((g.regs.ra (x.rd.setWidth 2)).toInt + v)).2).Quiet) :
    accWith f fn u x (fun r => r.accumulate (accOf x.rd) (e r)) s = .next (s.retired f g
      ((g.regs.setA (x.rd.setWidth 2) (fitted 144 false ((g.regs.ra (x.rd.setWidth 2)).toInt + v)).1).flagged
        (fitted 144 false ((g.regs.ra (x.rd.setWidth 2)).toInt + v)).2) none) :=
  accWith_done hr hb hd (by rw [hv, (badAcc_eq hd).2, FRegs.accumulate_eq]) hq

end

theorem accumulating_result : ∀ row ∈ accumulateRows, ∀ (f : FId) (x : RegF) (s : State) (g : Fgr), s.Runs f g → badReg row.2.1 x = false →
    x.rd.toNat < 4 →
    let a : BitVec 2 := x.rd.setWidth 2
    let p := fitted 144 false ((g.regs.ra a).toInt + row.2.2 g.regs x)
    ((g.regs.setA a p.1).flagged p.2).Quiet →
    exec (row.1 f x) s = .next (s.retired f g ((g.regs.setA a p.1).flagged p.2) none) := by
  intro row hrow f x s g hr hb hd a p hq
  simp only [accumulateRows, List.mem_cons, List.not_mem_nil, or_false] at hrow
  rcases hrow with rfl | rfl | rfl | rfl
  · rw [exec_accadd]
    exact accumulate_done (e := fun r => (r.rg x.ra).toInt) hr hb hd rfl hq
  · rw [exec_accaddw]
    exact accumulate_done (e := fun r => (r.rw x.ra).toInt) hr hb hd rfl hq
  · rw [exec_accmac]
    exact accumulate_done (e := fun r => (r.rg x.ra).toInt * (r.rg x.rb).toInt) hr hb hd rfl hq
  · rw [exec_accmsu]
    exact accumulate_done (e := fun r => -((r.rg x.ra).toInt * (r.rg x.rb).toInt)) hr hb hd rfl hq

theorem FRegs.setW_quiet {r : FRegs} {d : BitVec 5} {v : W128} (hq : r.Quiet) : (r.setW d v).Quiet := hq

theorem FRegs.setA_quiet {r : FRegs} {n : BitVec 2} {v : W144} (hq : r.Quiet) : (r.setA n v).Quiet := hq

/-- Settles O7: the products and moves by their values, the accumulating rows by `accumulating_result`. -/
theorem accumulatorResults : Obligations.AccumulatorResults := by
  refine ⟨fun f s g hr hq => ⟨fun x hb => ⟨?_, ?_⟩, fun x hb hd => ?_, fun x hb hd => ?_, fun x h1 h2 h3 h4 => ?_⟩, accumulating_result⟩
  · rw [exec_mulw]
    exact mulWith_done hr hb (by rw [ofInt_mul_toInt]) (FRegs.setW_quiet hq)
  · rw [exec_mulwu]
    exact mulWith_done hr hb (by rw [ofNat_mul_toNat]) (FRegs.setW_quiet hq)
  · rw [exec_accclr]
    exact accWith_done hr hb hd (by rw [(badAcc_eq hd).2]) (FRegs.setA_quiet hq)
  · rw [exec_accwr]
    exact accWith_done hr hb hd (by rw [(badAcc_eq hd).2, extractLsb'_eq_setWidth, BitVec.ushiftRight_zero]) (FRegs.setA_quiet hq)
  · rw [exec_accrdx]
    refine runRegs_done hr (by simp [h1, h2, h3, h4]) ?_ (FRegs.setG_quiet hq)
    rw [extractLsb'_eq_setWidth]

end Sys2Proof.Machine
end

section
/-!
PROOFS. Retiring an instruction (R217, R265), what an event leaves alone, and taking a trap (R232, R233).
-/

namespace Sys2Proof.Machine

-- RETIRING ------------------------------------------------------------------------------------------------------------------------------------

theorem State.dieD_modFgr (s : State) (f : FId) (h : Fgr → Fgr) (d : Nat) :
    (s.modFgr f h).dieD d = { s.dieD d with fgrs := ((s.modFgr f h).dieD d).fgrs } := by
  by_cases hd : d = f.die
  · subst hd
    by_cases hl : f.die < s.dies.length
    · rw [State.modFgr, State.dieD_modDie _ hl]
    · simp [State.dieD, State.modFgr, State.modDie, hl]
  · rw [State.modFgr, State.dieD_modDie_ne _ hd]

/-- Settles O10: `FRegs.retire` sets five registers, by whether the loop ends here, and `State.retired` puts them into one Forager. -/
theorem retiringChangesOneForager : Obligations.RetiringChangesOneForager := by
  intro s f g r target hg t atEnd
  refine ⟨⟨g.regs.retire r target (Config.instrCycles s.draw), State.fgr?_modFgr _ hg, rfl, rfl, ?_, ?_, ?_⟩,
    fun f' hf => State.fgr?_modFgr_ne _ hf, rfl, State.modDie_length .., fun d => State.dieD_modFgr s.drawn f _ d⟩
  · rintro a rfl
    exact ⟨rfl, rfl⟩
  · rintro rfl hend
    have hend' : ((none : Option (BitVec 48)).isNone && g.regs.lc != 0 && g.regs.pc == g.regs.le.setWidth 48) = false := by
      simpa [atEnd] using hend
    simp only [FRegs.retire, hend']
    exact ⟨rfl, rfl⟩
  · rintro ⟨rfl, hlc, hpc⟩ hr
    have hend : ((none : Option (BitVec 48)).isNone && g.regs.lc != 0 && g.regs.pc == g.regs.le.setWidth 48) = true := by
      simp only [Option.isNone_none, Bool.true_and, Bool.and_eq_true, bne_iff_ne, beq_iff_eq]
      exact ⟨hlc, hpc⟩
    simp only [FRegs.retire, hend, hr]
    by_cases h1 : g.regs.lc = 1#64 <;> simp [h1]


-- WHAT AN EVENT LEAVES ALONE ------------------------------------------------------------------------------------------------------------------

/-- A message to the host changes nothing but the instances and the outputs. -/
theorem State.sendMsix_eq (s : State) (n v : Nat) : s.sendMsix n v = { s with insts := (s.sendMsix n v).insts, out := (s.sendMsix n v).out } := by
  unfold State.sendMsix
  split <;> rfl

/-- The signal of a group changes nothing but the events, the instances and the outputs. -/
theorem State.signalGroup_eq (s : State) (k : Nat) : s.signalGroup k =
    { s with events := (s.signalGroup k).events, insts := (s.signalGroup k).insts, out := (s.signalGroup k).out } := by
  unfold State.signalGroup
  split
  · rfl
  split
  · rfl
  · rw [State.sendMsix_eq]

theorem State.raise_eq (s : State) (e : Nat) :
    s.raise e = { s with events := (s.raise e).events, insts := (s.raise e).insts, out := (s.raise e).out } := by
  unfold State.raise
  split
  · rfl
  dsimp only
  split
  · rw [State.signalGroup_eq]
  · rfl

@[simp] theorem State.raise_dies (s : State) (e : Nat) : (s.raise e).dies = s.dies := by rw [State.raise_eq]
@[simp] theorem State.raise_part (s : State) (e : Nat) : (s.raise e).part = s.part := by rw [State.raise_eq]
@[simp] theorem State.raise_pending (s : State) (e : Nat) : (s.raise e).pending = s.pending := by rw [State.raise_eq]
@[simp] theorem State.raise_jobs (s : State) (e : Nat) : (s.raise e).jobs = s.jobs := by rw [State.raise_eq]
@[simp] theorem State.raise_frame (s : State) (e : Nat) : (s.raise e).frame = s.frame := by rw [State.raise_eq]
@[simp] theorem State.raise_fabric (s : State) (e : Nat) : (s.raise e).fabric = s.fabric := by rw [State.raise_eq]
@[simp] theorem State.raise_mem (s : State) (e : Nat) : (s.raise e).mem = s.mem := by rw [State.raise_eq]


-- TAKING A TRAP -------------------------------------------------------------------------------------------------------------------------------

/-- A change of a die that leaves its Foragers alone leaves every Forager alone. -/
theorem State.fgr?_modDie (s : State) (d : Nat) (h : Die → Die) (hh : ∀ x, (h x).fgrs = x.fgrs) (f : FId) :
    (s.modDie d h).fgr? f = s.fgr? f := by
  unfold State.fgr? State.modDie
  by_cases hd : d = f.die
  · subst hd
    cases hx : s.dies[f.die]? <;> simp [hx, hh]
  · simp [hd]

theorem State.fgr?_raiseDie (s : State) (d b : Nat) (f : FId) : (s.raiseDie d b).fgr? f = s.fgr? f := by
  unfold State.raiseDie
  dsimp only
  generalize (if b < 8 then Config.evDieError d else Config.evDieRepair d) = e
  split
  · rfl
  · rw [State.fgr?, State.raise_dies]
    exact s.fgr?_modDie d (fun x => { x with cause := x.cause ||| (1#64 <<< b) }) (fun _ => rfl) f

theorem State.raiseDie_eq (s : State) (d b : Nat) : s.raiseDie d b = { s with
    dies := (s.raiseDie d b).dies, events := (s.raiseDie d b).events, insts := (s.raiseDie d b).insts, out := (s.raiseDie d b).out } := by
  unfold State.raiseDie
  dsimp only
  generalize (if b < 8 then Config.evDieError d else Config.evDieRepair d) = e
  split
  · rfl
  · rw [State.raise_eq]
    rfl

@[simp] theorem State.raiseDie_mem (s : State) (d b : Nat) : (s.raiseDie d b).mem = s.mem := by rw [State.raiseDie_eq]
@[simp] theorem State.raiseDie_part (s : State) (d b : Nat) : (s.raiseDie d b).part = s.part := by rw [State.raiseDie_eq]
@[simp] theorem State.raiseDie_pending (s : State) (d b : Nat) : (s.raiseDie d b).pending = s.pending := by rw [State.raiseDie_eq]
@[simp] theorem State.raiseDie_jobs (s : State) (d b : Nat) : (s.raiseDie d b).jobs = s.jobs := by rw [State.raiseDie_eq]
@[simp] theorem State.raiseDie_frame (s : State) (d b : Nat) : (s.raiseDie d b).frame = s.frame := by rw [State.raiseDie_eq]
@[simp] theorem State.raiseDie_fabric (s : State) (d b : Nat) : (s.raiseDie d b).fabric = s.fabric := by rw [State.raiseDie_eq]

theorem State.raiseDie_length (s : State) (d b : Nat) : (s.raiseDie d b).dies.length = s.dies.length := by
  unfold State.raiseDie
  dsimp only
  generalize (if b < 8 then Config.evDieError d else Config.evDieRepair d) = e
  split
  · rfl
  · rw [State.raise_dies, State.modDie_length]

/-- The failure of a part depends on nothing but the jobs, the frame and the device number. -/
theorem State.failPart_jobs_congr {s t : State} (hj : s.jobs = t.jobs) (hf : s.frame = t.frame) (hd : s.fabric = t.fabric)
    (jid d stage status : Nat) (trap : List W64) : (s.failPart jid d stage status trap).jobs = (t.failPart jid d stage status trap).jobs := by
  simp only [State.failPart, State.modJob, hj, hf, hd]

theorem FRegs.mode_setMode_one (r : FRegs) : (r.setMode 1).mode = 1 := by
  have h : ((r.coreCtl &&& ~~~(0xC000#64)) ||| 0x4000#64).extractLsb' 14 2 = 1#2 := by
    apply BitVec.eq_of_getLsbD_eq
    intro i hi
    obtain rfl | rfl : i = 0 ∨ i = 1 := by omega
    all_goals simp
  have hb := bits_eq_extractLsb' ((r.coreCtl &&& ~~~(0xC000#64)) ||| 0x4000#64) 15 14
  rw [h] at hb
  exact hb

theorem State.fgr?_lt {s : State} {f : FId} {g : Fgr} (hg : s.fgr? f = some g) : f.die < s.dies.length := by
  obtain ⟨d, hd, -⟩ := Option.bind_eq_some_iff.1 hg
  exact (List.getElem?_eq_some_iff.1 hd).1

section
variable {s : State} {f : FId} {g : Fgr} {r : FRegs} {cause : Nat} {tval : W64}

/-- The morsel of the Forager, if it holds one, fails its part. -/
def State.failMorsel (s : State) (f : FId) (m : Option Morsel) (status : Nat) (trap : List W64) : State :=
  match m with
  | none => s
  | some m => s.failPart m.jid f.die m.stage status trap

theorem takeTrap_pipeline (hg : s.fgr? f = some g) (hm : r.mode = 0) : s.takeTrap f r cause tval =
    (s.modFgr f fun g => { g with regs := r.trapped cause tval }.discard).failMorsel f g.morsel (trapStatus cause)
      [(r.trapped cause tval).tepc, (r.trapped cause tval).tcause, (r.trapped cause tval).tval, (r.trapped cause tval).fxepc] := by
  simp only [State.takeTrap, hm, hg, Option.bind_some]
  cases g.morsel <;> rfl

theorem takeTrap_service (hm : r.mode = 2) : s.takeTrap f r cause tval =
    s.modFgr f fun g => { g with regs := { r.trapped cause tval with pc := Config.serviceHandler } } := by
  simp only [State.takeTrap, hm]

/-- The Forager stops and its die names it for retirement. -/
def State.stopFgr (s : State) (f : FId) (r : FRegs) : State :=
  ((s.modFgr f fun g => { g with regs := r, run := .stopped }).raiseDie f.die dcRuntimeFault).modDie f.die fun d =>
    { d with retiring := d.retiring ++ [(f.fgr, some Config.stRuntimeFault)] }

theorem State.fgr?_stopFgr (hg : s.fgr? f = some g) : (s.stopFgr f r).fgr? f = some { g with regs := r, run := .stopped } := by
  refine (State.fgr?_modDie _ _ _ ?_ f).trans ((State.fgr?_raiseDie ..).trans (State.fgr?_modFgr _ hg))
  exact fun _ => rfl

theorem takeTrap_runtime (hg : s.fgr? f = some g) (h0 : r.mode ≠ 0) (h2 : r.mode ≠ 2) : s.takeTrap f r cause tval =
    (s.stopFgr f (r.trapped cause tval)).failMorsel f g.morsel Config.stRuntimeFault [] := by
  unfold State.takeTrap
  split
  · contradiction
  · contradiction
  · rw [hg, Option.bind_some]
    cases g.morsel <;> rfl

theorem State.failMorsel_eq (s : State) (f : FId) (m : Option Morsel) (status : Nat) (trap : List W64) :
    s.failMorsel f m status trap = { s with jobs := (s.failMorsel f m status trap).jobs } := by
  cases m <;> rfl

theorem State.failMorsel_jobs_congr {s t : State} (hj : s.jobs = t.jobs) (hf : s.frame = t.frame) (hd : s.fabric = t.fabric) (f : FId)
    (m : Option Morsel) (status : Nat) (trap : List W64) : (s.failMorsel f m status trap).jobs =
      match m with
      | none => t.jobs
      | some m => (t.failPart m.jid f.die m.stage status trap).jobs := by
  cases m
  · exact hj
  · exact State.failPart_jobs_congr hj hf hd ..

end

/-- Settles O11, by the three modes: `takeTrap_pipeline`, `takeTrap_service` and `takeTrap_runtime`. -/
theorem trapEntry : Obligations.TrapEntry := by
  intro s f g r cause tval hg hc t saved status
  by_cases h0 : r.mode = 0
  · have ht : t = _ := takeTrap_pipeline hg h0
    have hfgr : t.fgr? f = some { g with regs := r.trapped cause tval }.discard := by
      rw [ht, State.failMorsel_eq]
      exact State.fgr?_modFgr _ hg
    refine ⟨?_, ?_, ?_, fun _ => ?_, fun _ => ⟨_, hfgr, ⟨rfl, rfl, rfl, rfl⟩, FRegs.mode_setMode_one _, rfl, rfl, rfl, rfl, rfl, rfl, ?_⟩,
      fun h => absurd (h0.symm.trans h) (by decide), fun h => absurd h0 h⟩
    · rw [ht, State.failMorsel_eq]; rfl
    · rw [ht, State.failMorsel_eq]; rfl
    · rw [ht, State.failMorsel_eq]; rfl
    · rw [ht, State.failMorsel_eq]; exact ⟨rfl, rfl⟩
    · rw [ht]
      exact State.failMorsel_jobs_congr rfl rfl rfl ..
  by_cases h2 : r.mode = 2
  · have ht : t = _ := takeTrap_service h2
    have hfgr : t.fgr? f = some { g with regs := { r.trapped cause tval with pc := Config.serviceHandler } } := by
      rw [ht]
      exact State.fgr?_modFgr _ hg
    rw [ht] at hfgr ⊢
    exact ⟨rfl, rfl, rfl, fun _ => ⟨rfl, rfl⟩, fun h => absurd h h0, fun _ => ⟨_, hfgr, ⟨rfl, rfl, rfl, rfl⟩, rfl, rfl, rfl⟩,
      fun _ h => absurd h2 h⟩
  · have ht : t = _ := takeTrap_runtime hg h0 h2
    have hfgr : t.fgr? f = some { g with regs := r.trapped cause tval, run := .stopped } := by
      rw [ht, State.failMorsel_eq]
      exact State.fgr?_stopFgr hg
    have hlen : f.die < ((s.modFgr f fun g => { g with regs := r.trapped cause tval, run := .stopped }).raiseDie f.die dcRuntimeFault).dies.length := by
      rw [State.raiseDie_length]
      exact State.fgr?_lt (State.fgr?_modFgr _ hg)
    refine ⟨?_, ?_, ?_, fun h => absurd h (by tauto), fun h => absurd h h0, fun h => absurd h h2, fun _ _ =>
      ⟨_, hfgr, ⟨rfl, rfl, rfl, rfl⟩, rfl, ?_, ?_⟩⟩
    · rw [ht, State.failMorsel_eq]; simp [State.stopFgr]
    · rw [ht, State.failMorsel_eq]; simp [State.stopFgr]
    · rw [ht, State.failMorsel_eq]; simp [State.stopFgr]
    · have hdie : t.dieD f.die = (s.stopFgr f (r.trapped cause tval)).dieD f.die := by rw [ht, State.failMorsel_eq]; rfl
      rw [hdie, State.stopFgr, State.dieD_modDie _ hlen]
      simp
    · rw [ht]
      exact State.failMorsel_jobs_congr (by simp [State.stopFgr]) (by simp [State.stopFgr]) (by simp [State.stopFgr]) ..

end Sys2Proof.Machine
end

section
/-!
PROOFS. Format REG: every row is a Forager command on its own word, whose first check is that of its fields (R245, R246, R276).
-/

namespace Sys2Proof.Machine

-- FORMAT REG ----------------------------------------------------------------------------------------------------------------------------------

/-- Check 5 comes first: a word with a bad field raises 0x03. -/
def FirstBad (bad : Bool) (chk : FRegs → Option Nat) : Prop := ∀ r, bad = true → chk r = some 0x03

theorem FirstBad.chk5 {bad : Bool} : FirstBad bad (chk5 bad) := fun r h => by simp [Machine.chk5, h]

theorem FirstBad.chk5_or {bad more : Bool} : FirstBad bad (Machine.chk5 (bad || more)) := fun r h => by simp [Machine.chk5, h]

theorem FirstBad.chk5_or₂ {bad b c : Bool} : FirstBad bad (Machine.chk5 (bad || b || c)) := fun r h => by simp [Machine.chk5, h]

theorem FirstBad.chk5_regs {bad : Bool} {more : FRegs → Bool} : FirstBad bad (fun r => Machine.chk5 (bad || more r) r) :=
  fun r h => by simp [Machine.chk5, h]

theorem FirstBad.firstCause {bad : Bool} {l : FRegs → List (Bool × Nat)} : FirstBad bad (fun r => firstCause ((bad, 0x03) :: l r)) :=
  fun r h => by simp [Machine.firstCause, h]

theorem FirstBad.firstCause_or {bad : Bool} {more : FRegs → Bool} {l : FRegs → List (Bool × Nat)} :
    FirstBad bad (fun r => Machine.firstCause ((bad || more r, 0x03) :: l r)) :=
  fun r h => by simp [Machine.firstCause, h]

/-- The row's instruction is a Forager command on its own word, whose first check is that of its fields. -/
def RegRow.Checked (row : RegRow) : Prop := ∀ x : RegF, ∃ chk : FRegs → Option Nat, FirstBad (badReg row.uses x) chk ∧
  ∀ (f : FId) (s : State), ∃ body, exec (row.instr f x) s = runFgr f (regWord row.op row.fn x) chk body s

theorem runRegs_eq (f : FId) (w : W32) (chk : FRegs → Option Nat) (body : FRegs → FRes) (s : State) :
    runRegs f w chk body s = runFgr f w chk (fun s g => (s, body g.regs)) s := rfl

theorem RegRow.Checked.of {row : RegRow} {chk : RegF → FRegs → Option Nat} {body : FId → RegF → State → State → Fgr → State × FRes}
    (he : ∀ f x s, exec (row.instr f x) s = runFgr f (regWord row.op row.fn x) (chk x) (body f x s) s)
    (hc : ∀ x, FirstBad (badReg row.uses x) (chk x)) : row.Checked := fun x => ⟨chk x, hc x, fun f s => ⟨_, he f x s⟩⟩

theorem RegRow.Checked.ofRegs {row : RegRow} {chk : RegF → FRegs → Option Nat} {body : RegF → FRegs → FRes}
    (he : ∀ f x s, exec (row.instr f x) s = runRegs f (regWord row.op row.fn x) (chk x) (body x) s)
    (hc : ∀ x, FirstBad (badReg row.uses x) (chk x)) : row.Checked := .of (fun f x s => (he f x s).trans (runRegs_eq ..)) hc

section
variable {i : FId → RegF → Instr} {fn : BitVec 6}

theorem RegRow.Checked.alu2 {op : W64 → W64 → W64} (h : ∀ f x s, exec (i f x) s = alu2 f fn x op s) : RegRow.Checked ⟨i, 0x01, fn, {}⟩ :=
  .ofRegs h fun _ => .chk5

theorem RegRow.Checked.alu1 {op : W64 → W64} (h : ∀ f x s, exec (i f x) s = alu1 f fn x op s) : RegRow.Checked ⟨i, 0x01, fn, { rb := false }⟩ :=
  .ofRegs h fun _ => .chk5

theorem RegRow.Checked.aluS2 {op : Int → Int → Int} (h : ∀ f x s, exec (i f x) s = aluS2 f fn x op s) : RegRow.Checked ⟨i, 0x01, fn, { ss := true }⟩ :=
  .ofRegs h fun _ => .chk5

theorem RegRow.Checked.aluS1 {op : Int → Int} (h : ∀ f x s, exec (i f x) s = aluS1 f fn x op s) : RegRow.Checked ⟨i, 0x01, fn, { ss := true, rb := false }⟩ :=
  .ofRegs h fun _ => .chk5

theorem RegRow.Checked.aluCy {op : Bool → Int → Int → Int} (h : ∀ f x s, exec (i f x) s = aluCy f fn x op s) : RegRow.Checked ⟨i, 0x01, fn, {}⟩ :=
  .ofRegs h fun _ => .chk5

theorem RegRow.Checked.mulWith {put : RegF → FRegs → W64 → W64 → FRegs} (h : ∀ f x s, exec (i f x) s = mulWith f fn x (put x) s) : RegRow.Checked ⟨i, 0x10, fn, {}⟩ :=
  .ofRegs h fun _ => .chk5

theorem RegRow.Checked.divWith {ss : Bool} {cyc : RegF → FRegs → Nat} {put : RegF → FRegs → FRegs} (h : ∀ f x s, exec (i f x) s = divWith f fn ss x (cyc x) (put x) s) : RegRow.Checked ⟨i, 0x11, fn, { ss := ss }⟩ :=
  .of h fun _ => .chk5

theorem RegRow.Checked.accWith {u : Uses} {body : RegF → FRegs → FRegs} (h : ∀ f x s, exec (i f x) s = accWith f fn u x (body x) s) : RegRow.Checked ⟨i, 0x13, fn, u⟩ :=
  .ofRegs h fun _ => .chk5_or

theorem RegRow.Checked.amoWith {upd : RegF → FRegs → W64 → Option W64} (h : ∀ f x s, exec (i f x) s = amoWith f fn x (upd x) s) : RegRow.Checked ⟨i, 0x24, fn, {}⟩ :=
  .of h fun _ => .chk5

theorem RegRow.Checked.fenceWith {acq : Bool} (h : ∀ f x s, exec (i f x) s = fenceWith f fn x acq s) : RegRow.Checked ⟨i, 0x25, fn, { rd := false, ra := false, rb := false }⟩ :=
  .of h fun _ => .chk5

theorem RegRow.Checked.vvWith {u : Uses} {op : ElemOp} (h : ∀ f x s, exec (i f x) s = vvWith f fn u x op s) : RegRow.Checked ⟨i, 0x41, fn, u⟩ :=
  .ofRegs h fun _ => .chk5

theorem RegRow.Checked.vxWith {u : Uses} {op : ElemOp} (h : ∀ f x s, exec (i f x) s = vxWith f fn u x op s) : RegRow.Checked ⟨i, 0x42, fn, u⟩ :=
  .ofRegs h fun _ => .chk5

theorem RegRow.Checked.vcmpWith {op : Nat → Nat → Nat → Bool} (h : ∀ f x s, exec (i f x) s = vcmpWith f fn x op s) : RegRow.Checked ⟨i, 0x45, fn, {}⟩ :=
  .ofRegs h fun _ => .chk5

theorem RegRow.Checked.vmaskWith {op : Bool → Bool → Bool} (h : ∀ f x s, exec (i f x) s = vmaskWith f fn x op s) : RegRow.Checked ⟨i, 0x45, fn, {}⟩ :=
  .ofRegs h fun _ => .chk5

theorem RegRow.Checked.vregWith {op : BitVec 7} {u : Uses} {body : RegF → FRegs → FRegs} (h : ∀ f x s, exec (i f x) s = vregWith f op fn u x (body x) s) : RegRow.Checked ⟨i, op, fn, u⟩ :=
  .ofRegs h fun _ => .chk5

theorem RegRow.Checked.vaccWith {u : Uses} {body : RegF → FRegs → FRegs} (h : ∀ f x s, exec (i f x) s = vaccWith f fn u x (body x) s) : RegRow.Checked ⟨i, 0x47, fn, u⟩ :=
  .ofRegs h fun _ => .chk5_or

theorem RegRow.Checked.vbinWith {value : W128 → Nat} (h : ∀ f x s, exec (i f x) s = vbinWith f fn x value s) : RegRow.Checked ⟨i, 0x49, fn, { rb := false }⟩ :=
  .ofRegs h fun _ => .chk5_regs

theorem RegRow.Checked.vstrideWith {k : VKind} (h : ∀ f x s, exec (i f x) s = vstrideWith f fn k x s) : RegRow.Checked ⟨i, 0x52, fn, {}⟩ :=
  .of h fun _ => .chk5

theorem RegRow.Checked.vindexWith {k : VKind} (h : ∀ f x s, exec (i f x) s = vindexWith f fn k x s) : RegRow.Checked ⟨i, 0x53, fn, {}⟩ :=
  .of h fun _ => .firstCause_or

end

theorem regRows_checked : ∀ row ∈ regRows, row.Checked := by
  simp only [regRows, List.forall_mem_append, List.forall_mem_cons, List.not_mem_nil, false_imp_iff, implies_true, and_true]
  exact ⟨⟨⟨⟨⟨⟨⟨⟨.aluS2 exec_add, .aluS2 exec_sub, .aluS1 exec_neg, .aluS1 exec_abs, .alu2 exec_and, .alu2 exec_or, .alu2 exec_xor, .alu2 exec_andn,
     .alu2 exec_sll, .alu2 exec_srl, .alu2 exec_sra, .alu2 exec_ror, .alu2 exec_min, .alu2 exec_max, .alu2 exec_minu, .alu2 exec_maxu,
     .alu2 exec_seq, .alu2 exec_slt, .alu2 exec_sltu, .alu1 exec_clz, .alu1 exec_ctz, .alu1 exec_popc, .alu1 exec_bswap, .aluCy exec_addcy,
     .aluCy exec_addc, .aluCy exec_subby, .aluCy exec_subb⟩,
    ⟨.ofRegs exec_mul fun _ => .chk5, .mulWith exec_mulh, .mulWith exec_mulhu, .mulWith exec_mulw, .mulWith exec_mulwu, .divWith exec_div,
     .divWith exec_divu, .divWith exec_rem, .divWith exec_remu, .divWith exec_divw, .divWith exec_divwu, .accWith exec_accclr, .accWith exec_accadd,
     .accWith exec_accaddw, .accWith exec_accmac, .accWith exec_accmsu, .accWith exec_accwr, .ofRegs exec_bina fun _ => .chk5,
     .ofRegs exec_binb fun _ => .chk5, .amoWith exec_amoadd, .amoWith exec_amoswap, .amoWith exec_amocas⟩⟩,
    ⟨.fenceWith exec_fence, .fenceWith exec_fenceRel, .fenceWith exec_fenceAcq, .ofRegs exec_abar fun _ => .chk5,
     .of exec_mdone fun _ => .firstCause, .of exec_memit fun _ => .firstCause, .ofRegs exec_brk fun _ => .chk5, .of exec_rtp fun _ => .firstCause⟩⟩,
    ⟨.vvWith exec_vadd, .vvWith exec_vsub, .vvWith exec_vneg, .vvWith exec_vabs, .vvWith exec_vand, .vvWith exec_vor, .vvWith exec_vxor,
     .vvWith exec_vandn, .vvWith exec_vsll, .vvWith exec_vsrl, .vvWith exec_vsra, .vvWith exec_vmin, .vvWith exec_vmax, .vvWith exec_vminu,
     .vvWith exec_vmaxu, .vvWith exec_vmul, .vvWith exec_vmulh, .vvWith exec_vmulhu⟩⟩,
    ⟨.vxWith exec_vaddVx, .vxWith exec_vsubVx, .vxWith exec_vandVx, .vxWith exec_vorVx, .vxWith exec_vxorVx, .vxWith exec_vandnVx,
     .vxWith exec_vsllVx, .vxWith exec_vsrlVx, .vxWith exec_vsraVx, .vxWith exec_vminVx, .vxWith exec_vmaxVx, .vxWith exec_vminuVx,
     .vxWith exec_vmaxuVx, .vxWith exec_vmulVx, .vxWith exec_vmulhVx, .vxWith exec_vmulhuVx⟩⟩,
    ⟨.vcmpWith exec_vcmpeq, .vcmpWith exec_vcmpne, .vcmpWith exec_vcmplt, .vcmpWith exec_vcmple, .vcmpWith exec_vcmpltu, .vcmpWith exec_vcmpleu,
     .vmaskWith exec_vmand, .vmaskWith exec_vmor, .vmaskWith exec_vmxor, .vmaskWith exec_vmandn, .vregWith exec_vcompress, .vregWith exec_vexpand,
     .vregWith exec_vmerge, .vregWith exec_vpopc, .vregWith exec_vfirst, .vregWith exec_viota⟩⟩,
    ⟨.vaccWith exec_vacclr, .vaccWith exec_vacadd, .vaccWith exec_vacaddu, .vaccWith exec_vacmac, .vaccWith exec_vacmsu,
     .ofRegs exec_vacsum fun _ => .chk5_or₂, .vbinWith exec_vbina, .vbinWith exec_vbinb, .vregWith exec_vsort, .ofRegs exec_vsortp fun _ => .chk5_or,
     .vregWith exec_vmrglo, .vregWith exec_vmrghi, .vregWith exec_vmv, .vregWith exec_vget, .vregWith exec_vput, .vregWith exec_vsplat⟩⟩,
    ⟨.vstrideWith exec_vlds, .vstrideWith exec_vldsL, .vstrideWith exec_vsts, .vstrideWith exec_vstsL, .vindexWith exec_vgath,
     .vindexWith exec_vgathL, .vindexWith exec_vgathff, .vindexWith exec_vscat, .vindexWith exec_vscatL, .of exec_amlk fun _ => .chk5,
     .of exec_amwr fun _ => .firstCause, .of exec_amrd fun _ => .firstCause, .of exec_dginit fun _ => .chk5, .of exec_dgupd fun _ => .chk5,
     .of exec_dgfin fun _ => .chk5_or, .of exec_dgabt fun _ => .chk5, .of exec_dgcmp fun _ => .chk5_or₂⟩⟩

end Sys2Proof.Machine
end

section
/-!
PROOFS. Reserved fields, reserved values and unassigned words (R246, R276, R277).
-/

namespace Sys2Proof.Machine

-- RESERVED FIELDS AND UNASSIGNED WORDS --------------------------------------------------------------------------------------------------------

theorem runRegs_refused {f : FId} {w : W32} {chk : FRegs → Option Nat} {body : FRegs → FRes} {s : State} {g : Fgr} {c : Nat} (hr : s.Runs f g)
    (hc : chk g.regs = some c) : runRegs f w chk body s = .next (s.preciseTrap f g.regs c (w.setWidth 64)) :=
  runFgr_refused hr hc

theorem chk5_true {bad : Bool} (r : FRegs) (h : bad = true) : chk5 bad r = some 0x03 := by rw [chk5, h]; rfl

/-- A shift count of 64 or more has a bit in IMM12[11:6] (R277). -/
theorem shiftImm_refused {f : FId} {fn : BitVec 3} {x : ImmF} {op : W64 → Nat → W64} {s : State} {g : Fgr} (hr : s.Runs f g)
    (hk : 64 ≤ x.imm.toNat) : shiftImm f fn x op s = .next (s.preciseTrap f g.regs 0x03 ((immWord 0x02 fn x).setWidth 64)) := by
  refine runRegs_refused hr (chk5_true _ ?_)
  have hlt := x.imm.isLt
  rw [bne_iff_ne, Ne, ← toNat_eq_zero_iff, BitVec.extractLsb'_toNat, Nat.shiftRight_eq_div_pow]
  omega

theorem reserved_vtype {imm : BitVec 12} (h : 16 ≤ imm.toNat ∨ 5 ≤ imm.toNat % 8) :
    (imm.extractLsb' 4 8 != 0 || 5 ≤ (imm.extractLsb' 0 3).toNat) = true := by
  have hlt := imm.isLt
  rw [Bool.or_eq_true, bne_iff_ne, Ne, ← toNat_eq_zero_iff, decide_eq_true_eq, BitVec.extractLsb'_toNat, BitVec.extractLsb'_toNat,
    Nat.shiftRight_eq_div_pow, Nat.shiftRight_eq_div_pow]
  omega

/-- Settles O12: each word's first check is that of its fields, `regRows_checked` for format REG. -/
theorem reservedFieldsTrap : Obligations.ReservedFieldsTrap := by
  refine ⟨fun row hrow f x s g hr hb => ?_, fun f x s g hr => ⟨fun hk => ⟨?_, ?_, ?_⟩, fun h => ?_, fun h => ?_⟩, fun f x s g hr h => ?_⟩
  · obtain ⟨chk, hchk, he⟩ := regRows_checked row hrow x
    obtain ⟨body, hbody⟩ := he f s
    rw [hbody, runFgr_refused hr (hchk _ hb)]
  · rw [exec_slli]; exact shiftImm_refused hr hk
  · rw [exec_srli]; exact shiftImm_refused hr hk
  · rw [exec_srai]; exact shiftImm_refused hr hk
  · rw [exec_loop]
    exact runRegs_refused hr (chk5_true _ (by simpa using h))
  · rw [exec_vsetvl]
    exact runRegs_refused hr (chk5_true _ (reserved_vtype h))
  · have hbad : badAcr x = true := by simpa [badAcr] using h
    refine ⟨?_, ?_, ?_, ?_⟩
    · rw [exec_accrd]
      exact runRegs_refused hr (chk5_true _ hbad)
    · rw [exec_accrdw]
      exact runRegs_refused hr (chk5_true _ hbad)
    · have hss : x.ss = 3 → x.ss ≠ 0 := fun h h0 => absurd (h.symm.trans h0) (by decide)
      rw [exec_accrdx]
      exact runRegs_refused hr (chk5_true _ (by simp; tauto))
    · rw [exec_vacrd]
      exact runRegs_refused hr (chk5_true _ (by rw [hbad]; rfl))

/-- The ranges of major opcodes that R246 leaves unassigned. -/
theorem wordAssigned_gap {w : W32} (h : w.toNat % 128 = 0 ∨ ∃ p ∈ [(0x06, 0x0F), (0x16, 0x1F), (0x26, 0x2F), (0x36, 0x3F), (0x4C, 0x4F), (0x54, 0x5F), (0x65, 0x6F)],
    p.1 ≤ w.toNat % 128 ∧ w.toNat % 128 ≤ p.2) : wordAssigned w = false := by
  simp only [List.mem_cons, List.not_mem_nil, or_false, exists_eq_or_imp, exists_eq_left] at h
  unfold wordAssigned
  dsimp only
  generalize w.toNat % 128 = k at h
  rcases h with rfl | ⟨hl, hu⟩ | ⟨hl, hu⟩ | ⟨hl, hu⟩ | ⟨hl, hu⟩ | ⟨hl, hu⟩ | ⟨hl, hu⟩ | ⟨hl, hu⟩
  · rfl
  all_goals interval_cases k <;> rfl

/-- Major opcode and function code of each row of format REG. -/
noncomputable def regCodes : List (Nat × Nat) := regRows.map fun row => (row.op.toNat, row.fn.toNat)

theorem regCodes_majors : ∀ c ∈ regCodes, c.1 ∈ [0x01, 0x10, 0x11, 0x13, 0x15, 0x24, 0x25, 0x34, 0x41, 0x42, 0x45, 0x46, 0x47, 0x49, 0x4A, 0x4B, 0x52,
    0x53, 0x70, 0x71, 0x72, 0x73] := by
  decide +kernel

/-- The function codes of a major opcode. -/
noncomputable def regFns (k : Nat) : List Nat := regCodes.filterMap fun c => if c.1 = k then some c.2 else none

theorem wordAssigned_reg {w : W32} (hop : ∃ row ∈ regRows, row.op = w.extractLsb' 0 7)
    (hno : ∀ row ∈ regRows, ¬ (row.op = w.extractLsb' 0 7 ∧ row.fn = w.extractLsb' 26 6)) : wordAssigned w = false := by
  have hk : (w.extractLsb' 0 7).toNat = w.toNat % 128 := by simp
  have hf : (w.extractLsb' 26 6).toNat = bits w.toNat 31 26 := (bits_eq_extractLsb' w 31 26).symm
  have hlt : bits w.toNat 31 26 < 64 := hf ▸ (w.extractLsb' 26 6).isLt
  have hmem : w.toNat % 128 ∈ [0x01, 0x10, 0x11, 0x13, 0x15, 0x24, 0x25, 0x34, 0x41, 0x42, 0x45, 0x46, 0x47, 0x49, 0x4A, 0x4B, 0x52,
      0x53, 0x70, 0x71, 0x72, 0x73] := by
    obtain ⟨row, hrow, h⟩ := hop
    rw [← hk, ← h]
    exact regCodes_majors _ (List.mem_map_of_mem hrow)
  have hnot : bits w.toNat 31 26 ∉ regFns (w.toNat % 128) := by
    rw [regFns, List.mem_filterMap]
    rintro ⟨c, hc, h⟩
    obtain ⟨row, hrow, rfl⟩ := List.mem_map.1 hc
    simp only [Option.ite_none_right_eq_some, Option.some.injEq, ← hk, ← hf, BitVec.toNat_inj] at h
    exact hno row hrow h
  unfold wordAssigned
  dsimp only
  generalize w.toNat % 128 = k at hmem hnot
  generalize bits w.toNat 31 26 = fn at hnot hlt
  simp only [List.mem_cons, List.not_mem_nil, or_false] at hmem
  rcases hmem with rfl | rfl | rfl | rfl | rfl | rfl | rfl | rfl | rfl | rfl | rfl | rfl | rfl | rfl | rfl | rfl | rfl | rfl | rfl | rfl | rfl | rfl
  all_goals
    conv => lhs; whnf
    revert fn
    decide +kernel

end Sys2Proof.Machine
end

section
/-!
PROOFS. The commands that trap, the delivery of an arithmetic trap (R235, R237), branches, jumps and LOOP (R247, R265).
-/

namespace Sys2Proof.Machine

theorem trapWith_trap {f : FId} {s : State} {g : Fgr} (hr : s.Runs f g) (cause : Nat) (tval : FRegs → W64) :
    trapWith f cause tval s = .next (s.preciseTrap f g.regs cause (tval g.regs)) := by
  rw [trapWith, runRegs, runFgr_body hr rfl]
  rfl

/-- Settles O13: BRK by its body, the other two by `trapWith`; a word without a row is unassigned. -/
theorem trapCommands : Obligations.TrapCommands := by
  intro f s g hr
  refine ⟨fun x hb => ?_, ?_, fun w hw => ?_⟩
  · rw [exec_brk, execBrk, runRegs, runFgr_body hr (by simp [chk5, hb])]
    rfl
  · exact (exec_fetchFault ..).trans (trapWith_trap hr 0x01 fun r => r.pc.setWidth 64)
  · have hna : wordAssigned w = false := by
      rcases hw with hgap | ⟨hop, hno⟩
      · exact wordAssigned_gap hgap
      · exact wordAssigned_reg hop hno
    rw [exec_illegalInstruction, execIllegalInstruction, hna]
    exact trapWith_trap hr 0x02 fun _ => w.setWidth 64

-- DELIVERING AN ARITHMETIC TRAP ---------------------------------------------------------------------------------------------------------------

theorem State.preciseTrap_eq (s : State) (f : FId) (r : FRegs) (cause : Nat) (tval : W64) :
    s.preciseTrap f r cause tval = match r.pend with
      | none => s.takeTrap f r cause tval
      | some p => s.takeTrap f r p.cause 0 := by
  cases h : r.pend <;> simp [State.preciseTrap, State.takeArith, h]

@[simp] theorem FRegs.flagged_coreCtl (r : FRegs) (w : W64) : (r.flagged w).coreCtl = r.coreCtl := by
  unfold FRegs.flagged
  dsimp only
  split
  · rfl
  split <;> rfl

@[simp] theorem FRegs.flagged_instret (r : FRegs) (w : W64) : (r.flagged w).instret = r.instret := by
  unfold FRegs.flagged
  dsimp only
  split
  · rfl
  split <;> rfl

/-- OV under OVE raises cause 0x09 when nothing pends (R235, R236). -/
theorem FRegs.flagged_overflow {r : FRegs} (hp : r.pend = none) (ho : r.fxcsr.getLsbD 16 = true) :
    (r.flagged 0x10).pend = some { cause := 0x09, after := 0 } := by
  have hov : ((0x10 : W64)).getLsbD 4 = true := by decide
  simp only [FRegs.flagged, hov, ho, hp, Bool.true_and, if_true, Option.isSome_none, Bool.false_eq_true, if_false]

/-- With FXPRECISE, a trap that an instruction raises is delivered right after it (R214, R237). -/
theorem retireFgr_precise {f : FId} {s : State} {g : Fgr} {r : FRegs} {p : Pend} (hold : g.regs.pend = none) (hp : r.pend = some p)
    (hx : r.fxprecise = true) : s.retireFgr f g.regs r none false =
      (s.retired f g r none).takeTrap f (g.regs.retire r none (Config.instrCycles s.draw)) p.cause 0 := by
  have hpend : (g.regs.retire r none (Config.instrCycles s.draw)).pend = some p := by
    simp only [FRegs.retire, hold, hp]
  simp only [State.retireFgr, State.takeArith, hpend, hold, hx, Option.isSome_some, Option.isNone_none, Bool.false_or, Bool.and_self, if_true]
  rfl

theorem signed_precise : ∀ row ∈ signedRows, ∀ (f : FId) (x : RegF) (s : State) (g : Fgr), s.Runs f g → badReg row.2.1 x = false →
    g.regs.pend = none → g.regs.fxprecise = true → g.regs.fxcsr.getLsbD 16 = true →
    let p := fitted 64 (g.regs.selectsSat x.ss) (row.2.2 (g.regs.rg x.ra).toInt (g.regs.rg x.rb).toInt)
    p.2 = 0x10 →
    let r := g.regs.retire ((g.regs.setG x.rd p.1).flagged p.2) none (Config.instrCycles s.draw)
    exec (row.1 f x) s = .next ((s.retired f g ((g.regs.setG x.rd p.1).flagged p.2) none).takeTrap f r 0x09 0) ∧ r.instret = g.regs.instret + 1 := by
  intro row hrow f x s g hr hb hold hx ho p hp r
  constructor
  · rw [signed_retires row hrow f x s g hr hb]
    refine congrArg _ (retireFgr_precise (p := { cause := 0x09, after := 0 }) hold ?_ ?_)
    · show ((g.regs.setG x.rd p.1).flagged p.2).pend = _
      rw [hp]
      exact FRegs.flagged_overflow (by simpa using hold) (by simpa using ho)
    · simpa [FRegs.fxprecise, FRegs.signedTo] using hx
  · simp [r, FRegs.retire]

/-- Settles O14, by the four places at which a pending trap is delivered. -/
theorem arithmeticTrapDelivery : Obligations.ArithmeticTrapDelivery := by
  refine ⟨State.preciseTrap_eq, signed_precise, fun f x s g => ⟨fun hr hb => ⟨fun hn => ?_, fun p hp => ?_⟩,
    fun p hg hl hp h64 => ?_, fun hr => ?_⟩⟩
  · have hq : g.regs.Quiet := .inl hn
    rw [exec_abar, execAbar, runRegs, runFgr_body hr (by simp [chk5, hb])]
    simp only [hn, Option.isSome_none, Bool.false_eq_true, if_false, State.finish, retireFgr_quiet hq]
  · rw [exec_abar, execAbar, runRegs, runFgr_body hr (by simp [chk5, hb])]
    simp only [hp, Option.isSome_some, if_true, State.finish, State.takeArith]
  · have hd : g.regs.due = true := by simp [FRegs.due, hp, h64]
    have ht : s.takeArith f g.regs = s.takeTrap f g.regs p.cause 0 := by simp only [State.takeArith, hp]
    refine ⟨?_, fun row hrow => ?_⟩
    · simp only [exec_arithTrapDelivery, execArithTrapDelivery, hg, hl, hd, Bool.and_self, if_true, ht]
    · obtain ⟨chk, -, he⟩ := regRows_checked row hrow x
      obtain ⟨body, hbody⟩ := he f s
      rw [hbody, runFgr_due hg hl hd, ht]
  · obtain ⟨hg, hl, hd⟩ := hr
    simp only [exec_arithTrapDelivery, execArithTrapDelivery, hg, hl, hd, Bool.and_false, Bool.false_eq_true, if_false]

-- BRANCHES, JUMPS AND LOOPS -------------------------------------------------------------------------------------------------------------------

section
variable {f : FId} {s : State} {g : Fgr}

/-- An instruction on registers that redirects the PC retires with that target. -/
theorem runRegs_jump {w : W32} {chk : FRegs → Option Nat} {body : FRegs → FRes} {r : FRegs} {t : BitVec 48} (hr : s.Runs f g)
    (hc : chk g.regs = none) (hbody : body g.regs = .jump r t) (hq : r.Quiet) :
    runRegs f w chk body s = .next (s.retired f g r (some t)) := by
  rw [runRegs, runFgr_body hr hc]
  simp only [hbody, State.finish, retireFgr_quiet hq]

theorem runRegs_trap {w : W32} {chk : FRegs → Option Nat} {body : FRegs → FRes} {r : FRegs} {c : Nat} {v : W64} (hr : s.Runs f g)
    (hc : chk g.regs = none) (hbody : body g.regs = .trap r c v) : runRegs f w chk body s = .next (s.preciseTrap f r c v) := by
  rw [runRegs, runFgr_body hr hc]
  simp only [hbody, State.finish]

theorem FRegs.relative_eq {n : Nat} (r : FRegs) (off : BitVec n) : r.relative off.toInt = r.pc + off.signExtend 48 * 4 := by
  rw [FRegs.relative, BitVec.ofInt_mul, BitVec.mul_comm]
  rfl

theorem branchWith_done {cnd : BitVec 3} {x : BraF} {test : W64 → W64 → Bool} {taken : Bool} (hr : s.Runs f g) (hq : g.regs.Quiet)
    (ht : test (g.regs.rg x.ra) (g.regs.rg x.rb) = taken) : branchWith f cnd x test s =
      .next (s.retired f g g.regs (if taken then some (g.regs.pc + x.off.signExtend 48 * 4) else none)) := by
  rw [branchWith, runRegs, runFgr_body hr rfl]
  cases taken <;> simp [ht, State.finish, retireFgr_quiet hq, FRegs.relative_eq]

theorem branch_done (hr : s.Runs f g) (hq : g.regs.Quiet) : ∀ row ∈ branchRows, ∀ x : BraF,
    exec (row.1 f x) s = .next (s.retired f g g.regs
      (if row.2 (g.regs.rg x.ra) (g.regs.rg x.rb) then some (g.regs.pc + x.off.signExtend 48 * 4) else none)) := by
  intro row hrow x
  simp only [branchRows, List.mem_cons, List.not_mem_nil, or_false] at hrow
  rcases hrow with rfl | rfl | rfl | rfl | rfl | rfl
  · exact (exec_beq ..).trans (branchWith_done hr hq (beq_eq_decide ..))
  · exact (exec_bne ..).trans (branchWith_done hr hq (by simp [bne, beq_eq_decide]))
  · exact (exec_blt ..).trans (branchWith_done hr hq (BitVec.slt_eq_decide ..))
  · exact (exec_bge ..).trans (branchWith_done hr hq (BitVec.sle_eq_decide ..))
  · exact (exec_bltu ..).trans (branchWith_done hr hq (BitVec.ult_eq_decide ..))
  · exact (exec_bgeu ..).trans (branchWith_done hr hq (BitVec.ule_eq_decide ..))

theorem ofInt_words (n : BitVec 12) : BitVec.ofInt 48 (4 * (n.toNat : Int)) = n.setWidth 48 * 4 := by
  rw [BitVec.ofInt_mul, BitVec.ofInt_natCast, BitVec.ofNat_toNat, BitVec.mul_comm]
  rfl

theorem ofInt_words_succ (n : BitVec 12) : BitVec.ofInt 48 (4 * ((n.toNat : Int) + 1)) = (n.setWidth 48 + 1) * 4 := by
  rw [BitVec.ofInt_mul, BitVec.ofInt_add, BitVec.ofInt_natCast, BitVec.ofNat_toNat, BitVec.mul_comm]
  rfl

end

/-- Settles O19: the test, target and return address of each branch and jump, and the two ways of LOOP. -/
theorem controlTransfer : Obligations.ControlTransfer := by
  refine ⟨fun f s g hr hq => ⟨branch_done hr hq, fun x => ?_, fun x => ⟨fun h => ?_, fun h => ?_⟩⟩,
    fun f x s g hr hq hi hd => ⟨fun h0 => ?_, fun h0 => ?_⟩⟩
  · rw [exec_jal]
    exact runRegs_jump hr rfl (by rw [FRegs.relative_eq]; rfl) (FRegs.setG_quiet hq)
  · rw [exec_jalr]
    exact runRegs_jump hr rfl (if_neg (not_not.2 h)) (FRegs.setG_quiet hq)
  · rw [exec_jalr]
    exact runRegs_trap hr rfl (if_pos h)
  · rw [exec_loop]
    refine runRegs_jump hr (by rw [beq_eq_false_iff_ne.2 hi, hd]; rfl) ?_ hq
    simp only [h0, if_true, FRegs.relative, ofInt_words_succ]
  · rw [exec_loop]
    refine runRegs_jump hr (by rw [beq_eq_false_iff_ne.2 hi, hd]; rfl) ?_ hq
    simp only [h0, if_false, FRegs.relative, ofInt_words]

end Sys2Proof.Machine
end

section
/-!
PROOFS. The scalar loads and stores (R247, R248).
-/

namespace Sys2Proof.Machine

-- LENGTHS AND NUMBERS OF BYTES ----------------------------------------------------------------------------------------------------------------

@[simp] theorem length_memRead (m : List Host.Cell) (a n : Nat) : (memRead m a n).length = n := by
  induction n generalizing a with
  | zero => rfl
  | succ n ih => simp [memRead, ih]

theorem length_slice_le (bs : List Byte) (a n : Nat) : (slice bs a n).length ≤ n := by
  simp [slice]

theorem windowRead_length {ws : List (Nat × List Byte)} {a n : Nat} {bs : List Byte} (h : windowRead ws a n = some bs) : bs.length ≤ n := by
  unfold windowRead at h
  split at h
  · cases h
  · cases h
    exact length_slice_le ..

theorem leNat_lt_of_length {l : List Byte} {n : Nat} (h : l.length ≤ n) : leNat l < 256 ^ n :=
  Nat.lt_of_lt_of_le (leNat_lt l) (Nat.pow_le_pow_right (by decide) h)

-- WHAT A LOAD GIVES ---------------------------------------------------------------------------------------------------------------------------

theorem cachedRead_length {s t : State} {f : FId} {g : Fgr} {n page policy len : Nat} {l : Loc} {bs : List Byte}
    (h : s.cachedRead f g n page policy l len = .ok bs t) : bs.length ≤ len := by
  unfold State.cachedRead at h
  dsimp only at h
  split at h
  · split at h
    · cases h
      exact length_slice_le ..
    · cases h
      simp
  · cases h
    simp

theorem fgrRead_length {s t : State} {f : FId} {g : Fgr} {a n : Nat} {bs : List Byte} (h : s.fgrRead f g a n = .ok bs t) : bs.length ≤ n := by
  unfold State.fgrRead at h
  split at h
  · split at h
    · cases h
    split at h
    · cases h
    · cases h
      simp
  split at h
  · cases h
  split at h
  · rename_i hw
    cases h
    exact windowRead_length hw
  split at h
  · cases h
  split at h
  · cases h
  split at h
  · cases h
  · exact cachedRead_length h

theorem load_length {s t : State} {f : FId} {g : Fgr} {ldm : Bool} {a n : Nat} {bs : List Byte} (h : s.load f g ldm a n = .ok bs t) :
    bs.length ≤ n := by
  unfold State.load at h
  split at h
  · split at h
    · cases h
      simp
    · cases h
  · exact fgrRead_length h

-- SCALAR LOADS AND STORES ---------------------------------------------------------------------------------------------------------------------

section
variable {f : FId} {x : ImmF} {s : State} {g : Fgr}

/-- What a load of `len` bytes comes to, of memory or of LDM (R247, R276). -/
def LoadSpec (s : State) (f : FId) (g : Fgr) (x : ImmF) (i : Instr) (ldm : Bool) (len : Nat) (put : Nat → FRegs) : Prop :=
  let a := g.regs.rg x.ra + x.imm.signExtend 64
  (a.toNat % len ≠ 0 → exec i s = .next (s.preciseTrap f g.regs 0x07 a)) ∧
  (a.toNat % len = 0 → s.load f g ldm a.toNat len = .bad → exec i s = .next (s.preciseTrap f g.regs 0x05 a)) ∧
  (a.toNat % len = 0 → s.load f g ldm a.toNat len = .wait → exec i s = .next s) ∧
  (∀ bs t, a.toNat % len = 0 → s.load f g ldm a.toNat len = .ok bs t → g.regs.Quiet → exec i s = .next (t.retired f g (put (leNat bs)) none))

theorem loadWith_spec {i : Instr} {ldm : Bool} {fn3 : BitVec 3} {len : Nat} {put : FRegs → Nat → FRegs} {value : Nat → FRegs} (hr : s.Runs f g)
    (hi : exec i s = loadWith f ldm fn3 len x put s) (hv : ∀ n, n < 256 ^ len → put g.regs n = value n)
    (hq : g.regs.Quiet → ∀ n, (put g.regs n).Quiet) : LoadSpec s f g x i ldm len value := by
  have he : exec i s = _ := hi.trans (runFgr_body hr rfl)
  have hea : g.regs.eaImm x = g.regs.rg x.ra + x.imm.signExtend 64 := rfl
  rw [hea] at he
  dsimp only at he
  generalize ha : g.regs.rg x.ra + x.imm.signExtend 64 = a at he
  rw [LoadSpec, ha]
  refine ⟨fun hm => ?_, fun hm hl => ?_, fun hm hl => ?_, fun bs t hm hl hqr => ?_⟩
  · rw [he, if_pos hm]; rfl
  · rw [he, if_neg (not_not.2 hm), hl]; rfl
  · rw [he, if_neg (not_not.2 hm), hl]; rfl
  · rw [he, if_neg (not_not.2 hm), hl, ← hv _ (leNat_lt_of_length (load_length hl))]
    exact congrArg _ (retireFgr_quiet (hq hqr _))

/-- What a store of the bytes `bs` comes to. -/
def StoreSpec (s : State) (f : FId) (g : Fgr) (x : ImmF) (i : Instr) (ldm : Bool) (len : Nat) (bs : List Byte) : Prop :=
  let a := g.regs.rg x.ra + x.imm.signExtend 64
  (a.toNat % len ≠ 0 → exec i s = .next (s.preciseTrap f g.regs 0x07 a)) ∧
  (a.toNat % len = 0 → s.store f g ldm a.toNat bs = .bad → exec i s = .next (s.preciseTrap f g.regs 0x06 a)) ∧
  (a.toNat % len = 0 → s.store f g ldm a.toNat bs = .wait → exec i s = .next s) ∧
  (∀ cs t, a.toNat % len = 0 → s.store f g ldm a.toNat bs = .ok cs t → g.regs.Quiet → exec i s = .next (t.retired f g g.regs none))

theorem storeWith_spec {i : Instr} {ldm : Bool} {fn3 : BitVec 3} {len v : Nat} {data : FRegs → Nat} (hr : s.Runs f g)
    (hi : exec i s = storeWith f ldm fn3 len x data s) (hv : data g.regs = v) : StoreSpec s f g x i ldm len (leBytes len v) := by
  subst hv
  have he : exec i s = _ := hi.trans (runFgr_body hr rfl)
  have hea : g.regs.eaImm x = g.regs.rg x.ra + x.imm.signExtend 64 := rfl
  rw [hea] at he
  dsimp only at he
  generalize ha : g.regs.rg x.ra + x.imm.signExtend 64 = a at he
  rw [StoreSpec, ha]
  refine ⟨fun hm => ?_, fun hm hl => ?_, fun hm hl => ?_, fun cs t hm hl hqr => ?_⟩
  · rw [he, if_pos hm]; rfl
  · rw [he, if_neg (not_not.2 hm), hl]; rfl
  · rw [he, if_neg (not_not.2 hm), hl]; rfl
  · rw [he, if_neg (not_not.2 hm), hl]
    exact congrArg _ (retireFgr_quiet hqr)

theorem ofInt_sint (w v : Nat) : BitVec.ofInt 64 (sint w v) = (BitVec.ofNat w v).signExtend 64 := by
  have h : sint w v = (BitVec.ofNat w v).toInt := by
    rw [BitVec.toInt_eq_toNat_cond, BitVec.toNat_ofNat]
    rfl
  rw [h]
  rfl

theorem ofNat_setWidth {w v : Nat} (h : v < 2 ^ w) : BitVec.ofNat 64 v = (BitVec.ofNat w v).setWidth 64 := by
  apply BitVec.eq_of_toNat_eq
  rw [BitVec.toNat_setWidth, BitVec.toNat_ofNat, BitVec.toNat_ofNat, Nat.mod_eq_of_lt h]

end

theorem load_spec : ∀ row ∈ loadRows, ∀ (f : FId) (x : ImmF) (s : State) (g : Fgr), s.Runs f g → ∀ ldm : Bool,
    LoadSpec s f g x (if ldm then row.2.1 f x else row.1 f x) ldm row.2.2.1 (row.2.2.2 g.regs x.rd) := by
  intro row hrow f x s g hr ldm
  have hg : g.regs.Quiet → ∀ v, (g.regs.setG x.rd v).Quiet := fun hq _ => FRegs.setG_quiet hq
  simp only [loadRows, List.mem_cons, List.not_mem_nil, or_false] at hrow
  rcases hrow with rfl | rfl | rfl | rfl | rfl | rfl | rfl | rfl <;> cases ldm
  · exact loadWith_spec hr (exec_lb ..) (fun n _ => by rw [putSigned, ofInt_sint]) fun hq n => hg hq _
  · exact loadWith_spec hr (exec_lbL ..) (fun n _ => by rw [putSigned, ofInt_sint]) fun hq n => hg hq _
  · exact loadWith_spec hr (exec_lh ..) (fun n _ => by rw [putSigned, ofInt_sint]) fun hq n => hg hq _
  · exact loadWith_spec hr (exec_lhL ..) (fun n _ => by rw [putSigned, ofInt_sint]) fun hq n => hg hq _
  · exact loadWith_spec hr (exec_lw ..) (fun n _ => by rw [putSigned, ofInt_sint]) fun hq n => hg hq _
  · exact loadWith_spec hr (exec_lwL ..) (fun n _ => by rw [putSigned, ofInt_sint]) fun hq n => hg hq _
  · exact loadWith_spec hr (exec_ld ..) (fun n _ => rfl) fun hq n => hg hq _
  · exact loadWith_spec hr (exec_ldL ..) (fun n _ => rfl) fun hq n => hg hq _
  · exact loadWith_spec hr (exec_lbu ..) (fun n h => by rw [putUnsigned, ofNat_setWidth (w := 8) h]) fun hq n => hg hq _
  · exact loadWith_spec hr (exec_lbuL ..) (fun n h => by rw [putUnsigned, ofNat_setWidth (w := 8) h]) fun hq n => hg hq _
  · exact loadWith_spec hr (exec_lhu ..) (fun n h => by rw [putUnsigned, ofNat_setWidth (w := 16) h]) fun hq n => hg hq _
  · exact loadWith_spec hr (exec_lhuL ..) (fun n h => by rw [putUnsigned, ofNat_setWidth (w := 16) h]) fun hq n => hg hq _
  · exact loadWith_spec hr (exec_lwu ..) (fun n h => by rw [putUnsigned, ofNat_setWidth (w := 32) h]) fun hq n => hg hq _
  · exact loadWith_spec hr (exec_lwuL ..) (fun n h => by rw [putUnsigned, ofNat_setWidth (w := 32) h]) fun hq n => hg hq _
  · exact loadWith_spec hr (exec_lq ..) (fun n _ => rfl) fun hq n => FRegs.setW_quiet hq
  · exact loadWith_spec hr (exec_lqL ..) (fun n _ => rfl) fun hq n => FRegs.setW_quiet hq

theorem store_spec : ∀ row ∈ storeRows, ∀ (f : FId) (x : ImmF) (s : State) (g : Fgr), s.Runs f g → ∀ ldm : Bool,
    StoreSpec s f g x (if ldm then row.2.1 f x else row.1 f x) ldm row.2.2.1 (leBytes row.2.2.1 (row.2.2.2 g.regs x.rd)) := by
  intro row hrow f x s g hr ldm
  simp only [storeRows, List.mem_cons, List.not_mem_nil, or_false] at hrow
  rcases hrow with rfl | rfl | rfl | rfl | rfl <;> cases ldm
  · exact storeWith_spec hr (exec_sb ..) rfl
  · exact storeWith_spec hr (exec_sbL ..) rfl
  · exact storeWith_spec hr (exec_sh ..) rfl
  · exact storeWith_spec hr (exec_shL ..) rfl
  · exact storeWith_spec hr (exec_sw ..) rfl
  · exact storeWith_spec hr (exec_swL ..) rfl
  · exact storeWith_spec hr (exec_sd ..) rfl
  · exact storeWith_spec hr (exec_sdL ..) rfl
  · exact storeWith_spec hr (exec_sq ..) rfl
  · exact storeWith_spec hr (exec_sqL ..) rfl

/-- Settles O15, row by row through `loadWith_spec` and `storeWith_spec`. -/
theorem loadsAndStores : Obligations.LoadsAndStores :=
  fun f x s g hr => ⟨fun row hrow ldm => load_spec row hrow f x s g hr ldm, fun row hrow ldm => store_spec row hrow f x s g hr ldm⟩

end Sys2Proof.Machine
end

section
/-!
PROOFS. One access of memory, the atomics and the fences (R270, R271, R300).
-/

namespace Sys2Proof.Machine

-- REACHING A PLACE ----------------------------------------------------------------------------------------------------------------------------

/-- An access changes the dies, and a write the instances; nothing else. -/
theorem State.reach_eq (s : State) (n page policy : Nat) (l : Loc) (w : Bool) : s.reach n page policy l w =
    { s with dies := (s.reach n page policy l w).dies, insts := (s.reach n page policy l w).insts } := by
  unfold State.reach
  split
  · rfl
  · dsimp only
    split <;> rfl

@[simp] theorem State.reach_mem (s : State) (n page policy : Nat) (l : Loc) (w : Bool) : (s.reach n page policy l w).mem = s.mem := by
  rw [State.reach_eq]
@[simp] theorem State.reach_jobs (s : State) (n page policy : Nat) (l : Loc) (w : Bool) : (s.reach n page policy l w).jobs = s.jobs := by
  rw [State.reach_eq]
@[simp] theorem State.reach_events (s : State) (n page policy : Nat) (l : Loc) (w : Bool) : (s.reach n page policy l w).events = s.events := by
  rw [State.reach_eq]
@[simp] theorem State.reach_poison (s : State) (n page policy : Nat) (l : Loc) (w : Bool) : (s.reach n page policy l w).poison = s.poison := by
  rw [State.reach_eq]
@[simp] theorem State.reach_draw (s : State) (n page policy : Nat) (l : Loc) (w : Bool) : (s.reach n page policy l w).draw = s.draw := by
  rw [State.reach_eq]

@[simp] theorem State.reach_read_insts (s : State) (n page policy : Nat) (l : Loc) : (s.reach n page policy l false).insts = s.insts := by
  unfold State.reach
  split <;> rfl

theorem State.fgr?_reach (s : State) (n page policy : Nat) (l : Loc) (w : Bool) (f : FId) : (s.reach n page policy l w).fgr? f = s.fgr? f := by
  unfold State.reach
  split
  · rfl
  · rename_i dev
    have h : ∀ t : State, t.dies = (s.modDie (devDie dev) fun d => { d with cc := d.cc.access n (dev / 64 * 64) policy w }).dies →
        t.fgr? f = s.fgr? f := fun t ht => by
      rw [State.fgr?, ht]
      exact State.fgr?_modDie s (devDie dev) (fun d => { d with cc := d.cc.access n (dev / 64 * 64) policy w }) (fun _ => rfl) f
    dsimp only
    split
    · exact h _ rfl
    · exact h _ rfl

-- INSTANCE MEMORY OF A MORSEL -----------------------------------------------------------------------------------------------------------------

section
variable {s : State} {f : FId} {g : Fgr} {m : Morsel} {a n : Nat} {bs : List Byte} {e : W64} {l : Loc}

theorem fgrRead_morsel (h2 : g.regs.mode ≠ 2) (hm : g.morsel = some m) : s.load f g false a n =
    match windowRead (s.windows m) a n with
    | some bs => .ok bs s
    | none => match s.translate m.inst a with
      | none => .bad
      | some (e, l) =>
        if s.poisoned l then .bad
        else if s.pageBusy m.inst l then .wait
        else s.cachedRead f g m.inst (a / Config.pageBytes) ((s.instD m.inst).policy e) l n := by
  simp only [State.load, State.fgrRead, h2, hm, Bool.false_eq_true, if_false] <;> rfl

theorem fgrWrite_morsel (h2 : g.regs.mode ≠ 2) (hm : g.morsel = some m) : s.fgrWrite f g a bs =
    if inWindow (s.windows m) a then .bad
    else match s.translate m.inst a with
      | none => .bad
      | some (e, l) =>
        if !pteWrite e || s.poisoned l then .bad
        else if s.pageBusy m.inst l then .wait
        else .ok [] (s.storeAt f m.inst (a / Config.pageBytes) ((s.instD m.inst).policy e) l bs) := by
  simp only [State.fgrWrite, h2, hm, if_false] <;> rfl

/-- A write outside the windows to a place that can be written is done there. -/
theorem fgrWrite_done (h2 : g.regs.mode ≠ 2) (hm : g.morsel = some m) (hwin : inWindow (s.windows m) a = false)
    (ht : s.translate m.inst a = some (e, l)) (hw : e.getLsbD 62 = true) (hp : s.poisoned l = false) (hb : s.pageBusy m.inst l = false) :
    s.fgrWrite f g a bs = .ok [] (s.storeAt f m.inst (a / Config.pageBytes) ((s.instD m.inst).policy e) l bs) := by
  simp [fgrWrite_morsel h2 hm, hwin, ht, pteWrite, hw, hp, hb]

theorem cachedRead_uncached {page policy : Nat} (h : assocGet (l.key m.inst / 64) g.dcache = none) :
    ∃ t, s.cachedRead f g m.inst page policy l n = .ok (memRead s.mem (l.key m.inst) n) t ∧ t.mem = s.mem ∧ t.insts = s.insts ∧ t.jobs = s.jobs ∧
      t.events = s.events := by
  simp only [State.cachedRead, h]
  refine ⟨_, rfl, ?_⟩
  split <;> simp

end

theorem State.storeAt_eq (s : State) (f : FId) (n page policy : Nat) (l : Loc) (bs : List Byte) : s.storeAt f n page policy l bs =
    { s with mem := memWrite s.mem (l.key n) bs
             dies := (s.storeAt f n page policy l bs).dies, insts := (s.storeAt f n page policy l bs).insts } := by
  rw [State.storeAt, State.reach_eq]
  rfl

theorem State.fgr?_storeAt {s : State} {f : FId} {g : Fgr} (hg : s.fgr? f = some g) (n page policy : Nat) (l : Loc) (bs : List Byte) :
    ∃ c, (s.storeAt f n page policy l bs).fgr? f = some { g with dcache := c } :=
  ⟨_, State.fgr?_modFgr _ ((State.fgr?_reach ..).trans hg)⟩

theorem inLdm_eq_true {a n : Nat} : inLdm a n = true ↔ a + n ≤ 0x40000 := decide_eq_true_iff

theorem load_ldm (s : State) (f : FId) (g : Fgr) (a n : Nat) : s.load f g true a n = if a + n ≤ 0x40000 then .ok (memRead g.ldm a n) s else .bad := by
  simp only [State.load, if_true, inLdm_eq_true]

theorem store_ldm (s : State) (f : FId) (g : Fgr) (a : Nat) (bs : List Byte) : s.store f g true a bs =
    if a + bs.length ≤ 0x40000 then .ok [] (s.modFgr f fun h => { h with ldm := memWrite h.ldm a bs }) else .bad := by
  simp only [State.store, if_true, inLdm_eq_true]

theorem store_ldm_done {s : State} {f : FId} {g : Fgr} {a : Nat} {bs : List Byte} (h : a + bs.length ≤ 0x40000) :
    ∃ t, s.store f g true a bs = .ok [] t ∧ t.mem = s.mem ∧ t.insts = s.insts ∧ t.jobs = s.jobs ∧ t.draw = s.draw ∧
      (∀ f', f' ≠ f → t.fgr? f' = s.fgr? f') ∧ (s.fgr? f = some g → t.fgr? f = some { g with ldm := memWrite g.ldm a bs }) :=
  ⟨s.modFgr f fun h => { h with ldm := memWrite h.ldm a bs }, by rw [store_ldm, if_pos h], rfl, rfl, rfl, rfl, fun _ hf => State.fgr?_modFgr_ne _ hf,
    fun hg => State.fgr?_modFgr _ hg⟩

/-- Settles O16: LDM by its size, memory by the branches of `fgrRead_morsel` and `fgrWrite_morsel`. -/
theorem memoryAccesses : Obligations.MemoryAccesses := by
  refine ⟨fun f s g a n bs => ⟨fun h => ?_, fun h => ?_, store_ldm_done, fun h => ?_⟩, fun f s g m a n bs h2 hm => ?_⟩
  · rw [load_ldm, if_pos h]
  · rw [load_ldm, if_neg (by omega)]
  · rw [store_ldm, if_neg (by omega)]
  have hr := fgrRead_morsel (s := s) (f := f) (a := a) (n := n) h2 hm
  have hw : s.store f g false a bs = _ := fgrWrite_morsel (s := s) (f := f) (a := a) (bs := bs) h2 hm
  refine ⟨fun ws h => ?_, fun hn ht => ?_, fun h => ?_, fun e l ht => ⟨fun hn hp => ?_, fun hn hp hb => ?_, fun hn hp hb hc => ?_, fun h => ?_,
    fun hi he hp hb => ?_, fun hi he hp hb => ?_⟩⟩
  · rw [hr, h]
  · rw [hr, hn, ht]
  · rw [hw]
    rcases h with h | h
    · rw [if_pos h]
    · simp only [h, ite_self]
  · simp [hr, hn, ht, hp]
  · simp [hr, hn, ht, hp, hb]
  · simp only [hr, hn, ht, hp, hb, Bool.false_eq_true, if_false]
    exact cachedRead_uncached hc
  · have hbad : (!pteWrite e || s.poisoned l) = true := by rcases h with h | h <;> simp only [pteWrite, h] <;> simp
    rw [hw, ht]
    simp only [hbad, if_true, ite_self]
  · simp [hw, ht, hi, pteWrite, he, hp, hb]
  · refine ⟨_, fgrWrite_done h2 hm hi ht he hp hb, ?_⟩
    rw [State.storeAt_eq]
    exact ⟨rfl, rfl, rfl, rfl⟩

-- ATOMICS AND FENCES --------------------------------------------------------------------------------------------------------------------------

/-- A Forager that drops a line and retires holds the new registers, and not that line. -/
theorem dropLine_retired {s : State} {f : FId} {g h : Fgr} {r : FRegs} {k d : Nat} {mem : List Host.Cell} (hg : s.fgr? f = some h) (hd : s.draw = d)
    (hm : s.mem = mem) :
    let t := (s.modFgr f fun h => { h with dcache := h.dcache.filter (·.1 != k) }).retired f g r none
    (t.fgr? f).map (·.regs) = some (g.regs.retire r none (Config.instrCycles d)) ∧
      (∀ h, t.fgr? f = some h → ∀ p ∈ h.dcache, p.1 ≠ k) ∧ t.mem = mem := by
  intro t
  have ht : t.fgr? f = some { h with dcache := h.dcache.filter (·.1 != k), regs := g.regs.retire r none (Config.instrCycles d) } := by
    subst hd
    exact State.fgr?_modFgr _ (State.fgr?_modFgr (s := s) _ hg)
  refine ⟨by rw [ht]; rfl, fun h' hh p hp => ?_, hm⟩
  rw [ht, Option.some.injEq] at hh
  subst hh
  simpa using (List.mem_filter.1 hp).2

/-- What an atomic comes to on memory that can be written (R271): the old value is returned, the line leaves the data cache, and the new value, if
any, is stored. -/
theorem amoWith_done {s : State} {f : FId} {g : Fgr} {m : Morsel} {e : W64} {l : Loc} {x : RegF} {fn : BitVec 6} {upd : FRegs → W64 → Option W64}
    (hr : s.Runs f g) (hb : badReg {} x = false) (ha : (g.regs.rg x.ra).toNat % 8 = 0) (h2 : g.regs.mode ≠ 2) (hm : g.morsel = some m)
    (hwin : inWindow (s.windows m) (g.regs.rg x.ra).toNat = false) (ht : s.translate m.inst (g.regs.rg x.ra).toNat = some (e, l))
    (hw : e.getLsbD 62 = true) (hp : s.poisoned l = false) (hbusy : s.pageBusy m.inst l = false) (hq : g.regs.Quiet) :
    let old := BitVec.ofNat 64 (leNat (memRead s.mem (l.key m.inst) 8))
    ∃ t, amoWith f fn x upd s = .next t ∧ t.jobs = s.jobs ∧
      (t.fgr? f).map (·.regs) = some (g.regs.retire (g.regs.setG x.rd old) none (Config.instrCycles s.draw)) ∧
      (∀ h, t.fgr? f = some h → ∀ p ∈ h.dcache, p.1 ≠ l.key m.inst / 64) ∧
      t.mem = match upd g.regs old with
        | none => s.mem
        | some v => memWrite s.mem (l.key m.inst) (leBytes 8 v.toNat) := by
  intro old
  have hold : s.amoOld g (g.regs.rg x.ra).toNat = old := by simp only [State.amoOld, h2, hm, ht, if_false, old]
  have hkey : s.placeKey g (g.regs.rg x.ra).toNat = l.key m.inst := by simp only [State.placeKey, hm, ht]
  obtain ⟨hg, -, -⟩ := id hr
  rw [amoWith, runFgr_body hr (by simp [chk5, hb])]
  simp only [ha, ne_eq, not_true_eq_false, if_false, hold, fgrWrite_done h2 hm hwin ht hw hp hbusy, hkey, State.finish]
  rw [retireFgr_quiet (FRegs.setG_quiet hq)]
  cases upd g.regs old with
  | none => exact ⟨_, rfl, rfl, dropLine_retired hg rfl rfl⟩
  | some v =>
    obtain ⟨c, hc⟩ := State.fgr?_storeAt hg m.inst ((g.regs.rg x.ra).toNat / Config.pageBytes) ((s.instD m.inst).policy e) l (leBytes 8 v.toNat)
    refine ⟨_, rfl, ?_, dropLine_retired hc ?_ ?_⟩
    · rw [State.storeAt_eq]; rfl
    · rw [State.storeAt_eq]; rfl
    · rw [State.storeAt_eq]; rfl

theorem fenceWith_done {s : State} {f : FId} {g : Fgr} {x : RegF} {fn : BitVec 6} {acq : Bool} (hr : s.Runs f g) (hq : g.regs.Quiet)
    (hb : badReg { rd := false, ra := false, rb := false } x = false) :
    fenceWith f fn x acq s = .next ((if acq then s.modFgr f fun h => { h with dcache := [] } else s).retired f g g.regs none) := by
  rw [fenceWith, runFgr_body hr (by simp [chk5, hb])]
  simp only [State.finish, retireFgr_quiet hq]

theorem amoWith_misaligned {s : State} {f : FId} {g : Fgr} {x : RegF} {fn : BitVec 6} {upd : FRegs → W64 → Option W64} (hr : s.Runs f g)
    (hb : badReg {} x = false) (ha : (g.regs.rg x.ra).toNat % 8 ≠ 0) :
    amoWith f fn x upd s = .next (s.preciseTrap f g.regs 0x07 (g.regs.rg x.ra)) := by
  rw [amoWith, runFgr_body hr (by simp [chk5, hb])]
  simp only [ha, ne_eq, not_false_eq_true, if_true, State.finish]

/-- Every atomic is `amoWith` with the value that its row stores. -/
theorem atomic_eq : ∀ row ∈ atomicRows, ∃ fn : BitVec 6, ∀ f x s, exec (row.1 f x) s = amoWith f fn x (fun r old => row.2 r x old) s := by
  intro row hrow
  simp only [atomicRows, List.mem_cons, List.not_mem_nil, or_false] at hrow
  rcases hrow with rfl | rfl | rfl
  · exact ⟨_, exec_amoadd⟩
  · exact ⟨_, exec_amoswap⟩
  · exact ⟨_, exec_amocas⟩

/-- Settles O18: the atomics by `amoWith_done`, the fences by `fenceWith_done`. -/
theorem atomicsAndFences : Obligations.AtomicsAndFences := by
  refine ⟨fun row hrow f x s g m e l hr hb => ?_, fun f x s g hr hq hb => ⟨?_, ?_, ?_⟩⟩
  · obtain ⟨fn, he⟩ := atomic_eq row hrow
    refine ⟨fun ha => ?_, fun ha h2 hm hwin ht hw hp hbusy hq => ?_⟩
    · rw [he, amoWith_misaligned hr hb ha]
    · rw [he]
      exact amoWith_done hr hb ha h2 hm hwin ht hw hp hbusy hq
  · rw [exec_fenceRel]
    exact fenceWith_done hr hq hb
  · rw [exec_fenceAcq]
    exact fenceWith_done hr hq hb
  · rw [exec_fence]
    exact fenceWith_done hr hq hb

end Sys2Proof.Machine
end

section
/-!
PROOFS. The control registers (R212, R213, R250).
-/

namespace Sys2Proof.Machine

-- WHICH REGISTER A NUMBER NAMES ---------------------------------------------------------------------------------------------------------------

theorem crRow_reads : ∀ row ∈ crRows, ∃ c, crOf row.1.toNat = some c ∧ (∀ r : FRegs, r.readCr c = row.2.1 r) ∧
    ∀ mode, crReadable mode c = (row.2.2 || mode != 0) := by
  intro row hrow
  simp only [crRows, List.mem_cons, List.not_mem_nil, or_false] at hrow
  rcases hrow with rfl | rfl | rfl | rfl | rfl | rfl | rfl | rfl | rfl | rfl | rfl | rfl | rfl | rfl
  all_goals exact ⟨_, rfl, fun _ => rfl, fun _ => rfl⟩

/-- A number that no row has is unlisted. -/
theorem crOf_unlisted {n : BitVec 12} (h : ∀ row ∈ crRows, n ≠ row.1) : crOf n.toNat = none := by
  simp only [crRows, List.forall_mem_cons, List.not_mem_nil, false_imp_iff, implies_true, and_true, ne_eq, ← BitVec.toNat_inj] at h
  unfold crOf
  split
  all_goals simp_all

theorem crRow_writes : ∀ row ∈ crWriteRows, ∃ c, crOf row.1.toNat = some c ∧ (∀ (r : FRegs) (v : W64), r.writeCr v c = row.2.2.2 r v) ∧
    (∀ (r : FRegs) (v : W64), crReserved r v c = (v &&& ~~~row.2.2.1 != 0 || crValueReserved row.1 r v)) ∧
    (∀ mode old v, mode ≤ 2 → crWritable mode old v c = (decide (mode ∈ row.2.1) || (row.1 == 0x001 && v == 0))) ∧
    (c = .fxcsr ↔ row.1 = 0x000) := by
  intro row hrow
  simp only [crWriteRows, List.mem_cons, List.not_mem_nil, or_false] at hrow
  rcases hrow with rfl | rfl | rfl | rfl | rfl | rfl | rfl | rfl | rfl | rfl | rfl | rfl | rfl
  all_goals
    refine ⟨_, rfl, fun _ _ => rfl, fun r v => ?_, fun mode old v hm => ?_, by decide⟩
    · simp [crReserved, crValueReserved, crBits, bits]
    · obtain rfl | rfl | rfl : mode = 0 ∨ mode = 1 ∨ mode = 2 := by omega
      all_goals simp [crWritable, crReadable]


-- READING AND WRITING -------------------------------------------------------------------------------------------------------------------------

section
variable {f : FId} {x : ImmF} {s : State} {g : Fgr}

theorem rdcr_unlisted (hr : s.Runs f g) (hc : crOf x.imm.toNat = none) :
    exec (.rdcr f x) s = .next (s.preciseTrap f g.regs 0x02 ((immWord 0x35 0 x).setWidth 64)) := by
  rw [exec_rdcr, execRdcr]
  exact runRegs_refused hr (by simp [hc, firstCause])

theorem rdcr_done {c : Cr} (hr : s.Runs f g) (ha : x.ra = 0) (hc : crOf x.imm.toNat = some c) (hm : crReadable g.regs.mode c = true)
    (hq : g.regs.Quiet) : exec (.rdcr f x) s = .next (s.retired f g (g.regs.setG x.rd (g.regs.readCr c)) none) := by
  rw [exec_rdcr, execRdcr, runRegs, runFgr_body hr (by simp [hc, ha, hm, firstCause])]
  simp only [hc, State.finish, retireFgr_quiet (FRegs.setG_quiet hq)]

theorem rdcr_mode {c : Cr} (hr : s.Runs f g) (ha : x.ra = 0) (hc : crOf x.imm.toNat = some c) (hm : crReadable g.regs.mode c = false) :
    exec (.rdcr f x) s = .next (s.preciseTrap f g.regs 0x08 ((immWord 0x35 0 x).setWidth 64)) := by
  rw [exec_rdcr, execRdcr]
  exact runRegs_refused hr (by simp [hc, ha, hm, firstCause])

variable {fn3 : BitVec 3} {upd : W64 → W64 → W64} {c : Cr} {v : W64}

theorem crWith_mode (hr : s.Runs f g) (hd : x.rd = 0) (hc : crOf x.imm.toNat = some c) (hv : upd (g.regs.readCr c) (g.regs.rg x.ra) = v)
    (hw : crWritable g.regs.mode (g.regs.readCr c) v c = false) :
    crWith f fn3 x upd s = .next (s.preciseTrap f g.regs 0x08 ((immWord 0x35 fn3 x).setWidth 64)) := by
  rw [crWith]
  exact runRegs_refused hr (by simp [hc, hd, hv, hw, firstCause])

theorem crWith_reserved (hr : s.Runs f g) (hd : x.rd = 0) (hc : crOf x.imm.toNat = some c) (hv : upd (g.regs.readCr c) (g.regs.rg x.ra) = v)
    (hw : crWritable g.regs.mode (g.regs.readCr c) v c = true) (hres : crReserved g.regs v c = true) :
    crWith f fn3 x upd s = .next (s.preciseTrap f g.regs 0x03 ((immWord 0x35 fn3 x).setWidth 64)) := by
  rw [crWith]
  exact runRegs_refused hr (by simp [hc, hd, hv, hw, hres, firstCause])

theorem crWith_body (hr : s.Runs f g) (hd : x.rd = 0) (hc : crOf x.imm.toNat = some c) (hv : upd (g.regs.readCr c) (g.regs.rg x.ra) = v)
    (hw : crWritable g.regs.mode (g.regs.readCr c) v c = true) (hres : crReserved g.regs v c = false) : crWith f fn3 x upd s =
      .next (s.retireFgr f g.regs (g.regs.writeCr v c) none (decide (c = .fxcsr ∧ clearsEnable g.regs.fxcsr v = true))) := by
  rw [crWith, runRegs, runFgr_body hr (by simp [hc, hd, hv, hw, hres, firstCause])]
  simp only [hc, hv]
  by_cases h : c = .fxcsr ∧ clearsEnable g.regs.fxcsr v = true
  · rw [if_pos h, decide_eq_true h]
    rfl
  · rw [if_neg h, decide_eq_false h]
    rfl

/-- With no trap pending, retirement delivers none, asked or not. -/
theorem retireFgr_none {r : FRegs} {t : Option (BitVec 48)} {deliver : Bool} (hp : r.pend = none) :
    s.retireFgr f g.regs r t deliver = s.retired f g r t := by
  have h : (g.regs.retire r t (Config.instrCycles s.draw)).pend = none := by simp [FRegs.retire, hp]
  simp only [State.retireFgr, h, Option.isSome_none, Bool.false_and, Bool.false_eq_true, if_false]
  rfl

theorem FRegs.writeCr_pend (r : FRegs) (v : W64) (c : Cr) : (r.writeCr v c).pend = r.pend := by cases c <;> rfl

theorem crWith_written (hr : s.Runs f g) (hd : x.rd = 0) (hc : crOf x.imm.toNat = some c) (hv : upd (g.regs.readCr c) (g.regs.rg x.ra) = v)
    (hw : crWritable g.regs.mode (g.regs.readCr c) v c = true) (hres : crReserved g.regs v c = false) (hp : g.regs.pend = none) :
    crWith f fn3 x upd s = .next (s.retired f g (g.regs.writeCr v c) none) := by
  rw [crWith_body hr hd hc hv hw hres, retireFgr_none ((FRegs.writeCr_pend ..).trans hp)]

/-- A trap that pends is delivered when the instruction that retires asks for it (R237). -/
theorem retireFgr_deliver {r : FRegs} {p q : Pend} (hold : g.regs.pend = some q) (hp : r.pend = some p) :
    s.retireFgr f g.regs r none true =
      (s.retired f g r none).takeTrap f (g.regs.retire r none (Config.instrCycles s.draw)) p.cause 0 := by
  have h : (g.regs.retire r none (Config.instrCycles s.draw)).pend = some { p with after := p.after + 1 } := by simp [FRegs.retire, hold, hp]
  simp only [State.retireFgr, State.takeArith, h, Option.isSome_some, Bool.true_or, Bool.and_self, if_true]
  rfl

end

theorem crOp_eq : ∀ op ∈ crOpRows, ∀ f x s, exec (op.1 f x) s = crWith f op.2.1 x op.2.2 s := by
  intro op hop
  simp only [crOpRows, List.mem_cons, List.not_mem_nil, or_false] at hop
  rcases hop with rfl | rfl | rfl
  · exact exec_wrcr
  · exact exec_setcr
  · exact exec_clrcr

theorem xor_and_eq_zero {w : Nat} {a b m : BitVec w} : (a ^^^ b) &&& m = 0 ↔ a &&& m = b &&& m := by
  have h : (a ^^^ b) &&& m = (a &&& m) ^^^ (b &&& m) := by
    apply BitVec.eq_of_getLsbD_eq
    intro i _
    simp [Bool.and_xor_distrib_right]
  rw [h]
  exact BitVec.xor_eq_zero_iff

/-- What two words agree on, they agree on under a narrower mask. -/
theorem and_eq_of_and_eq {w : Nat} {a b m n : BitVec w} (h : a &&& m = b &&& m) (hn : m &&& n = n) : a &&& n = b &&& n := by
  rw [← hn, ← BitVec.and_assoc, ← BitVec.and_assoc, h]

/-- CORE_CTL: a mode may change the bits that it owns, and only those. -/
theorem coreCtl_writable {mode : Nat} {old v : W64} (hkeep : v &&& ~~~0x0007#64 = old &&& ~~~0x0007#64)
    (hctm : mode = 2 ∨ v &&& 0x0006#64 = old &&& 0x0006#64) : crWritable mode old v .coreCtl = true := by
  have hmode : old &&& 0xC000#64 = v &&& 0xC000#64 := and_eq_of_and_eq hkeep.symm (by decide)
  rw [crWritable, beq_iff_eq, xor_and_eq_zero]
  by_cases h2 : mode = 2
  · rw [if_pos h2, hmode]
  · rw [if_neg h2, show 0xC006#64 = 0xC000#64 ||| 0x0006#64 by decide, BitVec.and_or_distrib_left, BitVec.and_or_distrib_left, hmode,
      hctm.resolve_left h2]

theorem crReserved_coreCtl (r : FRegs) (v : W64) : crReserved r v .coreCtl = (v &&& ~~~0xC007#64 != 0) := Bool.or_false _

theorem coreCtl_not_writable {mode : Nat} {old v : W64} (h2 : mode ≠ 2) (h : v &&& 0x0006#64 ≠ old &&& 0x0006#64) :
    crWritable mode old v .coreCtl = false := by
  rw [crWritable, if_neg h2, beq_eq_false_iff_ne, Ne, xor_and_eq_zero]
  exact fun heq => h (and_eq_of_and_eq heq.symm (by decide))

/-- What the control-register instructions do to a register that is not CORE_CTL. -/
theorem crOp_row {op : (FId → ImmF → Instr) × BitVec 3 × (W64 → W64 → W64)} (hop : op ∈ crOpRows) {f : FId} {x : ImmF} {s : State} {g : Fgr}
    (hr : s.Runs f g) (hd : x.rd = 0) (hm : g.regs.mode ≤ 2) {row : BitVec 12 × List Nat × W64 × (FRegs → W64 → FRegs)} (hrow : row ∈ crWriteRows)
    (hi : x.imm = row.1) {old : W64} (hold : ∃ rd ∈ crRows, rd.1 = row.1 ∧ rd.2.1 g.regs = old) {v : W64} (hv : op.2.2 old (g.regs.rg x.ra) = v) :
    (g.regs.mode ∈ row.2.1 → v &&& ~~~row.2.2.1 = 0 → crValueReserved x.imm g.regs v = false → g.regs.pend = none →
      exec (op.1 f x) s = .next (s.retired f g (row.2.2.2 g.regs v) none)) ∧
    (g.regs.mode ∈ row.2.1 → v &&& ~~~row.2.2.1 ≠ 0 ∨ crValueReserved x.imm g.regs v = true →
      exec (op.1 f x) s = .next (s.preciseTrap f g.regs 0x03 ((immWord 0x35 op.2.1 x).setWidth 64))) ∧
    (g.regs.mode ∉ row.2.1 → x.imm ≠ 0x001 ∨ v ≠ 0 →
      exec (op.1 f x) s = .next (s.preciseTrap f g.regs 0x08 ((immWord 0x35 op.2.1 x).setWidth 64))) ∧
    (g.regs.mode ∉ row.2.1 → x.imm = 0x001 → v = 0 → g.regs.pend = none →
      exec (op.1 f x) s = .next (s.retired f g (row.2.2.2 g.regs v) none)) ∧
    (∀ p, x.imm = 0x000 → g.regs.pend = some p → (old &&& ~~~v) &&& 0x30000#64 ≠ 0 → v &&& ~~~row.2.2.1 = 0 → v.toNat % 8 ≤ 5 →
      exec (op.1 f x) s = .next ((s.retired f g { g.regs with fxcsr := v } none).takeTrap f
        (g.regs.retire { g.regs with fxcsr := v } none (Config.instrCycles s.draw)) p.cause 0)) := by
  obtain ⟨c, hc, hwrite, hres, hwritable, hfx⟩ := crRow_writes row hrow
  obtain ⟨rd, hrd, hrdi, rfl⟩ := hold
  obtain ⟨c', hc', hread, -⟩ := crRow_reads rd hrd
  obtain rfl : c' = c := Option.some.inj (hc'.symm.trans (by rw [hrdi, hc]))
  rw [← hi] at hc hres hwritable hfx
  rw [← hread] at hv ⊢
  have hw := hwritable _ (g.regs.readCr c') v hm
  rw [crOp_eq op hop]
  refine ⟨fun hmem hb hval hp => ?_, fun hmem hb => ?_, fun hmem hb => ?_, fun hmem h1 h0 hp => ?_, fun p h0 hp hclr hb hrm => ?_⟩
  · rw [crWith_written hr hd hc hv (by simp [hw, hmem]) (by simp [hres, hb, hval]) hp, hwrite]
  · exact crWith_reserved hr hd hc hv (by simp [hw, hmem]) (by rw [hres]; simpa using hb)
  · exact crWith_mode hr hd hc hv (by rw [hw]; simpa [hmem, imp_iff_not_or] using hb)
  · have hb : crReserved g.regs v c' = false := by rw [hres, h1, h0]; simp [crValueReserved]
    rw [crWith_written hr hd hc hv (by rw [hw, h1, h0]; simp) hb hp, hwrite]
  · obtain rfl := hfx.2 h0
    have hmode : crWritable g.regs.mode (g.regs.readCr .fxcsr) v .fxcsr = true := rfl
    have hval : crReserved g.regs v .fxcsr = false := by
      rw [hres, hb, h0]
      simp [crValueReserved]
      omega
    have hclears : clearsEnable g.regs.fxcsr v = true := bne_iff_ne.2 hclr
    rw [crWith_body hr hd hc hv hmode hval, hclears]
    exact congrArg _ (retireFgr_deliver hp hp)

/-- Settles O20: RDCR by the rows of `crRow_reads`, the writes by `crOp_row`, CORE_CTL by the bits that a mode owns. -/
theorem controlRegisters : Obligations.ControlRegisters := by
  refine ⟨fun f x s g hr ha => ⟨fun row hrow hi => ?_, fun h => rdcr_unlisted hr (crOf_unlisted h)⟩, fun op hop f x s g hr hd hm =>
    ⟨fun row hrow hi old hold => crOp_row hop hr hd hm hrow hi hold rfl, fun hi => ⟨fun hkeep hres hctm hp => ?_, fun h2 h => ?_⟩⟩⟩
  · obtain ⟨c, hc, hread, hmode⟩ := crRow_reads row hrow
    rw [← hi] at hc
    rw [← hread]
    refine ⟨fun h hq => rdcr_done hr ha hc (by rw [hmode]; simpa using h) hq, fun h h0 => rdcr_mode hr ha hc (by rw [hmode, h, h0]; rfl)⟩
  · have hc : crOf x.imm.toNat = some .coreCtl := by rw [hi]; rfl
    have hval : crReserved g.regs (op.2.2 (g.regs.readCr .coreCtl) (g.regs.rg x.ra)) .coreCtl = false := by
      rw [crReserved_coreCtl, bne_eq_false_iff_eq]
      exact hres
    rw [crOp_eq op hop, crWith_written hr hd hc rfl (coreCtl_writable hkeep hctm) hval hp]
    rfl
  · have hc : crOf x.imm.toNat = some .coreCtl := by rw [hi]; rfl
    rw [crOp_eq op hop]
    exact crWith_mode hr hd hc rfl (coreCtl_not_writable h2 h)

end Sys2Proof.Machine
end

section
/-!
PROOFS. The output of a morsel and RTP (R235, R249, R272).
-/

namespace Sys2Proof.Machine

section
variable {f : FId} {x : RegF} {s : State} {g : Fgr}

theorem pipelineCheck_pipeline {bad : Bool} {r : FRegs} (hb : bad = false) (hm : r.mode = 0) : pipelineCheck bad r = none := by
  simp [pipelineCheck, firstCause, hb, hm]

theorem pipelineCheck_mode {bad : Bool} {r : FRegs} (hb : bad = false) (hm : r.mode ≠ 0) : pipelineCheck bad r = some 0x08 := by
  simp [pipelineCheck, firstCause, hb, hm]

theorem mdone_body (hr : s.Runs f g) (hb : badReg { rd := false, rb := false } x = false) (hm : g.regs.mode = 0) :
    exec (.mdone f x) s =
      let p := if g.regs.pend.isSome then (s, FRes.arith)
        else match g.outDesc with
          | .error a => (s, .trap g.regs 0x05 a)
          | .ok d =>
            match g.morsel with
            | none => (s.modFgr f (·.discard), .done g.cleared)
            | some m => (s.completeMorsel f g m ((g.regs.rg x.ra).getLsbD 0) d, .done g.cleared)
      .next (p.1.finish f g.regs p.2) := by
  rw [exec_mdone]
  exact runFgr_body hr (pipelineCheck_pipeline hb hm)

/-- What RTP makes of CORE_CTL: MODE is 0, every lower bit stays. -/
theorem FRegs.setMode_zero (r : FRegs) : (r.setMode 0).mode = 0 ∧ ∀ i, i < 14 → (r.setMode 0).coreCtl.getLsbD i = r.coreCtl.getLsbD i := by
  refine ⟨?_, fun i hi => ?_⟩
  · have h : ((r.coreCtl &&& ~~~(0xC000#64)) ||| 0#64).extractLsb' 14 2 = 0#2 := by
      apply BitVec.eq_of_getLsbD_eq
      intro i hi
      obtain rfl | rfl : i = 0 ∨ i = 1 := by omega
      all_goals simp
    have hb := bits_eq_extractLsb' ((r.coreCtl &&& ~~~(0xC000#64)) ||| 0#64) 15 14
    rw [h] at hb
    exact hb
  · have hmask : ∀ i, i < 14 → (0xC000#64).getLsbD i = false := by decide
    show ((r.coreCtl &&& ~~~(0xC000#64)) ||| 0#64).getLsbD i = r.coreCtl.getLsbD i
    rw [BitVec.getLsbD_or, BitVec.getLsbD_and, BitVec.getLsbD_not, hmask i hi]
    simp
    omega

theorem FRegs.rv_cleared (g : Fgr) (i : BitVec 5) : g.discard.regs.rv i = 0 := by
  simp [FRegs.rv, Fgr.discard, Fgr.clear, FRegs.setMode]

theorem FRegs.ra_cleared (g : Fgr) (i : BitVec 2) : g.discard.regs.ra i = 0 := by
  simp [FRegs.ra, Fgr.discard, Fgr.clear, FRegs.setMode]

theorem FRegs.rva_cleared (g : Fgr) (i : BitVec 2) : g.discard.regs.rva i = 0 := by
  simp [FRegs.rva, Fgr.discard, Fgr.clear, FRegs.setMode]

/-- Settles O21: the body of each instruction in the branch that the premises pick, and the clear of R249 register by register. -/
theorem morselOutput : Obligations.MorselOutput := by
  refine ⟨fun f x s g hr => ⟨fun hb => ⟨fun hm => ?_, fun p hm hp => ?_, fun a hm hp hd => ?_, fun m d hm hp hd hmo => ?_⟩,
    fun hb => ⟨fun hm => ?_, fun m j st d t u at_ base hm hq hd hmo hj hst hpl htb => ?_, fun m j st d t e hm hq hd hmo hj hst hpl htb => ?_⟩⟩,
    fun f x s g hr hb => ⟨fun hm hq => ?_, fun hm => ?_⟩, fun g => ?_⟩
  · rw [exec_mdone]
    exact runFgr_refused hr (pipelineCheck_mode hb hm)
  · rw [mdone_body hr hb hm]
    simp only [hp, Option.isSome_some, if_true, State.finish, State.takeArith]
  · rw [mdone_body hr hb hm]
    simp only [hp, hd, Option.isSome_none, Bool.false_eq_true, if_false, State.finish, State.preciseTrap]
  · have hq : g.cleared.Quiet := .inl rfl
    rw [mdone_body hr hb hm]
    simp only [hp, hd, hmo, Option.isSome_none, Bool.false_eq_true, if_false, State.finish, retireFgr_quiet hq]
  · rw [exec_memit]
    exact runFgr_refused hr (pipelineCheck_mode hb hm)
  · rw [exec_memit, execMemit, runFgr_body hr (pipelineCheck_pipeline hb hm)]
    simp only [hd, hmo, hj, hst, hpl, htb, State.finish, retireFgr_quiet hq]
  · rw [exec_memit, execMemit, runFgr_body hr (pipelineCheck_pipeline hb hm)]
    simp only [hd, hmo, hj, hst, hpl, htb, State.finish, retireFgr_quiet hq]
  · obtain ⟨hmode, hlow⟩ := g.regs.setMode_zero
    have hq0 : (g.regs.setMode 0).Quiet := hq.imp id fun h => by rwa [FRegs.fxprecise, hlow 2 (by decide)]
    refine ⟨g.regs.setMode 0, ?_, rfl, hmode, hlow⟩
    rw [exec_rtp, execRtp, runFgr_body hr (by simp [firstCause, hb, hm])]
    exact congrArg _ (retireFgr_quiet hq0)
  · rw [exec_rtp]
    exact runFgr_refused hr (by simp [firstCause, hb, hm])
  · exact ⟨rfl, rfl, rfl, rfl, FRegs.mode_setMode_one _, rfl, rfl, rfl, FRegs.rv_cleared g, FRegs.ra_cleared g, FRegs.rva_cleared g⟩

end

end Sys2Proof.Machine
end

section
/-!
PROOFS. The element operations of vectors (R253, R254).
-/

namespace Sys2Proof.Machine

-- THE ELEMENT OPERATIONS ----------------------------------------------------------------------------------------------------------------------

theorem sew_pos (r : FRegs) : 0 < r.sew := by
  unfold FRegs.sew sewOf
  positivity

theorem sint_toNat {w : Nat} (a : BitVec w) : sint w a.toNat = a.toInt := by
  rw [sint, Nat.mod_eq_of_lt a.isLt, BitVec.toInt_eq_toNat_cond]

theorem toNat_ofInt_eq_ucode (w : Nat) (e : Int) : (BitVec.ofInt w e).toNat = ucode w e := BitVec.toNat_ofInt ..

theorem ofNat_mod_two_pow (w n : Nat) : BitVec.ofNat w (n % 2 ^ w) = BitVec.ofNat w n := by
  apply BitVec.eq_of_toNat_eq
  simp

theorem fitElem_eq (w : Nat) (sat : Bool) (e : Int) :
    BitVec.ofNat w (fitElem w sat e).1 = (fitted w sat e).1 ∧ (fitElem w sat e).2.word = (fitted w sat e).2 ∧ (fitElem w sat e).2.inx = false := by
  have h := fitS_eq_fitted w sat e
  exact ⟨(ofNat_ucode ..).trans h.1, h.2⟩

theorem fitScalar_eq (w : Nat) (v : W64) : fitScalar w v = (v.signExtend w).toNat := by
  rw [fitScalar, ← toNat_ofInt_eq_ucode]
  rfl

/-- An operation on codes computes the result and the flag word that a row of R254 gives. -/
def ElemOp.Computes (op : ElemOp) (elem : (w : Nat) → Bool → BitVec w → BitVec w → BitVec w × W64) : Prop :=
  ∀ (w : Nat) (sat : Bool) (a b : BitVec w),
    BitVec.ofNat w (op w sat a.toNat b.toNat).1 = (elem w sat a b).1 ∧ (op w sat a.toNat b.toNat).2.word = (elem w sat a b).2

theorem ElemOp.Computes.signedS {op : Int → Int → Int} {exact : (w : Nat) → BitVec w → BitVec w → Int}
    (h : ∀ w (a b : BitVec w), op a.toInt b.toInt = exact w a b) : ElemOp.Computes (signedS op) fun w sat a b => fitted w sat (exact w a b) := by
  intro w sat a b
  rw [Machine.signedS, sint_toNat, sint_toNat, h]
  exact ⟨(fitElem_eq ..).1, (fitElem_eq ..).2.1⟩

theorem ElemOp.Computes.plain {op : Nat → Nat → Nat → Nat} {value : (w : Nat) → BitVec w → BitVec w → BitVec w}
    (h : ∀ w (a b : BitVec w), BitVec.ofNat w (op w a.toNat b.toNat) = value w a b) : ElemOp.Computes (plain op) fun w _ a b => (value w a b, 0) := by
  intro w sat a b
  exact ⟨(ofNat_mod_two_pow ..).trans (h w a b), FFlags.word_none⟩

theorem opNeg_computes : opNeg.Computes fun w sat a _ => fitted w sat (-a.toInt) := .signedS fun _ _ _ => rfl

theorem opAbs_computes : opAbs.Computes fun w sat a _ => fitted w sat (if a.toInt < 0 then -a.toInt else a.toInt) :=
  .signedS fun _ _ _ => by split <;> omega

theorem opAnd_computes : opAnd.Computes fun _ _ a b => (a &&& b, 0) := .plain fun _ a b => by rw [← BitVec.toNat_and, BitVec.ofNat_toNat, BitVec.setWidth_eq]

theorem opOr_computes : opOr.Computes fun _ _ a b => (a ||| b, 0) := .plain fun _ a b => by rw [← BitVec.toNat_or, BitVec.ofNat_toNat, BitVec.setWidth_eq]

theorem opXor_computes : opXor.Computes fun _ _ a b => (a ^^^ b, 0) := .plain fun _ a b => by rw [← BitVec.toNat_xor, BitVec.ofNat_toNat, BitVec.setWidth_eq]

theorem opAndn_computes : opAndn.Computes fun _ _ a b => (a &&& ~~~b, 0) :=
  .plain fun w a b => by rw [← BitVec.toNat_not, ← BitVec.toNat_and, BitVec.ofNat_toNat, BitVec.setWidth_eq]

theorem opSll_computes : opSll.Computes fun w _ a b => (a <<< (b.toNat % w), 0) := .plain fun w a b => by
  apply BitVec.eq_of_toNat_eq
  rw [BitVec.toNat_ofNat, BitVec.toNat_shiftLeft, Nat.shiftLeft_eq]

theorem opSrl_computes : opSrl.Computes fun w _ a b => (a >>> (b.toNat % w), 0) := .plain fun w a b => by
  rw [← Nat.shiftRight_eq_div_pow, ← BitVec.toNat_ushiftRight, BitVec.ofNat_toNat, BitVec.setWidth_eq]

theorem opSra_computes : opSra.Computes fun w _ a b => (a.sshiftRight (b.toNat % w), 0) := .plain fun w a b => by
  rw [sint_toNat, ofNat_ucode, BitVec.sshiftRight, Int.shiftRight_eq_div_pow]

theorem opMin_computes : opMin.Computes fun _ _ a b => (if a.toInt ≤ b.toInt then a else b, 0) := .plain fun w a b => by
  rw [sint_toNat, sint_toNat]
  split <;> rw [BitVec.ofNat_toNat, BitVec.setWidth_eq]

theorem opMax_computes : opMax.Computes fun _ _ a b => (if a.toInt ≤ b.toInt then b else a, 0) := .plain fun w a b => by
  rw [sint_toNat, sint_toNat]
  split <;> rw [BitVec.ofNat_toNat, BitVec.setWidth_eq]

theorem opMinu_computes : opMinu.Computes fun _ _ a b => (if a.toNat ≤ b.toNat then a else b, 0) := .plain fun w a b => by
  split <;> rw [BitVec.ofNat_toNat, BitVec.setWidth_eq]

theorem opMaxu_computes : opMaxu.Computes fun _ _ a b => (if a.toNat ≤ b.toNat then b else a, 0) := .plain fun w a b => by
  split <;> rw [BitVec.ofNat_toNat, BitVec.setWidth_eq]

theorem opMulh_computes : opMulh.Computes fun w _ a b => (BitVec.ofInt w (a.toInt * b.toInt / (2 ^ w : Int)), 0) := .plain fun w a b => by
  rw [sint_toNat, sint_toNat, ofNat_ucode, Nat.cast_pow, Nat.cast_ofNat]

theorem opMulhu_computes : opMulhu.Computes fun w _ a b => (BitVec.ofNat w (a.toNat * b.toNat / 2 ^ w), 0) := .plain fun _ _ _ => rfl

-- THE TWO FORMS -------------------------------------------------------------------------------------------------------------------------------

section
variable {f : FId} {x : RegF} {s : State} {g : Fgr} {fn : BitVec 6} {u : Uses} {op : ElemOp}
  {elem : (w : Nat) → Bool → BitVec w → BitVec w → BitVec w × W64}

theorem vvWith_done (hop : op.Computes elem) (hr : s.Runs f g) (hb : badReg u x = false) :
    let e := fun i => elem g.regs.sew (g.regs.selectsSat x.ss) (elemBits (g.regs.rv x.ra) g.regs.sew i) (elemBits (g.regs.rv x.rb) g.regs.sew i)
    ∃ r : FRegs, g.regs.Elementwise r x.rd (fun i => (e i).1) (g.regs.flagsOf fun i => (e i).2) ∧
      (r.Quiet → vvWith f fn u x op s = .next (s.retired f g r none)) := by
  refine ⟨_, ?_, fun hq => runRegs_done_of_check hr (by simp [chk5, hb]) hq⟩
  have h := g.regs.elementwise_vmap x.rd fun i =>
    op g.regs.sew (g.regs.saturates x.ss) (elemAt (g.regs.rv x.ra) g.regs.sew i) (elemAt (g.regs.rv x.rb) g.regs.sew i)
  simpa only [elemAt_eq_toNat, (hop _ _ _ _).1, (hop _ _ _ _).2, FRegs.saturates_eq_selectsSat] using h

theorem vxWith_done (hop : op.Computes elem) (hr : s.Runs f g) (hb : badReg u x = false) :
    let e := fun i => elem g.regs.sew (g.regs.selectsSat x.ss) (elemBits (g.regs.rv x.ra) g.regs.sew i) ((g.regs.rg x.rb).signExtend g.regs.sew)
    ∃ r : FRegs, g.regs.Elementwise r x.rd (fun i => (e i).1) (g.regs.flagsOf fun i => (e i).2) ∧
      (r.Quiet → vxWith f fn u x op s = .next (s.retired f g r none)) := by
  refine ⟨_, ?_, fun hq => runRegs_done_of_check hr (by simp [chk5, hb]) hq⟩
  have h := g.regs.elementwise_vmap x.rd fun i =>
    op g.regs.sew (g.regs.saturates x.ss) (elemAt (g.regs.rv x.ra) g.regs.sew i) (fitScalar g.regs.sew (g.regs.rg x.rb))
  simpa only [elemAt_eq_toNat, fitScalar_eq, (hop _ _ _ _).1, (hop _ _ _ _).2, FRegs.saturates_eq_selectsSat] using h

end

/-- The model's forms of a row: the operation and the two function codes. -/
structure ElemRow.Forms (row : ElemRow) where
  op : ElemOp
  fn : BitVec 6
  computes : op.Computes row.elem
  vv : ∀ f x s, exec (row.vv f x) s = vvWith f fn row.uses x op s
  vx : ∀ vx ∈ row.vx, ∀ f x s, exec (vx f x) s = vxWith f fn row.uses x op s

theorem elemRow_forms : ∀ row ∈ elemRows, Nonempty row.Forms := by
  intro row hrow
  simp only [elemRows, List.mem_cons, List.not_mem_nil, or_false] at hrow
  rcases hrow with rfl | rfl | rfl | rfl | rfl | rfl | rfl | rfl | rfl | rfl | rfl | rfl | rfl | rfl | rfl | rfl | rfl | rfl
  · exact ⟨opAdd, _, .signedS fun _ _ _ => rfl, exec_vadd, by rintro _ ⟨⟩; exact exec_vaddVx⟩
  · exact ⟨opSub, _, .signedS fun _ _ _ => rfl, exec_vsub, by rintro _ ⟨⟩; exact exec_vsubVx⟩
  · exact ⟨opNeg, _, opNeg_computes, exec_vneg, nofun⟩
  · exact ⟨opAbs, _, opAbs_computes, exec_vabs, nofun⟩
  · exact ⟨opAnd, _, opAnd_computes, exec_vand, by rintro _ ⟨⟩; exact exec_vandVx⟩
  · exact ⟨opOr, _, opOr_computes, exec_vor, by rintro _ ⟨⟩; exact exec_vorVx⟩
  · exact ⟨opXor, _, opXor_computes, exec_vxor, by rintro _ ⟨⟩; exact exec_vxorVx⟩
  · exact ⟨opAndn, _, opAndn_computes, exec_vandn, by rintro _ ⟨⟩; exact exec_vandnVx⟩
  · exact ⟨opSll, _, opSll_computes, exec_vsll, by rintro _ ⟨⟩; exact exec_vsllVx⟩
  · exact ⟨opSrl, _, opSrl_computes, exec_vsrl, by rintro _ ⟨⟩; exact exec_vsrlVx⟩
  · exact ⟨opSra, _, opSra_computes, exec_vsra, by rintro _ ⟨⟩; exact exec_vsraVx⟩
  · exact ⟨opMin, _, opMin_computes, exec_vmin, by rintro _ ⟨⟩; exact exec_vminVx⟩
  · exact ⟨opMax, _, opMax_computes, exec_vmax, by rintro _ ⟨⟩; exact exec_vmaxVx⟩
  · exact ⟨opMinu, _, opMinu_computes, exec_vminu, by rintro _ ⟨⟩; exact exec_vminuVx⟩
  · exact ⟨opMaxu, _, opMaxu_computes, exec_vmaxu, by rintro _ ⟨⟩; exact exec_vmaxuVx⟩
  · exact ⟨opMul, _, .signedS fun _ _ _ => rfl, exec_vmul, by rintro _ ⟨⟩; exact exec_vmulVx⟩
  · exact ⟨opMulh, _, opMulh_computes, exec_vmulh, by rintro _ ⟨⟩; exact exec_vmulhVx⟩
  · exact ⟨opMulhu, _, opMulhu_computes, exec_vmulhu, by rintro _ ⟨⟩; exact exec_vmulhuVx⟩

/-- Settles O22: each row's operation on codes computes the row, in either form. -/
theorem vectorElements : Obligations.VectorElements := by
  intro row hrow f x s g hr hb
  obtain ⟨op, fn, hop, hvv, hvx⟩ := elemRow_forms row hrow
  refine ⟨?_, fun vx h => ?_⟩
  · rw [hvv]
    exact vvWith_done hop hr hb
  · rw [hvx vx h]
    exact vxWith_done hop hr hb

end Sys2Proof.Machine
end

section
/-!
PROOFS. Vector rounding and shifts (R254, R257).
-/

namespace Sys2Proof.Machine

/-- The results of processed elements: the exact value of each, rounded in mode `rm`, then fitted. -/
def roundedElem (w : Nat) (sat : Bool) (rm : Nat) (e : Int) (sh : Nat) : Nat × FFlags :=
  ((fitElem w sat (roundShift rm e sh).1).1, { (fitElem w sat (roundShift rm e sh).1).2 with inx := (roundShift rm e sh).2 })

theorem roundedElem_eq (w : Nat) (sat : Bool) (rm : Nat) (e : Int) (sh : Nat) :
    BitVec.ofNat w (roundedElem w sat rm e sh).1 = (fitted w sat (roundShift rm e sh).1).1 ∧
      (roundedElem w sat rm e sh).2.word = (fitted w sat (roundShift rm e sh).1).2 ||| inexact e sh := by
  obtain ⟨hval, hword, hinx⟩ := fitElem_eq w sat (roundShift rm e sh).1
  have hi : (if (roundShift rm e sh).2 then (0x80 : W64) else 0) = inexact e sh := by
    simp only [roundShift_inexact, Int.dvd_iff_emod_eq_zero, inexact, ite_not]
  exact ⟨hval, by rw [roundedElem, FFlags.word_inx _ hinx, hword, hi]⟩

/-- An instruction that rounds and fits each processed element. -/
theorem vmap_rounded {f : FId} {w : W32} {chk : FRegs → Option Nat} {d : BitVec 5} {ss rs : BitVec 2} {sh : Nat} {exact : Nat → Int} {s : State}
    {g : Fgr} {body : FRegs → FRegs} (hr : s.Runs f g) (hrm : g.regs.fxcsr.toNat % 8 ≤ 5) (hc : chk g.regs = none)
    (hbody : body g.regs = g.regs.vmap d fun i => roundedElem g.regs.sew (g.regs.saturates ss) (g.regs.rmOf rs) (exact i) sh) :
    ∃ q : Nat → Int, (∀ k, Rounds (g.regs.selectsRm rs) (exact k) sh (q k)) ∧
      let e := fun k => fitted g.regs.sew (g.regs.selectsSat ss) (q k)
      ∃ r : FRegs, g.regs.Elementwise r d (fun k => (e k).1) (g.regs.flagsOf fun k => (e k).2 ||| inexact (exact k) sh) ∧
        (r.Quiet → runRegs f w chk (fun r => .done (body r)) s = .next (s.retired f g r none)) := by
  refine ⟨fun k => (roundShift (g.regs.selectsRm rs) (exact k) sh).1, fun k => rounds_roundShift _ _ (g.regs.selectsRm_le rs hrm), body g.regs, ?_,
    fun hq => runRegs_done_of_check hr hc hq⟩
  rw [hbody]
  have h := g.regs.elementwise_vmap d fun i => roundedElem g.regs.sew (g.regs.saturates ss) (g.regs.rmOf rs) (exact i) sh
  simpa only [(roundedElem_eq _ _ _ _ _).1, (roundedElem_eq _ _ _ _ _).2, FRegs.saturates_eq_selectsSat, FRegs.rmOf_eq_selectsRm] using h

theorem laneOf_eq (va : WVA) (w i : Nat) : laneOf va w i = (vaLane va w i).toInt := by
  rw [← sint_toNat, vaLane, BitVec.extractLsb'_toNat, Nat.shiftRight_eq_div_pow, laneOf, laneWidth, Nat.mul_comm i]
  simp only [sint, Nat.mod_mod]

theorem vshfWith_done {f : FId} {op : BitVec 7} {u : Uses} {x : ShfF} {value : FRegs → Nat → Int} {exact : Nat → Int} {s : State} {g : Fgr}
    (hr : s.Runs f g) (hrm : g.regs.fxcsr.toNat % 8 ≤ 5) (hb : badShf u x = false) (hsh : x.sh6.toNat < g.regs.sew)
    (hv : ∀ i, value g.regs i = exact i) :
    ∃ q : Nat → Int, (∀ k, Rounds (g.regs.selectsRm x.rs) (exact k) x.sh6.toNat (q k)) ∧
      let e := fun k => fitted g.regs.sew (g.regs.selectsSat x.ss) (q k)
      ∃ r : FRegs, g.regs.Elementwise r x.rd (fun k => (e k).1) (g.regs.flagsOf fun k => (e k).2 ||| inexact (exact k) x.sh6.toNat) ∧
        (r.Quiet → vshfWith f op u x value s = .next (s.retired f g r none)) := by
  obtain rfl : value g.regs = exact := funext hv
  exact vmap_rounded hr hrm (by simp [chk5, hb]; omega) rfl

theorem vshfWith_past {f : FId} {op : BitVec 7} {u : Uses} {x : ShfF} {value : FRegs → Nat → Int} {s : State} {g : Fgr} (hr : s.Runs f g)
    (hsh : g.regs.sew ≤ x.sh6.toNat) : vshfWith f op u x value s = .next (s.preciseTrap f g.regs 0x03 ((shfWord op x).setWidth 64)) :=
  runRegs_refused hr (chk5_true _ (by simp; omega))

/-- Settles O23: within range the three are `vmap_rounded` of their exact values, past it check 5 fails. -/
theorem vectorRounding : Obligations.VectorRounding := by
  intro f s g hr hrm w rounded
  refine ⟨fun x hb => ⟨fun h => ?_, fun h => ?_⟩, fun x hb => ⟨fun h => ?_, fun h => ?_⟩, fun x hb => ⟨fun h => ?_, fun h => ?_⟩⟩
  · simp only [rounded, exec_vmulq]
    exact vshfWith_done hr hrm hb h fun i => by simp only [elemAt_eq_toNat, sint_toNat, w]
  · exact (exec_vmulq ..).trans (vshfWith_past hr h)
  · simp only [rounded, exec_vsrar]
    exact vshfWith_done hr hrm hb h fun i => by simp only [elemAt_eq_toNat, sint_toNat, w]
  · exact (exec_vsrar ..).trans (vshfWith_past hr h)
  · simp only [rounded, exec_vacrd]
    refine vmap_rounded hr hrm (by simp [chk5, hb]; omega) ?_
    simp only [laneOf_eq]
    rfl
  · rw [exec_vacrd, execVacrd]
    exact runRegs_refused hr (chk5_true _ (by simp; omega))

end Sys2Proof.Machine
end

section
/-!
PROOFS. Vector compares, masks, permutations and moves (R252, R253, R255).
-/

namespace Sys2Proof.Machine

-- THE BITS OF A BITMAP ------------------------------------------------------------------------------------------------------------------------

theorem nodup_eraseDups : ∀ l : List Nat, l.eraseDups.Nodup
  | [] => by simp
  | a :: l => by
    rw [List.eraseDups_cons, List.nodup_cons]
    exact ⟨by simp [List.mem_eraseDups], nodup_eraseDups (l.filter fun b => !b == a)⟩
termination_by l => l.length
decreasing_by exact Nat.lt_succ_of_le (List.length_filter_le ..)

/-- Adding 2^i sets bit i where it is clear. -/
theorem getLsbD_add_twoPow {w i : Nat} (v : BitVec w) (h : v.getLsbD i = false) (k : Nat) :
    (v + BitVec.twoPow w i).getLsbD k = (v.getLsbD k || decide (k < w ∧ k = i)) := by
  have hand : v &&& BitVec.twoPow w i = 0#w := BitVec.eq_of_getLsbD_eq fun b hb => by
    rw [BitVec.getLsbD_and, BitVec.getLsbD_twoPow]
    by_cases hbi : i = b
    · subst hbi
      simp [h]
    · simp [hbi]
  rw [BitVec.add_eq_or_of_and_eq_zero _ _ hand, BitVec.getLsbD_or, BitVec.getLsbD_twoPow]
  congr 1
  simp only [← Bool.decide_and, decide_eq_decide]
  omega

theorem getLsbD_foldl_two_pow {w : Nat} {l : List Nat} (hl : l.Nodup) (n : Nat) (hn : ∀ i ∈ l, (BitVec.ofNat w n).getLsbD i = false) (k : Nat) :
    (BitVec.ofNat w (l.foldl (fun n i => n + 2 ^ i) n)).getLsbD k = ((BitVec.ofNat w n).getLsbD k || decide (k < w ∧ k ∈ l)) := by
  induction l generalizing n with
  | nil => simp
  | cons i l ih =>
    obtain ⟨hi, hl⟩ := List.nodup_cons.1 hl
    have hstep : ∀ j, (BitVec.ofNat w (n + 2 ^ i)).getLsbD j = ((BitVec.ofNat w n).getLsbD j || decide (j < w ∧ j = i)) := fun j => by
      rw [BitVec.ofNat_add, ← getLsbD_add_twoPow _ (hn i List.mem_cons_self),
        show BitVec.ofNat w (2 ^ i) = BitVec.twoPow w i from BitVec.eq_of_toNat_eq (by rw [BitVec.toNat_ofNat, BitVec.toNat_twoPow])]
    have hrest : ∀ j ∈ l, (BitVec.ofNat w (n + 2 ^ i)).getLsbD j = false := fun j hj => by
      rw [hstep, hn j (List.mem_cons_of_mem _ hj)]
      simpa using fun _ (h : j = i) => hi (h ▸ hj)
    rw [List.foldl_cons, ih hl _ hrest, hstep, Bool.or_assoc]
    congr 1
    rw [← Bool.decide_or, decide_eq_decide, List.mem_cons]
    tauto

theorem getLsbD_bitmap (l : List Nat) (w k : Nat) : (BitVec.ofNat w (bitmap l)).getLsbD k = decide (k < w ∧ k ∈ l) := by
  rw [bitmap, getLsbD_foldl_two_pow (nodup_eraseDups l) 0 (by simp)]
  simp [List.mem_eraseDups]

-- COMPARES AND MASK OPERATIONS ----------------------------------------------------------------------------------------------------------------

theorem FRegs.active_eq_nil {r : FRegs} : r.active = [] ↔ r.vl.toNat ≤ r.vstart.toNat := by
  simp only [List.eq_nil_iff_forall_not_mem, FRegs.mem_active, FRegs.processes]
  exact ⟨fun h => by have := h r.vstart.toNat; omega, fun h i => by omega⟩

theorem FRegs.maskwise_maskMap (r : FRegs) (d : BitVec 5) (op : Nat → Bool) : r.Maskwise (r.maskMap d op) d op := by
  rw [FRegs.maskMap]
  split
  case isTrue h => exact ⟨by simp [FRegs.vdone, FRegs.setV, FRegs.rv], by simp [FRegs.active_eq_nil.1 h]⟩
  case isFalse h =>
    rw [FRegs.active_eq_nil] at h
    refine ⟨by simp [FRegs.vdone, FRegs.rv, FRegs.setV], ?_⟩
    rw [if_neg h]
    intro i hi
    rw [FRegs.rv_vdone, FRegs.rv_setV, if_pos rfl, BitVec.getLsbD_or, getLsbD_bitmap]
    simp only [BitVec.getLsbD_and, BitVec.getLsbD_ofNat, Nat.testBit_two_pow_sub_one, List.mem_filter, FRegs.mem_active, FRegs.processes]
    have hmin : Nat.min r.vstart.toNat r.vl.toNat = r.vstart.toNat := Nat.min_eq_left (by omega)
    rw [hmin]
    by_cases h1 : r.vl.toNat ≤ i
    · simp [h1, hi, show ¬ i < r.vstart.toNat by omega, show ¬ i < r.vl.toNat by omega]
    · by_cases h2 : r.vstart.toNat ≤ i
      · simp [h1, h2, hi, show ¬ i < r.vstart.toNat by omega, show i < r.vl.toNat by omega]
      · simp [h1, h2, hi, show i < r.vstart.toNat by omega]

theorem FRegs.maskMap_quiet {r : FRegs} {d : BitVec 5} {op : Nat → Bool} (hq : r.Quiet) : (r.maskMap d op).Quiet := by
  rw [FRegs.maskMap]
  split <;> exact hq

section
variable {f : FId} {x : RegF} {s : State} {g : Fgr}

theorem vmaskWith_done {fn : BitVec 6} {op : Bool → Bool → Bool} (hr : s.Runs f g) (hq : g.regs.Quiet) (hb : badReg {} x = false) :
    ∃ r : FRegs, vmaskWith f fn x op s = .next (s.retired f g r none) ∧
      g.regs.Maskwise r x.rd fun i => op ((g.regs.rv x.ra).getLsbD i) ((g.regs.rv x.rb).getLsbD i) :=
  ⟨_, runRegs_done_of_check hr (by simp [chk5, hb]) (FRegs.maskMap_quiet hq), FRegs.maskwise_maskMap ..⟩

theorem vcmpWith_done {fn : BitVec 6} {op : Nat → Nat → Nat → Bool} {test : (w : Nat) → BitVec w → BitVec w → Bool}
    (hop : ∀ w (a b : BitVec w), op w a.toNat b.toNat = test w a b) (hr : s.Runs f g) (hq : g.regs.Quiet) (hb : badReg {} x = false) :
    ∃ r : FRegs, vcmpWith f fn x op s = .next (s.retired f g r none) ∧
      g.regs.Maskwise r x.rd fun i => test g.regs.sew (elemBits (g.regs.rv x.ra) g.regs.sew i) (elemBits (g.regs.rv x.rb) g.regs.sew i) := by
  have h := FRegs.maskwise_maskMap g.regs x.rd fun i =>
    op g.regs.sew (elemAt (g.regs.rv x.ra) g.regs.sew i) (elemAt (g.regs.rv x.rb) g.regs.sew i)
  refine ⟨_, runRegs_done_of_check hr (by simp [chk5, hb]) (FRegs.maskMap_quiet hq), ?_⟩
  simpa only [elemAt_eq_toNat, hop] using h

theorem compareRows_done (hr : s.Runs f g) (hq : g.regs.Quiet) (hb : badReg {} x = false) :
    ∀ row ∈ compareRows, ∃ r : FRegs, exec (row.1 f x) s = .next (s.retired f g r none) ∧
       g.regs.Maskwise r x.rd fun i => row.2 g.regs.sew (elemBits (g.regs.rv x.ra) g.regs.sew i) (elemBits (g.regs.rv x.rb) g.regs.sew i) := by
  intro row hrow
  simp only [compareRows, List.mem_cons, List.not_mem_nil, or_false] at hrow
  rcases hrow with rfl | rfl | rfl | rfl | rfl | rfl
  · simp only [exec_vcmpeq, execVcmpeq]
    exact vcmpWith_done (test := fun _ a b => decide (a = b)) (fun w a b => by simp [beq_eq_decide, ← BitVec.toNat_inj]) hr hq hb
  · simp only [exec_vcmpne, execVcmpne]
    exact vcmpWith_done (test := fun _ a b => decide (a ≠ b)) (fun w a b => by simp [bne, beq_eq_decide, ← BitVec.toNat_inj]) hr hq hb
  · simp only [exec_vcmplt, execVcmplt]
    exact vcmpWith_done (test := fun _ a b => decide (a.toInt < b.toInt)) (fun w a b => by simp only [sint_toNat]) hr hq hb
  · simp only [exec_vcmple, execVcmple]
    exact vcmpWith_done (test := fun _ a b => decide (a.toInt ≤ b.toInt)) (fun w a b => by simp only [sint_toNat]) hr hq hb
  · simp only [exec_vcmpltu, execVcmpltu]
    exact vcmpWith_done (test := fun _ a b => decide (a.toNat < b.toNat)) (fun w a b => rfl) hr hq hb
  · simp only [exec_vcmpleu, execVcmpleu]
    exact vcmpWith_done (test := fun _ a b => decide (a.toNat ≤ b.toNat)) (fun w a b => rfl) hr hq hb

theorem maskRows_done (hr : s.Runs f g) (hq : g.regs.Quiet) (hb : badReg {} x = false) :
    ∀ row ∈ maskRows, ∃ r : FRegs, exec (row.1 f x) s = .next (s.retired f g r none) ∧
       g.regs.Maskwise r x.rd fun i => row.2 ((g.regs.rv x.ra).getLsbD i) ((g.regs.rv x.rb).getLsbD i) := by
  intro row hrow
  simp only [maskRows, List.mem_cons, List.not_mem_nil, or_false] at hrow
  rcases hrow with rfl | rfl | rfl | rfl
  · simp only [exec_vmand, execVmand]
    exact vmaskWith_done hr hq hb
  · simp only [exec_vmor, execVmor]
    exact vmaskWith_done hr hq hb
  · simp only [exec_vmxor, execVmxor]
    exact vmaskWith_done hr hq hb
  · simp only [exec_vmandn, execVmandn]
    exact vmaskWith_done hr hq hb

end

-- PERMUTATIONS --------------------------------------------------------------------------------------------------------------------------------

theorem setV_rv (r : FRegs) (d : BitVec 5) (v : W1024) : (r.setV d v).rv d = v := by rw [FRegs.rv_setV, if_pos rfl]

/-- The elements after a write of the `k`-th listed position to element `k`. -/
theorem elemBits_compressed {w k : Nat} (v : W1024) (l : List Nat) (e : Nat → BitVec w) (hk : w * k + w ≤ 1024) :
    elemBits (setElems v w (l.zipIdx.map fun p => (p.2, (e p.1).toNat))) w k = match l[k]? with
      | some j => e j
      | none => elemBits v w k := by
  have hkeys : (l.zipIdx.map fun p => (p.2, (e p.1).toNat)).map (·.1) = List.range' 0 l.length := by
    rw [List.map_map, ← List.zipIdx_map_snd 0 l]
    rfl
  cases hj : l[k]? with
  | some j =>
    have hmem : (k, (e j).toNat) ∈ l.zipIdx.map fun p => (p.2, (e p.1).toNat) :=
      List.mem_map.2 ⟨(j, k), List.mk_mem_zipIdx_iff_getElem?.2 hj, rfl⟩
    rw [elemBits_setElems_of_mem v hk (by rw [hkeys]; exact List.nodup_range') hmem, BitVec.ofNat_toNat, BitVec.setWidth_eq]
  | none =>
    refine elemBits_setElems_of_notMem v w ?_
    rw [hkeys, List.mem_range'_1]
    have := List.getElem?_eq_none_iff.1 hj
    omega

/-- Position `k` of a filtered range stands after those below it that pass. -/
theorem getElem?_filter_range {n k : Nat} (p : Nat → Bool) (hk : k < n) (hp : p k = true) :
    ((List.range n).filter p)[((List.range k).filter p).length]? = some k := by
  obtain ⟨m, rfl⟩ : ∃ m, n = k + (m + 1) := ⟨n - k - 1, by omega⟩
  rw [List.range_add, List.filter_append, List.getElem?_append_right (Nat.le_refl _), Nat.sub_self, List.range_succ_eq_map]
  simp [hp]

/-- The elements after a write of element `i` to the `i`-th listed position. -/
theorem elemBits_expanded {w k n : Nat} (v : W1024) (p : Nat → Bool) (e : Nat → BitVec w) (hk : w * k + w ≤ 1024) :
    elemBits (setElems v w (((List.range n).filter p).zipIdx.map fun q => (q.1, (e q.2).toNat))) w k =
      if k < n ∧ p k = true then e ((List.range k).filter p).length else elemBits v w k := by
  have hkeys : (((List.range n).filter p).zipIdx.map fun q => (q.1, (e q.2).toNat)).map (·.1) = (List.range n).filter p := by
    rw [List.map_map]
    exact List.zipIdx_map_fst 0 _
  split
  case isTrue h =>
    have hmem : (k, (e ((List.range k).filter p).length).toNat) ∈ ((List.range n).filter p).zipIdx.map fun q => (q.1, (e q.2).toNat) :=
      List.mem_map.2 ⟨(k, _), List.mk_mem_zipIdx_iff_getElem?.2 (getElem?_filter_range p h.1 h.2), rfl⟩
    rw [elemBits_setElems_of_mem v hk (by rw [hkeys]; exact List.nodup_range.filter _) hmem, BitVec.ofNat_toNat, BitVec.setWidth_eq]
  case isFalse h => exact elemBits_setElems_of_notMem v w (by rw [hkeys]; simpa using h)

theorem FRegs.chosen_eq_masked (r : FRegs) (m : BitVec 5) : r.chosen m = r.masked m := rfl

theorem FRegs.flagged_zero (r : FRegs) : r.flagged 0 = r := by simp [FRegs.flagged]

theorem FRegs.flagsOf_zero (r : FRegs) : r.flagsOf (fun _ => 0) = 0 := by
  rw [FRegs.flagsOf]
  exact List.foldlRecOn _ _ (motive := fun w => w = 0) rfl (by simp)

/-- An element operation that sets no flag. -/
theorem FRegs.elementwise_vmap_plain (r : FRegs) (d : BitVec 5) (op : Nat → Nat) :
    r.Elementwise (r.vmap d fun i => (op i, {})) d (fun i => BitVec.ofNat r.sew (op i)) 0 := by
  have h := r.elementwise_vmap d fun i => (op i, {})
  simpa only [FFlags.word_none, r.flagsOf_zero] using h

/-- The elements of one register change, no flag, and VSTART is cleared. -/
def FRegs.Permuted (old r : FRegs) (d : BitVec 5) (e : Nat → BitVec old.sew) : Prop :=
  r = { old.setV d (r.rv d) with vstart := 0 } ∧ ∀ k, k < vlMax old.vtype → elemBits (r.rv d) old.sew k = e k

theorem FRegs.permuted_setV (old : FRegs) (d : BitVec 5) (v : W1024) {e : Nat → BitVec old.sew}
    (h : ∀ k, old.sew * k + old.sew ≤ 1024 → elemBits v old.sew k = e k) : old.Permuted (old.setV d v).vdone d e := by
  refine ⟨by rw [FRegs.rv_vdone, setV_rv]; rfl, fun k hk => ?_⟩
  rw [FRegs.rv_vdone, setV_rv, h k (elem_in_register hk)]

theorem FRegs.Elementwise.permuted {old r : FRegs} {d : BitVec 5} {e : Nat → BitVec old.sew} (h : old.Elementwise r d e 0) :
    old.Permuted r d fun k => if old.vstart.toNat ≤ k ∧ k < old.vl.toNat then e k else elemBits (old.rv d) old.sew k := by
  obtain ⟨hr, he⟩ := h
  refine ⟨by rwa [FRegs.flagged_zero] at hr, fun k hk => ?_⟩
  beta_reduce
  split
  case isTrue hp => exact (he k hk).1 hp
  case isFalse hp => exact (he k hk).2 hp

section
variable {f : FId} {x : RegF} {s : State} {g : Fgr}

theorem vregWith_permuted {op : BitVec 7} {fn : BitVec 6} {u : Uses} {body : FRegs → FRegs} {e : Nat → BitVec g.regs.sew}
    (hr : s.Runs f g) (hb : badReg u x = false) (hq : (body g.regs).Quiet) (h : g.regs.Permuted (body g.regs).vdone x.rd e) :
    ∃ r : FRegs, vregWith f op fn u x body s = .next (s.retired f g r none) ∧ g.regs.Permuted r x.rd e :=
  ⟨_, vregWith_done hr hb hq, h⟩

theorem vcompress_done (hr : s.Runs f g) (hq : g.regs.Quiet) (hb : badReg {} x = false) :
    ∃ r : FRegs, exec (.vcompress f x) s = .next (s.retired f g r none) ∧
      g.regs.Permuted r x.rd fun k => match (g.regs.chosen x.rb)[k]? with
         | some j => elemBits (g.regs.rv x.ra) g.regs.sew j
         | none => elemBits (g.regs.rv x.rd) g.regs.sew k := by
  simp only [exec_vcompress, execVcompress]
  exact vregWith_permuted hr hb hq (FRegs.permuted_setV _ _ _ fun k hk =>
    elemBits_compressed (g.regs.rv x.rd) (g.regs.masked x.rb) (fun j => elemBits (g.regs.rv x.ra) g.regs.sew j) hk)

theorem vexpand_done (hr : s.Runs f g) (hq : g.regs.Quiet) (hb : badReg {} x = false) :
    ∃ r : FRegs, exec (.vexpand f x) s = .next (s.retired f g r none) ∧
      g.regs.Permuted r x.rd fun k => if k < g.regs.vl.toNat ∧ (g.regs.rv x.rb).getLsbD k = true
         then elemBits (g.regs.rv x.ra) g.regs.sew (((List.range k).filter fun j => (g.regs.rv x.rb).getLsbD j).length)
         else elemBits (g.regs.rv x.rd) g.regs.sew k := by
  simp only [exec_vexpand, execVexpand]
  exact vregWith_permuted hr hb hq (FRegs.permuted_setV _ _ _ fun k hk =>
    elemBits_expanded (g.regs.rv x.rd) (fun j => (g.regs.rv x.rb).getLsbD j) (fun j => elemBits (g.regs.rv x.ra) g.regs.sew j) hk)

theorem vmap_plain_quiet {r : FRegs} {d : BitVec 5} {op : Nat → Nat} (hq : r.Quiet) : (r.vmap d fun i => (op i, {})).Quiet :=
  FRegs.vmap_quiet (fun _ => ⟨rfl, rfl⟩) hq

/-- An element operation that sets no flag, as an instruction. -/
theorem vregWith_elementwise {op : BitVec 7} {fn : BitVec 6} {u : Uses} {value : FRegs → Nat → Nat} (hr : s.Runs f g) (hb : badReg u x = false)
    (hq : g.regs.Quiet) : ∃ r : FRegs, vregWith f op fn u x (fun r => r.vmap x.rd fun i => (value r i, {})) s = .next (s.retired f g r none) ∧
      g.regs.Elementwise r x.rd (fun i => BitVec.ofNat g.regs.sew (value g.regs i)) 0 :=
  ⟨_, vregWith_done (body := fun r => r.vmap x.rd fun i => (value r i, {})) hr hb (vmap_plain_quiet hq), g.regs.elementwise_vmap_plain ..⟩

theorem vmerge_done (hr : s.Runs f g) (hq : g.regs.Quiet) (hb : badReg {} x = false) :
    ∃ r : FRegs, exec (.vmerge f x) s = .next (s.retired f g r none) ∧
      g.regs.Permuted r x.rd fun k => if g.regs.vstart.toNat ≤ k ∧ k < g.regs.vl.toNat
         then (if (g.regs.rv 0).getLsbD k then elemBits (g.regs.rv x.rb) g.regs.sew k else elemBits (g.regs.rv x.ra) g.regs.sew k)
         else elemBits (g.regs.rv x.rd) g.regs.sew k := by
  simp only [exec_vmerge, execVmerge]
  obtain ⟨r, hstep, he⟩ := vregWith_elementwise (op := 0x46) (fn := 0x02)
    (value := fun r i => elemAt (if (r.rv 0).getLsbD i then r.rv x.rb else r.rv x.ra) r.sew i) hr hb hq
  refine ⟨r, hstep, ?_⟩
  have h := he.permuted
  simp only [elemAt_eq_toNat, BitVec.ofNat_toNat, BitVec.setWidth_eq] at h
  refine ⟨h.1, fun k hk => (h.2 k hk).trans ?_⟩
  beta_reduce
  split
  · split <;> rfl
  · rfl

theorem vput_done (hr : s.Runs f g) (hq : g.regs.Quiet) (hb : badReg {} x = false) :
    ∃ r : FRegs, exec (.vput f x) s = .next (s.retired f g r none) ∧
      g.regs.Permuted r x.rd fun k => if k = (g.regs.rg x.rb).toNat then (g.regs.rg x.ra).signExtend g.regs.sew
        else elemBits (g.regs.rv x.rd) g.regs.sew k := by
  simp only [exec_vput, execVput]
  refine vregWith_permuted (body := fun r => if (r.rg x.rb).toNat < vlMax r.vtype
    then r.setV x.rd (setElem (r.rv x.rd) r.sew (r.rg x.rb).toNat (fitScalar r.sew (r.rg x.ra))) else r) hr hb ?_ ?_
  · split <;> exact hq
  · split
    case isTrue h =>
      refine FRegs.permuted_setV _ _ _ fun k hk => ?_
      split
      case isTrue hk' => rw [hk', elemBits_setElem_same _ _ (elem_in_register h), fitScalar_eq, BitVec.ofNat_toNat, BitVec.setWidth_eq]
      case isFalse hk' => rw [elemBits_setElem_ne _ _ _ hk']
    case isFalse h =>
      refine ⟨by simp [FRegs.vdone, FRegs.setV, FRegs.rv], fun k hk => ?_⟩
      beta_reduce
      rw [if_neg (by omega), FRegs.rv_vdone]

theorem vget_done (hr : s.Runs f g) (hq : g.regs.Quiet) (hb : badReg {} x = false) :
    exec (.vget f x) s = .next (s.retired f g { g.regs.setG x.rd
      (if (g.regs.rg x.rb).toNat < vlMax g.regs.vtype then (elemBits (g.regs.rv x.ra) g.regs.sew (g.regs.rg x.rb).toNat).setWidth 64 else 0)
      with vstart := 0 } none) := by
  rw [exec_vget, execVget, vregWith_done hr hb (FRegs.setG_quiet hq)]
  simp only [elemAt_eq_toNat, BitVec.ofNat_toNat, FRegs.vdone]

theorem vfirst_done (hr : s.Runs f g) (hq : g.regs.Quiet) (hb : badReg { rb := false } x = false) :
    exec (.vfirst f x) s = .next (s.retired f g { g.regs.setG x.rd (match (g.regs.chosen x.ra) with
         | [] => BitVec.allOnes 64
         | k :: _ => BitVec.ofNat 64 k) with vstart := 0 } none) := by
  rw [exec_vfirst, execVfirst, vregWith_done hr hb (FRegs.setG_quiet hq), FRegs.chosen_eq_masked]
  cases g.regs.masked x.ra <;> rfl

/-- The VTYPE of an immediate gives the number of lanes that its three low bits name. -/
theorem vlMax_of_imm (imm : BitVec 12) (h : imm.toNat < 16) : (imm.extractLsb' 0 4).setWidth 64 = (imm.setWidth 64 : W64) ∧
    vlMax (imm.setWidth 64) = 1024 / (8 * 2 ^ (imm.toNat % 8)) := by
  constructor
  · apply BitVec.eq_of_toNat_eq
    simp only [BitVec.toNat_setWidth, BitVec.extractLsb'_toNat]
    omega
  · simp only [vlMax, sewOf, bits, BitVec.toNat_setWidth]
    rw [Nat.mod_eq_of_lt (by omega : imm.toNat < 2 ^ 64)]
    simp

theorem vsetvl_done {x : ImmF} (hr : s.Runs f g) (hq : g.regs.Quiet) (himm : x.imm.toNat < 16) (hsew : x.imm.toNat % 8 < 5) :
    let mx := 1024 / (8 * 2 ^ (x.imm.toNat % 8))
    let vl := BitVec.ofNat 64 (if x.ra = 0 then mx else Nat.min (g.regs.rg x.ra).toNat mx)
    exec (.vsetvl f x) s = .next (s.retired f g ({ g.regs with vtype := x.imm.setWidth 64, vl := vl, vstart := 0 }.setG x.rd vl) none) := by
  intro mx vl
  have hc : chk5 (x.imm.extractLsb' 4 8 != 0 || 5 ≤ (x.imm.extractLsb' 0 3).toNat) g.regs = none := by
    have h1 : x.imm.extractLsb' 4 8 = 0 := by
      apply BitVec.eq_of_toNat_eq
      rw [BitVec.extractLsb'_toNat, Nat.shiftRight_eq_div_pow, Nat.div_eq_of_lt (by omega)]
      rfl
    have h2 : ¬ 5 ≤ (x.imm.extractLsb' 0 3).toNat := by
      rw [BitVec.extractLsb'_toNat, Nat.shiftRight_zero]
      omega
    rw [h1, decide_eq_false h2]
    rfl
  obtain ⟨hvt, hmx⟩ := vlMax_of_imm x.imm himm
  rw [exec_vsetvl, execVsetvl]
  dsimp only
  rw [hvt, hmx]
  exact runRegs_done_of_check hr hc (put := fun r => ({ r with
    vtype := x.imm.setWidth 64
    vl := BitVec.ofNat 64 (if x.ra = 0 then mx else Nat.min (r.rg x.ra).toNat mx)
    vstart := 0 } : FRegs).setG x.rd (BitVec.ofNat 64 (if x.ra = 0 then mx else Nat.min (r.rg x.ra).toNat mx)))
    (FRegs.setG_quiet hq)

end

/-- Settles O24: the compares and the mask operations are `maskMap`, the permutations writes of listed elements. -/
theorem vectorMasksAndMoves : Obligations.VectorMasksAndMoves := by
  refine ⟨fun f x s g hr hq hb => ⟨compareRows_done hr hq hb, maskRows_done hr hq hb⟩, ?_⟩
  intro f s g hr hq w
  refine ⟨fun x himm hsew => vsetvl_done hr hq himm hsew, ?_, fun x hb => ⟨?_, ?_, vfirst_done hr hq hb, ?_⟩, fun x hb => ?_⟩
  · intro x hb kept old a
    exact ⟨vcompress_done hr hq hb, vexpand_done hr hq hb, vmerge_done hr hq hb, vput_done hr hq hb, vget_done hr hq hb⟩
  · exact (exec_vmv ..).trans (vregWith_done hr hb hq)
  · exact (exec_vpopc ..).trans (vregWith_done hr hb (FRegs.setG_quiet hq))
  · obtain ⟨r, hstep, he⟩ := vregWith_elementwise (op := 0x4B) (fn := 0x03) (value := fun r _ => fitScalar r.sew (r.rg x.ra)) hr hb hq
    refine ⟨r, (exec_vsplat ..).trans hstep, ?_⟩
    simpa only [fitScalar_eq, BitVec.ofNat_toNat, BitVec.setWidth_eq] using he
  · obtain ⟨r, hstep, he⟩ := vregWith_elementwise (op := 0x46) (fn := 0x05) (value := fun _ i => i) hr hb hq
    exact ⟨r, (exec_viota ..).trans hstep, he⟩

end Sys2Proof.Machine
end

section
/-!
PROOFS. The vector accumulators (R256, R257).
-/

namespace Sys2Proof.Machine

-- WRITING LANES -------------------------------------------------------------------------------------------------------------------------------

theorem getLsbD_setLane (va : WVA) (w i n k : Nat) : (setLane va w i n).getLsbD k =
    if (2 * w + 16) * i ≤ k ∧ k < (2 * w + 16) * (i + 1) then decide (k < 4096) && n.testBit (k - (2 * w + 16) * i) else va.getLsbD k := by
  have hin : ((2 * w + 16) * i ≤ k ∧ k < (2 * w + 16) * (i + 1)) ↔ ¬ k < (2 * w + 16) * i ∧ k - (2 * w + 16) * i < 2 * w + 16 := by
    rw [Nat.mul_succ]
    omega
  simp only [setLane, laneWidth, Nat.mul_comm i, BitVec.getLsbD_or, BitVec.getLsbD_and, BitVec.getLsbD_not, BitVec.getLsbD_shiftLeft,
    BitVec.getLsbD_ofNat, Nat.testBit_two_pow_sub_one, Nat.testBit_mod_two_pow, hin]
  by_cases hk : k < 4096
  · have hsub : k - (2 * w + 16) * i < 4096 := by omega
    by_cases hlo : k < (2 * w + 16) * i <;> by_cases hhi : k - (2 * w + 16) * i < 2 * w + 16 <;> simp [hk, hsub, hlo, hhi]
  · simp [hk, BitVec.getLsbD_of_ge va k (Nat.le_of_not_lt hk)]

/-- The lanes of a list of indices, each with its value. -/
def setLanes (va : WVA) (w : Nat) (l : List Nat) (e : Nat → Nat) : WVA := l.foldl (fun va i => setLane va w i (e i)) va

/-- A bit that lies in none of the written lanes is as before. -/
theorem getLsbD_setLanes_of_notMem {w k : Nat} {l : List Nat} {e : Nat → Nat} (va : WVA)
    (h : ∀ i ∈ l, ¬ ((2 * w + 16) * i ≤ k ∧ k < (2 * w + 16) * (i + 1))) : (setLanes va w l e).getLsbD k = va.getLsbD k :=
  List.foldlRecOn l _ (motive := fun v : WVA => v.getLsbD k = va.getLsbD k) rfl fun v hv i hi => by
    rw [getLsbD_setLane, if_neg (h i hi), hv]

/-- A bit of a written lane is the bit of its value. -/
theorem getLsbD_setLanes_of_mem {w k i : Nat} {l : List Nat} {e : Nat → Nat} (va : WVA) (hl : l.Nodup) (hi : i ∈ l)
    (hk : (2 * w + 16) * i ≤ k ∧ k < (2 * w + 16) * (i + 1)) :
    (setLanes va w l e).getLsbD k = (decide (k < 4096) && (e i).testBit (k - (2 * w + 16) * i)) := by
  induction l generalizing va with
  | nil => cases hi
  | cons j l ih =>
    obtain ⟨hj, hl⟩ := List.nodup_cons.1 hl
    rcases List.mem_cons.1 hi with rfl | hi
    · have hout : ∀ j ∈ l, ¬ ((2 * w + 16) * j ≤ k ∧ k < (2 * w + 16) * (j + 1)) := fun j hmem hjk => by
        have h1 : i < j + 1 := Nat.lt_of_mul_lt_mul_left (hk.1.trans_lt hjk.2)
        have h2 : j < i + 1 := Nat.lt_of_mul_lt_mul_left (hjk.1.trans_lt hk.2)
        exact hj ((by omega : i = j) ▸ hmem)
      exact (getLsbD_setLanes_of_notMem _ hout).trans ((getLsbD_setLane ..).trans (if_pos hk))
    · exact ih _ hl hi

theorem vaLane_setLanes {w i : Nat} {l : List Nat} {e : Nat → Nat} (va : WVA) (hl : l.Nodup) (hw : (2 * w + 16) * (i + 1) ≤ 4096) :
    vaLane (setLanes va w l e) w i = if i ∈ l then BitVec.ofNat (2 * w + 16) (e i) else vaLane va w i := by
  refine BitVec.eq_of_getLsbD_eq fun b hb => ?_
  have hmul : (2 * w + 16) * (i + 1) = (2 * w + 16) * i + (2 * w + 16) := Nat.mul_succ ..
  have hin : (2 * w + 16) * i ≤ (2 * w + 16) * i + b ∧ (2 * w + 16) * i + b < (2 * w + 16) * (i + 1) := by omega
  rw [vaLane, BitVec.getLsbD_extractLsb']
  split
  case isTrue hi =>
    rw [getLsbD_setLanes_of_mem va hl hi hin, BitVec.getLsbD_ofNat, Nat.add_sub_cancel_left]
    simp [hb, show (2 * w + 16) * i + b < 4096 by omega]
  case isFalse hi =>
    rw [getLsbD_setLanes_of_notMem va fun j hj hjb => ?_, vaLane, BitVec.getLsbD_extractLsb']
    have h1 : i < j + 1 := Nat.lt_of_mul_lt_mul_left (hin.1.trans_lt hjb.2)
    have h2 : j < i + 1 := Nat.lt_of_mul_lt_mul_left (hjb.1.trans_lt hin.2)
    exact hi ((by omega : i = j) ▸ hj)

/-- All VLMAX lanes lie in the 4096 bits of an accumulator. -/
theorem lane_in_accumulator {r : FRegs} {i : Nat} (h : i < vlMax r.vtype) : (2 * r.sew + 16) * (i + 1) ≤ 4096 := by
  have hin : r.sew * i + r.sew ≤ 1024 := elem_in_register h
  have h8 : 8 * (i + 1) ≤ r.sew * (i + 1) := Nat.mul_le_mul_right _ (by rw [FRegs.sew, sewOf]; exact Nat.le_mul_of_pos_right _ (by positivity))
  have hsew : r.sew * (i + 1) ≤ 1024 := hin
  rw [Nat.add_mul, Nat.mul_assoc]
  omega

@[simp] theorem FRegs.rva_flagged (r : FRegs) (w : W64) (n : BitVec 2) : (r.flagged w).rva n = r.rva n := by
  have h : (r.flagged w).va = r.va := by
    unfold FRegs.flagged
    dsimp only
    split
    · rfl
    split <;> rfl
  rw [FRegs.rva, FRegs.rva, getElem_congr_coll h]

-- ACCUMULATION --------------------------------------------------------------------------------------------------------------------------------

/-- A lane's new value: its exact sum fitted to the lane, with OV when it does not fit. -/
def laneStep (r : FRegs) (n : BitVec 2) (addend : Nat → Int) (i : Nat) : BitVec (2 * r.sew + 16) × W64 :=
  fitted (2 * r.sew + 16) false ((vaLane (r.rva n) r.sew i).toInt + addend i)

theorem vaccumulate_eq (r : FRegs) (n : BitVec 2) (addend : Nat → Int) : r.vaccumulate n addend =
    (r.setVa n (setLanes (r.rva n) r.sew r.active fun i => (fitElem (2 * r.sew + 16) false ((vaLane (r.rva n) r.sew i).toInt + addend i)).1)).flagged
      (r.flagsOf fun i => (laneStep r n addend i).2) := by
  have hflags := word_allFlags r fun i => fitElem (2 * r.sew + 16) false ((vaLane (r.rva n) r.sew i).toInt + addend i)
  simp only [(fitElem_eq _ _ _).2.1] at hflags
  rw [FRegs.vaccumulate, FRegs.flag_eq_flagged]
  simp only [laneOf_eq, List.foldl_map, laneWidth, setLanes, laneStep, ← hflags, allFlags]

theorem FRegs.nodup_active (r : FRegs) : r.active.Nodup := List.nodup_range.filter _

theorem vaccumulate_lanes (r : FRegs) (n : BitVec 2) (addend : Nat → Int) {i : Nat} (hi : i < vlMax r.vtype) :
    vaLane ((r.vaccumulate n addend).rva n) r.sew i =
      if r.vstart.toNat ≤ i ∧ i < r.vl.toNat then (laneStep r n addend i).1 else vaLane (r.rva n) r.sew i := by
  rw [vaccumulate_eq, FRegs.rva_flagged, FRegs.rva_setVa, if_pos rfl, vaLane_setLanes _ r.nodup_active (lane_in_accumulator hi)]
  simp only [FRegs.mem_active, FRegs.processes, (fitElem_eq _ _ _).1, laneStep]

theorem vaccumulate_above (r : FRegs) (n : BitVec 2) (addend : Nat → Int) (hvl : r.vl.toNat ≤ vlMax r.vtype) {k : Nat}
    (hk : (2 * r.sew + 16) * vlMax r.vtype ≤ k) : ((r.vaccumulate n addend).rva n).getLsbD k = (r.rva n).getLsbD k := by
  rw [vaccumulate_eq, FRegs.rva_flagged, FRegs.rva_setVa, if_pos rfl]
  refine getLsbD_setLanes_of_notMem _ fun i hi hik => ?_
  have hlt : i + 1 ≤ vlMax r.vtype := (FRegs.mem_active.1 hi).2.trans_le hvl
  have := Nat.mul_le_mul_left (2 * r.sew + 16) hlt
  omega

section
variable {f : FId} {x : RegF} {s : State} {g : Fgr}

theorem vaccWith_done {fn : BitVec 6} {u : Uses} {addend : FRegs → Nat → Int} {value : Nat → Int} (hr : s.Runs f g) (hd : x.rd.toNat < 4)
    (hb : badReg u x = false) (hv : ∀ i, addend g.regs i = value i) :
    let n : BitVec 2 := x.rd.setWidth 2
    let w := g.regs.sew
    let e := fun i => fitted (2 * w + 16) false ((vaLane (g.regs.rva n) w i).toInt + value i)
    ∃ r : FRegs, (r.Quiet → vaccWith f fn u x (fun r => r.vaccumulate (accOf x.rd) (addend r)) s = .next (s.retired f g r none)) ∧
      r = { (g.regs.setVa n (r.rva n)).flagged (g.regs.flagsOf fun i => (e i).2) with vstart := 0 } ∧
      (∀ i, i < vlMax g.regs.vtype →
        vaLane (r.rva n) w i = if g.regs.vstart.toNat ≤ i ∧ i < g.regs.vl.toNat then (e i).1 else vaLane (g.regs.rva n) w i) ∧
      (g.regs.vl.toNat ≤ vlMax g.regs.vtype →
        ∀ k, (2 * w + 16) * vlMax g.regs.vtype ≤ k → (r.rva n).getLsbD k = (g.regs.rva n).getLsbD k) := by
  intro n w e
  obtain rfl : addend g.regs = value := funext hv
  obtain ⟨hbad, hacc⟩ := badAcc_eq hd
  refine ⟨(g.regs.vaccumulate (accOf x.rd) (addend g.regs)).vdone, fun hq => ?_, ?_, fun i hi => ?_, fun hvl k hk => ?_⟩
  · exact runRegs_done_of_check (put := fun r => (r.vaccumulate (accOf x.rd) (addend r)).vdone) hr (by simp [chk5, hb, hbad]) hq
  · rw [hacc, FRegs.vdone]
    have hrva : (({ g.regs.vaccumulate (x.rd.setWidth 2) (addend g.regs) with vstart := 0 } : FRegs).rva n) =
        (g.regs.vaccumulate n (addend g.regs)).rva n := rfl
    rw [hrva]
    simp only [vaccumulate_eq, FRegs.rva_flagged, FRegs.rva_setVa, if_true]
    rfl
  · rw [hacc]
    exact vaccumulate_lanes g.regs n _ hi
  · rw [hacc]
    exact vaccumulate_above g.regs n _ hvl hk

theorem vaccRows_done (hr : s.Runs f g) (hd : x.rd.toNat < 4) : ∀ row ∈ vaccRows, badReg row.2.1 x = false →
    let n : BitVec 2 := x.rd.setWidth 2
    let w := g.regs.sew
    let e := fun i => fitted (2 * w + 16) false ((vaLane (g.regs.rva n) w i).toInt + row.2.2 g.regs x i)
    ∃ r : FRegs, (r.Quiet → exec (row.1 f x) s = .next (s.retired f g r none)) ∧
      r = { (g.regs.setVa n (r.rva n)).flagged (g.regs.flagsOf fun i => (e i).2) with vstart := 0 } ∧
      (∀ i, i < vlMax g.regs.vtype →
        vaLane (r.rva n) w i = if g.regs.vstart.toNat ≤ i ∧ i < g.regs.vl.toNat then (e i).1 else vaLane (g.regs.rva n) w i) ∧
      (g.regs.vl.toNat ≤ vlMax g.regs.vtype →
        ∀ k, (2 * w + 16) * vlMax g.regs.vtype ≤ k → (r.rva n).getLsbD k = (g.regs.rva n).getLsbD k) := by
  intro row hrow hb
  simp only [vaccRows, List.mem_cons, List.not_mem_nil, or_false] at hrow
  rcases hrow with rfl | rfl | rfl | rfl
  · simp only [exec_vacadd, execVacadd]
    exact vaccWith_done (addend := fun r i => sint r.sew (elemAt (r.rv x.ra) r.sew i)) hr hd hb fun i => by rw [elemAt_eq_toNat, sint_toNat]
  · simp only [exec_vacaddu, execVacaddu]
    exact vaccWith_done (addend := fun r i => (elemAt (r.rv x.ra) r.sew i : Int)) hr hd hb fun i => rfl
  · simp only [exec_vacmac, execVacmac]
    exact vaccWith_done (addend := fun r i => sint r.sew (elemAt (r.rv x.ra) r.sew i) * sint r.sew (elemAt (r.rv x.rb) r.sew i)) hr hd hb
      fun i => by rw [elemAt_eq_toNat, elemAt_eq_toNat, sint_toNat, sint_toNat]
  · simp only [exec_vacmsu, execVacmsu]
    exact vaccWith_done (addend := fun r i => -(sint r.sew (elemAt (r.rv x.ra) r.sew i) * sint r.sew (elemAt (r.rv x.rb) r.sew i))) hr hd hb
      fun i => by rw [elemAt_eq_toNat, elemAt_eq_toNat, sint_toNat, sint_toNat]

theorem vacsum_done (hr : s.Runs f g) (hd : x.rd.toNat < 4) (hb : badReg { ra := false } x = false) (ha : x.rb.toNat < 4) :
    let n : BitVec 2 := x.rd.setWidth 2
    let a : BitVec 2 := x.rb.setWidth 2
    let p := fitted 144 false ((g.regs.ra a).toInt + ((List.range (vlMax g.regs.vtype)).map fun i => (vaLane (g.regs.rva n) g.regs.sew i).toInt).sum)
    let r := { (g.regs.setA a p.1).flagged p.2 with vstart := 0 }
    r.Quiet → exec (.vacsum f x) s = .next (s.retired f g r none) := by
  intro n a p r hq
  obtain ⟨hbd, hd'⟩ := badAcc_eq hd
  obtain ⟨hba, ha'⟩ := badAcc_eq ha
  have hres : (g.regs.accumulate (accOf x.rb) (g.regs.laneSum (accOf x.rd))).vdone = r := by
    rw [hd', ha', FRegs.accumulate_eq, FRegs.laneSum]
    simp only [laneOf_eq]
    rfl
  rw [exec_vacsum, execVacsum]
  refine (runRegs_done_of_check (put := fun r => (r.accumulate (accOf x.rb) (r.laneSum (accOf x.rd))).vdone) hr (by simp [chk5, hb, hbd, hba])
    (by rw [hres]; exact hq)).trans ?_
  rw [hres]

end

/-- Settles O25: an accumulation writes the lanes of the processed elements, each with its fitted sum. -/
theorem vectorAccumulators : Obligations.VectorAccumulators := by
  intro f x s g hr hd n w
  refine ⟨fun hb hq => ?_, vaccRows_done hr hd, fun hb ha => vacsum_done hr hd hb ha⟩
  obtain ⟨hbad, hacc⟩ := badAcc_eq hd
  rw [exec_vacclr, execVacclr, vaccWith, hacc]
  exact runRegs_done_of_check (put := fun r => (r.setVa n 0).vdone) hr (by simp [chk5, hb, hbad]) hq

end Sys2Proof.Machine
end

section
/-!
PROOFS. Vector loads and stores (R260 to R262).
-/

namespace Sys2Proof.Machine

-- RUNS OF ACCESSES ----------------------------------------------------------------------------------------------------------------------------

section
variable {f : FId} {g : Fgr} {ldm ff : Bool} {d : BitVec 5} {ea : Nat → W64} {first : Nat} {l : List Nat} {s t : State} {r r' : FRegs}

/-- Accesses that are done lead to the accesses after them. -/
theorem loadElems_append (h : LoadsAll f g ldm d ea l s r t r') (rest : List Nat) :
    loadElems f g ldm ff d ea first (l ++ rest) s r = loadElems f g ldm ff d ea first rest t r' := by
  induction h with
  | done s r => rfl
  | elem hal hload _ ih =>
    rw [List.cons_append, loadElems]
    simp only [State.fgrD, hal, hload, ne_eq, not_true_eq_false, if_false, ih]

theorem storeElems_append (h : StoresAll f g ldm r d ea l s t) (rest : List Nat) :
    storeElems f g ldm d ea (l ++ rest) s r = storeElems f g ldm d ea rest t r := by
  induction h with
  | done s => rfl
  | elem hal hstore _ ih =>
    rw [List.cons_append, storeElems]
    simp only [State.fgrD, hal, elemAt_eq_toNat, hstore, ne_eq, not_true_eq_false, if_false, ih]

theorem loadElems_all (h : LoadsAll f g ldm d ea l s r t r') : loadElems f g ldm ff d ea first l s r = (t, .done r'.vdone) := by
  rw [← List.append_nil l, loadElems_append h]
  rfl

theorem storeElems_all (h : StoresAll f g ldm r d ea l s t) : storeElems f g ldm d ea l s r = (t, .done r.vdone) := by
  rw [← List.append_nil l, storeElems_append h]
  rfl

/-- A load of elements leaves VTYPE alone. -/
theorem LoadsAll.vtype_eq (h : LoadsAll f g ldm d ea l s r t r') : r'.vtype = r.vtype := by
  induction h with
  | done => rfl
  | elem _ _ _ ih => exact ih

end

/-- The accesses of a unit-stride, strided or indexed form. -/
theorem moveElems_loads {f : FId} {k : VKind} {d : BitVec 5} {ea : FRegs → Nat → W64} {e : Nat → W64} {s t : State} {g : Fgr} {r : FRegs}
    {w : W32} {chk : FRegs → Option Nat} (hr : s.Runs f g) (hc : chk g.regs = none) (hk : k.load = true) (he : ea g.regs = e)
    (h : LoadsAll f g k.ldm d e g.regs.active s g.regs t r) (hq : r.Quiet) :
    runFgr f w chk (moveElems f k d ea) s = .next (t.retired f g { r with vstart := 0 } none) := by
  rw [runFgr_body hr hc, moveElems, if_pos hk, he, loadElems_all h, State.finish]
  exact congrArg _ (retireFgr_quiet (r := r.vdone) hq)

theorem moveElems_stores {f : FId} {k : VKind} {d : BitVec 5} {ea : FRegs → Nat → W64} {e : Nat → W64} {s t : State} {g : Fgr}
    {w : W32} {chk : FRegs → Option Nat} (hr : s.Runs f g) (hc : chk g.regs = none) (hk : k.load = false) (he : ea g.regs = e)
    (h : StoresAll f g k.ldm g.regs d e g.regs.active s t) (hq : g.regs.Quiet) :
    runFgr f w chk (moveElems f k d ea) s = .next (t.retired f g { g.regs with vstart := 0 } none) := by
  rw [runFgr_body hr hc, moveElems, if_neg (by simp [hk]), he, storeElems_all h, State.finish]
  exact congrArg _ (retireFgr_quiet (r := g.regs.vdone) hq)

-- THE ROWS ------------------------------------------------------------------------------------------------------------------------------------

/-- The claim of a row: loads or stores that are all done complete it. -/
def VectorMoves (f : FId) (s : State) (g : Fgr) (i : Instr) (load ldm : Bool) (d : BitVec 5) (ea : Nat → W64) : Prop :=
  (load = true → ∀ (t : State) (r : FRegs), LoadsAll f g ldm d ea g.regs.active s g.regs t r → r.Quiet →
    exec i s = .next (t.retired f g { r with vstart := 0 } none)) ∧
  (load = false → ∀ t : State, StoresAll f g ldm g.regs d ea g.regs.active s t → g.regs.Quiet →
    exec i s = .next (t.retired f g { g.regs with vstart := 0 } none))

theorem VectorMoves.of_runFgr {f : FId} {k : VKind} {d : BitVec 5} {ea : FRegs → Nat → W64} {e : Nat → W64} {s : State} {g : Fgr} {i : Instr}
    {w : W32} {chk : FRegs → Option Nat} (hi : exec i s = runFgr f w chk (moveElems f k d ea) s) (hr : s.Runs f g) (hc : chk g.regs = none)
    (he : ea g.regs = e) : VectorMoves f s g i k.load k.ldm d e :=
  ⟨fun hk _ _ h hq => hi.trans (moveElems_loads hr hc hk he h hq), fun hk _ h hq => hi.trans (moveElems_stores hr hc hk he h hq)⟩

theorem badFf_eq_false {k : VKind} {r : FRegs} (h : k.ff = false ∨ r.mode = 2) : badFf k r = false := by
  rcases h with h | h <;> simp [badFf, h]

section
variable {f : FId} {s : State} {g : Fgr}

theorem vunitWith_moves {fn3 : BitVec 3} {k : VKind} {x : ImmF} {i : Instr} (hi : exec i s = vunitWith f fn3 k x s) (hr : s.Runs f g)
    (hff : k.ff = false ∨ g.regs.mode = 2) :
    VectorMoves f s g i k.load k.ldm x.rd fun i => g.regs.rg x.ra + x.imm.signExtend 64 + BitVec.ofNat 64 (i * (g.regs.sew / 8)) :=
  .of_runFgr hi hr (by simp [firstCause, badFf_eq_false hff]) rfl

theorem vstrideWith_moves {fn : BitVec 6} {k : VKind} {x : RegF} {i : Instr} (hi : exec i s = vstrideWith f fn k x s) (hr : s.Runs f g)
    (hb : badReg {} x = false) : VectorMoves f s g i k.load k.ldm x.rd fun i => g.regs.rg x.ra + BitVec.ofNat 64 i * g.regs.rg x.rb :=
  .of_runFgr hi hr (by simp [chk5, hb]) rfl

/-- The width of the indices, by bit 3 of VTYPE (R260). -/
theorem FRegs.iw_eq (r : FRegs) : r.iw = if r.vtype.getLsbD 3 then 64 else 32 := rfl

theorem FRegs.groupPasses_eq_false {r : FRegs} {rb : BitVec 5}
    (h : r.vl = 0 ∨ rb.toNat + (r.vl.toNat - 1) * (if r.vtype.getLsbD 3 then 64 else 32) / 1024 ≤ 31) : r.groupPasses rb = false := by
  rcases h with h | h
  · simp [FRegs.groupPasses, h]
  · rw [FRegs.groupPasses, FRegs.iw_eq, decide_eq_false (Nat.not_lt.2 h), Bool.and_false]

theorem vindexWith_moves {fn : BitVec 6} {k : VKind} {x : RegF} {i : Instr} (hi : exec i s = vindexWith f fn k x s) (hr : s.Runs f g)
    (hb : badReg {} x = false)
    (hg : g.regs.vl = 0 ∨ x.rb.toNat + (g.regs.vl.toNat - 1) * (if g.regs.vtype.getLsbD 3 then 64 else 32) / 1024 ≤ 31)
    (hff : k.ff = false ∨ g.regs.mode = 2) :
    VectorMoves f s g i k.load k.ldm x.rd fun i =>
      let iw := if g.regs.vtype.getLsbD 3 then 64 else 32
      g.regs.rg x.ra + (elemBits (g.regs.rv (x.rb + BitVec.ofNat 5 (i * iw / 1024))) iw (i % (1024 / iw))).setWidth 64 := by
  refine .of_runFgr hi hr (by simp [firstCause, hb, FRegs.groupPasses_eq_false hg, badFf_eq_false hff]) ?_
  funext j
  rw [FRegs.indexAt, elemAt_eq_toNat, BitVec.ofNat_toNat]
  rfl

theorem vmemImmRows_moves (hr : s.Runs f g) : ∀ row ∈ vmemImmRows, ∀ x : ImmF, (row.2.2.2 = false ∨ g.regs.mode = 2 →
    VectorMoves f s g (row.1 f x) row.2.1 row.2.2.1 x.rd
      fun i => g.regs.rg x.ra + x.imm.signExtend 64 + BitVec.ofNat 64 (i * (g.regs.sew / 8))) := by
  intro row hrow x hff
  simp only [vmemImmRows, List.mem_cons, List.not_mem_nil, or_false] at hrow
  rcases hrow with rfl | rfl | rfl | rfl | rfl
  · exact vunitWith_moves (exec_vld ..) hr hff
  · exact vunitWith_moves (exec_vldL ..) hr hff
  · exact vunitWith_moves (exec_vldff ..) hr hff
  · exact vunitWith_moves (exec_vst ..) hr hff
  · exact vunitWith_moves (exec_vstL ..) hr hff

theorem vmemRegRows_moves (hr : s.Runs f g) : ∀ row ∈ vmemRegRows, ∀ x : RegF, badReg {} x = false →
    ((row.1 f x = .vgath f x ∨ row.1 f x = .vgathL f x ∨ row.1 f x = .vgathff f x ∨ row.1 f x = .vscat f x ∨ row.1 f x = .vscatL f x) →
      g.regs.vl = 0 ∨ x.rb.toNat + (g.regs.vl.toNat - 1) * (if g.regs.vtype.getLsbD 3 then 64 else 32) / 1024 ≤ 31) →
    (row.2.2.2.1 = false ∨ g.regs.mode = 2 → VectorMoves f s g (row.1 f x) row.2.1 row.2.2.1 x.rd (row.2.2.2.2 g.regs x)) := by
  intro row hrow x hb hg hff
  simp only [vmemRegRows, List.mem_cons, List.not_mem_nil, or_false] at hrow
  rcases hrow with rfl | rfl | rfl | rfl | rfl | rfl | rfl | rfl | rfl
  · exact vstrideWith_moves (exec_vlds ..) hr hb
  · exact vstrideWith_moves (exec_vldsL ..) hr hb
  · exact vstrideWith_moves (exec_vsts ..) hr hb
  · exact vstrideWith_moves (exec_vstsL ..) hr hb
  · exact vindexWith_moves (exec_vgath ..) hr hb (hg (by simp)) hff
  · exact vindexWith_moves (exec_vgathL ..) hr hb (hg (by simp)) hff
  · exact vindexWith_moves (exec_vgathff ..) hr hb (hg (by simp)) hff
  · exact vindexWith_moves (exec_vscat ..) hr hb (hg (by simp)) hff
  · exact vindexWith_moves (exec_vscatL ..) hr hb (hg (by simp)) hff

-- FAULTS --------------------------------------------------------------------------------------------------------------------------------------

theorem vldff_refused {x : ImmF} (hr : s.Runs f g) (hm : g.regs.mode ≠ 2) :
    exec (.vldff f x) s = .next (s.preciseTrap f g.regs 0x08 ((immWord 0x50 2 x).setWidth 64)) := by
  rw [exec_vldff, execVldff]
  exact runFgr_refused hr (by simp [firstCause, badFf, hm])

theorem vgathff_refused {x : RegF} (hr : s.Runs f g) (hm : g.regs.mode ≠ 2) (hb : badReg {} x = false) (hx : x.rb = 0)
    (hvl : g.regs.vl.toNat ≤ 16) : exec (.vgathff f x) s = .next (s.preciseTrap f g.regs 0x08 ((regWord 0x53 0x02 x).setWidth 64)) := by
  have hg : g.regs.groupPasses x.rb = false := FRegs.groupPasses_eq_false <| .inr <| by
    rw [hx]
    split <;> simp <;> omega
  rw [exec_vgathff, execVgathff]
  exact runFgr_refused hr (by simp [firstCause, badFf, hm, hb, hg])

variable {t : State} {r : FRegs} {d : BitVec 5} {ea : FRegs → Nat → W64} {e : Nat → W64} {before after : List Nat} {k : Nat} {K : VKind} {w : W32}
  {chk : FRegs → Option Nat}

/-- A load of elements that ends at element `k`, after those before it. -/
theorem loads_stop (hr : s.Runs f g) (hc : chk g.regs = none) (hK : K.load = true) (he : ea g.regs = e) (hl : g.regs.active = before ++ k :: after)
    (h : LoadsAll f g K.ldm d e before s g.regs t r) :
    (((e k).toNat % (g.regs.sew / 8) ≠ 0 ∨
      t.load f ((t.fgr? f).getD g) K.ldm (e k).toNat (g.regs.sew / 8) = .bad) →
    runFgr f w chk (moveElems f K d ea) s = .next (t.finish f g.regs
      (if K.ff && k != g.regs.vstart.toNat then .done (r.shorten k)
       else .trap (r.stopAt k) (if (e k).toNat % (g.regs.sew / 8) ≠ 0 then 0x07 else 0x05) (e k)))) := by
  intro hbad
  have hsew : r.sew = g.regs.sew := congrArg sewOf h.vtype_eq
  rw [runFgr_body hr hc, moveElems, if_pos hK, he, hl, loadElems_append h, loadElems, hsew]
  by_cases hal : (e k).toNat % (g.regs.sew / 8) ≠ 0
  · by_cases hf : (K.ff && k != g.regs.vstart.toNat) = true <;>
      simp only [ne_eq, hal, not_false_eq_true, hf, if_true, Bool.false_eq_true, if_false, State.finish]
  · have hload := hbad.resolve_left hal
    by_cases hf : (K.ff && k != g.regs.vstart.toNat) = true <;>
      simp only [hal, hf, if_false, if_true, Bool.false_eq_true, State.fgrD, hload, State.finish]

theorem stores_stop (hr : s.Runs f g) (hc : chk g.regs = none) (hK : K.load = false) (he : ea g.regs = e) (hl : g.regs.active = before ++ k :: after)
    (h : StoresAll f g K.ldm g.regs d e before s t) :
    (((e k).toNat % (g.regs.sew / 8) ≠ 0 ∨ t.store f ((t.fgr? f).getD g) K.ldm (e k).toNat
      (leBytes (g.regs.sew / 8) (elemBits (g.regs.rv d) g.regs.sew k).toNat) = .bad) →
    runFgr f w chk (moveElems f K d ea) s = .next (t.preciseTrap f (g.regs.stopAt k)
      (if (e k).toNat % (g.regs.sew / 8) ≠ 0 then 0x07 else 0x06) (e k))) := by
  intro hbad
  rw [runFgr_body hr hc, moveElems, if_neg (by simp [hK]), he, hl, storeElems_append h, storeElems]
  by_cases hal : (e k).toNat % (g.regs.sew / 8) ≠ 0
  · simp only [ne_eq, hal, not_false_eq_true, if_true, State.finish]
  · have hstore := hbad.resolve_left hal
    simp only [hal, if_false, State.fgrD, elemAt_eq_toNat, hstore, State.finish]

/-- An element after another one is not the first. -/
theorem ne_vstart_of_later (hl : g.regs.active = before ++ k :: after) (hne : before ≠ []) : k ≠ g.regs.vstart.toNat := by
  obtain ⟨b, l, rfl⟩ := List.exists_cons_of_ne_nil hne
  have hsorted : (b :: (l ++ k :: after)).Pairwise (· < ·) := by
    rw [← List.cons_append, ← hl]
    exact List.pairwise_lt_range.filter _
  have hb : g.regs.processes b := FRegs.mem_active.1 (by rw [hl]; exact List.mem_append_left _ List.mem_cons_self)
  have hbk : b < k := (List.pairwise_cons.1 hsorted).1 k (by simp)
  have := hb.1
  omega

/-- A load that is not first-fault traps at the element that cannot be loaded. -/
theorem vunit_load_traps {fn3 : BitVec 3} {x : ImmF} {i : Instr} (hi : exec i s = vunitWith f fn3 K x s) (hr : s.Runs f g) (hK : K.load = true)
    (hff : K.ff = false) (hl : g.regs.active = before ++ k :: after)
    (he : e = fun i => g.regs.rg x.ra + x.imm.signExtend 64 + BitVec.ofNat 64 (i * (g.regs.sew / 8)))
    (h : LoadsAll f g K.ldm x.rd e before s g.regs t r) :
    ((e k).toNat % (g.regs.sew / 8) ≠ 0 → exec i s = .next (t.preciseTrap f { r with vstart := BitVec.ofNat 64 k } 0x07 (e k))) ∧
    ((e k).toNat % (g.regs.sew / 8) = 0 → t.load f ((t.fgr? f).getD g) K.ldm (e k).toNat (g.regs.sew / 8) = .bad →
      exec i s = .next (t.preciseTrap f { r with vstart := BitVec.ofNat 64 k } 0x05 (e k))) := by
  rw [hi]
  have hstop := loads_stop (d := x.rd) (ea := fun r i => r.eaImm x + BitVec.ofNat 64 (i * (r.sew / 8)))
    (w := immWord (if K.load then 0x50 else 0x51) fn3 x) (chk := fun r => firstCause [(badFf K r, 0x08)]) hr
    (by simp [firstCause, badFf_eq_false (.inl hff)]) hK he.symm hl h
  constructor
  · intro hal
    refine (hstop (.inl hal)).trans ?_
    rw [hff, if_pos hal]
    rfl
  · intro hal hbad
    refine (hstop (.inr hbad)).trans ?_
    rw [hff, if_neg (not_not.2 hal)]
    rfl

theorem vunit_store_traps {fn3 : BitVec 3} {x : ImmF} {i : Instr} (hi : exec i s = vunitWith f fn3 K x s) (hr : s.Runs f g) (hK : K.load = false)
    (hff : K.ff = false) (hl : g.regs.active = before ++ k :: after)
    (he : e = fun i => g.regs.rg x.ra + x.imm.signExtend 64 + BitVec.ofNat 64 (i * (g.regs.sew / 8)))
    (h : StoresAll f g K.ldm g.regs x.rd e before s t) :
    ((e k).toNat % (g.regs.sew / 8) ≠ 0 → exec i s = .next (t.preciseTrap f { g.regs with vstart := BitVec.ofNat 64 k } 0x07 (e k))) ∧
    ((e k).toNat % (g.regs.sew / 8) = 0 →
      t.store f ((t.fgr? f).getD g) K.ldm (e k).toNat (leBytes (g.regs.sew / 8) (elemBits (g.regs.rv x.rd) g.regs.sew k).toNat) = .bad →
      exec i s = .next (t.preciseTrap f { g.regs with vstart := BitVec.ofNat 64 k } 0x06 (e k))) := by
  rw [hi]
  have hstop := stores_stop (d := x.rd) (ea := fun r i => r.eaImm x + BitVec.ofNat 64 (i * (r.sew / 8)))
    (w := immWord (if K.load then 0x50 else 0x51) fn3 x) (chk := fun r => firstCause [(badFf K r, 0x08)]) hr
    (by simp [firstCause, badFf_eq_false (.inl hff)]) hK he.symm hl h
  constructor
  · intro hal
    refine (hstop (.inl hal)).trans ?_
    rw [if_pos hal]
    rfl
  · intro hal hbad
    refine (hstop (.inr hbad)).trans ?_
    rw [if_neg (not_not.2 hal)]
    rfl

/-- A first-fault load in Service mode ends before a later element that cannot be loaded. -/
theorem vldff_shortens {x : ImmF} (hr : s.Runs f g) (hm : g.regs.mode = 2) (hl : g.regs.active = before ++ k :: after) (hne : before ≠ [])
    (he : e = fun i => g.regs.rg x.ra + x.imm.signExtend 64 + BitVec.ofNat 64 (i * (g.regs.sew / 8)))
    (h : LoadsAll f g false x.rd e before s g.regs t r)
    (hbad : t.load f ((t.fgr? f).getD g) false (e k).toNat (g.regs.sew / 8) = .bad) (hq : r.Quiet) :
    exec (.vldff f x) s = .next (t.retired f g { r with vl := BitVec.ofNat 64 k, vstart := 0 } none) := by
  rw [exec_vldff, execVldff]
  refine (loads_stop (d := x.rd) (ea := fun r i => r.eaImm x + BitVec.ofNat 64 (i * (r.sew / 8))) (K := { load := true, ldm := false, ff := true })
    hr (by simp [firstCause, badFf, hm]) rfl he.symm hl h (.inr hbad)).trans ?_
  rw [if_pos (by simpa using ne_vstart_of_later hl hne)]
  exact congrArg _ (retireFgr_quiet (r := r.shorten k) hq)

end

/-- Settles O27: the accesses that are done are passed by `loadElems_append` and `storeElems_append`; the next one ends the instruction. -/
theorem vectorMemory : Obligations.VectorMemory := by
  refine ⟨fun f s g hr => ⟨vmemImmRows_moves hr, vmemRegRows_moves hr, fun hm => ⟨fun x => vldff_refused hr hm, fun x hb hx hvl =>
    vgathff_refused hr hm hb hx hvl⟩⟩, ?_⟩
  intro f s t g r x before after k hr ea hl
  refine ⟨fun ldm h => ⟨?_, ?_⟩, fun ldm h => ?_⟩
  · cases ldm
    · exact vunit_load_traps (K := { load := true, ldm := false }) (exec_vld ..) hr rfl rfl hl rfl h
    · exact vunit_load_traps (K := { load := true, ldm := true }) (exec_vldL ..) hr rfl rfl hl rfl h
  · rintro rfl hm hne hbad hq -
    exact vldff_shortens hr hm hl hne rfl h hbad hq
  · cases ldm
    · exact vunit_store_traps (K := { load := false, ldm := false }) (exec_vst ..) hr rfl rfl hl rfl h
    · exact vunit_store_traps (K := { load := false, ldm := true }) (exec_vstL ..) hr rfl rfl hl rfl h

end Sys2Proof.Machine
end

section
/-!
PROOFS. The string instructions (R266, R267).
-/

namespace Sys2Proof.Machine

-- THE CHECKS OF A STRING INSTRUCTION ----------------------------------------------------------------------------------------------------------

theorem strSound_iff (x : StrF) (pairs : Bool) : strSound x pairs ↔
    ((if pairs then x.ra == 0 || x.ra.getLsbD 0 else x.ra == 0) || x.rb == 0 || x.rb == x.ra || (pairs && x.rb == x.ra + 1)) = false := by
  cases pairs
  · simp [strSound, and_assoc]
  · simp [strSound]
    tauto

theorem strCheck_passes {fns : Nat} {pairs len more : Bool} {x : StrF} (hf : x.fn.toNat < fns) (hs : strSound x pairs)
    (hl : len = true ∨ x.rs = 0 ∧ x.ss = 0) (hm : more = false) : strCheck fns pairs len more x = none := by
  rw [strSound_iff] at hs
  have hl' : (!len && (x.rs != 0 || x.ss != 0)) = false := by rcases hl with h | ⟨h1, h2⟩ <;> simp [*]
  simp only [Bool.or_eq_false_iff] at hs
  obtain ⟨⟨⟨h1, h2⟩, h3⟩, h4⟩ := hs
  simp only [strCheck, firstCause, decide_eq_false (Nat.not_le.2 hf), hl', h1, h2, h3, h4, hm]
  rfl

theorem strCheck_unassigned {fns : Nat} {pairs len more : Bool} {x : StrF} (hf : fns ≤ x.fn.toNat) :
    strCheck fns pairs len more x = some 0x02 := by
  simp [strCheck, firstCause, hf]

theorem strCheck_unsound {fns : Nat} {pairs len more : Bool} {x : StrF} (hf : x.fn.toNat < fns) (h : ¬ strSound x pairs ∨ more = true) :
    strCheck fns pairs len more x = some 0x03 := by
  have hbad : ((!len && (x.rs != 0 || x.ss != 0)) || (if pairs then x.ra == 0 || x.ra.getLsbD 0 else x.ra == 0) ||
     x.rb == 0 || x.rb == x.ra || (pairs && x.rb == x.ra + 1) || more) = true := by
    rcases h with h | h
    · rw [strSound_iff, Bool.not_eq_false] at h
      simp only [Bool.or_eq_true] at h ⊢
      tauto
    · rw [h, Bool.or_true]
  simp only [strCheck, firstCause, decide_eq_false (Nat.not_le.2 hf), hbad]
  rfl

-- BYTES ---------------------------------------------------------------------------------------------------------------------------------------

section
variable {f : FId} {g : Fgr} {ldm dl pl : Bool} {s t : State} {r : W64}

/-- One byte that is read goes to the continuation. -/
theorem strByte_read {a : W64} {b : Byte} (h : ReadsAll f g ldm 1 a s [b] t) (k : Byte → State → StrStep) : strByte f g ldm a s k = k b t := by
  cases h with
  | byte hload hrest =>
    cases hrest
    rw [strByte, hload]

theorem matchBytes_read {n : Nat} {a : W64} {l : List Byte} (h : ReadsAll f g ldm n a s l t) (needle : List Byte) (hn : needle.length = n)
    (same : Bool) (k : Bool → State → StrStep) : matchBytes f g ldm same a needle s k = k (same && l == needle) t := by
  induction h generalizing needle same with
  | done a s =>
    obtain rfl := List.length_eq_zero_iff.1 hn
    simp [matchBytes]
  | byte hload hrest ih =>
    obtain ⟨b, bs, rfl⟩ := List.exists_cons_of_length_eq_add_one hn
    rw [matchBytes, strByte, hload]
    refine (ih bs (by simpa using hn) _).trans ?_
    rw [List.cons_beq_cons, Bool.and_assoc]

/-- The pointers and the count after `k` more bytes. -/
def StrRegs.pass (y : StrRegs) (k : Nat) : StrRegs := { y with p := y.p + BitVec.ofNat 64 k, n := y.n - BitVec.ofNat 64 k }

/-- The same, of the instructions with two pointers. -/
def StrRegs.passBoth (y : StrRegs) (k : Nat) : StrRegs := { y.pass k with q := y.q + BitVec.ofNat 64 k }

theorem add_ofNat_succ (a : W64) (k : Nat) : a + 1 + BitVec.ofNat 64 k = a + BitVec.ofNat 64 (k + 1) := by
  rw [BitVec.ofNat_add, BitVec.add_assoc, BitVec.add_comm (1 : W64)]
  rfl

theorem sub_ofNat_succ (a : W64) (k : Nat) : a - 1 - BitVec.ofNat 64 k = a - BitVec.ofNat 64 (k + 1) := by
  rw [BitVec.ofNat_add]
  bv_omega

@[simp] theorem StrRegs.pass_r (y : StrRegs) (k : Nat) : (y.pass k).r = y.r := rfl

@[simp] theorem StrRegs.passBoth_r (y : StrRegs) (k : Nat) : (y.passBoth k).r = y.r := rfl

@[simp] theorem StrRegs.pass_zero (y : StrRegs) : y.pass 0 = y := by simp [StrRegs.pass]

@[simp] theorem StrRegs.passBoth_zero (y : StrRegs) : y.passBoth 0 = y := by simp [StrRegs.passBoth]

theorem StrRegs.pass_succ (y : StrRegs) (k : Nat) : (y.pass 1).pass k = y.pass (k + 1) := by
  simp only [StrRegs.pass, ← add_ofNat_succ y.p k, ← sub_ofNat_succ y.n k]
  rfl

theorem StrRegs.passBoth_succ (y : StrRegs) (k : Nat) : (y.passBoth 1).passBoth k = y.passBoth (k + 1) := by
  simp only [StrRegs.passBoth, StrRegs.pass, ← add_ofNat_succ y.p k, ← add_ofNat_succ y.q k, ← sub_ofNat_succ y.n k]
  rfl

/-- What is left of a count after `k` of its bytes. -/
theorem sub_ofNat_eq_left (n : W64) {k : Nat} (h : k ≤ n.toNat) : n - BitVec.ofNat 64 k = BitVec.ofNat 64 (n.toNat - k) := by
  have := n.isLt
  bv_omega

theorem ite_succ (c : Bool) (m n : Nat) : (if c then m + 1 else n + 1) = (if c then m else n) + 1 := by split <;> rfl

theorem ReadsAll.length_eq {n : Nat} {a : W64} {l : List Byte} (h : ReadsAll f g ldm n a s l t) : l.length = n := by
  induction h with
  | done => rfl
  | byte _ _ ih => rw [List.length_cons, ih]

-- THE LOOPS -----------------------------------------------------------------------------------------------------------------------------------

/-- A body that only passes bytes runs to the end of the count. -/
theorem strLoop_passes {body : State → StrRegs → StrStep} {pass : StrRegs → Nat → StrRegs} (h0 : ∀ y, pass y 0 = y)
    (hsucc : ∀ y k, pass (pass y 1) k = pass y (k + 1)) (hr : ∀ y k, (pass y k).r = y.r)
    (hbody : ∀ s y, y.r ≠ 0 → body s y = .next s (pass y 1)) (n : Nat) {y : StrRegs} (hy : y.r ≠ 0) :
    strLoop body n s y = (s, pass y n, .finished) := by
  induction n generalizing y with
  | zero => rw [h0, strLoop]
  | succ n ih =>
    rw [strLoop, hbody s y hy, ← hsucc y n]
    exact ih (by rwa [hr])

theorem strLoop_moves {n : Nat} {d p : W64} (h : Moves f g dl pl n d p s t) (w : W64) :
    strLoop (fun s y => strByte f g pl y.q s fun b t => strPut f g dl y.p b t fun u =>
      .next u { y with p := y.p + 1, q := y.q + 1, n := y.n - 1 }) n s ⟨d, p, w, r⟩ =
    (t, (StrRegs.mk d p w r).passBoth n, .finished) := by
  induction h generalizing w with
  | done => rw [StrRegs.passBoth_zero, strLoop]
  | byte hread hstore _ ih =>
    rw [strLoop, strByte_read hread, strPut, hstore, ← StrRegs.passBoth_succ]
    exact ih _

theorem strLoop_fills {n : Nat} {d pattern : W64} (h : Fills f g ldm pattern n d s t) (q w : W64) :
    strLoop (fun s y => strPut f g ldm y.p (pattern.extractLsb' (8 * (y.p.toNat % 8)) 8) s fun u =>
      .next u { y with p := y.p + 1, n := y.n - 1 }) n s ⟨d, q, w, r⟩ = (t, (StrRegs.mk d q w r).pass n, .finished) := by
  induction h generalizing w with
  | done => rw [StrRegs.pass_zero, strLoop]
  | byte hstore _ ih =>
    rw [strLoop, strPut, hstore, ← StrRegs.pass_succ]
    exact ih _

/-- The body of CMPS. -/
def cmpsBody (f : FId) (g : Fgr) (al bl ctm : Bool) (s : State) (y : StrRegs) : StrStep :=
  if y.r ≠ 0 then .next s (y.passBoth 1)
  else strByte f g al y.p s fun a t => strByte f g bl y.q t fun b u =>
    if a = b then .next u (y.passBoth 1)
    else if ctm then .next u ({ y with r := if a.ult b then -1 else 1 }.passBoth 1) else .stop u { y with r := if a.ult b then -1 else 1 }

theorem strLoop_compares {al bl ctm : Bool} {n k : Nat} {a b v : W64} (h : Compares f g al bl n a b s v k t) (w : W64) :
    strLoop (cmpsBody f g al bl ctm) n s ⟨a, b, w, 0⟩ =
      (t, { (StrRegs.mk a b w 0).passBoth (if ctm then n else k) with r := v }, .finished) := by
  induction h generalizing w with
  | equal => rw [strLoop, ite_self, StrRegs.passBoth_zero]
  | @differ n a b s t u c d hc hd hne =>
    have hv : (if c.ult d then (-1 : W64) else 1) = if c.toNat < d.toNat then BitVec.allOnes 64 else 1 := by
      simp only [BitVec.ult, decide_eq_true_eq]
      rfl
    rw [strLoop, cmpsBody, if_neg (by simp), strByte_read hc, strByte_read hd, if_neg hne, hv]
    cases ctm
    · simp only [Bool.false_eq_true, if_false, StrRegs.passBoth_zero]
    · refine (strLoop_passes StrRegs.passBoth_zero StrRegs.passBoth_succ StrRegs.passBoth_r (fun s y hy => if_pos hy) n ?_).trans ?_
      · rw [StrRegs.passBoth_r]
        dsimp only
        split <;> decide
      · rw [StrRegs.passBoth_succ]
        rfl
  | same ha hb _ ih =>
    rw [strLoop, cmpsBody, if_neg (by simp), strByte_read ha, strByte_read hb, if_pos rfl]
    refine (ih _).trans ?_
    rw [ite_succ, ← StrRegs.passBoth_succ]
    rfl

/-- The body of a search: what it does with a match found before, and with the bytes at the pointer. -/
structure Searches (f : FId) (g : Fgr) (ldm ctm : Bool) (needle : List Byte) (body : State → StrRegs → StrStep) : Prop where
  past : ∀ s y, y.r ≠ 0 → body s y = .next s (y.pass 1)
  miss : ∀ s t y l, y.r = 0 → ReadsAll f g ldm needle.length y.p s l t → l ≠ needle → body s y = .next t (y.pass 1)
  hit : ∀ s t y, y.r = 0 → ReadsAll f g ldm needle.length y.p s needle t →
    body s y = if ctm then .next t ({ y with r := matchAt y.p }.pass 1) else .stop t { y with r := matchAt y.p }

theorem matchAt_ne_zero (p : W64) : matchAt p ≠ 0 := fun h => by
  have := congrArg (BitVec.getLsbD · 63) h
  simp [matchAt] at this

theorem strLoop_finds {ctm found : Bool} {needle : List Byte} {n k : Nat} {p : W64} {body : State → StrRegs → StrStep}
    (hbody : Searches f g ldm ctm needle body) (h : Finds f g ldm needle n p s found k t) (q w : W64) :
    strLoop body n s ⟨p, q, w, 0⟩ =
      (t, { (StrRegs.mk p q w 0).pass (if ctm then n else k) with r := if found then matchAt (p + BitVec.ofNat 64 k) else 0 }, .finished) := by
  induction h generalizing w with
  | absent => rw [strLoop, ite_self, StrRegs.pass_zero]; rfl
  | @here n p s t hread =>
    rw [strLoop, hbody.hit s t ⟨p, q, w, 0⟩ rfl hread]
    cases ctm
    · simp
    · refine (strLoop_passes StrRegs.pass_zero StrRegs.pass_succ StrRegs.pass_r hbody.past n (matchAt_ne_zero p)).trans ?_
      rw [StrRegs.pass_succ]
      simp [StrRegs.pass]
  | @onward n k p s t u l found hread hne _ ih =>
    rw [strLoop, hbody.miss s t ⟨p, q, w, 0⟩ l rfl hread hne]
    refine (ih _).trans ?_
    rw [add_ofNat_succ]
    rw [ite_succ, ← StrRegs.pass_succ]
    rfl

/-- A search that begins with a match found before passes all its bytes. -/
theorem strLoop_found {ctm : Bool} {needle : List Byte} {body : State → StrRegs → StrStep} (hbody : Searches f g ldm ctm needle body) (n : Nat)
    {y : StrRegs} (hy : y.r ≠ 0) : strLoop body n s y = (s, y.pass n, .finished) :=
  strLoop_passes StrRegs.pass_zero StrRegs.pass_succ StrRegs.pass_r hbody.past n hy

theorem Finds.offset_le {needle : List Byte} {n k : Nat} {p : W64} {found : Bool} (h : Finds f g ldm needle n p s found k t) :
    k ≤ n ∧ (found = false → k = n) := by
  induction h with
  | absent => simp
  | here => simp
  | onward _ _ _ ih => exact ⟨Nat.succ_le_succ ih.1, fun h => congrArg _ (ih.2 h)⟩

theorem Compares.offset_le {al bl : Bool} {n k : Nat} {a b v : W64} (h : Compares f g al bl n a b s v k t) : k ≤ n := by
  induction h with
  | equal => simp
  | differ => simp
  | same _ _ _ ih => exact Nat.succ_le_succ ih

end

-- THE INSTRUCTIONS ----------------------------------------------------------------------------------------------------------------------------

section
variable {f : FId} {g : Fgr} {x : StrF} {s t : State}

/-- A loop that finishes retires the instruction. -/
theorem strFinish_done {w : W32} {chk : FRegs → Option Nat} {put : FRegs → StrRegs → FRegs} {loop : State → Fgr → State × StrRegs × StrEnd}
    {y : StrRegs} (hr : s.Runs f g) (hc : chk g.regs = none) (hl : loop s g = (t, y, .finished)) (hq : (put g.regs y).Quiet) :
    runFgr f w chk (fun s g => strFinish f put g.regs (loop s g)) s = .next (t.retired f g (put g.regs y) none) := by
  rw [runFgr_body hr hc, hl]
  exact congrArg _ (retireFgr_quiet hq)

theorem movs_done (hr : s.Runs f g) (hq : g.regs.Quiet) (hs : strSound x true) (hrs : x.rs = 0) (hss : x.ss = 0) (hf : x.fn.toNat < 4)
    (hd : x.rd = 0) (h : Moves f g (x.fn.getLsbD 0) (x.fn.getLsbD 1) (g.regs.rg x.rb).toNat (g.regs.rg x.ra) (g.regs.rg (x.ra + 1)) s t) :
    exec (.movs f x) s = .next (t.retired f g (((g.regs.setG x.ra (g.regs.rg x.ra + BitVec.ofNat 64 (g.regs.rg x.rb).toNat)).setG (x.ra + 1)
      (g.regs.rg (x.ra + 1) + BitVec.ofNat 64 (g.regs.rg x.rb).toNat)).setG x.rb 0) none) := by
  rw [exec_movs, execMovs]
  refine (strFinish_done hr (strCheck_passes hf hs (.inr ⟨hrs, hss⟩) (by simp [hd])) (strLoop_moves h (g.regs.rg x.rb))
    (FRegs.setG_quiet (FRegs.setG_quiet (FRegs.setG_quiet hq)))).trans ?_
  simp [StrRegs.passBoth, StrRegs.pass]

theorem fills_done (hr : s.Runs f g) (hq : g.regs.Quiet) (hs : strSound x false) (hrs : x.rs = 0) (hss : x.ss = 0) (hf : x.fn.toNat < 2)
    (h : Fills f g (x.fn.getLsbD 0) (g.regs.rg x.rd) (g.regs.rg x.rb).toNat (g.regs.rg x.ra) s t) :
    exec (.fills f x) s = .next (t.retired f g ((g.regs.setG x.ra (g.regs.rg x.ra + BitVec.ofNat 64 (g.regs.rg x.rb).toNat)).setG x.rb 0) none) := by
  rw [exec_fills, execFills]
  refine (strFinish_done hr (strCheck_passes hf hs (.inr ⟨hrs, hss⟩) rfl) (strLoop_fills h 0 (g.regs.rg x.rb))
    (FRegs.setG_quiet (FRegs.setG_quiet hq))).trans ?_
  simp [StrRegs.pass]

/-- CMPS by how its loop ends. -/
theorem cmps_ends {y : StrRegs} (hr : s.Runs f g) (hq : g.regs.Quiet) (hs : strSound x true) (hrs : x.rs = 0) (hss : x.ss = 0)
    (hf : x.fn.toNat < 4) (h1 : x.rd ≠ x.ra) (h2 : x.rd ≠ x.ra + 1) (h3 : x.rd ≠ x.rb)
    (hl : strLoop (cmpsBody f g (x.fn.getLsbD 0) (x.fn.getLsbD 1) g.regs.ctm) (g.regs.rg x.rb).toNat s
      ⟨g.regs.rg x.ra, g.regs.rg (x.ra + 1), g.regs.rg x.rb, g.regs.rg x.rd⟩ = (t, y, .finished)) :
    exec (.cmps f x) s = .next (t.retired f g ((((g.regs.setG x.ra y.p).setG (x.ra + 1) y.q).setG x.rb y.n).setG x.rd y.r) none) := by
  rw [exec_cmps, execCmps]
  exact strFinish_done hr (strCheck_passes hf hs (.inr ⟨hrs, hss⟩)
    (by simp only [beq_eq_false_iff_ne.2 h1, beq_eq_false_iff_ne.2 h2, beq_eq_false_iff_ne.2 h3, Bool.or_false])) hl
    (FRegs.setG_quiet (FRegs.setG_quiet (FRegs.setG_quiet (FRegs.setG_quiet hq))))

theorem FRegs.ctm_eq (r : FRegs) : r.ctm = r.coreCtl.getLsbD 0 := rfl

theorem cmps_done {v : W64} {k : Nat} (hr : s.Runs f g) (hq : g.regs.Quiet) (hs : strSound x true) (hrs : x.rs = 0) (hss : x.ss = 0)
    (hf : x.fn.toNat < 4) (h1 : x.rd ≠ x.ra) (h2 : x.rd ≠ x.ra + 1) (h3 : x.rd ≠ x.rb) (h0 : g.regs.rg x.rd = 0)
    (h : Compares f g (x.fn.getLsbD 0) (x.fn.getLsbD 1) (g.regs.rg x.rb).toNat (g.regs.rg x.ra) (g.regs.rg (x.ra + 1)) s v k t) :
    let m := if g.regs.ctm then (g.regs.rg x.rb).toNat else k
    exec (.cmps f x) s = .next (t.retired f g ((((g.regs.setG x.ra (g.regs.rg x.ra + BitVec.ofNat 64 m)).setG (x.ra + 1)
      (g.regs.rg (x.ra + 1) + BitVec.ofNat 64 m)).setG x.rb (BitVec.ofNat 64 ((g.regs.rg x.rb).toNat - m))).setG x.rd v) none) := by
  intro m
  have hm : m ≤ (g.regs.rg x.rb).toNat := by
    by_cases hctm : g.regs.ctm = true
    · simp [m, hctm]
    · simpa [m, hctm] using h.offset_le
  have hl := strLoop_compares (ctm := g.regs.ctm) h (g.regs.rg x.rb)
  rw [← sub_ofNat_eq_left _ hm]
  refine cmps_ends (y := { (StrRegs.mk _ _ _ 0).passBoth m with r := v }) hr hq hs hrs hss hf h1 h2 h3 ?_
  rw [h0]
  exact hl

theorem cmps_passed (hr : s.Runs f g) (hq : g.regs.Quiet) (hs : strSound x true) (hrs : x.rs = 0) (hss : x.ss = 0)
    (hf : x.fn.toNat < 4) (h1 : x.rd ≠ x.ra) (h2 : x.rd ≠ x.ra + 1) (h3 : x.rd ≠ x.rb) (h0 : g.regs.rg x.rd ≠ 0) :
    exec (.cmps f x) s = .next (s.retired f g ((((g.regs.setG x.ra (g.regs.rg x.ra + BitVec.ofNat 64 (g.regs.rg x.rb).toNat)).setG (x.ra + 1)
      (g.regs.rg (x.ra + 1) + BitVec.ofNat 64 (g.regs.rg x.rb).toNat)).setG x.rb 0).setG x.rd (g.regs.rg x.rd)) none) := by
  refine (cmps_ends hr hq hs hrs hss hf h1 h2 h3 (strLoop_passes StrRegs.passBoth_zero StrRegs.passBoth_succ StrRegs.passBoth_r
    (fun s y hy => if_pos hy) _ h0)).trans ?_
  simp [StrRegs.passBoth, StrRegs.pass]

theorem scans_ends {y : StrRegs} (hr : s.Runs f g) (hq : g.regs.Quiet) (hs : strSound x true) (hrs : x.rs = 0) (hss : x.ss = 0)
    (hf : x.fn.toNat < 2)
    (hl : ∀ body, Searches f g (x.fn.getLsbD 0) g.regs.ctm [(g.regs.rg x.rd).extractLsb' 0 8] body →
      strLoop body (g.regs.rg x.rb).toNat s ⟨g.regs.rg x.ra, 0, g.regs.rg x.rb, g.regs.rg (x.ra + 1)⟩ = (t, y, .finished)) :
    exec (.scans f x) s = .next (t.retired f g (((g.regs.setG x.ra y.p).setG (x.ra + 1) y.r).setG x.rb y.n) none) := by
  rw [exec_scans, execScans]
  refine strFinish_done (put := fun r y => ((r.setG x.ra y.p).setG (x.ra + 1) y.r).setG x.rb y.n) hr
    (strCheck_passes hf hs (.inr ⟨hrs, hss⟩) rfl) (hl _ ?_) (FRegs.setG_quiet (FRegs.setG_quiet (FRegs.setG_quiet hq)))
  refine ⟨fun s y hy => if_pos hy, fun s t y l hy h hne => ?_, fun s t y hy h => ?_⟩
  · obtain ⟨b, rfl⟩ := List.length_eq_one_iff.1 h.length_eq
    rw [if_neg (not_not.2 hy), strByte_read h, if_pos (by simpa using hne)]
    rfl
  · rw [if_neg (not_not.2 hy), strByte_read h, if_neg (by simp)]
    rfl

/-- The register RA + 1 after a search. -/
def searchMark (found : Bool) (p : W64) (k : Nat) : W64 := if found then p + BitVec.ofNat 64 k ||| 0x8000000000000000 else 0

theorem scans_done {found : Bool} {k : Nat} (hr : s.Runs f g) (hq : g.regs.Quiet) (hs : strSound x true) (hrs : x.rs = 0) (hss : x.ss = 0)
    (hf : x.fn.toNat < 2) (h0 : g.regs.rg (x.ra + 1) = 0)
    (h : Finds f g (x.fn.getLsbD 0) [(g.regs.rg x.rd).extractLsb' 0 8] (g.regs.rg x.rb).toNat (g.regs.rg x.ra) s found k t) :
    let m := if g.regs.ctm then (g.regs.rg x.rb).toNat else k
    exec (.scans f x) s = .next (t.retired f g (((g.regs.setG x.ra (g.regs.rg x.ra + BitVec.ofNat 64 m)).setG (x.ra + 1)
      (searchMark found (g.regs.rg x.ra) k)).setG x.rb (BitVec.ofNat 64 ((g.regs.rg x.rb).toNat - m))) none) := by
  intro m
  have hm : m ≤ (g.regs.rg x.rb).toNat := by
    by_cases hctm : g.regs.ctm = true
    · simp [m, hctm]
    · simpa [m, hctm] using h.offset_le.1
  rw [← sub_ofNat_eq_left _ hm]
  refine scans_ends (y := { (StrRegs.mk _ 0 _ 0).pass m with r := searchMark found (g.regs.rg x.ra) k }) hr hq hs hrs hss hf fun body hbody => ?_
  rw [h0]
  exact strLoop_finds hbody h 0 (g.regs.rg x.rb)

theorem scans_passed (hr : s.Runs f g) (hq : g.regs.Quiet) (hs : strSound x true) (hrs : x.rs = 0) (hss : x.ss = 0) (hf : x.fn.toNat < 2)
    (h0 : g.regs.rg (x.ra + 1) ≠ 0) :
    exec (.scans f x) s = .next (s.retired f g (((g.regs.setG x.ra (g.regs.rg x.ra + BitVec.ofNat 64 (g.regs.rg x.rb).toNat)).setG (x.ra + 1)
      (g.regs.rg (x.ra + 1))).setG x.rb 0) none) := by
  refine (scans_ends hr hq hs hrs hss hf fun body hbody => strLoop_found hbody _ h0).trans ?_
  simp [StrRegs.pass]

/-- MATCHS by how its loop ends. -/
theorem matchs_ends {y : StrRegs} (hr : s.Runs f g) (hq : g.regs.Quiet) (hs : strSound x true) (hf : x.fn.toNat < 2)
    (hl : ∀ body, Searches f g (x.fn.getLsbD 0) g.regs.ctm (leBytes (needleLen x) (g.regs.rw x.rd).toNat) body →
      strLoop body ((g.regs.rg x.rb).toNat + 1 - needleLen x) s ⟨g.regs.rg x.ra, 0, g.regs.rg x.rb, g.regs.rg (x.ra + 1)⟩ = (t, y, .finished)) :
    let z : StrRegs := if g.regs.ctm || y.r == 0 then { y with p := y.p + y.n, n := 0 } else y
    exec (.matchs f x) s = .next (t.retired f g (((g.regs.setG x.ra z.p).setG (x.ra + 1) z.r).setG x.rb z.n) none) := by
  intro z
  have hz : ∀ body, Searches f g (x.fn.getLsbD 0) g.regs.ctm (leBytes (needleLen x) (g.regs.rw x.rd).toNat) body →
      matchTail g.regs.ctm (strLoop body ((g.regs.rg x.rb).toNat + 1 - needleLen x) s
        ⟨g.regs.rg x.ra, 0, g.regs.rg x.rb, g.regs.rg (x.ra + 1)⟩) = (t, z, .finished) := fun body hbody => by
    rw [hl body hbody, matchTail]
    simp only [z]
    split <;> rfl
  rw [exec_matchs, execMatchs]
  refine strFinish_done (put := fun r y => ((r.setG x.ra y.p).setG (x.ra + 1) y.r).setG x.rb y.n) hr
    (strCheck_passes hf hs (.inl rfl) rfl) (hz _ ?_) (FRegs.setG_quiet (FRegs.setG_quiet (FRegs.setG_quiet hq)))
  refine ⟨fun s y hy => if_pos hy, fun s t y l hy h hne => ?_, fun s t y hy h => ?_⟩
  · have hsame : (true && l == leBytes (needleLen x) (g.regs.rw x.rd).toNat) = false := beq_eq_false_iff_ne.2 hne
    rw [if_neg (not_not.2 hy), matchBytes_read h _ rfl, hsame]
    rfl
  · rw [if_neg (not_not.2 hy), matchBytes_read h _ rfl, beq_self_eq_true]
    rfl

/-- The pointer of a search with what is left of the count stands behind the last byte. -/
theorem StrRegs.pass_end (y : StrRegs) (k : Nat) : (y.pass k).p + (y.pass k).n = y.p + y.n := by
  simp only [StrRegs.pass]
  bv_omega

theorem matchs_done {found : Bool} {k : Nat} (hr : s.Runs f g) (hq : g.regs.Quiet) (hs : strSound x true) (hf : x.fn.toNat < 2)
    (h0 : g.regs.rg (x.ra + 1) = 0)
    (h : Finds f g (x.fn.getLsbD 0) (leBytes (needleLen x) (g.regs.rw x.rd).toNat) ((g.regs.rg x.rb).toNat + 1 - needleLen x) (g.regs.rg x.ra)
      s found k t) :
    let m := if g.regs.ctm = true ∨ found = false then (g.regs.rg x.rb).toNat else k
    exec (.matchs f x) s = .next (t.retired f g (((g.regs.setG x.ra (g.regs.rg x.ra + BitVec.ofNat 64 m)).setG (x.ra + 1)
      (searchMark found (g.regs.rg x.ra) k)).setG x.rb (BitVec.ofNat 64 ((g.regs.rg x.rb).toNat - m))) none) := by
  intro m
  have hk : k ≤ (g.regs.rg x.rb).toNat := by
    obtain ⟨hk, -⟩ := h.offset_le
    rw [needleLen] at hk
    omega
  refine (matchs_ends hr hq hs hf fun body hbody => by
    rw [h0]
    exact strLoop_finds hbody h 0 (g.regs.rg x.rb)).trans ?_
  dsimp only
  by_cases hm : g.regs.ctm = true ∨ found = false
  · have hmark : (g.regs.ctm || (if found = true then matchAt (g.regs.rg x.ra + BitVec.ofNat 64 k) else 0) == 0) = true := by
      rcases hm with hc | hc <;> simp [hc]
    rw [if_pos hmark]
    simp only [m, if_pos hm, StrRegs.pass_end, Nat.sub_self, BitVec.ofNat_toNat, BitVec.setWidth_eq]
    rfl
  · obtain ⟨hc, hfound⟩ : g.regs.ctm = false ∧ found = true := by simpa using hm
    have hmark : (g.regs.ctm || (if found = true then matchAt (g.regs.rg x.ra + BitVec.ofNat 64 k) else 0) == 0) = false := by
      rw [hc, if_pos hfound, Bool.false_or]
      exact beq_eq_false_iff_ne.2 (matchAt_ne_zero _)
    rw [if_neg (Bool.eq_false_iff.1 hmark)]
    simp only [m, if_neg hm, hc, Bool.false_eq_true, if_false, StrRegs.pass, sub_ofNat_eq_left _ hk]
    rfl

theorem matchs_passed (hr : s.Runs f g) (hq : g.regs.Quiet) (hs : strSound x true) (hf : x.fn.toNat < 2) (h0 : g.regs.rg (x.ra + 1) ≠ 0) :
    let m := if g.regs.ctm then (g.regs.rg x.rb).toNat else (g.regs.rg x.rb).toNat + 1 - needleLen x
    exec (.matchs f x) s = .next (s.retired f g (((g.regs.setG x.ra (g.regs.rg x.ra + BitVec.ofNat 64 m)).setG (x.ra + 1)
      (g.regs.rg (x.ra + 1))).setG x.rb (BitVec.ofNat 64 ((g.regs.rg x.rb).toNat - m))) none) := by
  intro m
  refine (matchs_ends hr hq hs hf fun body hbody => strLoop_found hbody _ h0).trans ?_
  rw [StrRegs.pass_r]
  cases hc : g.regs.ctm
  · have hle : (g.regs.rg x.rb).toNat + 1 - needleLen x ≤ (g.regs.rg x.rb).toNat := by
      rw [needleLen]
      omega
    rw [if_neg (by simpa using h0)]
    simp only [m, hc, Bool.false_eq_true, if_false, StrRegs.pass, sub_ofNat_eq_left _ hle]
  · rw [if_pos (by simp)]
    simp only [m, hc, if_true, StrRegs.pass_end, Nat.sub_self, BitVec.ofNat_toNat, BitVec.setWidth_eq]
    rfl

end

section
variable {f : FId} {g : Fgr} {x : StrF} {s : State} (hr : s.Runs f g)
include hr

/-- A string word that its checks refuse traps with the cause that they give. -/
theorem string_refused {c : Nat} :
    (strCheck 4 true false (x.rd != 0) x = some c → exec (.movs f x) s = .next (s.preciseTrap f g.regs c ((strWord 0x60 x).setWidth 64))) ∧
    (strCheck 2 false false false x = some c → exec (.fills f x) s = .next (s.preciseTrap f g.regs c ((strWord 0x61 x).setWidth 64))) ∧
    (strCheck 4 true false (x.rd == x.ra || x.rd == x.ra + 1 || x.rd == x.rb) x = some c →
      exec (.cmps f x) s = .next (s.preciseTrap f g.regs c ((strWord 0x62 x).setWidth 64))) ∧
    (strCheck 2 true false false x = some c → exec (.scans f x) s = .next (s.preciseTrap f g.regs c ((strWord 0x63 x).setWidth 64))) ∧
    (strCheck 2 true true false x = some c → exec (.matchs f x) s = .next (s.preciseTrap f g.regs c ((strWord 0x64 x).setWidth 64))) :=
  ⟨fun h => (exec_movs f x s).trans (runFgr_refused hr h), fun h => (exec_fills f x s).trans (runFgr_refused hr h),
    fun h => (exec_cmps f x s).trans (runFgr_refused hr h), fun h => (exec_scans f x s).trans (runFgr_refused hr h),
    fun h => (exec_matchs f x s).trans (runFgr_refused hr h)⟩

end

/-- Settles O28: each loop by the relation that says what its bytes are, and the checks of R266 before it. -/
theorem stringInstructions : Obligations.StringInstructions := by
  refine ⟨fun f x s t g hr hq => ⟨fun hs hrs hss hf => ⟨fun hd h => movs_done hr hq hs hrs hss hf hd h,
    fun v k h1 h2 h3 h0 h => cmps_done hr hq hs hrs hss hf h1 h2 h3 h0 h, fun h1 h2 h3 h0 => cmps_passed hr hq hs hrs hss hf h1 h2 h3 h0⟩,
    fun hs hrs hss hf h => fills_done hr hq hs hrs hss hf h, fun found k hs hf h0 => ⟨fun hrs hss h => scans_done hr hq hs hrs hss hf h0 h,
    fun h => matchs_done hr hq hs hf h0 h⟩, fun hs hf h0 => ⟨fun hrs hss => scans_passed hr hq hs hrs hss hf h0, matchs_passed hr hq hs hf h0⟩⟩,
    fun f x s g hr => ?_⟩
  intro trap
  have refused := fun c => string_refused (x := x) hr (c := c)
  obtain ⟨movs2, fills2, cmps2, scans2, matchs2⟩ := refused 0x02
  obtain ⟨movs3, fills3, cmps3, scans3, matchs3⟩ := refused 0x03
  refine ⟨fun h => ⟨movs2 (strCheck_unassigned h), cmps2 (strCheck_unassigned h)⟩, fun h => ⟨fills2 (strCheck_unassigned h),
    scans2 (strCheck_unassigned h), matchs2 (strCheck_unassigned h)⟩, fun hf h => movs3 (strCheck_unsound hf (by simpa using h)),
    fun hf h => cmps3 (strCheck_unsound hf (by simpa [or_assoc] using h)), fun hf h => fills3 (strCheck_unsound hf (.inl h)),
    fun hf h => ⟨scans3 (strCheck_unsound hf (.inl h)), matchs3 ?_⟩⟩
  exact strCheck_unsound hf (.inl h)

end Sys2Proof.Machine
end

section
/-!
PROOFS. The time unit (R43, R446) and a frame boundary (R40, R60, R63).
-/

namespace Sys2Proof.Machine

-- THE TIME UNIT -------------------------------------------------------------------------------------------------------------------------------

theorem FrameGen.unitLocked_iff (f : FrameGen) : f.unitLocked = true ↔ 16 ≤ f.good := decide_eq_true_iff

section
variable {s : State}

theorem ptpMessage_lost {off : Int} (hr : s.framesRun = true) (hs : s.frame.sync = .locked ∨ s.frame.sync = .holdover) (ho : 1000 < off.natAbs) :
    exec (.ptpMessage off) s = .next (({ s with
      frame := { s.frame with offsetNs := off, good := if off.natAbs ≤ 100 then s.frame.good + 1 else 0, sync := .alignLost, lockNext := false }
      keeper := { s.keeper with disciplined := s.keeper.disciplined && decide (off.natAbs ≤ 100) } } : State).raise Config.evAlignLost) := by
  have hs' : (s.frame.sync == .locked || s.frame.sync == .holdover) = true := by simpa using hs
  rw [exec_ptpMessage, execPtpMessage]
  simp only [hr, Bool.not_true, Bool.false_eq_true, if_false, hs', ho, decide_true, Bool.and_self, if_true, decide_eq_true_eq]

theorem ptpMessage_regained {off : Int} (hr : s.framesRun = true) (hs : s.frame.sync = .alignLost)
    (hg : 16 ≤ if off.natAbs ≤ 100 then s.frame.good + 1 else 0) :
    exec (.ptpMessage off) s = .next { s with
      frame := { s.frame with offsetNs := off, good := if off.natAbs ≤ 100 then s.frame.good + 1 else 0, sync := .locking }
      keeper := { s.keeper with disciplined := s.keeper.disciplined && decide (off.natAbs ≤ 100) } } := by
  rw [exec_ptpMessage, execPtpMessage]
  simp [hr, hs, FrameGen.unitLocked, hg]

theorem ptpMessage_kept {off : Int} (hr : s.framesRun = true)
    (hl : ¬ ((s.frame.sync = .locked ∨ s.frame.sync = .holdover) ∧ 1000 < off.natAbs))
    (hg : ¬ (s.frame.sync = .alignLost ∧ 16 ≤ if off.natAbs ≤ 100 then s.frame.good + 1 else 0)) :
    exec (.ptpMessage off) s = .next { s with
      frame := { s.frame with offsetNs := off, good := if off.natAbs ≤ 100 then s.frame.good + 1 else 0 }
      keeper := { s.keeper with disciplined := s.keeper.disciplined && decide (off.natAbs ≤ 100) } } := by
  have hl' : ((s.frame.sync == .locked || s.frame.sync == .holdover) && decide (1000 < off.natAbs)) = false := by
    rw [Bool.eq_false_iff]
    simpa using hl
  have hg' : (s.frame.sync == .alignLost && decide (16 ≤ if off.natAbs ≤ 100 then s.frame.good + 1 else 0)) = false := by
    rw [Bool.eq_false_iff]
    simpa using hg
  rw [exec_ptpMessage, execPtpMessage]
  simp only [hr, Bool.not_true, Bool.false_eq_true, if_false, decide_eq_true_eq, hl', FrameGen.unitLocked, hg']

/-- The least multiple of a positive period that reaches `a`. -/
theorem ceilDiv_bounds {a p : Nat} (hp : 0 < p) : a ≤ ceilDiv a p * p ∧ (0 < a → (ceilDiv a p - 1) * p < a) := by
  have h1 := Nat.div_add_mod (a + p - 1) p
  have h2 := Nat.mod_lt (a + p - 1) hp
  have h3 : p * ((a + p - 1) / p) = (a + p - 1) / p * p := Nat.mul_comm ..
  rw [ceilDiv]
  refine ⟨by omega, fun ha => ?_⟩
  rw [Nat.sub_mul]
  omega

theorem lockingComplete_done {tai : Nat} (hr : s.framesRun = true) (hs : s.frame.sync = .locking) (hg : 16 ≤ s.frame.good)
    (hn : s.frame.stretchTo = none) (hp : 0 < s.frame.periodActive) (ht : s.keeper.rwp.t0TaiNs.toNat ≤ tai) :
    ∃ k : Nat, s.keeper.rwp.t0TaiNs.toNat + (k - 1) * s.periodNs < tai + s.periodNs ∧
      tai + s.periodNs ≤ s.keeper.rwp.t0TaiNs.toNat + k * s.periodNs ∧
      exec (.lockingComplete tai) s = .next { s with frame := { s.frame with
        stretchTo := some (BitVec.ofNat 64 k, s.power.uptimeNs + (s.keeper.rwp.t0TaiNs.toNat + k * s.periodNs - tai)) } } := by
  have hper : 0 < s.periodNs := Nat.mul_pos hp (by decide)
  obtain ⟨hge, hlt⟩ := ceilDiv_bounds (a := tai + s.periodNs - s.keeper.rwp.t0TaiNs.toNat) hper
  refine ⟨ceilDiv (tai + s.periodNs - s.keeper.rwp.t0TaiNs.toNat) s.periodNs, ?_, by omega, ?_⟩
  · have := hlt (by omega)
    omega
  · rw [exec_lockingComplete, execLockingComplete]
    simp [hr, hs, (FrameGen.unitLocked_iff _).2 hg, hn]

theorem enterHoldover_done (hr : s.framesRun = true) (hs : s.frame.sync = .locked) : exec .enterHoldover s = .next (({ s with
    frame := { s.frame with sync := .holdover, good := 0 }
    keeper := { s.keeper with disciplined := false } } : State).raise Config.evSyncHoldover) := by
  rw [exec_enterHoldover, execEnterHoldover]
  simp [hr, hs]

theorem relock_done (hr : s.framesRun = true) (hs : s.frame.sync = .holdover) (hg : 16 ≤ s.frame.good) :
    exec .relock s = .next { s with frame := { s.frame with lockNext := true } } := by
  rw [exec_relock, execRelock]
  simp [hr, hs, (FrameGen.unitLocked_iff _).2 hg]

theorem calDiscipline_done (sec : Nat) (off : Option Nat) (hr : s.framesRun = true) (hk : s.keeper.restarting = false) (hg : 16 ≤ s.frame.good) :
    ∃ t, exec (.calDiscipline sec off) s = .next t ∧ t.keeper.calTime = BitVec.ofNat 64 (sec * 32768) ∧ t.keeper.calValid = true ∧
      t.keeper.disciplined = true ∧
      t.keeper.rwp.utcOffset = (if s.keeper.rwp.utcSrc = 1 then (off.map Int.ofNat).getD s.keeper.rwp.utcOffset else s.keeper.rwp.utcOffset) ∧
      t = { s with keeper := { s.keeper with
        calTime := t.keeper.calTime, calFrac := 0, calValid := true, disciplined := true
        rwp := { s.keeper.rwp with utcOffset := t.keeper.rwp.utcOffset } } } := by
  rw [exec_calDiscipline, execCalDiscipline, if_neg (by simp [hr, hk, (FrameGen.unitLocked_iff _).2 hg])]
  refine ⟨_, rfl, rfl, rfl, rfl, ?_, ?_⟩
  · cases off
    · simp
    · dsimp only
      split <;> rfl
  · cases off
    · rfl
    · dsimp only
      split <;> rfl

end

/-- Settles O30: one lemma for each message and what it comes to. -/
theorem timeUnit : Obligations.TimeUnit := by
  intro s hr
  refine ⟨fun off => ?_, fun tai hs hg hn hp ht => lockingComplete_done hr hs hg hn hp ht, enterHoldover_done hr, relock_done hr,
    fun sec off hk hg => calDiscipline_done sec off hr hk hg⟩
  intro good lost regained t
  exact ⟨fun h => ptpMessage_lost hr h.1 h.2, fun h => ptpMessage_regained hr h.1 h.2, fun hl hg => ptpMessage_kept hr hl hg⟩

-- A BOUNDARY ----------------------------------------------------------------------------------------------------------------------------------

/-- The state with another frame generator. -/
def State.withFrame (f : FrameGen) (s : State) : State := { s with frame := f }

theorem State.sendMsix_withFrame (s : State) (f : FrameGen) (fn vec : Nat) : (s.withFrame f).sendMsix fn vec = (s.sendMsix fn vec).withFrame f := by
  unfold State.sendMsix
  rw [apply_ite (State.withFrame f)]
  rfl

theorem State.signalGroup_withFrame (s : State) (f : FrameGen) (g : Nat) : (s.withFrame f).signalGroup g = (s.signalGroup g).withFrame f := by
  unfold State.signalGroup
  rw [apply_ite (State.withFrame f), apply_ite (State.withFrame f), ← State.sendMsix_withFrame]
  rfl

/-- An event is the same whatever the frame generator holds. -/
theorem State.raise_withFrame (s : State) (f : FrameGen) (e : Nat) : (s.withFrame f).raise e = (s.raise e).withFrame f := by
  unfold State.raise
  dsimp only
  rw [apply_ite (State.withFrame f), apply_ite (State.withFrame f), ← State.signalGroup_withFrame]
  rfl

/-- The frame generator at a boundary. -/
def State.nextFrame (s : State) : FrameGen :=
  { s.frame with
    number := s.frame.opens
    closed := s.frame.number
    startNs := s.power.uptimeNs
    boundaries := s.frame.boundaries + 1
    stretchCount := if s.frame.stretchTo.isSome then satAdd 32 s.frame.stretchCount 1 else s.frame.stretchCount
    stretchTo := none
    lockNext := false
    sync := s.frame.syncAt s.keeper.rwp.syncMode
    offsetLast := s.frame.offsetNs }

theorem State.openFrame_eq (s : State) : s.openFrame =
    if s.nextFrame.sync = .locked ∧ s.frame.sync ≠ .locked then (s.raise Config.evSyncLocked).withFrame s.nextFrame else s.withFrame s.nextFrame := by
  rw [← State.raise_withFrame]
  unfold State.openFrame
  dsimp only
  have hsync : s.nextFrame.sync = s.frame.syncAt s.keeper.rwp.syncMode := rfl
  rw [hsync]
  by_cases h : s.frame.syncAt s.keeper.rwp.syncMode = .locked ∧ s.frame.sync ≠ .locked
  · rw [if_pos h, if_pos (by simpa using h)]
    rfl
  · rw [if_neg h, if_neg (by simpa using h)]
    rfl

theorem State.openFrame_frame (s : State) : s.openFrame.frame = s.nextFrame := by
  rw [State.openFrame_eq]
  split <;> rfl

theorem State.openFrame_only (s : State) : s.openFrame =
    { s with frame := s.openFrame.frame, events := s.openFrame.events, insts := s.openFrame.insts, out := s.openFrame.out } := by
  rw [State.openFrame_eq]
  split
  · rw [State.raise_eq]
    rfl
  · rfl

theorem FrameGen.syncAt_aligned {f : FrameGen} {mode : Nat} (hm : mode ≠ 0) (h : f.stretchTo.isSome = true ∨ (f.lockNext = true ∧ f.sync = .holdover)) :
    f.syncAt mode = .locked := by
  rw [FrameGen.syncAt, if_neg hm, if_pos (by simpa using h)]

theorem FrameGen.syncAt_kept {f : FrameGen} {mode : Nat} (hm : mode ≠ 0) (h1 : ¬ f.stretchTo.isSome = true)
    (h2 : ¬ (f.lockNext = true ∧ f.sync = .holdover)) : f.syncAt mode = f.sync := by
  rw [FrameGen.syncAt, if_neg hm, if_neg (by simpa using ⟨by simpa using h1, by simpa using h2⟩)]

theorem FrameGen.opens_stretched {f : FrameGen} {k : W64} {a : Nat} (h : f.stretchTo = some (k, a)) : f.opens = k := by rw [FrameGen.opens, h]

theorem FrameGen.opens_counted {f : FrameGen} (h : ¬ f.stretchTo.isSome = true) : f.opens = f.number + 1 := by
  rw [FrameGen.opens, Option.not_isSome_iff_eq_none.1 h]

/-- A boundary up to the end of step 1: time goes on, and the completions are written. -/
def State.closeFrame (s : State) : State := ((s.elapse (s.frameEndNs - s.power.uptimeNs)).advanceParts).commitStep s.frame.opens

theorem frameTick_resets {s : State} {cause : Nat} (hr : s.framesRun = true) (hc : s.closeFrame.power.warmPending = some cause) :
    exec .frameTick s = .next (s.closeFrame.warmReset cause) := by
  rw [State.closeFrame] at hc ⊢
  rw [exec_frameTick, execFrameTick, hr]
  simp only [Bool.not_true, Bool.false_eq_true, if_false, hc]

theorem frameTick_boundary {s : State} (hr : s.framesRun = true) (hc : s.closeFrame.power.warmPending = none) :
    exec .frameTick s = .next s.closeFrame.boundary := by
  rw [State.closeFrame] at hc ⊢
  rw [exec_frameTick, execFrameTick, hr]
  simp only [Bool.not_true, Bool.false_eq_true, if_false, hc]

/-- Steps 2 to 6 in their order. -/
theorem State.boundary_eq (s : State) : s.boundary =
    (let a := s.dropDead.recordNow
     let b := a.openFrame.stepResources.stepInsts
     let c := b.countOverruns s.cyclesPerFrame (decide (s.power.fclkNow < s.part.fclkMHz))
        (a.runningNow.filter fun x => (b.instD x.2.inst).state != .frozen)
     (c.evictBeyond.stepWires.fabricBoundary.stepStats s.cyclesPerFrame).openCounts.stepSaddle.stepSwitch) := by
  rw [State.boundary]

/-- Settles O31: the two ends of a boundary, and what opening a frame writes. -/
theorem frameTick : Obligations.FrameTick := by
  refine ⟨fun s hr => ?_, fun s ns => rfl, fun s => ?_⟩
  · intro s1
    have hs1 : s1 = s.closeFrame := rfl
    clear_value s1
    rw [hs1]
    constructor
    · intro cause hc
      exact frameTick_resets hr hc
    · intro hn a b c
      rw [frameTick_boundary hr hn, State.boundary_eq]
  · intro t lengthened
    have hf : t.frame = s.nextFrame := s.openFrame_frame
    have hsync : s.nextFrame.sync = s.frame.syncAt s.keeper.rwp.syncMode := rfl
    refine ⟨s.openFrame_only, fun k a h => ?_, fun h => ?_, rfl, ?_, ?_, ?_, ?_, ?_, ?_, fun hm => ?_, fun hm h => ?_, fun hm h1 h2 => ?_,
      fun h1 h2 => ?_, fun h => ?_⟩
    · rw [hf]
      exact FrameGen.opens_stretched h
    · rw [hf]
      exact FrameGen.opens_counted h
    · rw [hf]; rfl
    · rw [hf]; rfl
    · rw [hf]; rfl
    · rw [hf]; rfl
    · rw [hf]; rfl
    · rw [hf]; rfl
    · rw [hf, hsync, hm]; rfl
    · rw [hf, hsync, FrameGen.syncAt_aligned hm h]
    · rw [hf, hsync, FrameGen.syncAt_kept hm h1 h2]
    · rw [show t = _ from s.openFrame_eq, if_pos ⟨hf ▸ h1, h2⟩]
      rfl
    · rw [hf] at h
      rw [show t = _ from s.openFrame_eq, if_neg h]
      exact ⟨rfl, rfl, rfl⟩

end Sys2Proof.Machine
end

section
/-!
PROOFS. Saving, resuming and discarding morsels (R51 to R54, R180).
-/

namespace Sys2Proof.Machine

-- SAVING AND RESUMING -------------------------------------------------------------------------------------------------------------------------

section
variable {s : State} {f : FId} {g : Fgr}

theorem State.fgr?_modStat (s : State) (d : Nat) (h : DieStat → DieStat) (f : FId) : (s.modStat d h).fgr? f = s.fgr? f :=
  s.fgr?_modDie d (fun x => { x with stat := h x.stat }) (fun _ => rfl) f

theorem State.fgr?_countResumed (s : State) (d n : Nat) (f : FId) : (s.countResumed d n).fgr? f = s.fgr? f := State.fgr?_modStat ..

theorem morselSave_done (hg : s.fgr? f = some g) (hl : s.unitsLive f.die = true) (hrun : g.run = .preempted) (hp : g.regs.pend = none)
    (he : g.evictNext = false) : exec (.morselSave f) s = .next (s.modFgr f fun h => { h with
      save := h.regs, regs := h.regs.setMode 1, entryPc := h.regs.pc, run := .parked }) := by
  rw [exec_morselSave, execMorselSave, hg]
  simp [hl, hrun, hp, he]

theorem morselSave_traps (hg : s.fgr? f = some g) (hl : s.unitsLive f.die = true) (hrun : g.run = .preempted) (hp : g.regs.pend.isSome = true) :
    exec (.morselSave f) s = .next (s.takeArith f g.regs) := by
  rw [exec_morselSave, execMorselSave, hg]
  simp [hl, hrun, hp]

/-- The Forager that resumes. -/
theorem fgr?_resumeFgr (hg : s.fgr? f = some g) (m : Morsel) (r : FRegs) (ldm : List Host.Cell) : (s.resumeFgr f m r ldm).fgr? f =
    some { g with regs := r, save := FRegs.reset, ldm := ldm, morsel := some m, run := .running, evictNext := false } := by
  rw [State.resumeFgr, State.fgr?_modStat, State.fgr?_countResumed, State.fgr?_modFgr _ hg]

theorem fgr?_resumeFgr_ne {e : FId} (hne : e ≠ f) (m : Morsel) (r : FRegs) (ldm : List Host.Cell) :
    (s.resumeFgr f m r ldm).fgr? e = s.fgr? e := by
  rw [State.resumeFgr, State.fgr?_modStat, State.fgr?_countResumed, State.fgr?_modFgr_ne _ hne]

theorem saved_resumeFgr (s : State) (f : FId) (m : Morsel) (r : FRegs) (ldm : List Host.Cell) (hf : f.die < s.dies.length) :
    ((s.resumeFgr f m r ldm).dieD f.die).saved = (s.dieD f.die).saved := by
  have hlen : ∀ (t : State) (h : Die → Die), (t.modDie f.die h).dies.length = t.dies.length := fun t h => List.length_modify ..
  rw [State.resumeFgr, State.modStat, State.dieD_modDie _ (by rw [State.countResumed, State.modInstStat, State.modStat, hlen, State.modFgr, hlen]; exact hf),
    State.countResumed, State.modInstStat, State.modStat, State.dieD_modDie _ (by rw [State.modFgr, hlen]; exact hf), State.modFgr,
    State.dieD_modDie _ hf]

theorem morselResume_done {m : Morsel} (hg : s.fgr? f = some g) (hl : s.unitsLive f.die = true) (hrun : g.run = .parked)
    (hm : g.morsel = some m) (hok : s.resumable m = true) : exec (.morselResume f) s = .next (s.resumeFgr f m g.save g.ldm) := by
  rw [exec_morselResume, execMorselResume, hg]
  simp [hm, hl, hrun, hok]

theorem evictedRestore_done {x : Saved} (hl : s.unitsLive f.die = true) (hidle : (s.dieD f.die).idleFgrs.any (·.2 == f.fgr) = true)
    (hx : s.nextSaved f.die = some x) : exec (.evictedRestore f) s = .next
      ((s.modDie f.die fun d => { d with saved := d.saved.filter (·.morsel.mid != x.morsel.mid) }).resumeFgr f x.morsel x.regs x.ldm) := by
  rw [exec_evictedRestore, execEvictedRestore, if_neg (by rw [hl, hidle]; decide)]
  simp only [hx]

theorem overrunLimit_done {m : Morsel} (hg : s.fgr? f = some g) (hm : g.morsel = some m) (ho : s.frame.overrunLimit ≤ m.overruns) :
    let hit := fun (x : Morsel) => x.jid == m.jid && x.stage == m.stage && decide (s.frame.overrunLimit ≤ x.overruns)
    exec (.overrunLimitReached f.die m.jid m.stage) s = .next (((s.modDie f.die fun d => { d with
      fgrs := d.fgrs.map fun h => if h.morsel.elim false hit then h.discard else h
      units := d.units.map fun x => if x.morsel.elim false hit then { x with morsel := none } else x }).failPart m.jid f.die m.stage
        Config.stBoundExceeded []).raise Config.evBoundExceeded) := by
  intro hit
  have hmem : g ∈ (s.dieD f.die).fgrs := by
    obtain ⟨d, hd, hgd⟩ := Option.bind_eq_some_iff.1 hg
    rw [State.dieD, List.getD_eq_getElem?_getD, hd]
    exact List.mem_of_getElem? hgd
  have hany : (s.dieD f.die).fgrs.any (fun g => g.morsel.elim false hit) = true :=
    List.any_eq_true.2 ⟨g, hmem, by simp [hm, hit, ho]⟩
  rw [exec_overrunLimitReached, execOverrunLimitReached, if_neg (by rw [hany]; simp)]

end

/-- Settles O32: one lemma for each command, with the Forager it leaves. -/
theorem morselContexts : Obligations.MorselContexts := by
  intro s f g hg hl
  refine ⟨fun hrun hp he => morselSave_done hg hl hrun hp he, fun hrun hp => morselSave_traps hg hl hrun hp, fun m hrun hm hok => ?_,
    fun x hidle hx => ?_, fun m hm ho => overrunLimit_done hg hm ho⟩
  · refine ⟨_, _, morselResume_done hg hl hrun hm hok, fgr?_resumeFgr hg .., ?_, fun f' hne => fgr?_resumeFgr_ne hne .., rfl, rfl⟩
    rw [← hm]
  · have hg' : (s.modDie f.die fun d => { d with saved := d.saved.filter (·.morsel.mid != x.morsel.mid) }).fgr? f = some g :=
      (s.fgr?_modDie f.die (fun d => { d with saved := d.saved.filter (·.morsel.mid != x.morsel.mid) }) (fun _ => rfl) f).trans hg
    refine ⟨_, _, evictedRestore_done hl hidle hx, fgr?_resumeFgr hg' .., rfl, rfl, rfl, rfl, ?_, rfl⟩
    rw [saved_resumeFgr _ _ _ _ _ (State.fgr?_lt hg'), State.dieD_modDie _ (State.fgr?_lt hg)]

end Sys2Proof.Machine
end

section
/-!
PROOFS. Order keys and BINNED lanes (R116 to R118).
-/

namespace Sys2Proof.Machine

-- ORDER KEYS ----------------------------------------------------------------------------------------------------------------------------------

theorem leNat_leBytes (k n : Nat) : leNat (leBytes k n) = n % 256 ^ k := by
  induction k generalizing n with
  | zero => simp [leBytes, leNat, Nat.mod_one]
  | succ k ih =>
    rw [leBytes, leNat, ih, BitVec.toNat_ofNat, show 256 ^ (k + 1) = 256 * 256 ^ k from Nat.pow_succ', Nat.mod_mul]

/-- Adding half the range turns the signed order into the unsigned one. -/
theorem offset_lt_iff {k a b : Nat} (hk : 0 < k) (ha : a < 2 ^ k) (hb : b < 2 ^ k) :
    (a + 2 ^ (k - 1)) % 2 ^ k < (b + 2 ^ (k - 1)) % 2 ^ k ↔ sint k a < sint k b := by
  have hp : 2 ^ k = 2 * 2 ^ (k - 1) := by rw [← Nat.pow_succ', Nat.succ_eq_add_one, Nat.sub_add_cancel hk]
  have hmod : ∀ n, n < 2 ^ k → (n + 2 ^ (k - 1)) % 2 ^ k = if 2 * n < 2 ^ k then n + 2 ^ (k - 1) else n - 2 ^ (k - 1) := fun n hn => by
    split
    · exact Nat.mod_eq_of_lt (by omega)
    · rw [Nat.mod_eq_sub_mod (by omega), Nat.mod_eq_of_lt (by omega)]
      omega
  rw [hmod a ha, hmod b hb]
  simp only [sint, Nat.mod_eq_of_lt ha, Nat.mod_eq_of_lt hb]
  split <;> split <;> omega

theorem orderKey_signed {ty lane : Nat} {canon : Bool} {x : List Byte} (h : signedLane ty = true) :
    leNat (orderKey ty lane canon x) = (leNat x + 2 ^ (8 * lane - 1)) % 2 ^ (8 * lane) := by
  have hty : ty ≠ tyBinary64 := fun e => by
    rw [e] at h
    exact absurd h (by decide)
  have hpow : 256 ^ lane = 2 ^ (8 * lane) := by rw [Nat.pow_mul]
  rw [orderKey]
  simp only [hty, if_false, h, if_true, leNat_leBytes, hpow, Nat.mod_mod]

theorem orderKey_signed_lt {ty lane : Nat} {canon : Bool} {x y : List Byte} (h : signedLane ty = true) (hpos : 0 < lane) (hx : x.length = lane)
    (hy : y.length = lane) : leNat (orderKey ty lane canon x) < leNat (orderKey ty lane canon y) ↔
      sint (8 * lane) (leNat x) < sint (8 * lane) (leNat y) := by
  have hpow : 256 ^ lane = 2 ^ (8 * lane) := by rw [Nat.pow_mul]
  have hlt : ∀ z : List Byte, z.length = lane → leNat z < 2 ^ (8 * lane) := fun z hz => hpow ▸ hz ▸ leNat_lt z
  rw [orderKey_signed h, orderKey_signed h]
  exact offset_lt_iff (by omega) (hlt x hx) (hlt y hy)

theorem orderKey_plain {ty lane : Nat} {canon : Bool} {x : List Byte} (h : signedLane ty = false) (hty : ty ≠ 0x0C) :
    orderKey ty lane canon x = x := by
  have hty' : ty ≠ tyBinary64 := hty
  rw [orderKey]
  simp only [hty', if_false, h, Bool.false_eq_true]

/-- The key of a BINARY64 lane under FLOAT_CANON. -/
def floatKey (v : Nat) : Nat :=
  let x := floatCanon v
  if 2 ^ 63 ≤ x then 2 ^ 64 - 1 - x else x + 2 ^ 63

theorem bit63_iff {n : Nat} (h : n < 2 ^ 64) : bit n 63 = true ↔ 2 ^ 63 ≤ n := by
  rw [bit, beq_iff_eq]
  omega

theorem floatCanon_lt {v : Nat} (h : v < 2 ^ 64) : floatCanon v < 2 ^ 64 := by
  rw [floatCanon]
  split
  · decide
  · split
    · decide
    · exact h

theorem orderKey_float (v : W64) : leNat (orderKey 0x0C 8 true (leBytes 8 v.toNat)) = floatKey v.toNat := by
  have hv : leNat (leBytes 8 v.toNat) = v.toNat := (leNat_leBytes ..).trans (Nat.mod_eq_of_lt v.isLt)
  have hx := floatCanon_lt v.isLt
  have hkey : floatKey v.toNat < 256 ^ 8 := by
    simp only [floatKey]
    split <;> omega
  rw [orderKey]
  simp only [tyBinary64, if_true, hv, bit63_iff hx, leNat_leBytes]
  exact Nat.mod_eq_of_lt hkey

theorem isNan_iff {v : Nat} : (bits v 62 52 = 2047 ∧ bits v 51 0 ≠ 0) ↔ 0x7FF0000000000000 < v % 2 ^ 63 := by
  simp only [bits]
  omega

theorem floatKey_nan {v : Nat} (h : 0x7FF0000000000000 < v % 2 ^ 63) : floatKey v = 0xFFF8000000000000 := by
  have hv : v ≠ 2 ^ 63 := by rintro rfl; simp at h
  simp only [floatKey, floatCanon, if_neg hv, if_pos (isNan_iff.2 h)]
  decide

/-- The keys of two numbers compare as the numbers do. -/
theorem floatKey_lt_iff {v w : Nat} (hv : v < 2 ^ 64) (hw : w < 2 ^ 64) (nv : ¬ 0x7FF0000000000000 < v % 2 ^ 63) (nw : ¬ 0x7FF0000000000000 < w % 2 ^ 63) :
    floatKey v < floatKey w ↔
      (if 2 ^ 63 ≤ v then -((v % 2 ^ 63 : Nat) : Int) else (v : Int)) < if 2 ^ 63 ≤ w then -((w % 2 ^ 63 : Nat) : Int) else (w : Int) := by
  have hkey : ∀ n, n < 2 ^ 64 → ¬ 0x7FF0000000000000 < n % 2 ^ 63 →
      (floatKey n : Int) = if 2 ^ 63 < n then 2 ^ 63 - 1 - ((n % 2 ^ 63 : Nat) : Int) else 2 ^ 63 + ((n % 2 ^ 63 : Nat) : Int) := fun n hn hnan => by
    rw [floatKey, floatCanon, if_neg (mt isNan_iff.1 hnan)]
    by_cases h0 : n = 2 ^ 63
    · simp [h0]
    · rw [if_neg h0]
      split <;> split <;> omega
  rw [← Int.ofNat_lt, hkey v hv nv, hkey w hw nw]
  split <;> split <;> split <;> split <;> omega

-- BINNED LANES --------------------------------------------------------------------------------------------------------------------------------

/-- The signed field of a lane reads back the number that was put there, below any higher fields. -/
theorem sint_ucode {a : Int} (h : a.natAbs < 2 ^ 118) (n : Nat) : sint 119 (n * 2 ^ 119 + ucode 119 a) = a := by
  have hu : ucode 119 a < 2 ^ 119 ∧ ((ucode 119 a : Nat) : Int) = if a < 0 then a + 2 ^ 119 else a := by
    rw [ucode]
    split <;> omega
  obtain ⟨hlt, heq⟩ := hu
  have hmod : (n * 2 ^ 119 + ucode 119 a) % 2 ^ 119 = ucode 119 a := by
    rw [Nat.add_comm, Nat.add_mul_mod_self_right, Nat.mod_eq_of_lt hlt]
  simp only [sint, hmod]
  split at heq <;> split <;> omega

/-- A BINNED lane of class 0: its bin, the bit of −0, and the signed mantissa. -/
def packLane (b : Nat) (nz : Bool) (a : Int) : Nat := b * 2 ^ 120 + (if nz then 2 ^ 119 else 0) + ucode 119 a

section
variable {b : Nat} {nz : Bool} {a : Int}

theorem ucode_lt (w : Nat) (a : Int) : ucode w a < 2 ^ w := by
  have hpos : 0 < 2 ^ w := Nat.two_pow_pos w
  rw [ucode]
  omega

theorem packLane_lt (hb : b < 64) : packLane b nz a < 2 ^ 126 := by
  have := ucode_lt 119 a
  rw [packLane]
  split <;> omega

theorem packLane_bin : packLane b nz a / 2 ^ 120 = b := by
  have := ucode_lt 119 a
  rw [packLane]
  split <;> omega

theorem packLane_negZero : (packLane b nz a).testBit 119 = nz := by
  have := ucode_lt 119 a
  have hdiv : packLane b nz a / 2 ^ 119 % 2 = if nz then 1 else 0 := by
    rw [packLane]
    split <;> omega
  rw [Nat.testBit_eq_decide_div_mod_eq, hdiv]
  cases nz <;> rfl

theorem sint_packLane (ha : a.natAbs < 2 ^ 118) : sint 119 (packLane b nz a) = a := by
  have heq : packLane b nz a = (b * 2 + if nz then 1 else 0) * 2 ^ 119 + ucode 119 a := by
    rw [packLane]
    split <;> omega
  rw [heq]
  exact sint_ucode ha _

end

/-- The significand of a BINARY64 lane, and its exponent. -/
def significand (v : Nat) : Nat := if 1 ≤ v / 2 ^ 52 % 2048 then 2 ^ 52 + v % 2 ^ 52 else v % 2 ^ 52

def exponent (v : Nat) : Nat := max (v / 2 ^ 52 % 2048) 1

theorem significand_lt (v : Nat) : significand v < 2 ^ 53 := by
  rw [significand]
  split <;> omega

/-- The signed mantissa of a lane. -/
def mantissa (v : Nat) : Int := (if 2 ^ 63 ≤ v then -1 else 1) * ((significand v * 2 ^ (exponent v - 32 * (exponent v / 32)) : Nat) : Int)

theorem mantissa_small (v : Nat) : (mantissa v).natAbs < 2 ^ 118 := by
  have hpow : 2 ^ (exponent v - 32 * (exponent v / 32)) ≤ 2 ^ 31 := Nat.pow_le_pow_right (by decide) (by omega)
  have hmul := Nat.mul_le_mul (significand_lt v).le hpow
  rw [mantissa]
  split <;> omega

theorem bits_exponent (v : Nat) : bits v 62 52 = v / 2 ^ 52 % 2048 := rfl

theorem bits_fraction (v : Nat) : bits v 51 0 = v % 2 ^ 52 := by simp [bits]

theorem binnedLane_eq {v : Nat} (hv : v < 2 ^ 64) (he : v / 2 ^ 52 % 2048 < 2047) :
    binnedLane v = packLane (exponent v / 32) (decide (v = 2 ^ 63)) (mantissa v) := by
  have hs : (if 1 ≤ v / 2 ^ 52 % 2048 then 2 ^ 52 + v % 2 ^ 52 else v % 2 ^ 52) = significand v := rfl
  have hx : max (v / 2 ^ 52 % 2048) 1 = exponent v := rfl
  rw [binnedLane]
  simp only [bits_exponent, bits_fraction, if_neg he.ne, hs, hx, bit63_iff hv, packLane, mantissa, decide_eq_true_eq, ite_mul, neg_one_mul, one_mul]

/-- A number comes back from its bin and its mantissa. -/
theorem binnedLane_value {v : Nat} (hv : v < 2 ^ 64) (he : v / 2 ^ 52 % 2048 < 2047) :
    binnedLane v < 2 ^ 126 ∧ ((binnedLane v).testBit 119 = true ↔ v = 2 ^ 63) ∧
      sint 119 (binnedLane v) * 2 ^ (32 * (binnedLane v / 2 ^ 120)) =
        (if 2 ^ 63 ≤ v then -1 else 1) * ((significand v * 2 ^ exponent v : Nat) : Int) := by
  have hbin : exponent v / 32 < 64 := by
    rw [exponent]
    omega
  have hexp : exponent v = (exponent v - 32 * (exponent v / 32)) + 32 * (exponent v / 32) := by omega
  rw [binnedLane_eq hv he, packLane_negZero, sint_packLane (mantissa_small v), packLane_bin]
  refine ⟨packLane_lt hbin, decide_eq_true_iff, ?_⟩
  have hval : significand v * 2 ^ exponent v = significand v * 2 ^ (exponent v - 32 * (exponent v / 32)) * 2 ^ (32 * (exponent v / 32)) := by
    rw [Nat.mul_assoc, ← Nat.pow_add, ← hexp]
  rw [hval, mantissa]
  push_cast
  ring

theorem binnedLane_special {v : Nat} (hv : v < 2 ^ 64) (he : v / 2 ^ 52 % 2048 = 2047) :
    binnedLane v = (if v % 2 ^ 52 ≠ 0 then 1 else if 2 ^ 63 ≤ v then 3 else 2) * 2 ^ 126 := by
  rw [binnedLane]
  simp only [bits_exponent, bits_fraction, he, if_true, bit63_iff hv]

/-- Settles O34: the keys by their offsets, the lanes by their parts. -/
theorem columnForms : Obligations.ColumnForms := by
  refine ⟨fun ty lane canon x y h hpos hx hy => orderKey_signed_lt h hpos hx hy, fun ty lane canon x h hty => orderKey_plain h hty, ?_,
    fun v hv => ⟨fun he => binnedLane_special hv he, fun he => binnedLane_value hv he⟩⟩
  intro key value isNan v w
  have hval : ∀ u : W64, value u = if 2 ^ 63 ≤ u.toNat then -((u.toNat % 2 ^ 63 : Nat) : Int) else (u.toNat : Int) := fun u => by
    have hbit : u.getLsbD 63 = true ↔ 2 ^ 63 ≤ u.toNat := by
      rw [BitVec.getLsbD, Nat.testBit_eq_decide_div_mod_eq, decide_eq_true_eq]
      have := u.isLt
      omega
    simp only [value, hbit]
  refine ⟨fun nv nw => ?_, fun nv => ?_⟩
  · rw [hval, hval]
    simp only [key, orderKey_float]
    exact floatKey_lt_iff v.isLt w.isLt (of_decide_eq_false nv) (of_decide_eq_false nw)
  · simp only [key, orderKey_float]
    exact floatKey_nan (of_decide_eq_true nv)

end Sys2Proof.Machine
end

section
/-!
PROOFS. The morsels of the fixed units (R84, R85, R175).
-/

namespace Sys2Proof.Machine

-- THE MORSELS OF THE UNITS --------------------------------------------------------------------------------------------------------------------

section
variable {s : State} {u : UId} {m : Morsel} {j : Job} {st : Stage}

/-- A unit that completes a morsel of its kind does the row's work. -/
theorem completeUnit_done {is : Stage → Morsel → Bool} {work : State → Job → Stage → Morsel → Res State} (h : s.HoldsMorsel u m j st)
    (his : is st m = true) : completeUnit u is work s = .next (s.worked u m st (work (s.releaseUnit u m) j st m)) := by
  obtain ⟨hm, hl, hj, hst⟩ := h
  simp only [completeUnit, hm, hl, hj, hst, his, Bool.not_true, Bool.false_eq_true, if_false, State.worked]
  cases (work (s.releaseUnit u m) j st m).bind fun t => if st.sink then t.sinkDone m else .ok t <;> rfl

theorem unitRow_done (h : s.HoldsMorsel u m j st) : ∀ row ∈ unitRows, row.picks s u st m = true →
    exec (row.instr u) s = .next (s.worked u m st (row.work u (s.releaseUnit u m) j st m)) := by
  intro row hrow hpick
  simp only [unitRows, List.mem_cons, List.not_mem_nil, or_false] at hrow
  rcases hrow with rfl | rfl | rfl | rfl | rfl | rfl | rfl | rfl | rfl | rfl | rfl | rfl | rfl | rfl | rfl | rfl | rfl | rfl
  · exact (exec_columnStreamerMorsel ..).trans (completeUnit_done h hpick)
  · exact (exec_clearMorsel ..).trans (completeUnit_done h hpick)
  · exact (exec_build ..).trans (completeUnit_done h hpick)
  · exact (exec_probeInner ..).trans (completeUnit_done h hpick)
  · exact (exec_probeLeft ..).trans (completeUnit_done h hpick)
  · exact (exec_probeSemi ..).trans (completeUnit_done h hpick)
  · exact (exec_probeAnti ..).trans (completeUnit_done h hpick)
  · exact (exec_group ..).trans (completeUnit_done h hpick)
  · exact (exec_drainMorsel ..).trans (completeUnit_done h hpick)
  · exact (exec_sortIngest ..).trans (completeUnit_done h hpick)
  · exact (exec_topnIngest ..).trans (completeUnit_done h hpick)
  · exact (exec_sortMerge ..).trans (completeUnit_done h hpick)
  · exact (exec_sortFinal ..).trans (completeUnit_done h hpick)
  · exact (exec_topnFinal ..).trans (completeUnit_done h hpick)
  · exact (exec_lookup ..).trans (completeUnit_done h hpick)
  · exact (exec_load ..).trans (completeUnit_done h hpick)
  · exact (exec_row ..).trans (completeUnit_done h hpick)
  · exact (exec_stream ..).trans (completeUnit_done h hpick)

theorem State.dieD_modDie_units {d : Nat} {k : Die → Die} (s : State) (hk : ∀ x, (k x).units = x.units) (e : Nat) :
    ((s.modDie d k).dieD e).units = (s.dieD e).units := by
  by_cases he : e = d
  · subst he
    by_cases hlt : e < s.dies.length
    · rw [State.dieD_modDie k hlt, hk]
    · have hge : s.dies.length ≤ e := Nat.le_of_not_lt hlt
      simp only [State.dieD, State.modDie, List.getD_eq_getElem?_getD, List.getElem?_modify, List.getElem?_eq_none hge]
      rfl
  · rw [State.dieD_modDie_ne k he]

/-- The unit that held the morsel is free. -/
theorem releaseUnit_frees (h : ((s.dieD u.die).units[u.unit]?).bind (·.morsel) = some m) :
    (((s.releaseUnit u m).dieD u.die).units[u.unit]?).bind (·.morsel) = none := by
  have hlt : u.die < s.dies.length := by
    by_contra hge
    rw [State.dieD, List.getD_eq_getElem?_getD, List.getElem?_eq_none (Nat.le_of_not_lt hge)] at h
    obtain ⟨x, hx, hmx⟩ := Option.bind_eq_some_iff.1 h
    have hreset : x.morsel = none := by
      rw [List.eq_of_mem_replicate (List.mem_of_getElem? hx : x ∈ List.replicate _ UnitSt.reset)]
      rfl
    rw [hreset] at hmx
    cases hmx
  have hunits : ∀ (t : State) (n : Nat) (k : InstStat → InstStat), ((t.modInstStat u.die n k).dieD u.die).units = (t.dieD u.die).units :=
    fun t n k => t.dieD_modDie_units (k := fun x => { x with stat := x.stat.modInst n k }) (fun _ => rfl) _
  have hstat : ∀ (t : State) (k : DieStat → DieStat), ((t.modStat u.die k).dieD u.die).units = (t.dieD u.die).units :=
    fun t k => t.dieD_modDie_units (k := fun x => { x with stat := k x.stat }) (fun _ => rfl) _
  have hfree : ∀ v : State, (v.dieD u.die).units = ((s.modDie u.die fun d => { d with units := d.units.modify u.unit fun x =>
      { x with
        morsel := none
        busy := x.busy + u.used
        charged := assocSet m.inst (x.chargedTo m.inst - m.bound + u.used) x.charged } }).dieD u.die).units →
      (((v.dieD u.die).units)[u.unit]?).bind (·.morsel) = none := fun v hv => by
    rw [hv, State.dieD_modDie _ hlt, List.getElem?_modify_eq]
    cases (s.dieD u.die).units[u.unit]? <;> rfl
  unfold State.releaseUnit
  dsimp only
  split
  · exact hfree _ ((hstat _ _).trans (hunits _ _ _))
  · exact hfree _ (hunits _ _ _)

end

/-- Settles O35: every row is a `completeUnit` of its work. -/
theorem unitMorsels : Obligations.UnitMorsels := by
  intro u s m j st h s1
  refine ⟨releaseUnit_frees h.1, unitRow_done h, fun e => rfl, fun t hsink => ?_⟩
  simp only [State.worked, Except.bind, hsink, Bool.false_eq_true, if_false]

end Sys2Proof.Machine
end

section
/-!
PROOFS. Probe rows (R145, R147), outputs and ordered release (R74, R172), and the order of merging (R161, R162, R166).
-/

namespace Sys2Proof.Machine

-- PROBES --------------------------------------------------------------------------------------------------------------------------------------

/-- A row with a key that is not null, of a partition that has not spilled, in a table of inline keys. -/
theorem probeRow_inlined {s : State} {jid ti n c : Nat} {keys : List (Column × Nat)} {i : Nat} {t : Table} {offs : List Nat}
    (ht : s.table? jid ti = some t) (hn : rowKeyNull keys i = false) (hs : t.spilled.contains (t.partOf (tableHash (rowKey keys i) t.seed)) = false)
    (hf : s.findKey n t c (tableHash (rowKey keys i) t.seed) (rowKey keys i) = .ok offs) (hi : t.inlined = true) (op : ProbeOp) (aware : Bool)
    (cols : List Column) : s.probeRow jid ti n c op aware cols keys i = .ok (s.drawn, match op with
      | .inner => offs.map fun _ => (i, some [])
      | .left => if offs = [] then [(i, none)] else offs.map fun _ => (i, some [])
      | .semi => if offs = [] then [] else [(i, none)]
      | .anti => if offs ≠ [] then [] else if aware && t.nullKeys != 0 then [] else [(i, none)]) := by
  have hrecs : ∀ l : List Nat, (sortBy (fun a b => Config.matchRank s.draw a ≤ Config.matchRank s.draw b) l).map (fun _ => ([] : List Byte)) =
      l.map fun _ => [] := fun l => by
    rw [List.map_const', List.map_const', (sortBy_perm _ l).length_eq]
  simp only [State.probeRow, ht, hn, hs, Bool.not_false, Bool.and_false, Bool.false_eq_true, if_false, hf, hi, if_true, hrecs, bind, Except.bind,
    List.map_map, List.map_eq_nil_iff, ne_eq, Bool.false_and, Bool.or_false]
  cases op <;> rfl

/-- Settles O36: the four operations on the payloads of the matches. -/
theorem probeResults : Obligations.ProbeResults := by
  intro s jid ti n c cols keys i t offs ht hn hs hf hi
  have h := fun op aware => probeRow_inlined ht hn hs hf hi op aware cols
  refine ⟨fun aware => h .inner aware, fun aware => h .left aware, fun aware => h .semi aware, (h .anti false).trans ?_, (h .anti true).trans ?_⟩
  · by_cases ho : offs = [] <;> simp [ho]
  · by_cases ho : offs = [] <;> by_cases hk : t.nullKeys = 0 <;> simp [ho, hk]

-- OUTPUTS -------------------------------------------------------------------------------------------------------------------------------------

/-- The parts hold the rows in order. -/
theorem flatten_splitRows (rows heap : Nat) (hs cur : List Nat) (i : Nat) : (splitRows rows heap hs cur i).flatten = cur ++ hs := by
  have hcur : (if cur = [] then [] else [cur] : List (List Nat)).flatten = cur := by split <;> simp_all
  induction hs generalizing cur i with
  | nil => rw [splitRows, hcur, List.append_nil]
  | cons h hs ih =>
    rw [splitRows]
    split
    · rw [ih _ _ (by simp), List.append_assoc]
      rfl
    · rw [List.flatten_append, hcur, ih _ _ (by simp)]
      rfl

/-- No part passes the limits, given that none of the rows does. -/
theorem splitRows_limits {rows heap : Nat} (hr : 0 < rows) (hs cur : List Nat) (i : Nat) (hc : cur.length ≤ rows) :
    ∀ p ∈ splitRows rows heap hs cur i, p ≠ [] ∧ p.length ≤ rows ∧ (cur.sum ≤ heap → (∀ h ∈ hs, h ≤ heap) → p.sum ≤ heap) := by
  induction hs generalizing cur i with
  | nil =>
    intro p hp
    rw [splitRows] at hp
    split at hp
    · cases hp
    · obtain rfl := List.mem_singleton.1 hp
      exact ⟨by assumption, hc, fun h _ => h⟩
  | cons h hs ih =>
    intro p hp
    rw [splitRows] at hp
    split at hp
    case isTrue hfit =>
      simp only [Bool.and_eq_true, decide_eq_true_eq] at hfit
      obtain ⟨hne, hlen, hsum⟩ := ih (cur ++ [h]) (i + 1) (by simpa using hfit.1) p hp
      exact ⟨hne, hlen, fun _ hall => hsum (by simpa using hfit.2) fun x hx => hall x (List.mem_cons_of_mem _ hx)⟩
    case isFalse =>
      rcases List.mem_append.1 hp with hp | hp
      · split at hp
        · cases hp
        · obtain rfl := List.mem_singleton.1 hp
          exact ⟨by assumption, hc, fun h _ => h⟩
      · obtain ⟨hne, hlen, hsum⟩ := ih [h] (i + 1) (by simpa using Nat.succ_le_of_lt hr) p hp
        exact ⟨hne, hlen, fun _ hall => hsum (by simpa using hall h List.mem_cons_self) fun x hx => hall x (List.mem_cons_of_mem _ hx)⟩

theorem Arena.place_fits {a : Arena} {size draw o : Nat} (h : a.place size draw = some o) : a.fits o size = true := by
  rw [Arena.place] at h
  split at h
  case isTrue hf =>
    cases h
    exact hf
  case isFalse =>
    rw [Arena.firstFit] at h
    simpa using List.find?_some h

theorem Arena.fits_iff {a : Arena} {o size : Nat} : a.fits o size = true ↔
    o + size ≤ a.bytes ∧ ∀ l ∈ a.live, o + size ≤ l.1 ∨ l.1 + l.2 ≤ o := by
  simp [Arena.fits]

theorem placeOrdered_held {s : State} {j : Job} {fi : Nat} {f : FlowSt} {o : Output} (hf : s.flowSt? j.jid fi = some f)
    (hn : ¬ (o.origin = f.nextOrigin ∧ o.frag = f.nextFrag)) (hw : f.held.length < Config.window) (pd producer : Nat) (st : Stage) :
    s.placeOrdered j fi pd producer st o =
      (({ s with nextMid := s.nextMid + 1 } : State).modFlow j.jid fi fun f =>
        { f with held := f.held ++ [s.asMorsel j producer st (some fi) o 0] }).modFlow j.jid fi (·.settled) := by
  rw [State.placeOrdered, hf]
  dsimp only
  rw [if_neg hn, if_neg (fun h => Nat.not_le.2 hw h.1)]

theorem placeOrdered_next {s : State} {j : Job} {fi : Nat} {f : FlowSt} {o : Output} (hf : s.flowSt? j.jid fi = some f)
    (ho : o.origin = f.nextOrigin) (hfr : o.frag = f.nextFrag) (hh : f.held = []) (pd producer : Nat) (st : Stage) :
    s.placeOrdered j fi pd producer st o =
      ((s.modFlow j.jid fi fun f => { f with
        seq := f.seq + 1
        nextOrigin := if o.last then f.nextOrigin + 1 else f.nextOrigin
        nextFrag := if o.last then 0 else f.nextFrag + 1 }).deliver j.jid fi pd o f.seq).modFlow j.jid fi (·.settled) := by
  rw [State.placeOrdered, hf]
  dsimp only
  rw [if_pos ⟨ho, hfr⟩, hh]
  rfl

/-- Settles O37: the parts of a split, the buffers of an arena and the release of an ordered flow, each by its own lemma. -/
theorem outputsAndOrderedRelease : Obligations.OutputsAndOrderedRelease := by
  refine ⟨⟨fun rows heap hs hr => ⟨flatten_splitRows .., fun p hp => ?_⟩, fun a size draw o h => Arena.fits_iff.1 (Arena.place_fits h)⟩, ?_⟩
  · obtain ⟨hne, hlen, hsum⟩ := splitRows_limits hr hs [] 0 (Nat.zero_le _) p hp
    exact ⟨hne, hlen, hsum (Nat.zero_le _)⟩
  · intro s j fi pd producer st o f _ hf
    exact ⟨fun hn hw => placeOrdered_held hf hn hw pd producer st, fun ho hfr hh => placeOrdered_next hf ho hfr hh pd producer st⟩

-- THE ORDER OF KEYS ---------------------------------------------------------------------------------------------------------------------------

theorem bit_eq_testBit (n i : Nat) : bit n i = n.testBit i := by
  rw [bit, Nat.testBit_eq_decide_div_mod_eq]
  rfl

theorem cellOrder_some (flags : Nat) (x y : List Byte) : cellOrder flags (some x) (some y) =
    (if flags.testBit 0 then 1 else -1) * (if leNat x < leNat y then 1 else if leNat y < leNat x then -1 else 0) := by
  simp only [cellOrder, bit_eq_testBit]
  split <;> split <;> (try split) <;> rfl

/-- The rank of a cell in its column: null before or after every value, values by their number, upward or downward. -/
def cellRank (flags : Nat) : Option (List Byte) → ℤ ×ₗ ℤ
  | none => toLex (if flags.testBit 1 then 1 else -1, 0)
  | some x => toLex (0, if flags.testBit 0 then -(leNat x : ℤ) else leNat x)

/-- The sign of `o` says how two ranks stand. -/
def Signs {α : Type} [LT α] (o : Int) (x y : α) : Prop := (o < 0 ↔ x < y) ∧ (o = 0 ↔ x = y)

theorem cellOrder_signs (flags : Nat) (a b : Option (List Byte)) : Signs (cellOrder flags a b) (cellRank flags a) (cellRank flags b) := by
  cases a with
  | none => cases b with
    | none => simp [Signs, cellOrder]
    | some y => cases h : flags.testBit 1 <;> simp [Signs, cellOrder, cellRank, bit_eq_testBit, h, Prod.Lex.toLex_lt_toLex]
  | some x => cases b with
    | none => cases h : flags.testBit 1 <;> simp [Signs, cellOrder, cellRank, bit_eq_testBit, h, Prod.Lex.toLex_lt_toLex]
    | some y =>
      simp only [Signs, cellOrder_some, cellRank, Prod.Lex.toLex_lt_toLex, EmbeddingLike.apply_eq_iff_eq, Prod.mk.injEq, true_and, lt_irrefl, false_or]
      cases h : flags.testBit 0 <;> simp only [Bool.false_eq_true, if_false, if_true] <;> constructor <;> split_ifs <;> omega

/-- The first difference decides. -/
theorem foldl_decided {α : Type} (c : α → Int) {o : Int} (ho : o ≠ 0) (l : List α) : l.foldl (fun o x => if o = 0 then c x else o) o = o := by
  induction l with
  | nil => rfl
  | cons x l ih => rw [List.foldl_cons, if_neg ho, ih]

/-- The ranks of key columns from column `k` on. -/
def keyRanks (p : List Byte) (k : Nat) : List (Option (List Byte)) → List (ℤ ×ₗ ℤ)
  | [] => []
  | a :: as => cellRank (mnEntry p k).2 a :: keyRanks p (k + 1) as

theorem columns_signs (p : List Byte) (a b : List (Option (List Byte))) (h : a.length = b.length) (k : Nat) :
    Signs (((a.zip b).zipIdx k).foldl (fun o x => if o = 0 then cellOrder (mnEntry p x.2).2 x.1.1 x.1.2 else o) 0)
      (keyRanks p k a) (keyRanks p k b) := by
  induction a generalizing b k with
  | nil =>
    obtain rfl := List.length_eq_zero_iff.1 h.symm
    simp [Signs, keyRanks]
  | cons x a ih =>
    obtain ⟨y, b, rfl⟩ := List.exists_cons_of_length_eq_add_one h.symm
    obtain ⟨hlt, heq⟩ := cellOrder_signs (mnEntry p k).2 x y
    rw [List.zip_cons_cons, List.zipIdx_cons, List.foldl_cons, if_pos rfl]
    by_cases h0 : cellOrder (mnEntry p k).2 x y = 0
    · obtain ⟨ihlt, iheq⟩ := ih b (by simpa using h) (k + 1)
      rw [h0]
      simp only [Signs, keyRanks, heq.1 h0, List.cons_lt_cons_iff, lt_irrefl, false_or, true_and, List.cons.injEq]
      exact ⟨ihlt, iheq⟩
    · have hstay := foldl_decided (fun x : (Option (List Byte) × Option (List Byte)) × Nat => cellOrder (mnEntry p x.2).2 x.1.1 x.1.2) h0
        ((a.zip b).zipIdx (k + 1))
      dsimp only
      rw [hstay]
      simp only [Signs, keyRanks, List.cons_lt_cons_iff, List.cons.injEq, mt heq.2 h0, false_and, or_false]
      exact ⟨hlt, iff_of_false h0 not_false⟩

theorem length_entryCells (lay : List Column) (e : List Byte) : (entryCells lay e).length = lay.length := by simp [entryCells]

/-- The rank of an entry: its keys, then its origin. -/
def entryRank (p : List Byte) (lay : List Column) (e : List Byte) : List (ℤ ×ₗ ℤ) ×ₗ ℕ :=
  toLex (keyRanks p 0 ((entryCells lay e).take (mnKeys p)), field e 0 8)

theorem entryBefore_iff (p : List Byte) (lay : List Column) (a b : List Byte) :
    entryBefore p lay a b = true ↔ entryRank p lay a < entryRank p lay b := by
  obtain ⟨hlt, heq⟩ := columns_signs p ((entryCells lay a).take (mnKeys p)) ((entryCells lay b).take (mnKeys p))
    (by simp only [List.length_take, length_entryCells]) 0
  simp only [List.zip, ← List.take_zipWith] at hlt heq
  rw [entryRank, entryRank, Prod.Lex.toLex_lt_toLex, ← hlt, ← heq, entryBefore, keyOrder, List.zip]
  generalize List.foldl _ _ _ = o
  split
  · simp
  · rename_i ho
    have ho' : o ≠ 0 := ho
    simp [ho']

-- THE LEAST HEAD ------------------------------------------------------------------------------------------------------------------------------

section
variable {s : State} {n : Nat} {a : Area} {p : List Byte} {lay : List Column}

/-- What is known of the best head among the runs that were looked at. -/
def BestOf (s : State) (n : Nat) (a : Area) (p : List Byte) (lay : List Column) (seen : List (Run × Nat)) : Option (Nat × List Byte) → Prop
  | none => ∀ r ∈ seen, r.1.entries.head? = none
  | some (i, e) => (∃ r o, (r, i) ∈ seen ∧ r.entries.head? = some o ∧ s.fetch n (a.addr + o) (entryLen lay) = .ok e) ∧
      ∀ r ∈ seen, ∀ o x, r.1.entries.head? = some o → s.fetch n (a.addr + o) (entryLen lay) = .ok x → entryBefore p lay x e = false

/-- The next head, against the best one before it. -/
def headStep (s : State) (n : Nat) (a : Area) (p : List Byte) (lay : List Column) (best : Option (Nat × List Byte)) (r : Run × Nat) :
    Res (Option (Nat × List Byte)) :=
  match r.1.entries.head? with
  | none => .ok best
  | some o => do
    let e ← s.fetch n (a.addr + o) (entryLen lay)
    match best with
    | none => .ok (some (r.2, e))
    | some b => .ok (if entryBefore p lay e b.2 then some (r.2, e) else best)

theorem entryBefore_irrefl (x : List Byte) : entryBefore p lay x x = false := by
  rw [Bool.eq_false_iff, ne_eq, entryBefore_iff]
  exact lt_irrefl _

theorem entryBefore_trans {x y z : List Byte} (h1 : entryBefore p lay x y = true) (h2 : entryBefore p lay y z = true) :
    entryBefore p lay x z = true := by
  rw [entryBefore_iff] at *
  exact h1.trans h2

theorem entryBefore_asymm {x y : List Byte} (h : entryBefore p lay x y = true) : entryBefore p lay y x = false := by
  rw [Bool.eq_false_iff, ne_eq, entryBefore_iff]
  exact (((entryBefore_iff ..).1 h).asymm)

/-- A head that does not precede the best one, or that replaces it, keeps what is known. -/
theorem headStep_best {seen : List (Run × Nat)} {best new : Option (Nat × List Byte)} {r : Run × Nat} (hb : BestOf s n a p lay seen best)
    (h : headStep s n a p lay best r = .ok new) : BestOf s n a p lay (seen ++ [r]) new := by
  rw [headStep] at h
  cases hr : r.1.entries.head? with
  | none =>
    rw [hr] at h
    cases h
    cases best with
    | none =>
      intro q hq
      rcases List.mem_append.1 hq with hq | hq
      · exact hb q hq
      · rwa [List.mem_singleton.1 hq]
    | some b =>
      obtain ⟨⟨q, o, hq, hhead, hfetch⟩, hall⟩ := hb
      refine ⟨⟨q, o, List.mem_append_left _ hq, hhead, hfetch⟩, fun q hq o x hhead hx => ?_⟩
      rcases List.mem_append.1 hq with hq | hq
      · exact hall q hq o x hhead hx
      · obtain rfl := List.mem_singleton.1 hq
        rw [hr] at hhead
        cases hhead
  | some o =>
    rw [hr] at h
    cases he : s.fetch n (a.addr + o) (entryLen lay) with
    | error c =>
      simp only [he] at h
      cases h
    | ok e =>
      simp only [he] at h
      have hself : ∀ o' x, r.1.entries.head? = some o' → s.fetch n (a.addr + o') (entryLen lay) = .ok x → x = e := fun o' x ho' hx => by
        rw [hr] at ho'
        cases ho'
        rw [he] at hx
        cases hx
        rfl
      cases best with
      | none =>
        cases h
        refine ⟨⟨r.1, o, by simp, hr, he⟩, fun q hq o' x ho' hx => ?_⟩
        rcases List.mem_append.1 hq with hq | hq
        · rw [hb q hq] at ho'
          cases ho'
        · obtain rfl := List.mem_singleton.1 hq
          rw [hself o' x ho' hx]
          exact entryBefore_irrefl e
      | some b =>
        obtain ⟨⟨q, oq, hq, hhead, hfetch⟩, hall⟩ := hb
        by_cases hbefore : entryBefore p lay e b.2 = true
        · have hnew : new = some (r.2, e) := by
            injection h with h
            rw [← h, if_pos hbefore]
          subst hnew
          refine ⟨⟨r.1, o, by simp, hr, he⟩, fun q hq o' x ho' hx => ?_⟩
          rcases List.mem_append.1 hq with hq | hq
          · by_contra hne
            have := entryBefore_trans (Bool.not_eq_false _ ▸ hne) hbefore
            rw [hall q hq o' x ho' hx] at this
            cases this
          · obtain rfl := List.mem_singleton.1 hq
            rw [hself o' x ho' hx]
            exact entryBefore_irrefl e
        · have hnew : new = some b := by
            injection h with h
            rw [← h, if_neg hbefore]
          subst hnew
          refine ⟨⟨q, oq, List.mem_append_left _ hq, hhead, hfetch⟩, fun q hq o' x ho' hx => ?_⟩
          rcases List.mem_append.1 hq with hq | hq
          · exact hall q hq o' x ho' hx
          · obtain rfl := List.mem_singleton.1 hq
            rw [hself o' x ho' hx]
            exact Bool.eq_false_iff.2 hbefore

theorem foldlM_best {l seen : List (Run × Nat)} {best new : Option (Nat × List Byte)} (hb : BestOf s n a p lay seen best)
    (h : l.foldlM (headStep s n a p lay) best = .ok new) : BestOf s n a p lay (seen ++ l) new := by
  induction l generalizing seen best with
  | nil =>
    cases h
    simpa using hb
  | cons r l ih =>
    rw [List.foldlM_cons] at h
    cases hstep : headStep s n a p lay best r with
    | error c =>
      rw [hstep] at h
      cases h
    | ok mid =>
      rw [hstep] at h
      simpa using ih (headStep_best hb hstep) h

theorem leastHead_best {ins : List Run} {new : Option (Nat × List Byte)} (h : s.leastHead n a p lay ins = .ok new) :
    BestOf s n a p lay ins.zipIdx new :=
  foldlM_best (l := ins.zipIdx) (seen := []) (best := none) (fun _ h => absurd h List.not_mem_nil) h

end

/-- Settles O38: entries compare as their ranks, and `BestOf` holds after every head. -/
theorem mergeOrder : Obligations.MergeOrder := by
  refine ⟨fun flags x y => ⟨cellOrder_some flags x y, ?_, rfl⟩, fun p lay a b c => ⟨entryBefore_irrefl a, entryBefore_asymm, entryBefore_trans⟩, ?_⟩
  · rw [cellOrder, bit_eq_testBit]
  · intro s n a p lay ins i e h
    obtain ⟨⟨r, o, hr, ho, he⟩, hall⟩ := leastHead_best h
    refine ⟨⟨r, o, List.mk_mem_zipIdx_iff_getElem?.1 hr, ho, he⟩, fun r hr o x ho hx => ?_⟩
    obtain ⟨k, hk⟩ := List.getElem?_of_mem hr
    exact hall (r, k) (List.mk_mem_zipIdx_iff_getElem?.2 hk) o x ho hx

end Sys2Proof.Machine
end

section
/-!
PROOFS. Lookups and the entry port of the match unit (R273, R279, R289).
-/

namespace Sys2Proof.Machine

-- LOOKUPS -------------------------------------------------------------------------------------------------------------------------------------

/-- The entry that answers, of two that match: the higher priority, then the lower address (R279). -/
def betterEntry (best : Option (Nat × AmuEntry)) (x : Nat × AmuEntry) : Option (Nat × AmuEntry) :=
  match best with
  | none => some x
  | some y => if y.2.prio < x.2.prio || (y.2.prio == x.2.prio && x.1 < y.1) then some x else some y

/-- `x` answers before `y`, or is it. -/
def Answers (x y : Nat × AmuEntry) : Prop := y.2.prio < x.2.prio ∨ (y.2.prio = x.2.prio ∧ x.1 ≤ y.1)

theorem betterEntry_some (y x : Nat × AmuEntry) : ∃ z, betterEntry (some y) x = some z ∧ (z = y ∨ z = x) ∧ Answers z y ∧ Answers z x := by
  rw [betterEntry]
  split
  case isTrue h =>
    simp only [Bool.or_eq_true, Bool.and_eq_true, decide_eq_true_eq, beq_iff_eq] at h
    exact ⟨x, rfl, .inr rfl, by unfold Answers; omega, by unfold Answers; omega⟩
  case isFalse h =>
    simp only [Bool.or_eq_true, Bool.and_eq_true, decide_eq_true_eq, beq_iff_eq] at h
    exact ⟨y, rfl, .inl rfl, by unfold Answers; omega, by unfold Answers; omega⟩

theorem Answers.trans {x y z : Nat × AmuEntry} (h1 : Answers x y) (h2 : Answers y z) : Answers x z := by
  unfold Answers at *
  omega

theorem foldl_betterEntry_some (l : List (Nat × AmuEntry)) (y : Nat × AmuEntry) :
    ∃ z, l.foldl betterEntry (some y) = some z ∧ (z = y ∨ z ∈ l) ∧ Answers z y ∧ ∀ x ∈ l, Answers z x := by
  induction l generalizing y with
  | nil => exact ⟨y, rfl, .inl rfl, by unfold Answers; omega, nofun⟩
  | cons x l ih =>
    obtain ⟨u, hu, hmem, huy, hux⟩ := betterEntry_some y x
    obtain ⟨z, hz, hzmem, hzu, hall⟩ := ih u
    rw [List.foldl_cons, hu]
    refine ⟨z, hz, ?_, hzu.trans huy, fun v hv => ?_⟩
    · rcases hzmem with rfl | hzl
      · exact hmem.imp_right fun (h : z = x) => h ▸ List.mem_cons_self
      · exact .inr (List.mem_cons_of_mem _ hzl)
    · rcases List.mem_cons.1 hv with rfl | hv
      · exact hzu.trans hux
      · exact hall v hv

theorem Amu.lookup_eq (a : Amu) (n : Nat) (k : BitVec 160) : a.lookup n k = (a.matches n k).foldl betterEntry none := rfl

theorem Amu.lookup_cons {a : Amu} {n : Nat} {k : BitVec 160} {y : Nat × AmuEntry} {l : List (Nat × AmuEntry)} (h : a.matches n k = y :: l) :
    ∃ z, a.lookup n k = some z ∧ z ∈ a.matches n k ∧ ∀ x ∈ a.matches n k, Answers z x := by
  obtain ⟨z, hz, hmem, hy, hall⟩ := foldl_betterEntry_some l y
  refine ⟨z, ?_, ?_, fun x hx => ?_⟩
  · rw [Amu.lookup_eq, h]
    exact hz
  · rw [h]
    exact List.mem_cons.2 hmem
  · rw [h] at hx
    rcases List.mem_cons.1 hx with rfl | hx
    · exact hy
    · exact hall x hx

theorem Amu.lookup_eq_none {a : Amu} {n : Nat} {k : BitVec 160} : a.lookup n k = none ↔ a.matches n k = [] := by
  constructor
  · intro h
    cases hm : a.matches n k with
    | nil => rfl
    | cons y l =>
      obtain ⟨z, hz, -⟩ := Amu.lookup_cons hm
      rw [h] at hz
      cases hz
  · intro h
    rw [Amu.lookup_eq, h]
    rfl

theorem Amu.hits_of_mem_matches {a : Amu} {n : Nat} {k : BitVec 160} {x : Nat × AmuEntry} (h : x ∈ a.matches n k) : x.2.hits k = true := by
  obtain ⟨b, -, hx⟩ := List.mem_flatMap.1 h
  obtain ⟨e, he, rfl⟩ := List.mem_map.1 hx
  have := (List.mem_filter.1 he).2
  simp only [Bool.and_eq_true] at this
  exact this.2

theorem AmuEntry.hits_iff (e : AmuEntry) (k : BitVec 160) : e.hits k = true ↔ e.valid = true ∧ (k ^^^ e.value) &&& e.care = 0 := by
  simp [AmuEntry.hits]

theorem Amu.lookup_eq_some {a : Amu} {n : Nat} {k : BitVec 160} {x : Nat × AmuEntry} (h : a.lookup n k = some x) :
    x ∈ a.matches n k ∧ x.2.valid = true ∧ (k ^^^ x.2.value) &&& x.2.care = 0 ∧
      ∀ y ∈ a.matches n k, y.2.prio < x.2.prio ∨ (y.2.prio = x.2.prio ∧ x.1 ≤ y.1) := by
  cases hm : a.matches n k with
  | nil =>
    rw [Amu.lookup_eq_none.2 hm] at h
    cases h
  | cons y l =>
    obtain ⟨z, hz, hmem, hall⟩ := Amu.lookup_cons hm
    obtain rfl : z = x := Option.some_inj.1 (hz.symm.trans h)
    obtain ⟨hv, hc⟩ := (AmuEntry.hits_iff ..).1 (Amu.hits_of_mem_matches hmem)
    rw [← hm]
    exact ⟨hmem, hv, hc, hall⟩

-- THE INSTRUCTIONS ----------------------------------------------------------------------------------------------------------------------------

section
variable {f : FId} {x : RegF} {s : State} {g : Fgr} {m : Morsel}

/-- A body that retires with quiet registers. -/
theorem runFgr_done {w : W32} {chk : FRegs → Option Nat} {body : State → Fgr → State × FRes} {t : State} {r : FRegs} (hr : s.Runs f g)
    (hc : chk g.regs = none) (hb : body s g = (t, .done r)) (hq : r.Quiet) : runFgr f w chk body s = .next (t.retired f g r none) := by
  rw [runFgr_body hr hc, hb]
  exact congrArg _ (retireFgr_quiet hq)

theorem runFgr_trap {w : W32} {chk : FRegs → Option Nat} {body : State → Fgr → State × FRes} {t : State} {r : FRegs} {c : Nat} {v : W64}
    (hr : s.Runs f g) (hc : chk g.regs = none) (hb : body s g = (t, .trap r c v)) : runFgr f w chk body s = .next (t.preciseTrap f r c v) := by
  rw [runFgr_body hr hc, hb]
  rfl

theorem amlk_stale (hr : s.Runs f g) (hb : badReg {} x = false) (hm : g.morsel = some m) (hq : g.regs.Quiet)
    (hs : s.amuStale m.inst f.die = true) :
    exec (.amlk f x) s = .next ((s.failPart m.jid f.die m.stage Config.stAmuState []).retired f g g.regs none) := by
  rw [exec_amlk, execAmlk]
  exact runFgr_done hr (by simp [chk5, hb]) (by simp only [hm, hs, if_true]) hq

theorem amlk_done (hr : s.Runs f g) (hb : badReg {} x = false) (hm : g.morsel = some m) (hq : g.regs.Quiet)
    (hs : s.amuStale m.inst f.die = false) :
    let t := (s.amuRepair f.die m.inst).countLookup f.die (some m.inst)
    let key : BitVec 160 := (g.regs.rg x.rb).extractLsb' 0 32 ++ g.regs.rw x.ra
    exec (.amlk f x) s = .next (t.retired f g (g.regs.setG x.rd
      (match (t.dieD f.die).amu.lookup m.inst key with | some e => BitVec.ofNat 64 e.1 | none => 0xFFFFFFFF)) none) := by
  intro t key
  rw [exec_amlk, execAmlk]
  refine runFgr_done hr (by simp [chk5, hb]) ?_ (FRegs.setG_quiet hq)
  have hkey : g.regs.amuKey x = key := rfl
  simp only [hm, hs, Bool.false_eq_true, if_false, hkey]
  cases ((((s.amuRepair f.die m.inst).countLookup f.die (some m.inst)).dieD f.die).amu.lookup m.inst key) <;> rfl

theorem amuPort_pipeline (hr : s.Runs f g) (hb : badReg {} x = false) (hm : g.regs.mode = 0) :
    exec (.amwr f x) s = .next (s.preciseTrap f g.regs 0x08 ((regWord 0x71 0x00 x).setWidth 64)) ∧
      exec (.amrd f x) s = .next (s.preciseTrap f g.regs 0x08 ((regWord 0x71 0x01 x).setWidth 64)) := by
  have hc : amuPortCheck x g.regs = some 0x08 := by simp [amuPortCheck, firstCause, hb, hm]
  rw [exec_amwr, execAmwr, exec_amrd, execAmrd]
  exact ⟨runFgr_refused hr hc, runFgr_refused hr hc⟩

theorem amuPortCheck_passes (hb : badReg {} x = false) (hm : g.regs.mode ≠ 0) : amuPortCheck x g.regs = none := by
  simp [amuPortCheck, firstCause, hb, hm]

theorem amuPort_misaligned (hr : s.Runs f g) (hb : badReg {} x = false) (hm : g.regs.mode ≠ 0) (ha : (g.regs.rg x.ra).toNat % 64 ≠ 0) :
    exec (.amwr f x) s = .next (s.preciseTrap f g.regs 0x07 (g.regs.rg x.ra)) ∧
      exec (.amrd f x) s = .next (s.preciseTrap f g.regs 0x07 (g.regs.rg x.ra)) := by
  rw [exec_amwr, execAmwr, exec_amrd, execAmrd]
  exact ⟨runFgr_trap hr (amuPortCheck_passes hb hm) (if_pos ha), runFgr_trap hr (amuPortCheck_passes hb hm) (if_pos ha)⟩

section
variable (hr : s.Runs f g) (hb : badReg {} x = false) (hm : g.regs.mode ≠ 0) (ha : (g.regs.rg x.ra).toNat % 64 = 0)
  (hl : inLdm (g.regs.rg x.ra).toNat 64 = true) (hq : g.regs.Quiet)
include hr hb hm ha hl hq

theorem amuPort_badIndex (hi : 32767 < (g.regs.rg x.rb).toNat) :
    exec (.amwr f x) s = .next (s.retired f g (g.regs.setG x.rd 1) none) ∧
      exec (.amrd f x) s = .next (s.retired f g (g.regs.setG x.rd 1) none) := by
  rw [exec_amwr, execAmwr, exec_amrd, execAmrd]
  refine ⟨runFgr_done hr (amuPortCheck_passes hb hm) ?_ (FRegs.setG_quiet hq), runFgr_done hr (amuPortCheck_passes hb hm) ?_ (FRegs.setG_quiet hq)⟩
  · simp only [ha, ne_eq, not_true_eq_false, if_false, hl, Bool.not_true, Bool.false_eq_true, hi, if_true]
    rfl
  · simp only [ha, ne_eq, not_true_eq_false, if_false, hl, Bool.not_true, Bool.false_eq_true, hi, if_true]

theorem amwr_reserved (hi : (g.regs.rg x.rb).toNat ≤ 32767) (hs : shadowReserved (memRead g.ldm (g.regs.rg x.ra).toNat 64) = true) :
    exec (.amwr f x) s = .next (s.retired f g (g.regs.setG x.rd 2) none) := by
  rw [exec_amwr, execAmwr]
  refine runFgr_done hr (amuPortCheck_passes hb hm) ?_ (FRegs.setG_quiet hq)
  simp only [ha, ne_eq, not_true_eq_false, if_false, hl, Bool.not_true, Bool.false_eq_true, Nat.not_lt.2 hi, hs, if_true]
  rfl

theorem amwr_done (hi : (g.regs.rg x.rb).toNat ≤ 32767) (hs : shadowReserved (memRead g.ldm (g.regs.rg x.ra).toNat 64) = false)
    (hc : (s.dieD f.die).amu.clearing (g.regs.rg x.rb).toNat = false) :
    exec (.amwr f x) s = .next ((s.amuWrite f.die (g.regs.rg x.rb).toNat (shadowEntry (memRead g.ldm (g.regs.rg x.ra).toNat 64))).retired f g
      (g.regs.setG x.rd 0) none) := by
  rw [exec_amwr, execAmwr]
  refine runFgr_done hr (amuPortCheck_passes hb hm) ?_ (FRegs.setG_quiet hq)
  simp only [ha, ne_eq, not_true_eq_false, if_false, hl, Bool.not_true, Bool.false_eq_true, Nat.not_lt.2 hi, hs, hc]
  rfl

theorem amrd_done (hi : (g.regs.rg x.rb).toNat ≤ 32767) :
    let amu := (s.dieD f.die).amu
    let out := shadowBytes (amu.entry (g.regs.rg x.rb).toNat) ((byteAt (s.shadow f.die (g.regs.rg x.rb).toNat) 0x2C).testBit 1)
      (amu.ownerField (g.regs.rg x.rb).toNat)
    exec (.amrd f x) s = .next ((s.modFgr f fun h => { h with ldm := memWrite h.ldm (g.regs.rg x.ra).toNat out }).retired f g
      (g.regs.setG x.rd 0) none) := by
  intro amu out
  rw [exec_amrd, execAmrd]
  refine runFgr_done hr (amuPortCheck_passes hb hm) ?_ (FRegs.setG_quiet hq)
  simp only [ha, ne_eq, not_true_eq_false, if_false, hl, Bool.not_true, Bool.false_eq_true, Nat.not_lt.2 hi, bit_eq_testBit]
  rfl

end

end

/-- Settles O39: a lookup keeps the better of two entries, and each instruction takes its checks in order. -/
theorem matchPort : Obligations.MatchPort := by
  refine ⟨fun a n k x => ⟨Amu.lookup_eq_none, Amu.lookup_eq_some⟩, fun f x s g hr hb => ⟨fun m hm hq =>
    ⟨amlk_stale hr hb hm hq, amlk_done hr hb hm hq⟩, amuPort_pipeline hr hb, fun hm => ?_⟩⟩
  intro a i img
  exact ⟨amuPort_misaligned hr hb hm, fun ha hl hq => ⟨amuPort_badIndex hr hb hm ha hl hq, amwr_reserved hr hb hm ha hl hq,
    amwr_done hr hb hm ha hl hq, amrd_done hr hb hm ha hl hq⟩⟩

end Sys2Proof.Machine
end

section
/-!
PROOFS. What leaves the memory alone: every operation that does not write a byte of it.
-/

namespace Sys2Proof.Machine
/-- An operation that leaves the memory as it is. -/
def KeepsMem (f : State → State) : Prop := ∀ s, (f s).mem = s.mem

/-- A step of a fold that leaves the memory as it is. -/
def StepsKeepMem {α : Type} (f : State → α → State) : Prop := ∀ s a, (f s a).mem = s.mem

@[simp] theorem keepsMem_iff {f : State → State} : KeepsMem f ↔ ∀ s, (f s).mem = s.mem := Iff.rfl

@[simp] theorem stepsKeepMem_iff {α : Type} {f : State → α → State} : StepsKeepMem f ↔ ∀ s a, (f s a).mem = s.mem := Iff.rfl

@[simp] theorem State.foldl_mem {α : Type} {f : State → α → State} (h : StepsKeepMem f) (l : List α) (s : State) :
    (l.foldl f s).mem = s.mem := by
  induction l generalizing s with
  | nil => rfl
  | cons a l ih => rw [List.foldl_cons, ih, h s a]

theorem bind_eq_ok {ε α β : Type} {x : Except ε α} {f : α → Except ε β} {b : β} : x >>= f = .ok b ↔ ∃ a, x = .ok a ∧ f a = .ok b := by
  cases x <;> simp [bind, Except.bind]

theorem Option.getD_mem {o : Option State} {d : State} (h : ∀ {t}, o = some t → t.mem = d.mem) : (o.getD d).mem = d.mem := by
  cases o with
  | none => rfl
  | some t => exact h rfl

theorem outState_mem {o : Host.Outcome State Fault Refusal} {s : State} (h : ∀ {t}, o = .next t → t.mem = s.mem) :
    (outState s o).mem = s.mem := by
  cases o with
  | next t => exact h rfl
  | fault | refused => rfl

theorem State.ite_mem {c : Prop} [Decidable c] {a b s : State} (ha : a.mem = s.mem) (hb : b.mem = s.mem) : (if c then a else b).mem = s.mem := by
  split
  · exact ha
  · exact hb

@[simp] theorem State.elapse_mem (s : State) (ns : Nat) : (State.elapse s ns).mem = s.mem := by
  rfl
@[simp] theorem State.sendMsix_mem (s : State) (fn vec : Nat) : (State.sendMsix s fn vec).mem = s.mem := by
  unfold State.sendMsix
  split <;> simp
@[simp] theorem State.signalGroup_mem (s : State) (g : Nat) : (State.signalGroup s g).mem = s.mem := by
  unfold State.signalGroup
  repeat' split
  all_goals simp
@[simp] theorem State.countStale_mem (s : State) (n : Nat) (f : Inst → Inst) : (State.countStale s n f).mem = s.mem := by
  unfold State.countStale
  split <;> simp
@[simp] theorem State.staleJob_mem (s : State) (n : Nat) : (State.staleJob s n).mem = s.mem := by
  simp [State.staleJob]
@[simp] theorem State.deviceError_mem (s : State) : (State.deviceError s).mem = s.mem := by
  grind [State.deviceError]
@[simp] theorem State.failPart_mem (s : State) (jid d stage status : Nat) (trap : List W64) : (State.failPart s jid d stage status trap).mem = s.mem := by
  rfl
@[simp] theorem State.takeTrap_mem (s : State) (f : FId) (regs : FRegs) (cause : Nat) (tval : W64) : (State.takeTrap s f regs cause tval).mem = s.mem := by
  grind [State.takeTrap, State.modFgr_mem, State.failPart_mem, State.modDie_mem, State.raiseDie_mem]
@[simp] theorem State.takeArith_mem (s : State) (f : FId) (regs : FRegs) : (State.takeArith s f regs).mem = s.mem := by
  unfold State.takeArith
  split <;> simp
@[simp] theorem State.preciseTrap_mem (s : State) (f : FId) (regs : FRegs) (cause : Nat) (tval : W64) : (State.preciseTrap s f regs cause tval).mem = s.mem := by
  unfold State.preciseTrap
  split <;> simp
@[simp] theorem State.retireFgr_mem (s : State) (f : FId) (old r : FRegs) (target : Option (BitVec 48)) (deliver : Bool) : (State.retireFgr s f old r target deliver).mem = s.mem := by
  grind [State.retireFgr, State.modFgr_mem, State.drawn_mem, State.takeArith_mem]
@[simp] theorem State.finish_mem (s : State) (f : FId) (old : FRegs) (x0 : FRes) : (State.finish s f old x0).mem = s.mem := by
  unfold State.finish
  split <;> simp
@[simp] theorem State.appendRec_mem (s : State) (r : AuditRec) : (State.appendRec s r).mem = s.mem := by
  grind [State.appendRec, State.modLog_mem, State.raise_mem]
@[simp] theorem State.audit_mem (s : State) (kind cls originId index sub : Nat) (value : List Byte) : (State.audit s kind cls originId index sub value).mem = s.mem := by
  simp [State.audit]
@[simp] theorem State.auditWrite_mem (s : State) (o : Origin) (index sub : Nat) (value : List Byte) : (State.auditWrite s o index sub value).mem = s.mem := by
  simp [State.auditWrite]
@[simp] theorem State.auditDevice_mem (s : State) (e : Nat) : (State.auditDevice s e).mem = s.mem := by
  simp [State.auditDevice]
@[simp] theorem State.auditCommand_mem (s : State) (n opcode status : Nat) (value : List Byte) : (State.auditCommand s n opcode status value).mem = s.mem := by
  simp [State.auditCommand]
@[simp] theorem State.extendMeas_mem (s : State) (k : Nat) (v : List Byte) : (State.extendMeas s k v).mem = s.mem := by
  rfl
@[simp] theorem State.extendImeas_mem (s : State) (n k : Nat) (v : List Byte) : (State.extendImeas s n k v).mem = s.mem := by
  rfl
@[simp] theorem State.clearImeas_mem (s : State) (n : Nat) : (State.clearImeas s n).mem = s.mem := by
  rfl
theorem State.takeBuffer_mem {s : State} {jid d size : Nat} {p} (h : State.takeBuffer s jid d size = .ok p) : p.1.mem = s.mem := by
  grind [State.takeBuffer, State.modJob_mem, State.drawn_mem]
@[simp] theorem State.shrinkBuffer_mem (s : State) (jid d off size : Nat) : (State.shrinkBuffer s jid d off size).mem = s.mem := by
  rfl
theorem State.exchange_mem {s : State} {jid ei : Nat} {d : List Byte} {t : State} (h : State.exchange s jid ei d = .ok t) : t.mem = s.mem := by
  simp only [State.exchange] at h
  split at h
  · grind
  split at h
  · grind
  obtain ⟨cols, -, h⟩ := bind_eq_ok.1 h
  obtain ⟨ks, -, h⟩ := bind_eq_ok.1 h
  obtain ⟨D, -, h⟩ := bind_eq_ok.1 h
  grind [State.modJob_mem]
@[simp] theorem State.enqueue_mem (s : State) (d : Nat) (m : Morsel) : (State.enqueue s d m).mem = s.mem := by
  grind [State.enqueue, State.modDie_mem, State.failPart_mem, State.modStat_mem, State.raise_mem]
@[simp] theorem State.deliver_mem (s : State) (jid fi pd : Nat) (o : Output) (q : Nat) : (State.deliver s jid fi pd o q).mem = s.mem := by
  unfold State.deliver
  split
  · rfl
  split
  · rfl
  split
  · rfl
  split_ifs
  · simp
  · split
    · next h => exact State.exchange_mem h
    · simp
  · simp
@[simp] theorem State.releaseHeld_mem (s : State) (jid fi pd : Nat) (x0 : Nat) : (State.releaseHeld s jid fi pd x0).mem = s.mem := by
  induction x0 generalizing s with
  | zero => rfl
  | succ k ih => grind [State.releaseHeld, State.deliver_mem, State.modFlow_mem]
@[simp] theorem State.placeOrdered_mem (s : State) (j : Job) (fi pd producer : Nat) (st : Stage) (o : Output) : (State.placeOrdered s j fi pd producer st o).mem = s.mem := by
  unfold State.placeOrdered
  repeat' split
  all_goals simp
@[simp] theorem State.placeFlow_mem (s : State) (jid fi pd producer : Nat) (o : Output) : (State.placeFlow s jid fi pd producer o).mem = s.mem := by
  unfold State.placeFlow
  repeat' split
  all_goals simp
@[simp] theorem State.placeAll_mem (s : State) (jid pd producer : Nat) (o : Output) : (State.placeAll s jid pd producer o).mem = s.mem := by
  unfold State.placeAll
  split <;> simp
@[simp] theorem State.freeBuffers_mem (s : State) (jid : Nat) : (State.freeBuffers s jid).mem = s.mem := by
  rfl
@[simp] theorem State.amuRepair_mem (s : State) (d n : Nat) : (State.amuRepair s d n).mem = s.mem := by
  simp [State.amuRepair]
@[simp] theorem State.setAmuState_mem (s : State) (n d v : Nat) : (State.setAmuState s n d v).mem = s.mem := by
  rfl
@[simp] theorem State.openCtx_mem (s : State) (d i n : Nat) (h : Holder) : (State.openCtx s d i n h).mem = s.mem := by
  rfl
@[simp] theorem State.releaseCtx_mem (s : State) (d i : Nat) : (State.releaseCtx s d i).mem = s.mem := by
  rfl
theorem State.digestCharge_mem {s : State} {d n blocks : Nat} {t : State} (h : State.digestCharge s d n blocks = some t) : t.mem = s.mem := by
  grind [State.digestCharge, State.modInstStat_mem, State.modDie_mem]
@[simp] theorem State.compareDigests_mem (s : State) (a b : List Byte) : (State.compareDigests s a b).1.mem = s.mem := by
  grind [State.compareDigests, State.raise_mem]
theorem State.mnLayout_mem {s : State} {jid ai : Nat} {p : List Byte} {cols : List Column} {t : State} (h : State.mnLayout s jid ai p cols = .ok t) : t.mem = s.mem := by
  simp only [State.mnLayout, need] at h
  split at h
  · grind
  · obtain ⟨-, -, h⟩ := bind_eq_ok.1 h
    split at h
    · grind [State.modArea_mem]
    · obtain ⟨-, -, h⟩ := bind_eq_ok.1 h
      grind
theorem State.ingestEntries_mem {s : State} {m : Morsel} {p : List Byte} {q} (h : State.ingestEntries s m p = .ok q) : q.1.mem = s.mem := by
  simp only [State.ingestEntries] at h
  obtain ⟨all, -, h⟩ := bind_eq_ok.1 h
  obtain ⟨cols, -, h⟩ := bind_eq_ok.1 h
  obtain ⟨s1, h1, h⟩ := bind_eq_ok.1 h
  obtain ⟨-, -, h⟩ := bind_eq_ok.1 h
  cases h
  exact State.mnLayout_mem h1
@[simp] theorem State.endStage_mem (s : State) (jid i : Nat) (st : Stage) : (State.endStage s jid i st).mem = s.mem := by
  simp [State.endStage]
theorem State.cutOne_mem {s : State} {jid i : Nat} {t : State} (h : State.cutOne s jid i = some t) : t.mem = s.mem := by
  grind [State.cutOne, State.modStage_mem, State.failPart_mem, State.enqueue_mem, State.drawn_mem]
@[simp] theorem State.cutAll_mem (s : State) (jid i : Nat) (x0 : Nat) : (State.cutAll s jid i x0).mem = s.mem := by
  induction x0 generalizing s with
  | zero => rfl
  | succ k ih => grind [State.cutAll, State.cutOne_mem]
@[simp] theorem State.spawn_mem (s : State) (j : Job) (i : Nat) (st : Stage) (d rows origin : Nat) (k : MKind) : (State.spawn s j i st d rows origin k).mem = s.mem := by
  simp [State.spawn]
@[simp] theorem State.settleMerge_mem (s : State) (j : Job) (i : Nat) (st : Stage) : (State.settleMerge s j i st).mem = s.mem := by
  grind [State.settleMerge, State.modArea_mem, State.spawn_mem, State.endStage_mem]
@[simp] theorem State.settleGroup_mem (s : State) (j : Job) (i : Nat) (st : Stage) : (State.settleGroup s j i st).mem = s.mem := by
  simp only [State.settleGroup]
  split
  · rfl
  · split_ifs <;> simp
@[simp] theorem State.closeWires_mem (s : State) (j : Job) (i : Nat) : (State.closeWires s j i).mem = s.mem := by
  rfl
@[simp] theorem State.settleExchange_mem (s : State) (j : Job) (i : Nat) (st : Stage) : (State.settleExchange s j i st).mem = s.mem := by
  grind [State.settleExchange, State.closeWires_mem, State.endStage_mem]
@[simp] theorem State.countMorsel_mem (s : State) (jid d : Nat) : (State.countMorsel s jid d).mem = s.mem := by
  rfl
@[simp] theorem State.releaseUnit_mem (s : State) (u : UId) (m : Morsel) : (State.releaseUnit s u m).mem = s.mem := by
  unfold State.releaseUnit
  split <;> simp
@[simp] theorem State.countLookup_mem (s : State) (d : Nat) (n : Option Nat) : (State.countLookup s d n).mem = s.mem := by
  unfold State.countLookup
  split <;> simp
@[simp] theorem State.badHandle_mem (s : State) (f : FId) (g : Fgr) : (State.badHandle s f g).1.mem = s.mem := by
  unfold State.badHandle
  split <;> simp
theorem State.chargeBlocks_mem {s : State} {f : FId} {g : Fgr} {blocks : Nat} {t : State} (h : State.chargeBlocks s f g blocks = some t) : t.mem = s.mem := by
  grind [State.chargeBlocks, State.digestCharge_mem]
theorem State.finalAggregation_mem {s : State} {f : FId} {st : Stage} {m : Morsel} {t : State} (h : State.finalAggregation s f st m = .ok t) : t.mem = s.mem := by
  grind [State.finalAggregation, State.modJob_mem, State.drawn_mem]
@[simp] theorem State.endMorsel_mem (s : State) (f : FId) (m : Morsel) : (State.endMorsel s f m).mem = s.mem := by
  rfl
@[simp] theorem State.countExcess_mem (s : State) (f : FId) (g : Fgr) (m : Morsel) : (State.countExcess s f g m).mem = s.mem := by
  unfold State.countExcess
  split <;> simp
@[simp] theorem State.countDispatch_mem (s : State) (d : Nat) (m : Morsel) (fgr : Bool) : (State.countDispatch s d m fgr).mem = s.mem := by
  rfl
@[simp] theorem State.startFgr_mem (s : State) (d l p : Nat) (j : Job) (st : Stage) (m : Morsel) : (State.startFgr s d l p j st m).mem = s.mem := by
  simp only [State.startFgr]
  split
  · simp
  · next q h =>
    have : q.1.mem = s.mem := by
      split_ifs at h
      · cases h; rfl
      · exact State.takeBuffer_mem h
    simp [this]
@[simp] theorem State.startUnit_mem (s : State) (d u : Nat) (j : Job) (st : Stage) (m : Morsel) : (State.startUnit s d u j st m).mem = s.mem := by
  have htake := @State.takeBuffer_mem
  simp only [State.startUnit]
  split
  · split
    · rfl
    · next h =>
      have := State.takeBuffer_mem h
      split
      · split_ifs <;> simp [this]
      · simp [this]
  · split
    · simp
    · split <;> simp
  · split_ifs <;> simp
  · simp
@[simp] theorem State.defer_mem (s : State) (d : Nat) (m : Morsel) : (State.defer s d m).mem = s.mem := by
  rfl
@[simp] theorem State.atCycle_mem (s : State) (t : Nat) : (State.atCycle s t).mem = s.mem := by
  rfl
@[simp] theorem State.evict_mem (s : State) (f : FId) : (State.evict s f).mem = s.mem := by
  unfold State.evict
  repeat' split
  all_goals simp
theorem execMorselSave_mem {f : FId} {s : State} {t : State} (h : execMorselSave f s = .next t) : t.mem = s.mem := by
  grind [execMorselSave, State.takeArith_mem, State.modFgr_mem, State.evict_mem]
@[simp] theorem State.resumeFgr_mem (s : State) (f : FId) (m : Morsel) (regs : FRegs) (ldm : List Host.Cell) : (State.resumeFgr s f m regs ldm).mem = s.mem := by
  rfl
theorem execMorselResume_mem {f : FId} {s : State} {t : State} (h : execMorselResume f s = .next t) : t.mem = s.mem := by
  grind [execMorselResume, State.resumeFgr_mem]
theorem execEvictedRestore_mem {f : FId} {s : State} {t : State} (h : execEvictedRestore f s = .next t) : t.mem = s.mem := by
  grind [execEvictedRestore, State.modDie_mem, State.resumeFgr_mem]
theorem execOverrunLimitReached_mem {die jid stage : Nat} {s : State} {t : State} (h : execOverrunLimitReached die jid stage s = .next t) : t.mem = s.mem := by
  grind [execOverrunLimitReached, State.modDie_mem, State.raise_mem, State.failPart_mem]
@[simp] theorem State.rsvdWrite_mem (s : State) (fn : Nat) : (State.rsvdWrite s fn).mem = s.mem := by
  simp [State.rsvdWrite]
@[simp] theorem State.rsvdIf_mem (s : State) (fn : Nat) (bad : Bool) : (State.rsvdIf s fn bad).mem = s.mem := by
  unfold State.rsvdIf
  split <;> simp
@[simp] theorem State.mmioWrite_mem {k : State → State} (h : KeepsMem k) (s : State) (fn off size : Nat) (window : Bool) :
    (s.mmioWrite fn off size window k).mem = s.mem := by
  unfold State.mmioWrite
  split_ifs <;> simp [h s]
@[simp] theorem State.sqError_mem (s : State) (n q : Nat) : (State.sqError s n q).mem = s.mem := by
  simp [State.sqError]
@[simp] theorem State.cqError_mem (s : State) (n q : Nat) : (State.cqError s n q).mem = s.mem := by
  simp [State.cqError]
@[simp] theorem State.complete_mem (s : State) (n : Nat) (c : Chain) (status : Nat) (result : Nat) (detail : Nat) (newSq : Option Sq) (newCq : Option Cq) : (State.complete s n c status result detail newSq newCq).mem = s.mem := by
  rfl
@[simp] theorem State.completeAdmin_mem (s : State) (n : Nat) (w : Nat × Nat) (status result : Nat) : (State.completeAdmin s n w status result).mem = s.mem := by
  rfl
@[simp] theorem State.dropDoorbell_mem (s : State) (fn : Nat) : (State.dropDoorbell s fn).mem = s.mem := by
  rfl
theorem doorbell_mem {take : Nat → State → State} (h : ∀ v, KeepsMem (take v)) (fn q size : Nat) (value : W64) (s : State) :
    (doorbell fn q size value take s).mem = s.mem := by
  refine State.mmioWrite_mem (fun s => ?_) ..
  split_ifs <;> simp [h _ _]
theorem execSqTailDoorbell_mem {fn q size : Nat} {value : W64} {s : State} {t : State} (h : execSqTailDoorbell fn q size value s = .next t) : t.mem = s.mem := by
  obtain rfl := Host.Outcome.next.inj h
  refine doorbell_mem (fun v s => ?_) ..
  split
  · simp
  · split_ifs <;> simp
theorem execCqHeadDoorbell_mem {fn q size : Nat} {value : W64} {s : State} {t : State} (h : execCqHeadDoorbell fn q size value s = .next t) : t.mem = s.mem := by
  obtain rfl := Host.Outcome.next.inj h
  refine doorbell_mem (fun v s => ?_) ..
  split
  · simp
  · split_ifs <;> simp
theorem execAqCfg_mem {fn size : Nat} {value : W64} {s : State} {t : State} (h : execAqCfg fn size value s = .next t) : t.mem = s.mem := by
  obtain rfl := Host.Outcome.next.inj h
  refine State.mmioWrite_mem (fun s => ?_) ..
  dsimp only
  split_ifs <;> simp
theorem execAdminDisableDone_mem {fn : Nat} {s : State} {t : State} (h : execAdminDisableDone fn s = .next t) : t.mem = s.mem := by
  grind [execAdminDisableDone, State.modInst_mem]
theorem execCqStall_mem {n q : Nat} {s : State} {t : State} (h : execCqStall n q s = .next t) : t.mem = s.mem := by
  grind [execCqStall, State.raise_mem, State.modCq_mem]
@[simp] theorem State.takeChain_mem (s : State) (n : Nat) (c : Chain) : (State.takeChain s n c).mem = s.mem := by
  rfl
theorem execCreateSq_mem {n : Nat} {s : State} {t : State} (h : execCreateSq n s = .next t) : t.mem = s.mem := by
  grind [execCreateSq, State.takeChain_mem, State.complete_mem]
theorem execCreateCq_mem {n : Nat} {s : State} {t : State} (h : execCreateCq n s = .next t) : t.mem = s.mem := by
  grind [execCreateCq, State.takeChain_mem, State.complete_mem]
@[simp] theorem State.finishSqDelete_mem (s : State) (n q : Nat) : (State.finishSqDelete s n q).mem = s.mem := by
  unfold State.finishSqDelete
  repeat' split
  all_goals simp
theorem execDeleteSq_mem {n : Nat} {s : State} {t : State} (h : execDeleteSq n s = .next t) : t.mem = s.mem := by
  grind [execDeleteSq, State.takeChain_mem, State.complete_mem, State.modSq_mem]
theorem execSqDeleteComplete_mem {n q : Nat} {s : State} {t : State} (h : execSqDeleteComplete n q s = .next t) : t.mem = s.mem := by
  simp [execSqDeleteComplete] at h
  simp [← h]
theorem execDeleteCq_mem {n : Nat} {s : State} {t : State} (h : execDeleteCq n s = .next t) : t.mem = s.mem := by
  grind [execDeleteCq, State.takeChain_mem, State.complete_mem, State.modCq_mem]
theorem execAbortJob_mem {n : Nat} {s : State} {t : State} (h : execAbortJob n s = .next t) : t.mem = s.mem := by
  grind [execAbortJob, State.takeChain_mem, State.complete_mem]
theorem execChainFetch_mem {s : State} {t : State} (h : execChainFetch s = .next t) : t.mem = s.mem := by
  grind [execChainFetch, State.modCq_mem, State.modSq_mem, State.modInst_mem, State.complete_mem]
theorem execJob_mem {n : Nat} {s : State} {t : State} (h : execJob n s = .next t) : t.mem = s.mem := by
  grind [execJob, State.takeChain_mem, State.complete_mem, State.modSq_mem]
theorem State.foldl_clears_mem (s : State) (j : Job) (x : Stage × Nat) (ti : Nat) (t : Table) (size : Nat) (chunks copies : List Nat) :
    (copies.foldl (fun s c => chunks.foldl (fun s k => s.spawn j x.2 x.1 (s.homeDie j (t.baseOf c + size * k)) 0 0 (.clear ti c k)) s) s).mem =
      s.mem :=
  State.foldl_mem (fun _ _ => State.foldl_mem (fun _ _ => State.spawn_mem ..) _ _) _ _
@[simp] theorem State.spawnClears_mem (s : State) (j : Job) (ti : Nat) (t : Table) : (s.spawnClears j ti t).mem = s.mem := by
  unfold State.spawnClears
  split
  · rfl
  · exact State.foldl_clears_mem ..
@[simp] theorem State.rejectJob_mem (s : State) (w : Job) (st : Nat) : (State.rejectJob s w st).mem = s.mem := by
  rfl
@[simp] theorem State.failLoad_mem (s : State) (n : Nat) (c : Chain) (st detail : Nat) : (State.failLoad s n c st detail).mem = s.mem := by
  simp [State.failLoad]
theorem execLoadImage_mem {n : Nat} {s : State} {t : State} (h : execLoadImage n s = .next t) : t.mem = s.mem := by
  grind [execLoadImage, State.takeChain_mem, State.failLoad_mem, State.compareDigests_mem, State.modInst_mem, State.drawn_mem]
theorem execLoadImageChecksDone_mem {n : Nat} {s : State} {t : State} (h : execLoadImageChecksDone n s = .next t) : t.mem = s.mem := by
  simp only [execLoadImageChecksDone] at h
  split at h <;> obtain rfl := Host.Outcome.next.inj h <;> simp
theorem execUnloadImage_mem {n : Nat} {s : State} {t : State} (h : execUnloadImage n s = .next t) : t.mem = s.mem := by
  grind [execUnloadImage, State.takeChain_mem, State.auditCommand_mem, State.complete_mem, State.modInst_mem]
theorem execImageUnloadComplete_mem {n slot : Nat} {s : State} {t : State} (h : execImageUnloadComplete n slot s = .next t) : t.mem = s.mem := by
  simp only [execImageUnloadComplete] at h
  split at h
  · grind
  · split_ifs at h <;> obtain rfl := Host.Outcome.next.inj h <;> simp
@[simp] theorem State.dropWork_mem (s : State) (jid : Nat) : (State.dropWork s jid).mem = s.mem := by
  rfl
@[simp] theorem State.endRegions_mem (s : State) (j : Job) (ok : Bool) : (State.endRegions s j ok).mem = s.mem := by
  unfold State.endRegions
  split <;> simp
@[simp] theorem State.finishSqDeletes_mem (s : State) : (State.finishSqDeletes s).mem = s.mem := by
  simp [State.finishSqDeletes]
@[simp] theorem State.setPt_mem (s : State) (n pages : Nat) (pt : List (Nat × W64)) : (State.setPt s n pages pt).mem = s.mem := by
  rfl
@[simp] theorem State.startWays_mem (s : State) (n d : Nat) : (State.startWays s n d).mem = s.mem := by
  unfold State.startWays
  repeat' split
  all_goals simp
@[simp] theorem State.acceptChange_mem (s : State) (n : Nat) (c : Change) : (State.acceptChange s n c).mem = s.mem := by
  rfl
@[simp] theorem State.setBlocks_mem (s : State) (d : Nat) : (State.setBlocks s d).mem = s.mem := by
  unfold State.setBlocks
  split <;> simp
@[simp] theorem State.applyAlloc_mem (s : State) (n : Nat) (c : Change) : (State.applyAlloc s n c).mem = s.mem := by
  unfold State.applyAlloc
  split <;> simp
@[simp] theorem State.failTooBig_mem (s old : State) (n : Nat) : (s.failTooBig old n).mem = s.mem := by
  simp [State.failTooBig]
@[simp] theorem State.applyChanges_mem (s : State) : (State.applyChanges s).mem = s.mem := by
  simp only [State.applyChanges]
  rw [State.foldl_mem]
  · rw [State.foldl_mem]
    · rw [State.foldl_mem]
      · simp
      · intro s n
        dsimp only
        split_ifs <;> simp
    · simp
  · simp
@[simp] theorem State.startAllWays_mem (s : State) : (State.startAllWays s).mem = s.mem := by
  simp [State.startAllWays]
@[simp] theorem wayStep_mem {f : State → State} (h : KeepsMem f) (d w : Nat) (st : WayState) (s : State) : (wayStep d w st f s).mem = s.mem := by
  unfold wayStep
  split_ifs <;> simp [h s]
@[simp] theorem State.wayDisabled_mem (s : State) (d : Nat) : (State.wayDisabled s d).mem = s.mem := by
  simp [State.wayDisabled]
theorem execWayCleanDone_mem {die way : Nat} {s : State} {t : State} (h : execWayCleanDone die way s = .next t) : t.mem = s.mem := by
  obtain rfl := Host.Outcome.next.inj h
  refine wayStep_mem (fun s => ?_) ..
  dsimp only
  split_ifs <;> simp
theorem execWaySweepDone_mem {die n : Nat} {s : State} {t : State} (h : execWaySweepDone die n s = .next t) : t.mem = s.mem := by
  grind [execWaySweepDone, State.modCc_mem]
theorem execCcWayDisable_mem {die way : Nat} {s : State} {t : State} (h : execCcWayDisable die way s = .next t) : t.mem = s.mem := by
  grind [execCcWayDisable, State.modWay_mem]
theorem execCcWayDisabled_mem {die way : Nat} {s : State} {t : State} (h : execCcWayDisabled die way s = .next t) : t.mem = s.mem := by
  simp [execCcWayDisabled] at h
  simp [← h]
theorem execWayErrWindowEnd_mem {die way : Nat} {s : State} {t : State} (h : execWayErrWindowEnd die way s = .next t) : t.mem = s.mem := by
  grind [execWayErrWindowEnd, State.modWay_mem]
@[simp] theorem State.leaveWays_mem (s : State) : (State.leaveWays s).mem = s.mem := by
  refine State.foldl_mem (fun s d => State.foldl_mem (fun s w => ?_) _ _) _ _
  split
  · split_ifs <;> simp
  · rfl
@[simp] theorem wayCommand_mem (die way : Nat) (f : State → Way → Option Way) (s : State) : (wayCommand die way f s).mem = s.mem := by
  refine State.mmioWrite_mem (fun s => ?_) ..
  split_ifs
  · rfl
  · split <;> simp
theorem execPowerDown_mem {die way : Nat} {s : State} {t : State} (h : execPowerDown die way s = .next t) : t.mem = s.mem := by
  obtain rfl := Host.Outcome.next.inj h
  rw [wayCommand_mem]
  refine State.mmioWrite_mem (fun s => ?_) ..
  split_ifs <;> simp
theorem execPowerUp_mem {die way : Nat} {s : State} {t : State} (h : execPowerUp die way s = .next t) : t.mem = s.mem := by
  simp [execPowerUp] at h
  simp [← h]
theorem execWayEnable_mem {die way : Nat} {s : State} {t : State} (h : execWayEnable die way s = .next t) : t.mem = s.mem := by
  simp [execWayEnable] at h
  simp [← h]
theorem execPowerDownDone_mem {die way : Nat} {s : State} {t : State} (h : execPowerDownDone die way s = .next t) : t.mem = s.mem := by
  simp [execPowerDownDone] at h
  simp [← h]
theorem execPowerUpDone_mem {die way : Nat} {s : State} {t : State} (h : execPowerUpDone die way s = .next t) : t.mem = s.mem := by
  simp [execPowerUpDone] at h
  simp [← h]
theorem execCcCtl_mem {die size : Nat} {value : W64} {s : State} {t : State} (h : execCcCtl die size value s = .next t) : t.mem = s.mem := by
  obtain rfl := Host.Outcome.next.inj h
  refine State.mmioWrite_mem (fun s => ?_) ..
  dsimp only
  split_ifs <;> simp
theorem execCcDrainDone_mem {die : Nat} {s : State} {t : State} (h : execCcDrainDone die s = .next t) : t.mem = s.mem := by
  grind [execCcDrainDone, State.raise_mem, State.modCc_mem]
@[simp] theorem State.setLocks_mem (s : State) (n : Nat) (hi : Bool) (v : W64) : (State.setLocks s n hi v).mem = s.mem := by
  refine State.foldl_mem (fun s k => ?_) _ _
  dsimp only
  split_ifs <;> simp
theorem execInvalDone_mem {n : Nat} {s : State} {t : State} (h : execInvalDone n s = .next t) : t.mem = s.mem := by
  grind [execInvalDone, State.modInst_mem]
theorem execPageReleaseCleanDone_mem {page : Nat} {s : State} {t : State} (h : execPageReleaseCleanDone page s = .next t) : t.mem = s.mem := by
  grind [execPageReleaseCleanDone, State.modCc_mem]
@[simp] theorem State.poisonGranule_mem (s : State) (k a : Nat) : (State.poisonGranule s k a).mem = s.mem := by
  unfold State.poisonGranule
  split <;> simp
theorem execBankSpare_mem {stack channel bank : Nat} {s : State} {t : State} (h : execBankSpare stack channel bank s = .next t) : t.mem = s.mem := by
  grind [execBankSpare, State.raise_mem, State.modStack_mem]
theorem execBankSpareCopyDone_mem {stack channel : Nat} {s : State} {t : State} (h : execBankSpareCopyDone stack channel s = .next t) : t.mem = s.mem := by
  grind [execBankSpareCopyDone, State.modStack_mem]
@[simp] theorem State.remapBanks_mem (s : State) : (State.remapBanks s).mem = s.mem := by
  simp [State.remapBanks]
@[simp] theorem State.sayBye_mem (s : State) (j : Job) (status : Nat) : (State.sayBye s j status).mem = s.mem := by
  unfold State.sayBye
  repeat' split
  all_goals simp
@[simp] theorem State.atNs_mem (s : State) (t : Nat) : (State.atNs s t).mem = s.mem := by
  rfl
theorem State.instCommand_mem {s : State} {n : Nat} {c : InstCmd} {t : State} (h : State.instCommand s n c = some t) : t.mem = s.mem := by
  simp [State.instCommand] at h
  grind [State.modInst_mem]
@[simp] theorem State.mbxSignal_mem (s : State) (n : Nat) (pf : Bool) : (State.mbxSignal s n pf).mem = s.mem := by
  grind [State.mbxSignal, State.sendMsix_mem]
@[simp] theorem State.mbxReset_mem (s : State) (n : Nat) : (State.mbxReset s n).mem = s.mem := by
  unfold State.mbxReset
  split <;> simp
@[simp] theorem State.dropJobs_mem (s : State) (n : Nat) : (State.dropJobs s n).mem = s.mem := by
  simp [State.dropJobs]
@[simp] theorem State.doReset_mem (s : State) (n : Nat) (next : InstSt) : (State.doReset s n next).mem = s.mem := by
  simp [State.doReset]
@[simp] theorem State.doRemove_mem (s : State) (n : Nat) : (State.doRemove s n).mem = s.mem := by
  simp [State.doRemove]
theorem execInstResetDone_mem {n : Nat} {s : State} {t : State} (h : execInstResetDone n s = .next t) : t.mem = s.mem := by
  grind [execInstResetDone, State.raise_mem, State.modInst_mem]
@[simp] theorem State.abortExchange_mem (s : State) (n : Nat) : (State.abortExchange s n).mem = s.mem := by
  rfl
theorem execFreezeTimeout_mem {n : Nat} {s : State} {t : State} (h : execFreezeTimeout n s = .next t) : t.mem = s.mem := by
  grind [execFreezeTimeout, State.raise_mem, State.modInst_mem, State.abortExchange_mem]
@[simp] theorem State.unitBack_mem (s : State) (d : Nat) (m : Morsel) : (State.unitBack s d m).mem = s.mem := by
  unfold State.unitBack
  repeat' split
  all_goals simp
@[simp] theorem State.evictWhere_mem (s : State) (d : Nat) (p : Morsel → Bool) : (State.evictWhere s d p).mem = s.mem := by
  simp [State.evictWhere]
@[simp] theorem State.capture_mem (s : State) (n : Nat) : (State.capture s n).mem = s.mem := by
  simp [State.capture]
@[simp] theorem State.startFreeze_mem (s : State) (n : Nat) (aborts : Bool) : (State.startFreeze s n aborts).mem = s.mem := by
  grind [State.startFreeze, State.modInst_mem, State.abortExchange_mem]
@[simp] theorem State.applyCmd_mem (s : State) (n : Nat) (c : InstCmd) : (State.applyCmd s n c).mem = s.mem := by
  unfold State.applyCmd
  repeat' split
  all_goals simp
@[simp] theorem State.startFence_mem (s : State) (d : Nat) : (State.startFence s d).mem = s.mem := by
  unfold State.startFence
  repeat' split
  all_goals simp
@[simp] theorem State.auditTimes_mem (s : State) (e : Nat) (x0 : Nat) : (State.auditTimes s e x0).mem = s.mem := by
  induction x0 generalizing s with
  | zero => rfl
  | succ k ih => rw [State.auditTimes, ih, State.auditDevice_mem]
@[simp] theorem State.fenceBoundary_mem (s : State) (d : Nat) : (State.fenceBoundary s d).mem = s.mem := by
  unfold State.fenceBoundary
  split <;> simp
theorem execDieFenceComplete_mem {die : Nat} {s : State} {t : State} (h : execDieFenceComplete die s = .next t) : t.mem = s.mem := by
  grind [execDieFenceComplete, State.modDie_mem]
@[simp] theorem State.fenceResets_mem (s : State) (rs : List Nat) : (State.fenceResets s rs).mem = s.mem := by
  simp [State.fenceResets]
@[simp] theorem State.stepFence_mem (s : State) (d : Nat) : (State.stepFence s d).mem = s.mem := by
  unfold State.stepFence
  repeat' split
  all_goals simp
@[simp] theorem State.stepFences_mem (s : State) : (State.stepFences s).mem = s.mem := by
  simp [State.stepFences]
theorem execCombUe_mem {die t : Nat} {s : State} {t' : State} (h : execCombUe die t s = .next t') : t'.mem = s.mem := by
  grind [execCombUe, State.startFence_mem, State.raiseDie_mem, State.atNs_mem]
theorem execCrestUe_mem {s : State} {t : State} (h : execCrestUe s = .next t) : t.mem = s.mem := by
  grind [execCrestUe, State.deviceError_mem]
theorem execDeviceClassError_mem {s : State} {t : State} (h : execDeviceClassError s = .next t) : t.mem = s.mem := by
  grind [execDeviceClassError, State.deviceError_mem]
theorem execPatrolScrub_mem {stack : Nat} {found : ScrubFind} {s : State} {t : State} (h : execPatrolScrub stack found s = .next t) : t.mem = s.mem := by
  grind [execPatrolScrub, State.modStack_mem, State.poisonGranule_mem, State.startFence_mem, State.raise_mem]
theorem execRidgeCrcError_mem {y0 : Ridge} {s : State} {t : State} (h : execRidgeCrcError y0 s = .next t) : t.mem = s.mem := by
  simp [execRidgeCrcError] at h
  simp [← h]
@[simp] theorem State.crestGoesDown_mem (s : State) (d : Nat) : (State.crestGoesDown s d).mem = s.mem := by
  grind [State.crestGoesDown, State.startFence_mem, State.modDie_mem, State.raiseDie_mem]
theorem execCrestLinkDown_mem {die t : Nat} {s : State} {t' : State} (h : execCrestLinkDown die t s = .next t') : t'.mem = s.mem := by
  grind [execCrestLinkDown, State.crestGoesDown_mem, State.atNs_mem]
@[simp] theorem State.ringGoesDown_mem (s : State) (i : Nat) : (State.ringGoesDown s i).mem = s.mem := by
  unfold State.ringGoesDown
  split <;> simp
theorem execRingLinkDown_mem {i t : Nat} {s : State} {t' : State} (h : execRingLinkDown i t s = .next t') : t'.mem = s.mem := by
  grind [execRingLinkDown, State.ringGoesDown_mem, State.atNs_mem]
theorem execRingRequestTimeout_mem {jid die : Nat} {s : State} {t : State} (h : execRingRequestTimeout jid die s = .next t) : t.mem = s.mem := by
  grind [execRingRequestTimeout, State.failPart_mem]
@[simp] theorem State.spareLanes_mem (s : State) (d : Nat) : (State.spareLanes s d).mem = s.mem := by
  grind [State.spareLanes, State.raiseDie_mem, State.modDie_mem]
@[simp] theorem State.failSaddleOps_mem (s : State) : (State.failSaddleOps s).mem = s.mem := by
  refine State.foldl_mem (fun s r => ?_) _ _
  split
  · simp
  · split_ifs <;> simp
@[simp] theorem State.saddleFails_mem (s : State) : (State.saddleFails s).mem = s.mem := by
  simp [State.saddleFails]
theorem State.saddleCommand_mem {s : State} {cmd : Nat} {t : State} (h : State.saddleCommand s cmd = some t) : t.mem = s.mem := by
  grind [State.saddleCommand]
theorem execSaddleEnableDone_mem {report : Option (List Byte)} {s : State} {t : State} (h : execSaddleEnableDone report s = .next t) : t.mem = s.mem := by
  simp [execSaddleEnableDone] at h
  grind [State.saddleFails_mem, State.extendMeas_mem]
theorem execSaddleDisableDone_mem {s : State} {t : State} (h : execSaddleDisableDone s = .next t) : t.mem = s.mem := by
  grind [execSaddleDisableDone]
theorem execSaddlePortDown_mem {s : State} {t : State} (h : execSaddlePortDown s = .next t) : t.mem = s.mem := by
  grind [execSaddlePortDown, State.saddleFails_mem]
theorem execSaddleTimeout_mem {s : State} {t : State} (h : execSaddleTimeout s = .next t) : t.mem = s.mem := by
  grind [execSaddleTimeout, State.saddleFails_mem]
theorem execSaddleResponse_mem {f : FId} {gen : BitVec 16} {value : W64} {err : Bool} {s : State} {t : State} (h : execSaddleResponse f gen value err s = .next t) : t.mem = s.mem := by
  simp only [execSaddleResponse] at h
  split at h
  · grind
  · split_ifs at h
    · obtain rfl := Host.Outcome.next.inj h
      simp
    · split at h
      · grind
      · have hgo : ∀ (b : Bool) (o : Option Morsel) (x y z : State), x.mem = s.mem → y.mem = s.mem → z.mem = s.mem → True := fun _ _ _ _ _ _ _ _ => trivial
        split at h <;> obtain rfl := Host.Outcome.next.inj h <;> (try rfl) <;> split <;> simp
@[simp] theorem State.stepSaddle_mem (s : State) : (State.stepSaddle s).mem = s.mem := by
  rfl
theorem execRidgeLaneFail_mem {l : Ridge} {s : State} {t : State} (h : execRidgeLaneFail l s = .next t) : t.mem = s.mem := by
  simp [execRidgeLaneFail] at h
  grind [State.crestGoesDown_mem, State.modDie_mem, State.ringGoesDown_mem, State.saddleFails_mem]
@[simp] theorem State.nameRetire_mem (s : State) (d p : Nat) (status : Option Nat) : (State.nameRetire s d p status).mem = s.mem := by
  grind [State.nameRetire, State.modDie_mem]
theorem State.retireCommand_mem {s : State} {d p : Nat} {t : State} (h : State.retireCommand s d p = some t) : t.mem = s.mem := by
  grind [State.retireCommand, State.nameRetire_mem]
theorem execForagerErrThresh_mem {f : FId} {s : State} {t : State} (h : execForagerErrThresh f s = .next t) : t.mem = s.mem := by
  grind [execForagerErrThresh, State.nameRetire_mem, State.modFgr_mem]
theorem execForagerUe_mem {f : FId} {s : State} {t : State} (h : execForagerUe f s = .next t) : t.mem = s.mem := by
  grind [execForagerUe, State.modFgr_mem, State.nameRetire_mem, State.raiseDie_mem, State.failPart_mem]
@[simp] theorem State.trimCores_mem (s : State) (d : Nat) (x0 : Nat) : (State.trimCores s d x0).mem = s.mem := by
  induction x0 generalizing s with
  | zero => rfl
  | succ k ih => grind [State.trimCores, State.auditDevice_mem, State.modInst_mem]
@[simp] theorem State.retireFgr1_mem (s : State) (d p : Nat) (status : Option Nat) : (State.retireFgr1 s d p status).mem = s.mem := by
  unfold State.retireFgr1
  extract_lets mid s1 s2 s3
  have h1 : s1.mem = s.mem := by
    unfold s1
    cases status <;> cases mid <;> simp
  have h3 : s3.mem = s.mem := by simp [s3, s2, h1]
  split_ifs <;> simp [h3]
@[simp] theorem State.retireDue_mem (s : State) (d : Nat) : (State.retireDue s d).mem = s.mem := by
  simp [State.retireDue]
@[simp] theorem State.takeImage_mem (s : State) (n : Nat) : (State.takeImage s n).1.mem = s.mem := by
  unfold State.takeImage
  split <;> simp
@[simp] theorem State.startMig_mem (s : State) (n : Nat) (data : List Byte) : (State.startMig s n data).mem = s.mem := by
  rfl
@[simp] theorem State.migDone_mem (s : State) (n : Nat) : (State.migDone s n).mem = s.mem := by
  rfl
@[simp] theorem State.migFail_mem (s : State) (n err : Nat) : (State.migFail s n err).mem = s.mem := by
  rfl
@[simp] theorem State.startRestore_mem (s : State) (n : Nat) (bs : List Byte) : (State.startRestore s n bs).mem = s.mem := by
  rfl
theorem execMigCopyDone_mem {n : Nat} {s : State} {t : State} (h : execMigCopyDone n s = .next t) : t.mem = s.mem := by
  grind [execMigCopyDone, State.raise_mem, State.modInst_mem]
theorem execRestoreChecksDone_mem {n : Nat} {s : State} {t : State} (h : execRestoreChecksDone n s = .next t) : t.mem = s.mem := by
  grind [execRestoreChecksDone, State.compareDigests_mem, State.modInst_mem]
theorem execFrameNumberRead_mem {fn t : Nat} {s : State} {t' : State} (h : execFrameNumberRead fn t s = .next t') : t'.mem = s.mem := by
  grind [execFrameNumberRead, State.emit_mem, State.atNs_mem, State.modInst_mem]
@[simp] theorem State.fwCheck_mem (s : State) (b : List Byte) (kind : Nat) : (State.fwCheck s b kind).1.mem = s.mem := by
  unfold State.fwCheck
  split <;> simp
@[simp] theorem State.fwPair_mem (s : State) (k : Nat) : (State.fwPair s k).1.mem = s.mem := by
  grind [State.fwPair, State.fwCheck_mem]
@[simp] theorem State.fwStage_mem (s : State) (b : List Byte) : (State.fwStage s b).1.mem = s.mem := by
  grind [State.fwStage, State.fwCheck_mem, State.raise_mem, State.fwPair_mem]
@[simp] theorem State.svnRaise_mem (s : State) (v : Nat) : (State.svnRaise s v).mem = s.mem := by
  unfold State.svnRaise
  split <;> simp
@[simp] theorem State.quoteStart_mem (s : State) (n : Nat) (req : List Byte) : (State.quoteStart s n req).mem = s.mem := by
  rfl
theorem execQuoteSigned_mem {s : State} {t : State} (h : execQuoteSigned s = .next t) : t.mem = s.mem := by
  grind [execQuoteSigned, State.modInst_mem]
theorem State.readObject_mem {s : State} {o : Origin} {i sub : Nat} {p} (h : State.readObject s o i sub = .ok p) : p.1.mem = s.mem := by
  grind [State.readObject, State.takeImage_mem, State.modLog_mem]
@[simp] theorem State.ackEvents_mem (s : State) (m : BitVec 256) : (State.ackEvents s m).mem = s.mem := by
  rfl
@[simp] theorem State.setMask_mem (s : State) (m : BitVec 256) : (State.setMask s m).mem = s.mem := by
  refine State.foldl_mem (fun s g => ?_) _ _
  split_ifs <;> simp
@[simp] theorem State.setSyncMode_mem (s : State) (v : Nat) : (State.setSyncMode s v).mem = s.mem := by
  unfold State.setSyncMode
  split <;> simp
@[simp] theorem State.putRwp_mem (s : State) (i sub : Nat) (data : List Byte) : (State.putRwp s i sub data).mem = s.mem := by
  unfold State.putRwp
  split <;> simp
@[simp] theorem State.objAct_mem (s : State) (x : OIx) (sub : Nat) (data : List Byte) : (State.objAct s x sub data).mem = s.mem := by
  have hsaddle := fun c => Option.getD_mem (d := s) (o := s.saddleCommand c) State.saddleCommand_mem
  have hretire := fun d p => Option.getD_mem (d := s) (o := s.retireCommand d p) State.retireCommand_mem
  have hinst := fun n => Option.getD_mem (d := s) (o := (instCmdOf (leNat data)).bind fun c => s.instCommand n c) fun h => by
    obtain ⟨c, -, hc⟩ := Option.bind_eq_some_iff.1 h
    exact State.instCommand_mem hc
  unfold State.objAct
  split <;> simp [hsaddle, hretire, hinst]
@[simp] theorem State.objApply_mem (s : State) (x : OIx) (m : ObjMeta) (i sub : Nat) (data : List Byte) : (State.objApply s x m i sub data).mem = s.mem := by
  unfold State.objApply
  repeat' split
  all_goals simp
@[simp] theorem State.countAbort_mem (s : State) (code : Nat) : (State.countAbort s code).mem = s.mem := by
  unfold State.countAbort
  split <;> simp
@[simp] theorem State.kdpReply_mem (s : State) (o : Origin) (op : Nat) (m : KdpMsg) (status arg : Nat) (body : List Byte) : (State.kdpReply s o op m status arg body).mem = s.mem := by
  simp [State.kdpReply]
@[simp] theorem State.answer_mem (s : State) (who : Asker) (code : Nat) : (State.answer s who code).mem = s.mem := by
  unfold State.answer
  split <;> simp
@[simp] theorem State.acceptWrite_mem (s : State) (who : Asker) (o : Origin) (x : OIx) (m : ObjMeta) (i sub : Nat) (data : List Byte) : (State.acceptWrite s who o x m i sub data).mem = s.mem := by
  unfold State.acceptWrite
  repeat' split
  all_goals simp
@[simp] theorem State.finishWrite_mem (s : State) (who : Asker) (o : Origin) (x : OIx) (m : ObjMeta) (i sub : Nat) (data : List Byte) : (State.finishWrite s who o x m i sub data).mem = s.mem := by
  grind [State.finishWrite, State.answer_mem, State.fwStage_mem, State.acceptWrite_mem]
@[simp] theorem State.writeObject_mem (s : State) (who : Asker) (o : Origin) (i sub : Nat) (data : List Byte) : (State.writeObject s who o i sub data).mem = s.mem := by
  unfold State.writeObject
  repeat' split
  all_goals simp
@[simp] theorem State.kdwAbort_mem (s : State) (fn code : Nat) : (State.kdwAbort s fn code).mem = s.mem := by
  simp [State.kdwAbort]
@[simp] theorem State.serveWindow_mem (s : State) (fn op : Nat) (arg : W32) : (State.serveWindow s fn op arg).mem = s.mem := by
  have hread : ∀ {p}, s.readObject (fnOrigin fn) (s.instD fn).kdw.index.toNat (s.instD fn).kdw.sub.toNat = .ok p → p.1.mem = s.mem :=
    State.readObject_mem
  simp only [State.serveWindow]
  split
  · split <;> simp
  · split
    · simp
    · split
      · split <;> simp
      · simp
  · split
    · simp
    · next h => simpa using hread h
  · split <;> simp
  · split
    · simp
    · split_ifs
      · simp
      · split <;> simp
@[simp] theorem State.dropSession_mem (s : State) (o : Origin) (m : KdpMsg) : (State.dropSession s o m).mem = s.mem := by
  rfl
@[simp] theorem State.putSession_mem (s : State) (o : Origin) (m : KdpMsg) (x : Session) : (State.putSession s o m x).mem = s.mem := by
  rfl
@[simp] theorem State.segRead_mem (s : State) (o : Origin) (m : KdpMsg) (x : Session) : (State.segRead s o m x).mem = s.mem := by
  grind [State.segRead, State.kdpReply_mem, State.dropSession_mem]
@[simp] theorem State.segWrite_mem (s : State) (o : Origin) (m : KdpMsg) (x : Session) : (State.segWrite s o m x).mem = s.mem := by
  grind [State.segWrite, State.kdpReply_mem, State.putSession_mem, State.dropSession_mem]
@[simp] theorem State.serveKdp_mem (s : State) (o : Origin) (op : Nat) (m : KdpMsg) : (State.serveKdp s o op m).mem = s.mem := by
  have hread : ∀ {p}, s.readObject o m.index.toNat m.sub.toNat = .ok p → p.1.mem = s.mem := State.readObject_mem
  simp only [State.serveKdp]
  repeat' split
  any_goals simp
  all_goals next h _ => simpa using hread h
@[simp] theorem State.serve_mem (s : State) (x0 : Req) : (State.serve s x0).mem = s.mem := by
  cases x0 with
  | read o i sub =>
    simp only [State.serve]
    split
    · simp
    · next h => simpa using State.readObject_mem h
  | write o i sub data => simp [State.serve]
  | window fn op arg => simp [State.serve]
  | kdp o op m => simp [State.serve]
@[simp] theorem State.submit_mem (s : State) (r : Req) : (State.submit s r).mem = s.mem := by
  unfold State.submit
  repeat' split
  all_goals simp
@[simp] theorem State.serveHeld_mem (s : State) : (State.serveHeld s).mem = s.mem := by
  simp [State.serveHeld]
@[simp] theorem State.abortSessions_mem (s : State) : (State.abortSessions s).mem = s.mem := by
  simp [State.abortSessions]
theorem dictCmd_mem {o : Origin} {i sub : Nat} {data : List Byte} {s : State} {t : State} (h : dictCmd o i sub data s = .next t) : t.mem = s.mem := by
  simp [dictCmd] at h
  simp [← h]
@[simp] theorem State.kdwCommand_mem (s : State) (fn op : Nat) (arg : W32) : (State.kdwCommand s fn op arg).mem = s.mem := by
  grind [State.kdwCommand, State.modKdw_mem, State.submit_mem, State.kdwAbort_mem]
theorem kdwOp_mem {fn op : Nat} {arg : W32} {s : State} {t : State} (h : kdwOp fn op arg s = .next t) : t.mem = s.mem := by
  simp [kdwOp] at h
  simp [← h]
theorem execRead_mem {fn : Nat} {arg : W32} {s : State} {t : State} (h : execRead fn arg s = .next t) : t.mem = s.mem := by
  grind [execRead, kdwOp_mem]
theorem execWrite_mem {fn : Nat} {arg : W32} {s : State} {t : State} (h : execWrite fn arg s = .next t) : t.mem = s.mem := by
  grind [execWrite, kdwOp_mem]
theorem execSegRead_mem {fn : Nat} {arg : W32} {s : State} {t : State} (h : execSegRead fn arg s = .next t) : t.mem = s.mem := by
  grind [execSegRead, kdwOp_mem]
theorem execSegWrite_mem {fn : Nat} {arg : W32} {s : State} {t : State} (h : execSegWrite fn arg s = .next t) : t.mem = s.mem := by
  grind [execSegWrite, kdwOp_mem]
theorem execEndXfer_mem {fn : Nat} {arg : W32} {s : State} {t : State} (h : execEndXfer fn arg s = .next t) : t.mem = s.mem := by
  grind [execEndXfer, kdwOp_mem]
theorem execAbort_mem {fn : Nat} {arg : W32} {s : State} {t : State} (h : execAbort fn arg s = .next t) : t.mem = s.mem := by
  grind [execAbort, kdwOp_mem]
theorem execKdwDataWrite_mem {fn size : Nat} {value : W64} {s : State} {t : State} (h : execKdwDataWrite fn size value s = .next t) : t.mem = s.mem := by
  obtain rfl := Host.Outcome.next.inj h
  refine State.mmioWrite_mem (fun s => ?_) ..
  split <;> simp
theorem execKdwDataRead_mem {fn size : Nat} {s : State} {t : State} (h : execKdwDataRead fn size s = .next t) : t.mem = s.mem := by
  grind [execKdwDataRead, State.emit_mem, State.modKdw_mem]
theorem kdpOp_mem {o : Origin} {op : Nat} {m : KdpMsg} {s : State} {t : State} (h : kdpOp o op m s = .next t) : t.mem = s.mem := by
  simp [kdpOp] at h
  grind [State.emit_mem, State.submit_mem]
theorem execKdpRead_mem {o : Origin} {m : KdpMsg} {s : State} {t : State} (h : execKdpRead o m s = .next t) : t.mem = s.mem := by
  grind [execKdpRead, kdpOp_mem]
theorem execKdpWrite_mem {o : Origin} {m : KdpMsg} {s : State} {t : State} (h : execKdpWrite o m s = .next t) : t.mem = s.mem := by
  grind [execKdpWrite, kdpOp_mem]
theorem execSegReadStart_mem {o : Origin} {m : KdpMsg} {s : State} {t : State} (h : execSegReadStart o m s = .next t) : t.mem = s.mem := by
  grind [execSegReadStart, kdpOp_mem]
theorem execSegWriteStart_mem {o : Origin} {m : KdpMsg} {s : State} {t : State} (h : execSegWriteStart o m s = .next t) : t.mem = s.mem := by
  grind [execSegWriteStart, kdpOp_mem]
theorem execSegData_mem {o : Origin} {m : KdpMsg} {s : State} {t : State} (h : execSegData o m s = .next t) : t.mem = s.mem := by
  grind [execSegData, kdpOp_mem]
theorem execSegEnd_mem {o : Origin} {m : KdpMsg} {s : State} {t : State} (h : execSegEnd o m s = .next t) : t.mem = s.mem := by
  grind [execSegEnd, kdpOp_mem]
theorem execSegAbort_mem {o : Origin} {m : KdpMsg} {s : State} {t : State} (h : execSegAbort o m s = .next t) : t.mem = s.mem := by
  grind [execSegAbort, kdpOp_mem]
theorem execSegTimeout_mem {h : SegHolder} {s : State} {t : State} (h : execSegTimeout h s = .next t) : t.mem = s.mem := by
  simp [execSegTimeout] at h
  grind [State.kdwAbort_mem, State.countAbort_mem]
theorem execKdpResponseExpiry_mem {o : Origin} {tag : Nat} {s : State} {t : State} (h : execKdpResponseExpiry o tag s = .next t) : t.mem = s.mem := by
  simp [execKdpResponseExpiry] at h
  simp [← h]
theorem mctpAnswer_mem {eid binding cmd : Nat} {data : List Byte} {s : State} {t : State} (h : mctpAnswer eid binding cmd data s = .next t) : t.mem = s.mem := by
  grind [mctpAnswer, State.emit_mem]
theorem execSetEndpointId_mem {eid binding newEid : Nat} {s : State} {t : State} (h : execSetEndpointId eid binding newEid s = .next t) : t.mem = s.mem := by
  simp only [execSetEndpointId] at h
  split_ifs at h
  · grind
  · exact mctpAnswer_mem h
  · simpa using mctpAnswer_mem h
theorem execGetEndpointId_mem {eid binding : Nat} {s : State} {t : State} (h : execGetEndpointId eid binding s = .next t) : t.mem = s.mem := by
  grind [execGetEndpointId, mctpAnswer_mem]
theorem execGetMctpVersionSupport_mem {eid binding msgType : Nat} {s : State} {t : State} (h : execGetMctpVersionSupport eid binding msgType s = .next t) : t.mem = s.mem := by
  grind [execGetMctpVersionSupport, mctpAnswer_mem]
theorem execGetMessageTypeSupport_mem {eid binding : Nat} {s : State} {t : State} (h : execGetMessageTypeSupport eid binding s = .next t) : t.mem = s.mem := by
  grind [execGetMessageTypeSupport, mctpAnswer_mem]
theorem execGetVendorDefinedMessageSupport_mem {eid binding selector : Nat} {s : State} {t : State} (h : execGetVendorDefinedMessageSupport eid binding selector s = .next t) : t.mem = s.mem := by
  grind [execGetVendorDefinedMessageSupport, mctpAnswer_mem]
@[simp] theorem State.revert_mem (s : State) : (State.revert s).mem = s.mem := by
  simp [State.revert]
theorem execPersistCommit_mem {verified : Bool} {s : State} {t : State} (h : execPersistCommit verified s = .next t) : t.mem = s.mem := by
  simp only [execPersistCommit] at h
  split_ifs at h <;> obtain rfl := Host.Outcome.next.inj h <;> simp
theorem execFramePeriod_mem {o : Origin} {data : List Byte} {s : State} {t : State} (h : execFramePeriod o data s = .next t) : t.mem = s.mem := by
  grind [execFramePeriod, dictCmd_mem]
theorem execSyncModeSet_mem {o : Origin} {s : State} {t : State} (h : execSyncModeSet o s = .next t) : t.mem = s.mem := by
  grind [execSyncModeSet, dictCmd_mem]
theorem execSyncModeClear_mem {o : Origin} {s : State} {t : State} (h : execSyncModeClear o s = .next t) : t.mem = s.mem := by
  grind [execSyncModeClear, dictCmd_mem]
theorem execT0TaiNs_mem {o : Origin} {data : List Byte} {s : State} {t : State} (h : execT0TaiNs o data s = .next t) : t.mem = s.mem := by
  grind [execT0TaiNs, dictCmd_mem]
theorem instCmd_mem {base n sub : Nat} {o : Origin} {data : List Byte} {s : State} {t : State} (h : instCmd base n sub o data s = .next t) : t.mem = s.mem := by
  grind [instCmd, dictCmd_mem]
theorem execReadyLimit_mem {n : Nat} {o : Origin} {data : List Byte} {s : State} {t : State} (h : execReadyLimit n o data s = .next t) : t.mem = s.mem := by
  grind [execReadyLimit, instCmd_mem]
theorem execCoreFrames_mem {n : Nat} {o : Origin} {data : List Byte} {s : State} {t : State} (h : execCoreFrames n o data s = .next t) : t.mem = s.mem := by
  grind [execCoreFrames, instCmd_mem]
theorem execShare_mem {n kind : Nat} {o : Origin} {data : List Byte} {s : State} {t : State} (h : execShare n kind o data s = .next t) : t.mem = s.mem := by
  grind [execShare, instCmd_mem]
theorem execFabricShare_mem {n : Nat} {o : Origin} {data : List Byte} {s : State} {t : State} (h : execFabricShare n o data s = .next t) : t.mem = s.mem := by
  grind [execFabricShare, instCmd_mem]
theorem execImgStore_mem {n : Nat} {o : Origin} {data : List Byte} {s : State} {t : State} (h : execImgStore n o data s = .next t) : t.mem = s.mem := by
  grind [execImgStore, instCmd_mem]
theorem execSqQuota_mem {n : Nat} {o : Origin} {data : List Byte} {s : State} {t : State} (h : execSqQuota n o data s = .next t) : t.mem = s.mem := by
  grind [execSqQuota, instCmd_mem]
theorem execCqQuota_mem {n : Nat} {o : Origin} {data : List Byte} {s : State} {t : State} (h : execCqQuota n o data s = .next t) : t.mem = s.mem := by
  grind [execCqQuota, instCmd_mem]
theorem execPasid_mem {n : Nat} {o : Origin} {data : List Byte} {s : State} {t : State} (h : execPasid n o data s = .next t) : t.mem = s.mem := by
  grind [execPasid, instCmd_mem]
theorem execPtPages_mem {n : Nat} {o : Origin} {data : List Byte} {s : State} {t : State} (h : execPtPages n o data s = .next t) : t.mem = s.mem := by
  grind [execPtPages, instCmd_mem]
theorem execPtWrite_mem {n : Nat} {o : Origin} {data : List Byte} {s : State} {t : State} (h : execPtWrite n o data s = .next t) : t.mem = s.mem := by
  grind [execPtWrite, instCmd_mem]
theorem execRegions_mem {n : Nat} {o : Origin} {data : List Byte} {s : State} {t : State} (h : execRegions n o data s = .next t) : t.mem = s.mem := by
  grind [execRegions, instCmd_mem]
theorem execCcWays_mem {n : Nat} {hi : Bool} {o : Origin} {data : List Byte} {s : State} {t : State} (h : execCcWays n hi o data s = .next t) : t.mem = s.mem := by
  grind [execCcWays, instCmd_mem]
theorem execCcLock_mem {n : Nat} {hi : Bool} {o : Origin} {data : List Byte} {s : State} {t : State} (h : execCcLock n hi o data s = .next t) : t.mem = s.mem := by
  grind [execCcLock, instCmd_mem]
theorem execClean_mem {n : Nat} {o : Origin} {s : State} {t : State} (h : execClean n o s = .next t) : t.mem = s.mem := by
  grind [execClean, instCmd_mem]
theorem execCleanInval_mem {n : Nat} {o : Origin} {s : State} {t : State} (h : execCleanInval n o s = .next t) : t.mem = s.mem := by
  grind [execCleanInval, instCmd_mem]
theorem execDirtyCtl_mem {n : Nat} {o : Origin} {data : List Byte} {s : State} {t : State} (h : execDirtyCtl n o data s = .next t) : t.mem = s.mem := by
  grind [execDirtyCtl, instCmd_mem]
theorem instCmdAt_mem {n code : Nat} {o : Origin} {t : Nat} {s : State} {t' : State} (h : instCmdAt n code o t s = .next t') : t'.mem = s.mem := by
  grind [instCmdAt, instCmd_mem, State.atNs_mem]
theorem execEnable_mem {n : Nat} {o : Origin} {t : Nat} {s : State} {t' : State} (h : execEnable n o t s = .next t') : t'.mem = s.mem := by
  grind [execEnable, instCmdAt_mem]
theorem execDisable_mem {n : Nat} {o : Origin} {t : Nat} {s : State} {t' : State} (h : execDisable n o t s = .next t') : t'.mem = s.mem := by
  grind [execDisable, instCmdAt_mem]
theorem execReset_mem {n : Nat} {o : Origin} {t : Nat} {s : State} {t' : State} (h : execReset n o t s = .next t') : t'.mem = s.mem := by
  grind [execReset, instCmdAt_mem]
theorem execFreezeDrain_mem {n : Nat} {o : Origin} {t : Nat} {s : State} {t' : State} (h : execFreezeDrain n o t s = .next t') : t'.mem = s.mem := by
  grind [execFreezeDrain, instCmdAt_mem]
theorem execFreezeAbort_mem {n : Nat} {o : Origin} {t : Nat} {s : State} {t' : State} (h : execFreezeAbort n o t s = .next t') : t'.mem = s.mem := by
  grind [execFreezeAbort, instCmdAt_mem]
theorem execThaw_mem {n : Nat} {o : Origin} {t : Nat} {s : State} {t' : State} (h : execThaw n o t s = .next t') : t'.mem = s.mem := by
  grind [execThaw, instCmdAt_mem]
theorem execStateImage_mem {n : Nat} {o : Origin} {data : List Byte} {s : State} {t : State} (h : execStateImage n o data s = .next t) : t.mem = s.mem := by
  grind [execStateImage, instCmd_mem]
theorem execRetire_mem {die : Nat} {o : Origin} {data : List Byte} {s : State} {t : State} (h : execRetire die o data s = .next t) : t.mem = s.mem := by
  grind [execRetire, dictCmd_mem]
theorem execSaddleEnable_mem {o : Origin} {s : State} {t : State} (h : execSaddleEnable o s = .next t) : t.mem = s.mem := by
  grind [execSaddleEnable, dictCmd_mem]
theorem execSaddleDisable_mem {o : Origin} {s : State} {t : State} (h : execSaddleDisable o s = .next t) : t.mem = s.mem := by
  grind [execSaddleDisable, dictCmd_mem]
theorem execDieFence_mem {o : Origin} {data : List Byte} {t : Nat} {s : State} {t' : State} (h : execDieFence o data t s = .next t') : t'.mem = s.mem := by
  grind [execDieFence, dictCmd_mem, State.atNs_mem]
theorem portCmd_mem {port cmd : Nat} {o : Origin} {s : State} {t : State} (h : portCmd port cmd o s = .next t) : t.mem = s.mem := by
  grind [portCmd, dictCmd_mem]
theorem execPortDisable_mem {port : Nat} {o : Origin} {s : State} {t : State} (h : execPortDisable port o s = .next t) : t.mem = s.mem := by
  grind [execPortDisable, portCmd_mem]
theorem execPortEnable_mem {port : Nat} {o : Origin} {s : State} {t : State} (h : execPortEnable port o s = .next t) : t.mem = s.mem := by
  grind [execPortEnable, portCmd_mem]
theorem execDeviceId_mem {o : Origin} {data : List Byte} {s : State} {t : State} (h : execDeviceId o data s = .next t) : t.mem = s.mem := by
  grind [execDeviceId, dictCmd_mem]
theorem execPortMode_mem {o : Origin} {data : List Byte} {s : State} {t : State} (h : execPortMode o data s = .next t) : t.mem = s.mem := by
  grind [execPortMode, dictCmd_mem]
theorem execVfVectors_mem {o : Origin} {data : List Byte} {s : State} {t : State} (h : execVfVectors o data s = .next t) : t.mem = s.mem := by
  grind [execVfVectors, dictCmd_mem]
theorem execLogAck_mem {o : Origin} {data : List Byte} {s : State} {t : State} (h : execLogAck o data s = .next t) : t.mem = s.mem := by
  grind [execLogAck, dictCmd_mem]
theorem execLogMode_mem {o : Origin} {data : List Byte} {s : State} {t : State} (h : execLogMode o data s = .next t) : t.mem = s.mem := by
  grind [execLogMode, dictCmd_mem]
theorem execLogRead_mem {o : Origin} {s : State} {t : State} (h : execLogRead o s = .next t) : t.mem = s.mem := by
  simp [execLogRead] at h
  simp [← h]
theorem execCalTime_mem {o : Origin} {data : List Byte} {s : State} {t : State} (h : execCalTime o data s = .next t) : t.mem = s.mem := by
  grind [execCalTime, dictCmd_mem]
theorem execCalState_mem {o : Origin} {data : List Byte} {s : State} {t : State} (h : execCalState o data s = .next t) : t.mem = s.mem := by
  grind [execCalState, dictCmd_mem]
theorem execQuoteReq_mem {n : Nat} {o : Origin} {data : List Byte} {s : State} {t : State} (h : execQuoteReq n o data s = .next t) : t.mem = s.mem := by
  grind [execQuoteReq, instCmd_mem]
theorem execMeasExtend_mem {o : Origin} {data : List Byte} {s : State} {t : State} (h : execMeasExtend o data s = .next t) : t.mem = s.mem := by
  grind [execMeasExtend, dictCmd_mem]
theorem execImeasExtend_mem {n : Nat} {o : Origin} {data : List Byte} {s : State} {t : State} (h : execImeasExtend n o data s = .next t) : t.mem = s.mem := by
  grind [execImeasExtend, instCmd_mem]
theorem execSvnRaise_mem {o : Origin} {data : List Byte} {s : State} {t : State} (h : execSvnRaise o data s = .next t) : t.mem = s.mem := by
  grind [execSvnRaise, dictCmd_mem]
theorem execFwStage_mem {o : Origin} {data : List Byte} {s : State} {t : State} (h : execFwStage o data s = .next t) : t.mem = s.mem := by
  grind [execFwStage, dictCmd_mem]
theorem execFwSwitch_mem {o : Origin} {data : List Byte} {s : State} {t : State} (h : execFwSwitch o data s = .next t) : t.mem = s.mem := by
  grind [execFwSwitch, dictCmd_mem]
theorem execWarmReset_mem {o : Origin} {data : List Byte} {s : State} {t : State} (h : execWarmReset o data s = .next t) : t.mem = s.mem := by
  grind [execWarmReset, dictCmd_mem]
theorem execEvtAck_mem {c : EvtCh} {s : State} {t : State} (h : execEvtAck c s = .next t) : t.mem = s.mem := by
  cases c with
  | dict o data => exact dictCmd_mem h
  | reg n value =>
    simp only [execEvtAck] at h
    split_ifs at h <;> obtain rfl := Host.Outcome.next.inj h <;> simp
theorem execEvtMask_mem {c : EvtCh} {s : State} {t : State} (h : execEvtMask c s = .next t) : t.mem = s.mem := by
  cases c with
  | dict o data => exact dictCmd_mem h
  | reg n value =>
    simp only [execEvtMask] at h
    split_ifs at h <;> obtain rfl := Host.Outcome.next.inj h <;> simp
theorem execEventHoldoffEnd_mem {g : Nat} {s : State} {t : State} (h : execEventHoldoffEnd g s = .next t) : t.mem = s.mem := by
  grind [execEventHoldoffEnd, State.signalGroup_mem]
theorem execDictWrite_mem {o : Origin} {index sub : Nat} {data : List Byte} {t : Nat} {s : State} {t' : State} (h : execDictWrite o index sub data t s = .next t') : t'.mem = s.mem := by
  grind [execDictWrite, dictCmd_mem, State.atNs_mem]
@[simp] theorem State.splitCheck_mem (s : State) (j : Job) (D : Dist) : (State.splitCheck s j D).mem = s.mem := by
  unfold State.splitCheck
  split <;> simp
@[simp] theorem State.advanceParts_mem (s : State) : (State.advanceParts s).mem = s.mem := by
  simp [State.advanceParts]
@[simp] theorem State.closeIdle_mem (s : State) (j : Job) : (State.closeIdle s j).mem = s.mem := by
  rfl
@[simp] theorem State.issueGrants_mem (s : State) (gs : List Claim) : (State.issueGrants s gs).mem = s.mem := by
  simp [State.issueGrants]
@[simp] theorem State.sendRt_mem (s : State) (p : Nat) (control : Bool) (x : RtPkt) : (State.sendRt s p control x).mem = s.mem := by
  rfl
@[simp] theorem State.takeGrant_mem (s : State) (g : Claim) : (State.takeGrant s g).1.mem = s.mem := by
  unfold State.takeGrant
  split <;> simp
@[simp] theorem State.resendOne_mem (s : State) (r : Nat × Nat × Nat) : (State.resendOne s r).mem = s.mem := by
  grind [State.resendOne, State.sendRt_mem, State.modPort_mem]
@[simp] theorem State.resendDue_mem (s : State) : (State.resendDue s).mem = s.mem := by
  simp [State.resendDue]
@[simp] theorem State.ageFabric_mem (s : State) : (State.ageFabric s).mem = s.mem := by
  rfl
@[simp] theorem State.stepFabric_mem (s : State) : (State.stepFabric s).mem = s.mem := by
  have hcut : ∀ (l : List Claim) (acc : State × List RtPkt × List Claim), (l.foldl (fun (acc : State × List RtPkt × List Claim) g =>
      let t := acc.1.takeGrant g
      (t.1, acc.2.1 ++ t.2.1, acc.2.2 ++ [t.2.2])) acc).1.mem = acc.1.mem := by
    intro l
    induction l with
    | nil => exact fun _ => rfl
    | cons g l ih =>
      intro acc
      rw [List.foldl_cons, ih, State.takeGrant_mem]
  simp only [State.stepFabric]
  split_ifs <;> simp [hcut]
@[simp] theorem State.leaveExchange_mem (s : State) : (State.leaveExchange s).mem = s.mem := by
  simp [State.leaveExchange]
@[simp] theorem State.stepPorts_mem (s : State) : (State.stepPorts s).mem = s.mem := by
  simp only [State.stepPorts]
  split_ifs
  · rfl
  · refine State.foldl_mem (fun s p => ?_) _ _
    split_ifs <;> simp
@[simp] theorem State.fabricBoundary_mem (s : State) : (State.fabricBoundary s).mem = s.mem := by
  grind [State.fabricBoundary, State.stepPorts_mem, State.stepFabric_mem, State.leaveExchange_mem, State.raise_mem]
@[simp] theorem State.countDrop_mem (s : State) (p k : Nat) : (State.countDrop s p k).mem = s.mem := by
  rfl
@[simp] theorem State.configClash_mem (s : State) (dev cause : Nat) : (State.configClash s dev cause).mem = s.mem := by
  unfold State.configClash
  split <;> simp
theorem State.rtDropped_mem {s : State} {port : Nat} {control : Bool} {p : Sys2Proof.RtPkt} {t : State} (h : State.rtDropped s port control p = some t) : t.mem = s.mem := by
  grind [State.rtDropped, State.countDrop_mem, State.configClash_mem]
@[simp] theorem State.countRx_mem (s : State) (port : Nat) : (State.countRx s port).mem = s.mem := by
  rfl
@[simp] theorem State.land_mem (s : State) (p : Sys2Proof.RtPkt) : (State.land s p).mem = s.mem := by
  unfold State.land
  repeat' split
  all_goals simp
theorem execData_mem {port : Nat} {p : RtPkt} {s : State} {t : State} (h : execData port p s = .next t) : t.mem = s.mem := by
  grind [execData, State.rtDropped_mem, State.countStale_mem, State.countDrop_mem, State.land_mem, State.countRx_mem]
@[simp] theorem State.takeEntry_mem (s : State) (dev frame : Nat) (inTime : Bool) (e : CtlEntry) : (State.takeEntry s dev frame inTime e).mem = s.mem := by
  unfold State.takeEntry
  repeat' split
  all_goals simp
@[simp] theorem State.takeEcho_mem (s : State) (dev frame part parts : Nat) (es : List CtlEntry) : (State.takeEcho s dev frame part parts es).mem = s.mem := by
  unfold State.takeEcho
  split <;> simp
theorem execControl_mem {port : Nat} {p : RtPkt} {t : Nat} {s : State} {t' : State} (h : execControl port p t s = .next t') : t'.mem = s.mem := by
  simp only [execControl] at h
  split_ifs at h
  · obtain rfl := Host.Outcome.next.inj h
    rfl
  · split at h <;> obtain rfl := Host.Outcome.next.inj h
    · next hdrop => simpa using State.rtDropped_mem hdrop
    · simp
theorem execFabricLoss_mem {jid : Nat} {s : State} {t : State} (h : execFabricLoss jid s = .next t) : t.mem = s.mem := by
  grind [execFabricLoss, State.modJob_mem, State.raise_mem]
theorem execJoinTimeout_mem {jid : Nat} {s : State} {t : State} (h : execJoinTimeout jid s = .next t) : t.mem = s.mem := by
  grind [execJoinTimeout, State.modJob_mem]
theorem execControlPacketsMissing_mem {djid : W64} {dev : Nat} {s : State} {t : State} (h : execControlPacketsMissing djid dev s = .next t) : t.mem = s.mem := by
  grind [execControlPacketsMissing, State.modDist_mem]
theorem execPortDown_mem {port : Nat} {s : State} {t : State} (h : execPortDown port s = .next t) : t.mem = s.mem := by
  grind [execPortDown, State.raise_mem, State.modPort_mem]
theorem execPortUp_mem {port : Nat} {s : State} {t : State} (h : execPortUp port s = .next t) : t.mem = s.mem := by
  grind [execPortUp, State.raise_mem, State.modPort_mem]
theorem execNeighborSolicitation_mem {port : Option Nat} {target : BitVec 128} {s : State} {t : State} (h : execNeighborSolicitation port target s = .next t) : t.mem = s.mem := by
  grind [execNeighborSolicitation, State.emit_mem]
theorem execEchoRequest_mem {port : Option Nat} {target : BitVec 128} {body : List Byte} {s : State} {t : State} (h : execEchoRequest port target body s = .next t) : t.mem = s.mem := by
  grind [execEchoRequest, State.emit_mem]
theorem execArithTrapDelivery_mem {f : FId} {s : State} {t : State} (h : execArithTrapDelivery f s = .next t) : t.mem = s.mem := by
  grind [execArithTrapDelivery, State.takeArith_mem]
@[simp] theorem State.park_mem (s : State) (f : FId) (r : FRegs) : (State.park s f r).1.mem = s.mem := by
  rfl
@[simp] theorem State.mbxDrop_mem (s : State) (n : Nat) (pf : Bool) (k : Nat) : (State.mbxDrop s n pf k).mem = s.mem := by
  rfl
@[simp] theorem State.mbxPost_mem (s : State) (n : Nat) (pf : Bool) (v : BitVec 8) : (State.mbxPost s n pf v).mem = s.mem := by
  grind [State.mbxPost, State.mbxDrop_mem, State.modMbx_mem, State.mbxSignal_mem]
@[simp] theorem State.mbxAck_mem (s : State) (n : Nat) (pf : Bool) (v : BitVec 8) : (State.mbxAck s n pf v).mem = s.mem := by
  grind [State.mbxAck, State.mbxDrop_mem, State.mbxSignal_mem, State.modMbx_mem]
@[simp] theorem State.mbxWrite_mem (s : State) (n : Nat) (pf : Bool) (slot : Nat) (mask val : BitVec 512) : (State.mbxWrite s n pf slot mask val).mem = s.mem := by
  grind [State.mbxWrite, State.mbxDrop_mem, State.modMbx_mem]
@[simp] theorem State.mbxPostReg_mem (s : State) (fn n : Nat) (v : W64) : (State.mbxPostReg s fn n v).mem = s.mem := by
  unfold State.mbxPostReg
  split <;> simp
@[simp] theorem State.mbxStatReg_mem (s : State) (fn n : Nat) (v : W64) : (State.mbxStatReg s fn n v).mem = s.mem := by
  unfold State.mbxStatReg
  repeat' split
  all_goals simp
@[simp] theorem State.mbxCtrlReg_mem (s : State) (fn n : Nat) (mask v : W64) : (State.mbxCtrlReg s fn n mask v).mem = s.mem := by
  unfold State.mbxCtrlReg
  split <;> simp
theorem execMbxPost_mem {fn n size : Nat} {value : W64} {s : State} {t : State} (h : execMbxPost fn n size value s = .next t) : t.mem = s.mem := by
  simp only [execMbxPost] at h
  split_ifs at h <;> obtain rfl := Host.Outcome.next.inj h <;> simp
theorem execMbxAck_mem {fn n size : Nat} {value : W64} {s : State} {t : State} (h : execMbxAck fn n size value s = .next t) : t.mem = s.mem := by
  simp only [execMbxAck] at h
  split_ifs at h <;> obtain rfl := Host.Outcome.next.inj h <;> simp
theorem execStatHold_mem {fn : Nat} {value : W64} {s : State} {t : State} (h : execStatHold fn value s = .next t) : t.mem = s.mem := by
  simp [execStatHold] at h
  simp [← h]
theorem execStatHoldExpired_mem {fn : Nat} {s : State} {t : State} (h : execStatHoldExpired fn s = .next t) : t.mem = s.mem := by
  grind [execStatHoldExpired, State.raise_mem, State.modInst_mem]
@[simp] theorem State.aqAddr_mem (s : State) (fn : Nat) (rsv mask v : W64) (set : AdminRegs → (W64 → W64) → AdminRegs) : (State.aqAddr s fn rsv mask v set).mem = s.mem := by
  unfold State.aqAddr
  split <;> simp

@[simp] theorem State.writeGlobal_mem (s : State) (fn off size : Nat) (value : W64) : (State.writeGlobal s fn off size value).mem = s.mem := by
  simp only [State.writeGlobal]
  split_ifs <;> simp [outState_mem execAqCfg_mem]
@[simp] theorem State.writeKdw_mem (s : State) (fn o size : Nat) (value : W64) : (State.writeKdw s fn o size value).mem = s.mem := by
  simp only [State.writeKdw]
  split_ifs <;> simp [outState_mem execKdwDataWrite_mem]
@[simp] theorem State.writeMsix_mem (s : State) (fn off size : Nat) (value : W64) : (State.writeMsix s fn off size value).mem = s.mem := by
  grind [State.writeMsix, State.modInst_mem, State.sendMsix_mem]
@[simp] theorem State.writeDie_mem (s : State) (off size : Nat) (value : W64) : (State.writeDie s off size value).mem = s.mem := by
  simp only [State.writeDie]
  split
  · simp
  · split_ifs <;> simp [outState_mem execCcCtl_mem, outState_mem execPowerDown_mem, outState_mem execPowerUp_mem, outState_mem execWayEnable_mem]
@[simp] theorem State.writeMbx_mem (s : State) (fn n o off size : Nat) (value : W64) : (State.writeMbx s fn n o off size value).mem = s.mem := by
  unfold State.writeMbx
  repeat' split
  all_goals simp
@[simp] theorem State.writeSlot_mem (s : State) (n : Nat) (pf : Bool) (o off size : Nat) (value : W64) : (State.writeSlot s n pf o off size value).mem = s.mem := by
  unfold State.writeSlot
  split <;> simp
@[simp] theorem State.writeStat_mem (s : State) (fn o size : Nat) (value : W64) : (State.writeStat s fn o size value).mem = s.mem := by
  grind [State.writeStat, State.rsvdIf_mem, State.modInst_mem]
@[simp] theorem State.writePf_mem (s : State) (off size : Nat) (value : W64) : (State.writePf s off size value).mem = s.mem := by
  simp only [State.writePf]
  refine State.ite_mem (State.writeGlobal_mem ..) <| State.ite_mem (State.writeKdw_mem ..) <| State.ite_mem (State.writeMsix_mem ..) <|
    State.ite_mem rfl <| State.ite_mem (State.ackEvents_mem ..) <| State.ite_mem (State.setMask_mem ..) <|
    State.ite_mem (State.rsvdIf_mem ..) <|
    State.ite_mem (State.ite_mem (outState_mem execSqTailDoorbell_mem) (State.rsvdIf_mem ..)) <|
    State.ite_mem (State.ite_mem (outState_mem execCqHeadDoorbell_mem) (State.rsvdIf_mem ..)) <|
    State.ite_mem (State.writeSlot_mem ..) <| State.ite_mem (State.writeMbx_mem ..) <|
    State.ite_mem (State.writeStat_mem ..) (State.writeDie_mem ..)
@[simp] theorem State.writeVf_mem (s : State) (fn off size : Nat) (value : W64) : (State.writeVf s fn off size value).mem = s.mem := by
  simp only [State.writeVf]
  split_ifs <;> simp [outState_mem execSqTailDoorbell_mem, outState_mem execCqHeadDoorbell_mem]
theorem execRegisterWrite_mem {fn off size : Nat} {value : W64} {s : State} {t : State} (h : execRegisterWrite fn off size value s = .next t) : t.mem = s.mem := by
  obtain rfl := Host.Outcome.next.inj h
  refine State.mmioWrite_mem (fun s => ?_) ..
  split_ifs <;> simp
@[simp] theorem State.flrFunction_mem (s : State) (fn : Nat) : (State.flrFunction s fn).mem = s.mem := by
  grind [State.flrFunction, State.kdwAbort_mem, State.modInst_mem]
@[simp] theorem State.flrMailboxes_mem (s : State) : (State.flrMailboxes s).mem = s.mem := by
  rfl
@[simp] theorem State.stageRemovals_mem (s : State) (gone : List Nat) : (State.stageRemovals s gone).mem = s.mem := by
  simp [State.stageRemovals]
@[simp] theorem State.flrInstance_mem (s : State) (n : Nat) : (State.flrInstance s n).mem = s.mem := by
  exact Option.getD_mem State.instCommand_mem
@[simp] theorem State.flr_mem (s : State) (fn : Nat) : (State.flr s fn).mem = s.mem := by
  unfold State.flr
  repeat' split
  all_goals simp
theorem execFlr_mem {fn t : Nat} {s : State} {t' : State} (h : execFlr fn t s = .next t') : t'.mem = s.mem := by
  grind [execFlr, State.flr_mem, State.atNs_mem]
theorem execD3hotToD0_mem {fn t : Nat} {s : State} {t' : State} (h : execD3hotToD0 fn t s = .next t') : t'.mem = s.mem := by
  grind [execD3hotToD0, State.flr_mem, State.modInst_mem, State.atNs_mem]
theorem execD0ToD3hot_mem {fn : Nat} {s : State} {t : State} (h : execD0ToD3hot fn s = .next t) : t.mem = s.mem := by
  grind [execD0ToD3hot, State.modInst_mem]
theorem execPcieHotReset_mem {t : Nat} {s : State} {t' : State} (h : execPcieHotReset t s = .next t') : t'.mem = s.mem := by
  simp only [execPcieHotReset] at h
  split_ifs at h <;> obtain rfl := Host.Outcome.next.inj h
  · rfl
  · rw [State.foldl_mem]
    · simp
    · intro s n
      dsimp only
      split_ifs <;> simp
theorem execVfEnable_mem {on : Bool} {numVfs t : Nat} {s : State} {t' : State} (h : execVfEnable on numVfs t s = .next t') : t'.mem = s.mem := by
  simp only [execVfEnable] at h
  split_ifs at h <;> obtain rfl := Host.Outcome.next.inj h <;> simp
theorem execAtsInvalidation_mem {n iova len : Nat} {s : State} {t : State} (h : execAtsInvalidation n iova len s = .next t) : t.mem = s.mem := by
  grind [execAtsInvalidation, State.emit_mem]
theorem execLinkDown_mem {s : State} {t : State} (h : execLinkDown s = .next t) : t.mem = s.mem := by
  grind [execLinkDown, State.raise_mem]
theorem execLinkUp_mem {width speed ms : Nat} {s : State} {t : State} (h : execLinkUp width speed ms s = .next t) : t.mem = s.mem := by
  grind [execLinkUp, State.elapse_mem, State.raise_mem]
@[simp] theorem State.hostRefuses_mem (s : State) (n : Nat) (x0 : HostAccess) : (State.hostRefuses s n x0).mem = s.mem := by
  unfold State.hostRefuses
  repeat' split
  all_goals simp
theorem execHostCompletion_mem {n : Nat} {gen : BitVec 16} {a : HostAccess} {c : HostCpl} {s : State} {t : State} (h : execHostCompletion n gen a c s = .next t) : t.mem = s.mem := by
  simp [execHostCompletion] at h
  grind [State.countStale_mem, State.hostRefuses_mem]
theorem execPerstAssert_mem {s : State} {t : State} (h : execPerstAssert s = .next t) : t.mem = s.mem := by
  grind [execPerstAssert]
theorem execMainPowerOn_mem {s : State} {t : State} (h : execMainPowerOn s = .next t) : t.mem = s.mem := by
  grind [execMainPowerOn]
theorem execMainPowerOff_mem {cut : CommitCut} {s : State} {t : State} (h : execMainPowerOff cut s = .next t) : t.mem = s.mem := by
  grind [execMainPowerOff, State.drawn_mem]
theorem execCalendarStop_mem {s : State} {t : State} (h : execCalendarStop s = .next t) : t.mem = s.mem := by
  grind [execCalendarStop]
@[simp] theorem State.recordImeas_mem (s : State) : (State.recordImeas s).mem = s.mem := by
  simp [State.recordImeas]
@[simp] theorem State.failBringup_mem (s : State) (cause : Nat) : (State.failBringup s cause).mem = s.mem := by
  rfl
@[simp] theorem State.bringFenced_mem (s : State) (d : Nat) : (State.bringFenced s d).mem = s.mem := by
  unfold State.bringFenced
  split <;> simp
@[simp] theorem State.fenceFailed_mem (s : State) (ds : List Nat) : (State.fenceFailed s ds).mem = s.mem := by
  simp only [State.fenceFailed]
  split_ifs <;> simp
@[simp] theorem State.bootKeeper_mem (s : State) : (State.bootKeeper s).mem = s.mem := by
  grind [State.bootKeeper, State.extendMeas_mem, State.fwCheck_mem, State.raise_mem, State.failBringup_mem]
@[simp] theorem State.validateRwp_mem (s : State) : (State.validateRwp s).mem = s.mem := by
  grind [State.validateRwp, State.audit_mem, State.raise_mem]
@[simp] theorem State.restartCalendar_mem (s : State) : (State.restartCalendar s).mem = s.mem := by
  unfold State.restartCalendar
  split <;> simp
@[simp] theorem State.startKeeper_mem (s : State) : (State.startKeeper s).mem = s.mem := by
  simp [State.startKeeper]
@[simp] theorem State.bringSaddle_mem (s : State) (report : Option (List Byte)) : (State.bringSaddle s report).mem = s.mem := by
  unfold State.bringSaddle
  repeat' split
  all_goals simp
@[simp] theorem State.bringFgrs_mem (s : State) (bad : List FId) : (State.bringFgrs s bad).mem = s.mem := by
  simp only [State.bringFgrs]
  split_ifs <;> simp
@[simp] theorem State.loadRuntime_mem (s : State) : (State.loadRuntime s).mem = s.mem := by
  grind [State.loadRuntime, State.fwCheck_mem, State.failBringup_mem, State.extendMeas_mem]
@[simp] theorem State.startFrames_mem (s : State) : (State.startFrames s).mem = s.mem := by
  rfl
@[simp] theorem State.becomeReady_mem (s : State) : (State.becomeReady s).mem = s.mem := by
  simp [State.becomeReady]
@[simp] theorem State.bringupStep_mem (s : State) (k : Nat) (e : BringupEnv) : (State.bringupStep s k e).mem = s.mem := by
  unfold State.bringupStep
  split <;> simp
theorem execBringupStepComplete_mem {e : BringupEnv} {s : State} {t : State} (h : execBringupStepComplete e s = .next t) : t.mem = s.mem := by
  grind [execBringupStepComplete, State.bringupStep_mem, State.elapse_mem]
theorem execBringupTimeout_mem {s : State} {t : State} (h : execBringupTimeout s = .next t) : t.mem = s.mem := by
  grind [execBringupTimeout, State.failBringup_mem]
theorem execRailFault_mem {rail : Nat} {s : State} {t : State} (h : execRailFault rail s = .next t) : t.mem = s.mem := by
  grind [execRailFault, State.raise_mem, State.failBringup_mem, State.deviceError_mem]
theorem execThermalSample_mem {temps : List Int} {s : State} {t : State} (h : execThermalSample temps s = .next t) : t.mem = s.mem := by
  grind [execThermalSample]
theorem execThrottleStepUp_mem {s : State} {t : State} (h : execThrottleStepUp s = .next t) : t.mem = s.mem := by
  grind [execThrottleStepUp]
theorem execKeeperWatchdog_mem {s : State} {t : State} (h : execKeeperWatchdog s = .next t) : t.mem = s.mem := by
  grind [execKeeperWatchdog, State.abortSessions_mem]
theorem execKeeperRestart_mem {s : State} {t : State} (h : execKeeperRestart s = .next t) : t.mem = s.mem := by
  grind [execKeeperRestart, State.raise_mem, State.deviceError_mem, State.serveHeld_mem]
theorem execFwSwitchFail_mem {s : State} {t : State} (h : execFwSwitchFail s = .next t) : t.mem = s.mem := by
  grind [execFwSwitchFail, State.raise_mem, State.serveHeld_mem]
theorem execPtpMessage_mem {offsetNs : Int} {s : State} {t : State} (h : execPtpMessage offsetNs s = .next t) : t.mem = s.mem := by
  grind [execPtpMessage, State.raise_mem]
theorem execLockingComplete_mem {taiNs : Nat} {s : State} {t : State} (h : execLockingComplete taiNs s = .next t) : t.mem = s.mem := by
  grind [execLockingComplete]
theorem execEnterHoldover_mem {s : State} {t : State} (h : execEnterHoldover s = .next t) : t.mem = s.mem := by
  grind [execEnterHoldover, State.raise_mem]
theorem execRelock_mem {s : State} {t : State} (h : execRelock s = .next t) : t.mem = s.mem := by
  grind [execRelock]
theorem execCalDiscipline_mem {taiSec : Nat} {utcOffset : Option Nat} {s : State} {t : State} (h : execCalDiscipline taiSec utcOffset s = .next t) : t.mem = s.mem := by
  grind [execCalDiscipline]
@[simp] theorem State.countOverrun_mem (s : State) (cycles : Nat) (throttled : Bool) (x : Nat × Morsel) : (State.countOverrun s cycles throttled x).mem = s.mem := by
  rfl
@[simp] theorem State.countOverruns_mem (s : State) (cycles : Nat) (throttled : Bool) (xs : List (Nat × Morsel)) : (State.countOverruns s cycles throttled xs).mem = s.mem := by
  simp [State.countOverruns]
@[simp] theorem State.evictBeyond_mem (s : State) : (State.evictBeyond s).mem = s.mem := by
  refine State.foldl_mem (fun s d => ?_) _ _
  dsimp only
  split_ifs <;> simp
@[simp] theorem State.stepClock_mem (s : State) : (State.stepClock s).mem = s.mem := by
  grind [State.stepClock, State.drawn_mem, State.raise_mem]
@[simp] theorem State.recordNow_mem (s : State) : (State.recordNow s).mem = s.mem := by
  rfl
@[simp] theorem State.stepStats_mem (s : State) (cycles : Nat) : (State.stepStats s cycles).mem = s.mem := by
  simp [State.stepStats]
@[simp] theorem State.settleInst_mem (s : State) (n : Nat) : (State.settleInst s n).mem = s.mem := by
  unfold State.settleInst
  repeat' split
  all_goals simp
@[simp] theorem State.stepResources_mem (s : State) : (State.stepResources s).mem = s.mem := by
  simp [State.stepResources]
@[simp] theorem State.openFrame_mem (s : State) : (State.openFrame s).mem = s.mem := by
  grind [State.openFrame, State.raise_mem]
@[simp] theorem State.stepSwitch_mem (s : State) : (State.stepSwitch s).mem = s.mem := by
  grind [State.stepSwitch, State.abortSessions_mem, State.extendMeas_mem, State.raise_mem, State.serveHeld_mem]
@[simp] theorem State.dropDead_mem (s : State) : (State.dropDead s).mem = s.mem := by
  simp [State.dropDead]
@[simp] theorem State.openCounts_mem (s : State) : (State.openCounts s).mem = s.mem := by
  rfl
@[simp] theorem State.placeDesc_mem (s : State) (d : Nat) (m : Morsel) (origin frag : Nat) (last : Bool) (desc : List Byte) (bufs : List (Nat × Nat)) : (State.placeDesc s d m origin frag last desc bufs).mem = s.mem := by
  simp [State.placeDesc]
theorem execAmuSweepStep_mem {die : Nat} {s : State} {t : State} (h : execAmuSweepStep die s = .next t) : t.mem = s.mem := by
  grind [execAmuSweepStep, State.raiseDie_mem, State.modAmu_mem]
theorem streamWork_mem {u : UId} {s : State} {y0 : Job} {st : Stage} {m : Morsel} {t : State} (h : streamWork u s y0 st m = .ok t) : t.mem = s.mem := by
  simp [streamWork, bind_eq_ok] at h
  grind [State.setCtx_mem]
@[simp] theorem State.closeRoot_mem (s : State) (jid k : Nat) : (State.closeRoot s jid k).mem = s.mem := by
  simp only [State.closeRoot]
  split
  · rfl
  split
  · rfl
  split_ifs
  · split
    · simp
    · split_ifs <;> simp
  · rfl
theorem execResultDigestChunk_mem {u : UId} {jid buffer : Nat} {s : State} {t : State} (h : execResultDigestChunk u jid buffer s = .next t) : t.mem = s.mem := by
  simp only [execResultDigestChunk] at h
  split at h
  · grind
  split at h
  · grind
  split at h
  · grind
  split at h
  · grind
  next s1 hopen =>
    have h1 : s1.mem = s.mem := by
      split at hopen
      · grind
      · obtain ⟨c, -, rfl⟩ := Option.map_eq_some_iff.1 hopen
        simp
    split at h
    · split at h <;> obtain rfl := Host.Outcome.next.inj h <;> simp [h1]
    · obtain rfl := Host.Outcome.next.inj h
      simp [h1]
end Sys2Proof.Machine
end

section
/-!
PROOFS. The Saddle port (R35, R36, R275).
-/

namespace Sys2Proof.Machine

-- THE SADDLE PORT -----------------------------------------------------------------------------------------------------------------------------

section
variable {f : FId} {word : W32} {s : State} {g : Fgr} {rd : BitVec 5} {r : SaddleReq} {gen : BitVec 16} {m : Morsel}

theorem saddleOp_refused (hr : s.Runs f g) (hw : 0x74 ≤ word.toNat % 128) (ht : s.saddleTakes = false) :
    exec (.saddleOp f word) s = .next (s.preciseTrap f g.regs 0x04 (word.setWidth 64)) := by
  rw [exec_saddleOp, execSaddleOp, if_neg (Nat.not_lt.2 hw)]
  exact runFgr_refused hr (by simp [ht])

theorem saddleOp_done (hr : s.Runs f g) (hw : 0x74 ≤ word.toNat % 128) (ht : s.saddleTakes = true) :
    let n := match g.morsel with | some m => m.inst | none => 0
    let gen := match g.morsel with | some m => m.gen | none => (s.instD 0).gen
    exec (.saddleOp f word) s = .next (({ s with
      out := s.out ++ [.saddle word (g.regs.rg (word.extractLsb' 12 5)) (g.regs.rg (word.extractLsb' 17 5)) n gen]
      saddle := { s.saddle with inflight := s.saddle.inflight ++ [{ who := f, inst := n, gen := gen }] } } : State).modFgr f fun h =>
        { h with run := .saddle (word.extractLsb' 7 5) }) := by
  rw [exec_saddleOp, execSaddleOp, if_neg (Nat.not_lt.2 hw), runFgr_body hr (by simp [ht])]
  cases g.morsel <;> rfl

theorem saddleResponse_stale (hr : s.saddle.inflight.find? (fun r => r.who == f && r.gen == gen) = some r) (hg : gen ≠ (s.instD r.inst).gen)
    (value : W64) (err : Bool) : exec (.saddleResponse f gen value err) s =
      .next (({ s with saddle := { s.saddle with inflight := s.saddle.inflight.erase r } } : State).countStale r.inst
        fun i => { i with staleDma := satAdd 32 i.staleDma 1 }) := by
  rw [exec_saddleResponse, execSaddleResponse, hr]
  simp only [bne_iff_ne.2 hg, if_true]

theorem saddleResponse_error (hf : s.fgr? f = some g) (hr : s.saddle.inflight.find? (fun r => r.who == f && r.gen == gen) = some r)
    (hg : gen = (s.instD r.inst).gen) (hrun : g.run = .saddle rd) (hm : g.morsel = some m) (value : W64) :
    exec (.saddleResponse f gen value true) s =
      .next (({ s with saddle := { s.saddle with inflight := s.saddle.inflight.erase r } } : State).failPart m.jid f.die m.stage Config.stMemFault []) := by
  have hf' : ({ s with saddle := { s.saddle with inflight := s.saddle.inflight.erase r } } : State).fgr? f = some g := hf
  rw [exec_saddleResponse, execSaddleResponse, hr]
  simp only [bne_eq_false_iff_eq.2 hg, Bool.false_eq_true, if_false, hf', hrun, hm]

/-- A Forager of Pipeline mode with a morsel runs on after its response. -/
theorem Fgr.unwait_running (hrun : g.run = .saddle rd) (hmode : g.regs.mode = 0) (hm : g.morsel = some m) : g.unwait = { g with run := .running } := by
  simp [Fgr.unwait, hrun, hmode, hm]

theorem State.modFgr_congr {h k : Fgr → Fgr} (hf : s.fgr? f = some g) (he : h g = k g) : s.modFgr f h = s.modFgr f k := by
  obtain ⟨d, hd, hgd⟩ := Option.bind_eq_some_iff.1 hf
  have hmod : d.fgrs.modify f.fgr h = d.fgrs.modify f.fgr k := List.ext_getElem? fun i => by
    rw [List.getElem?_modify, List.getElem?_modify]
    split
    · next hi => rw [← hi, hgd]; exact congrArg some he
    · rfl
  have hdies : s.dies.modify f.die (fun d => { d with fgrs := d.fgrs.modify f.fgr h }) =
      s.dies.modify f.die (fun d => { d with fgrs := d.fgrs.modify f.fgr k }) := List.ext_getElem? fun i => by
    rw [List.getElem?_modify, List.getElem?_modify]
    split
    · next hi =>
      rw [← hi, hd]
      exact congrArg (fun l => some { d with fgrs := l }) hmod
    · rfl
  exact congrArg (fun l => { s with dies := l }) hdies

theorem saddleResponse_done (hf : s.fgr? f = some g) (hr : s.saddle.inflight.find? (fun r => r.who == f && r.gen == gen) = some r)
    (hg : gen = (s.instD r.inst).gen) (hrun : g.run = .saddle rd) (hq : g.regs.Quiet) (hmode : g.regs.mode = 0) (hm : g.morsel = some m)
    (value : W64) : exec (.saddleResponse f gen value false) s =
      .next ((({ s with saddle := { s.saddle with inflight := s.saddle.inflight.erase r } } : State).modFgr f fun h =>
        { h with run := .running }).retired f g (g.regs.setG rd value) none) := by
  have hf' : ({ s with saddle := { s.saddle with inflight := s.saddle.inflight.erase r } } : State).fgr? f = some g := hf
  rw [exec_saddleResponse, execSaddleResponse, hr]
  simp only [bne_eq_false_iff_eq.2 hg, Bool.false_eq_true, if_false, hf', hrun]
  rw [State.finish, retireFgr_quiet (FRegs.setG_quiet hq),
    State.modFgr_congr (k := fun h => { h with run := .running }) hf' (Fgr.unwait_running hrun hmode hm)]

theorem failSaddleOps_inflight (s : State) : s.failSaddleOps.saddle.inflight = [] := by
  rw [State.failSaddleOps]
  refine List.foldlRecOn _ _ (motive := fun t : State => t.saddle.inflight = []) rfl fun t ht r _ => ?_
  split
  · exact ht
  · split <;> exact ht

theorem saddleTimeout_done (hp : s.powered = true) (hs : s.saddle.state = 2) (hi : s.saddle.inflight ≠ []) :
    exec .saddleTimeout s = .next s.saddleFails := by
  have hi' : (s.saddle.inflight == []) = false := beq_eq_false_iff_ne.2 hi
  rw [exec_saddleTimeout, execSaddleTimeout, hp, hs, hi']
  rfl

end

/-- Settles O42: taking an operation, its response, and the timeout. -/
theorem saddlePort : Obligations.SaddlePort := by
  refine ⟨fun f word s g hr hw => ⟨saddleOp_refused hr hw, saddleOp_done hr hw⟩, fun f s g rd r gen value hf hr => ?_, fun s hp hs hi =>
    ⟨_, saddleTimeout_done hp hs hi, rfl, failSaddleOps_inflight s, rfl, State.saddleFails_mem s⟩⟩
  intro t
  exact ⟨fun hg err => saddleResponse_stale hr hg value err, fun hg hrun hq hmode m hm =>
    ⟨saddleResponse_done hf hr hg hrun hq hmode hm value, saddleResponse_error hf hr hg hrun hm value⟩⟩

end Sys2Proof.Machine
end

section
/-!
PROOFS. Doorbells, CQ stalls and the admin queue (R333, R336, R340, R345).
-/

namespace Sys2Proof.Machine

-- CHANGES OF AN INSTANCE ----------------------------------------------------------------------------------------------------------------------

theorem State.modInst_congr {s : State} {n : Nat} {h k : Inst → Inst} (he : h (s.instD n) = k (s.instD n)) : s.modInst n h = s.modInst n k := by
  have hl : s.insts.modify n h = s.insts.modify n k := List.ext_getElem? fun i => by
    rw [List.getElem?_modify, List.getElem?_modify]
    split
    · next hi =>
      subst hi
      cases hx : s.insts[n]? with
      | none => rfl
      | some x =>
        rw [State.instD, List.getD_eq_getElem?_getD, hx] at he
        exact congrArg some he
    · rfl
  exact congrArg (fun l => { s with insts := l }) hl

theorem State.modInst_modInst (s : State) (n : Nat) (h k : Inst → Inst) : (s.modInst n h).modInst n k = s.modInst n fun i => k (h i) := by
  have hl : (s.insts.modify n h).modify n k = s.insts.modify n (k ∘ h) := List.modify_modify_eq ..
  exact congrArg (fun l => { s with insts := l }) hl

-- HOST WRITES OF REGISTERS --------------------------------------------------------------------------------------------------------------------

section
variable {s : State} {fn off size : Nat}

/-- A write of a listed size that the function takes. -/
theorem State.mmioWrite_taken {window : Bool} (h : s.HostWrites fn) (hs : mmioSize off size = true) (k : State → State) :
    s.mmioWrite fn off size window k = k s := by
  obtain ⟨hl, hb, hr⟩ := h
  simp [State.mmioWrite, hl, hb, hr, hs]

theorem mmioSize_zero (h : size = 4 ∨ size = 8) : mmioSize 0 size = true := by
  rcases h with rfl | rfl <;> rfl

theorem State.rsvdIf_false (s : State) (fn : Nat) : s.rsvdIf fn false = s := rfl

/-- A doorbell of a queue with no reserved bit. -/
theorem doorbell_taken {q : Nat} {value : W64} (h : s.HostWrites fn) (hs : size = 4 ∨ size = 8) (hq : q < 4096)
    (h1 : lowPart size value / 2 ^ 16 % 2 ^ 16 = 0) (h2 : lowPart size value / 2 ^ 52 = 0) (take : Nat → State → State) :
    doorbell fn q size value take s = take (lowPart size value % 2 ^ 16) s := by
  have hb1 : bits (lowPart size value) 31 16 = 0 := h1
  have hb2 : bits (lowPart size value) 63 52 = 0 := by rw [bits, h2]; rfl
  rw [doorbell, State.mmioWrite_taken h (mmioSize_zero hs)]
  simp only [Nat.not_le.2 hq, if_false, hb1, hb2, bne_self_eq_false, Bool.or_self, State.rsvdIf_false]
  rfl

-- DOORBELLS -----------------------------------------------------------------------------------------------------------------------------------

/-- What a tail doorbell with the index `t` does. -/
def takeTail (fn q t : Nat) (s : State) : State :=
  match (s.instD fn).sq? q with
  | none => s.dropDoorbell fn
  | some x =>
    if x.state != .active || (q == 0 && (s.instD fn).aq.disabling) then s.dropDoorbell fn
    else if x.depth ≤ t then s.sqError fn q
    else if t = x.tail then s
    else if ringDist x.depth t x.head < x.waiting then s.sqError fn q
    else s.modSq fn q fun x => { x with tail := t }

/-- What a head doorbell with the index `h` does. -/
def takeHead (fn q h : Nat) (s : State) : State :=
  match (s.instD fn).cq? q with
  | none => s.dropDoorbell fn
  | some x =>
    if x.state != .active || (q == 0 && (s.instD fn).aq.disabling) then s.dropDoorbell fn
    else if x.depth ≤ h ∨ x.used < ringDist x.depth h x.head then s.cqError fn q
    else s.modCq fn q fun x => { x with head := h }

theorem queue_open_iff {q : Nat} {st : QState} {dis : Bool} : (st != .active || (q == 0 && dis)) = false ↔ st = .active ∧ ¬ (q = 0 ∧ dis = true) := by
  simp [bne]

variable {q t : Nat}

theorem takeTail_absent (h : (s.instD fn).sq? q = none) : takeTail fn q t s = s.dropDoorbell fn := by rw [takeTail, h]

theorem takeHead_absent (h : (s.instD fn).cq? q = none) : takeHead fn q t s = s.dropDoorbell fn := by rw [takeHead, h]

section
variable {x : Sq}

theorem takeTail_closed (h : (s.instD fn).sq? q = some x) (ho : ¬ (x.state = .active ∧ ¬ (q = 0 ∧ (s.instD fn).aq.disabling = true))) :
    takeTail fn q t s = s.dropDoorbell fn := by
  rw [← queue_open_iff, Bool.not_eq_false] at ho
  simp only [takeTail, h, ho, if_true]

theorem takeTail_past (h : (s.instD fn).sq? q = some x) (ho : x.state = .active ∧ ¬ (q = 0 ∧ (s.instD fn).aq.disabling = true))
    (ht : x.depth ≤ t) : takeTail fn q t s = s.sqError fn q := by
  simp only [takeTail, h, queue_open_iff.2 ho, Bool.false_eq_true, if_false, ht, if_true]

theorem takeTail_back (h : (s.instD fn).sq? q = some x) (ho : x.state = .active ∧ ¬ (q = 0 ∧ (s.instD fn).aq.disabling = true))
    (ht : t < x.depth) (hne : t ≠ x.tail) (hb : ringDist x.depth t x.head < x.waiting) : takeTail fn q t s = s.sqError fn q := by
  simp only [takeTail, h, queue_open_iff.2 ho, Bool.false_eq_true, if_false, Nat.not_le.2 ht, hne, hb, if_true]

theorem takeTail_ahead (h : (s.instD fn).sq? q = some x) (ho : x.state = .active ∧ ¬ (q = 0 ∧ (s.instD fn).aq.disabling = true))
    (ht : t < x.depth) (hb : x.waiting < ringDist x.depth t x.head) : takeTail fn q t s = s.modSq fn q fun x => { x with tail := t } := by
  have hne : t ≠ x.tail := by
    rintro rfl
    exact absurd hb (Nat.lt_irrefl _)
  simp only [takeTail, h, queue_open_iff.2 ho, Bool.false_eq_true, if_false, Nat.not_le.2 ht, hne, Nat.not_lt.2 hb.le]

end

section
variable {x : Cq}

theorem takeHead_closed (h : (s.instD fn).cq? q = some x) (ho : ¬ (x.state = .active ∧ ¬ (q = 0 ∧ (s.instD fn).aq.disabling = true))) :
    takeHead fn q t s = s.dropDoorbell fn := by
  rw [← queue_open_iff, Bool.not_eq_false] at ho
  simp only [takeHead, h, ho, if_true]

theorem takeHead_past (h : (s.instD fn).cq? q = some x) (ho : x.state = .active ∧ ¬ (q = 0 ∧ (s.instD fn).aq.disabling = true))
    (ht : x.depth ≤ t ∨ x.used < ringDist x.depth t x.head) : takeHead fn q t s = s.cqError fn q := by
  simp only [takeHead, h, queue_open_iff.2 ho, Bool.false_eq_true, if_false, ht, if_true]

theorem takeHead_moves (h : (s.instD fn).cq? q = some x) (ho : x.state = .active ∧ ¬ (q = 0 ∧ (s.instD fn).aq.disabling = true))
    (ht : t < x.depth) (hb : ringDist x.depth t x.head ≤ x.used) : takeHead fn q t s = s.modCq fn q fun x => { x with head := t } := by
  have hno : ¬ (x.depth ≤ t ∨ x.used < ringDist x.depth t x.head) := by omega
  simp only [takeHead, h, queue_open_iff.2 ho, Bool.false_eq_true, if_false, hno]

end

theorem sqTailDoorbell_taken {value : W64} (h : s.HostWrites fn) (hs : size = 4 ∨ size = 8) (hq : q < 4096)
    (h1 : lowPart size value / 2 ^ 16 % 2 ^ 16 = 0) (h2 : lowPart size value / 2 ^ 52 = 0) :
    exec (.sqTailDoorbell fn q size value) s = .next (takeTail fn q (lowPart size value % 2 ^ 16) s) := by
  rw [exec_sqTailDoorbell, execSqTailDoorbell, doorbell_taken h hs hq h1 h2]
  rfl

theorem cqHeadDoorbell_taken {value : W64} (h : s.HostWrites fn) (hs : size = 4 ∨ size = 8) (hq : q < 4096)
    (h1 : lowPart size value / 2 ^ 16 % 2 ^ 16 = 0) (h2 : lowPart size value / 2 ^ 52 = 0) :
    exec (.cqHeadDoorbell fn q size value) s = .next (takeHead fn q (lowPart size value % 2 ^ 16) s) := by
  rw [exec_cqHeadDoorbell, execCqHeadDoorbell, doorbell_taken h hs hq h1 h2]
  rfl

theorem cqStall_done {n : Nat} {x : Cq} (h : (s.instD n).cq? q = some x) (hs : s.settings.cqStallFrames ≤ x.stall) (hr : x.stallRaised = false) :
    exec (.cqStall n q) s = .next ((s.modCq n q fun x => { x with stallRaised := true }).raise Config.evCqStall) := by
  rw [exec_cqStall, execCqStall, h]
  simp [hr, hs]

end

-- THE ADMIN QUEUE -----------------------------------------------------------------------------------------------------------------------------

/-- The fields of AQ_CFG, of a value without reserved bits or values. -/
def AdminRegs.withFields (a : AdminRegs) (v : Nat) : AdminRegs :=
  { a with vector := v / 2 ^ 16 % 2 ^ 12, shadowEn := v.testBit 14, intEn := v.testBit 13, cqLog2 := v / 2 ^ 8 % 2 ^ 5, sqLog2 := v % 2 ^ 5 }

theorem bits_low (v hi : Nat) : bits v hi 0 = v % 2 ^ (hi + 1) := by simp [bits]

theorem bits_vector (v : Nat) : bits v 27 16 = v / 2 ^ 16 % 2 ^ 12 := rfl

theorem bits_cqLog2 (v : Nat) : bits v 12 8 = v / 2 ^ 8 % 2 ^ 5 := rfl

theorem AdminRegs.config_eq {a : AdminRegs} {v vectors : Nat} (h : aqCfgBad v vectors = false) : a.config v vectors = a.withFields v := by
  simp only [aqCfgBad, Bool.or_eq_false_iff, Bool.not_eq_false', Bool.and_eq_true, decide_eq_true_eq, decide_eq_false_iff_not, Nat.not_le] at h
  obtain ⟨⟨⟨_, hv⟩, hc⟩, hs⟩ := h
  simp only [AdminRegs.config, if_pos hv, if_pos hc, if_pos hs, bit_eq_testBit]
  rw [AdminRegs.withFields, bits_vector, bits_cqLog2, bits_low]

theorem AdminRegs.differs_eq (a : AdminRegs) (v : Nat) : a.differs v = true ↔ a.withFields v ≠ a := by
  rw [← not_iff_not, Bool.not_eq_true, not_not]
  cases a
  simp only [AdminRegs.differs, AdminRegs.withFields, Bool.or_eq_false_iff, bne_eq_false_iff_eq, AdminRegs.mk.injEq, bits_vector, bits_cqLog2, bits_low,
    bit_eq_testBit, true_and, and_assoc]

theorem aqCfg_reserved {v vectors : Nat} (h : aqCfgBad v vectors = false) :
    (bits v 63 35 != 0 || bits v 30 28 != 0 || bit v 15 || bits v 7 5 != 0) = false := by
  simp only [aqCfgBad, Bool.or_eq_false_iff] at h ⊢
  exact h.1.1.1

section
variable {s : State} {fn : Nat} {value : W64}

/-- The admin queue is shut down. -/
def Inst.disableAdmin (i : Inst) : Inst := { i with
  aq := { i.aq with en := false, disabling := true }
  sqs := i.sqs.map fun x => if x.qid = 0 then { x with state := .deleting } else x
  cqs := i.cqs.map fun x => if x.qid = 0 ∧ x.state = .active then { x with state := .deleting } else x }

theorem aqCfg_enabled (h : s.HostWrites fn) (hbad : aqCfgBad value.toNat (s.vectors fn) = false) (hen : (s.instD fn).aq.en = true) :
    exec (.aqCfg fn 8 value) s = .next
      (let s1 := s.rsvdIf fn (decide ((s.instD fn).aq.withFields value.toNat ≠ (s.instD fn).aq))
       if value.toNat.testBit 31 then s1 else s1.modInst fn Inst.disableAdmin) := by
  have hdiff : (s.instD fn).aq.differs value.toNat = decide ((s.instD fn).aq.withFields value.toNat ≠ (s.instD fn).aq) := by
    rw [Bool.eq_iff_iff, AdminRegs.differs_eq, decide_eq_true_iff]
  rw [exec_aqCfg, execAqCfg, State.mmioWrite_taken h (mmioSize_zero (.inr rfl))]
  simp only [lowPart, show (8 = 4) = False by decide, if_false, hen, if_true, aqCfg_reserved hbad, Bool.false_or, hdiff]
  rw [bit_eq_testBit]
  rfl

theorem aqCfg_disabled (h : s.HostWrites fn) (hbad : aqCfgBad value.toNat (s.vectors fn) = false) (hen : (s.instD fn).aq.en = false) :
    exec (.aqCfg fn 8 value) s = .next ((s.modInst fn fun i => { i with aq := (s.instD fn).aq.withFields value.toNat }).modInst fn fun i =>
      if (s.instD fn).aq.disabling then { i with aq := { i.aq with enablePending := value.toNat.testBit 31 } }
      else if value.toNat.testBit 31 then i.openAdmin else i) := by
  rw [exec_aqCfg, execAqCfg, State.mmioWrite_taken h (mmioSize_zero (.inr rfl))]
  simp only [lowPart, show (8 = 4) = False by decide, if_false, hen, Bool.false_eq_true, hbad, State.rsvdIf_false, bit_eq_testBit, State.modInst_modInst]
  refine congrArg _ (State.modInst_congr ?_)
  simp only [AdminRegs.config_eq hbad]
  rfl

theorem aqCfg_cases (h : s.HostWrites fn) (hbad : aqCfgBad value.toNat (s.vectors fn) = false) :
    let v := value.toNat
    let a := (s.instD fn).aq
    let fields := a.withFields v
    (a.en = false → a.disabling = false → v.testBit 31 = true →
       exec (.aqCfg fn 8 value) s = .next ((s.modInst fn fun i => { i with aq := fields }).modInst fn (·.openAdmin))) ∧
     (a.en = false → a.disabling = false → v.testBit 31 = false → exec (.aqCfg fn 8 value) s = .next (s.modInst fn fun i => { i with aq := fields })) ∧
     (a.en = false → a.disabling = true → exec (.aqCfg fn 8 value) s =
       .next (s.modInst fn fun i => { i with aq := { fields with enablePending := v.testBit 31 } })) ∧
     (a.en = true → fields = a → v.testBit 31 = true → exec (.aqCfg fn 8 value) s = .next s) ∧
     (a.en = true → fields = a → v.testBit 31 = false → exec (.aqCfg fn 8 value) s = .next (s.modInst fn Inst.disableAdmin)) ∧
     (a.en = true → fields ≠ a → v.testBit 31 = true → exec (.aqCfg fn 8 value) s =
       .next ((s.modInst fn fun i => { i with rsvdWr := min (i.rsvdWr + 1) 0xFFFFFFFF }).raise Config.evRsvdWrite)) := by
  intro v a fields
  refine ⟨fun hen hdis hon => ?_, fun hen hdis hon => ?_, fun hen hdis => ?_, fun hen hf hon => ?_, fun hen hf hon => ?_, fun hen hf hon => ?_⟩
  · rw [aqCfg_disabled h hbad hen]
    simp only [a, v] at hdis hon
    simp only [hdis, hon, Bool.false_eq_true, if_false, if_true]
    rfl
  · rw [aqCfg_disabled h hbad hen]
    simp only [a, v] at hdis hon
    simp only [hdis, hon, Bool.false_eq_true, if_false, State.modInst_modInst]
    rfl
  · rw [aqCfg_disabled h hbad hen]
    simp only [a] at hdis
    simp only [hdis, if_true, State.modInst_modInst]
    rfl
  · rw [aqCfg_enabled h hbad hen]
    simp only [a, v, fields] at hf hon
    simp only [hf, hon, ne_eq, not_true_eq_false, decide_false, State.rsvdIf_false, if_true]
  · rw [aqCfg_enabled h hbad hen]
    simp only [a, v, fields] at hf hon
    simp only [hf, hon, ne_eq, not_true_eq_false, decide_false, State.rsvdIf_false, Bool.false_eq_true, if_false]
  · rw [aqCfg_enabled h hbad hen]
    simp only [a, v, fields] at hf hon
    simp only [hf, hon, ne_eq, not_false_eq_true, decide_true, if_true]
    rfl

end

theorem Inst.sq?_openAdmin_ne {i : Inst} {q : Nat} (h : q ≠ 0) : i.openAdmin.sq? q = i.sq? q ∧ i.openAdmin.cq? q = i.cq? q := by
  have h0 : ((0 : Nat) == q) = false := beq_eq_false_iff_ne.2 h.symm
  have hkeep : ∀ k : Nat, decide ((k != 0) = true ∧ (k == q) = true) = (k == q) := fun k => by
    by_cases hk : k = q
    · subst hk
      simp [h]
    · simp [hk]
  simp only [Inst.sq?, Inst.cq?, Inst.openAdmin, List.find?_cons, h0, List.find?_filter, hkeep, and_self]

/-- Settles O43: the doorbells by the index they take, AQ_CFG by `aqCfg_cases`. -/
theorem queueRegisters : Obligations.QueueRegisters := by
  refine ⟨⟨fun s fn q size value h hs hq => ?_, fun s n q x hx hs hr => cqStall_done hx hs hr⟩,
    fun s fn value h hbad => aqCfg_cases h hbad, fun i => ⟨rfl, ⟨_, rfl, rfl, rfl, rfl, rfl, rfl, rfl⟩, ⟨_, rfl, rfl, rfl, rfl, rfl, rfl, rfl, rfl, rfl⟩,
    fun q hq => Inst.sq?_openAdmin_ne hq⟩, fun s fn hdis hres => ?_⟩
  · intro v i h1 h2 ahead dropped sqFails cqFails
    rw [sqTailDoorbell_taken h hs hq h1 h2, cqHeadDoorbell_taken h hs hq h1 h2]
    simp only [Host.Outcome.next.injEq]
    refine ⟨takeTail_absent, fun x hx => ?_, takeHead_absent, fun x hx => ?_⟩
    · exact ⟨takeTail_closed hx, takeTail_past hx, fun ho ht hb hne => takeTail_back hx ho ht hne hb, fun ho ht hb => takeTail_ahead hx ho ht hb⟩
    · exact ⟨takeHead_closed hx, takeHead_past hx, fun ho ht hb => takeHead_moves hx ho ht hb⟩
  · intro closed
    have hres' : ((s.instD fn).cq? 0).elim false (·.reserved != 0) = false := by
      cases hc : (s.instD fn).cq? 0 with
      | none => rfl
      | some q => simp [hres q hc]
    rw [exec_adminDisableDone, execAdminDisableDone]
    simp only [hdis, hres', Bool.not_true, Bool.or_self, Bool.false_eq_true, if_false]
    rfl

end Sys2Proof.Machine
end

section
/-!
PROOFS. Mailboxes, statistics holds, FRAME_NUMBER, EVT_VEC, and what every write meets (R62, R199, R391).
-/

namespace Sys2Proof.Machine

-- MAILBOXES -----------------------------------------------------------------------------------------------------------------------------------

section
variable {s : State} {fn n : Nat} {b : BitVec 8}

theorem lowPart_eight (v : W64) : BitVec.ofNat 64 (lowPart 8 v) = v := by
  rw [lowPart, if_neg (by decide), BitVec.ofNat_toNat, BitVec.setWidth_eq]

theorem byte_high_bits (b : BitVec 8) : ((b.setWidth 64 : W64) &&& 0xFFFFFFFFFFFFFF00) = 0 ∧ ((b.setWidth 64 : W64) &&& 0xFFFFFFFF00FC0000) = 0 ∧
    (b.setWidth 64 : W64).setWidth 8 = b ∧ (b.setWidth 64 : W64).getLsbD 16 = false := by
  revert b
  decide

theorem mbxPost_taken (h : s.HostWrites fn) (hn : n < 256) (hk : mbxInst fn n ≠ 0) :
    exec (.mbxPost fn n 8 (b.setWidth 64)) s = .next (s.mbxPost (mbxInst fn n) (fn == 0) b) := by
  obtain ⟨h1, -, h3, -⟩ := byte_high_bits b
  rw [exec_mbxPost, execMbxPost, if_neg (Nat.not_le.2 hn), State.mmioWrite_taken h (mmioSize_zero (.inr rfl)), lowPart_eight, State.mbxPostReg,
    if_neg hk, h1, h3]
  rfl

theorem mbxAck_taken (h : s.HostWrites fn) (hn : n < 256) (hk : mbxInst fn n ≠ 0) :
    exec (.mbxAck fn n 8 (b.setWidth 64)) s = .next (s.mbxAck (mbxInst fn n) (fn == 0) b) := by
  obtain ⟨-, h2, h3, h4⟩ := byte_high_bits b
  rw [exec_mbxAck, execMbxAck, if_neg (Nat.not_le.2 hn), State.mmioWrite_taken h (mmioSize_zero (.inr rfl)), lowPart_eight, State.mbxStatReg,
    if_neg hk, h2, h3, h4]
  simp [State.rsvdIf_false]

variable {k : Nat} {pf : Bool}

theorem Inst.mbx_not (i : Inst) (pf : Bool) : i.mbx (!pf) = if pf then i.mbxVf else i.mbxPf := by cases pf <;> rfl

theorem mbxPost_frozen (h : (s.instD k).state = .frozen) : s.mbxPost k pf b = s.modMbx k pf fun m => { m with drop := min (m.drop + popc8 b) 0xFF } :=
  if_pos h

theorem mbxAck_frozen (h : (s.instD k).state = .frozen) : s.mbxAck k pf b = s.modMbx k pf fun m => { m with drop := min (m.drop + popc8 b) 0xFF } :=
  if_pos h

theorem mbxPost_fills (h : (s.instD k).state ≠ .frozen) (hb : b &&& ~~~((s.instD k).mbx pf).txFull ≠ 0) : s.mbxPost k pf b =
    ((s.modMbx k pf fun m => { m with drop := min (m.drop + popc8 (b &&& ((s.instD k).mbx pf).txFull)) 0xFF }).modMbx k pf fun m =>
      { m with txFull := m.txFull ||| (b &&& ~~~((s.instD k).mbx pf).txFull) }).mbxSignal k (!pf) := by
  rw [State.mbxPost]
  dsimp only
  rw [if_neg h, if_neg hb]
  rfl

theorem mbxAck_empties (h : (s.instD k).state ≠ .frozen) (hb : b &&& ((s.instD k).mbx (!pf)).txFull ≠ 0) :
    s.mbxAck k pf b = (s.modMbx k (!pf) fun m => { m with txFull := m.txFull &&& ~~~b }).mbxSignal k (!pf) := by
  rw [State.mbxAck]
  rw [if_neg h, if_neg hb]

theorem mbxAck_nothing (h : (s.instD k).state ≠ .frozen) (hb : b &&& ((s.instD k).mbx (!pf)).txFull = 0) : s.mbxAck k pf b = s := by
  rw [State.mbxAck]
  rw [if_neg h, if_pos hb]

end

-- STATISTICS, FRAME_NUMBER, EVT_VEC -----------------------------------------------------------------------------------------------------------

section
variable {s : State} {fn off size : Nat} {v : W64}

theorem StatWin.write_eq (w : StatWin) (v : W64) : w.write v = { w with
    hold := v.getLsbD 0
    holdActive := w.holdActive && v.getLsbD 0
    holdLeft := if v.getLsbD 0 then w.holdLeft else 0
    holdExpired := w.holdExpired && !v.getLsbD 2 } := by
  cases h0 : v.getLsbD 0 <;> cases h2 : v.getLsbD 2 <;>
    simp only [StatWin.write, h0, h2, if_true, Bool.false_eq_true, if_false, Bool.and_true, Bool.and_false, Bool.not_true, Bool.not_false]

theorem statHold_done (h : s.HostWrites fn) (hv : v &&& 0xFFFFFFFF0000FFF8 = 0) :
    exec (.statHold fn v) s = .next (s.modInst fn fun i => { i with stat := i.stat.write v }) := by
  rw [exec_statHold, execStatHold, State.mmioWrite_taken h (by decide), hv]
  rfl

theorem statHoldExpired_done (ha : (s.instD fn).stat.holdActive = true) (hl : (s.instD fn).stat.holdLeft = 0) :
    exec (.statHoldExpired fn) s = .next ((s.modInst fn fun i => { i with stat := { i.stat with
      hold := false, holdActive := false, holdLeft := 0, holdExpired := true } }).raise Config.evStatHoldExpired) := by
  rw [exec_statHoldExpired, execStatHoldExpired]
  simp only [ha, hl, Bool.not_true, bne_self_eq_false, Bool.or_self, Bool.false_eq_true, if_false]
  rfl

theorem State.readsZero_eq_false (h : s.HostWrites fn) : s.readsZero fn = false := by
  obtain ⟨hl, hb, hr⟩ := h
  simp [State.readsZero, hl, hb, hr]

theorem frameNumberRead_done (t : Nat) (h : s.HostWrites fn) :
    let s1 := s.elapse (s.frame.startNs + t - s.power.uptimeNs)
    exec (.frameNumberRead fn t) s =
      .next ((s1.modInst fn fun i => { i with frameNow := some (BitVec.ofNat 20 (s1.power.uptimeNs - s1.frame.startNs)) }).emit
        (.readData fn s.frame.number)) := by
  intro s1
  have hns : BitVec.ofNat 20 s1.elapsedNs = BitVec.ofNat 20 (s1.power.uptimeNs - s1.frame.startNs) := by
    rw [State.elapsedNs]
    exact ofNat_mod_two_pow 20 _
  rw [exec_frameNumberRead, execFrameNumberRead, h.1, State.readsZero_eq_false h, ← hns]
  rfl

theorem mergeReg_all (old val : W64) : mergeReg old (BitVec.allOnes 64) val = val := by
  rw [mergeReg, BitVec.not_allOnes, BitVec.and_zero, BitVec.zero_or, BitVec.and_allOnes]

theorem evtVec_done (h : s.HostWrites 0) (hv : v &&& 0x4040404040404040 = 0) :
    exec (.registerWrite 0 0x2C040 8 v) s = .next { s with events := { s.events with vec := v } } := by
  have hkeep : v &&& ~~~(0x4040404040404040 : W64) = v := by
    conv_rhs => rw [← BitVec.and_allOnes (x := v), ← BitVec.or_not_self (0x4040404040404040 : W64), BitVec.and_or_distrib_left, hv]
    simp
  have hpf : s.writePf 0x2C040 8 v = { s.rsvdIf 0 (v &&& 0x4040404040404040 != 0) with
      events := { (s.rsvdIf 0 (v &&& 0x4040404040404040 != 0)).events with
        vec := mergeReg s.events.vec (BitVec.allOnes 64) (v &&& ~~~0x4040404040404040) } } := rfl
  rw [exec_registerWrite, execRegisterWrite, State.mmioWrite_taken h (by decide), if_pos rfl, hpf, hv, hkeep, mergeReg_all]
  rfl

-- WHAT EVERY WRITE MEETS ----------------------------------------------------------------------------------------------------------------------

theorem registerWrite_booting (hb : s.power.devState = .booting) (hw : inKdw fn off = false) :
    exec (.registerWrite fn off size v) s = .next s := by
  rw [exec_registerWrite, execRegisterWrite, State.mmioWrite, if_pos (by simp [hb, hw])]

theorem registerWrite_resetting (hl : s.fnLive fn = true) (hr : (s.instD fn).state = .resetting) (hb : s.power.devState ≠ .booting) :
    exec (.registerWrite fn off size v) s = .next (s.modInst fn fun i => { i with rsvdWr := min (i.rsvdWr + 1) 0xFFFFFFFF }) := by
  rw [exec_registerWrite, execRegisterWrite, State.mmioWrite, if_neg (by simp [hl, hb]), if_pos (by simp [hr])]
  rfl

theorem registerWrite_unlisted (h : s.HostWrites fn) (hs : ¬ ((size = 4 ∨ size = 8) ∧ off % size = 0)) :
    exec (.registerWrite fn off size v) s =
      .next ((s.modInst fn fun i => { i with rsvdWr := min (i.rsvdWr + 1) 0xFFFFFFFF }).raise Config.evRsvdWrite) := by
  obtain ⟨hl, hb, hr⟩ := h
  have hsize : mmioSize off size = false := by
    rw [Bool.eq_false_iff]
    simpa [mmioSize] using hs
  rw [exec_registerWrite, execRegisterWrite, State.mmioWrite, if_neg (by simp [hl, hb]), if_neg (by simp [hr]), if_pos (by rw [hsize]; rfl)]
  rfl

end

/-- Settles O44: each register by what its write or read does, once the access is taken. -/
theorem hostRegisters : Obligations.HostRegisters := by
  refine ⟨fun s fn n b h hn => ?_, fun s fn v h hv => ?_, fun s fn ha hl => statHoldExpired_done ha hl, fun s fn t h => frameNumberRead_done t h,
    fun s v h hv => evtVec_done h hv, fun s fn off size v hl => ⟨registerWrite_booting, registerWrite_resetting hl, registerWrite_unlisted⟩⟩
  · intro k pf i mine peer count side hk
    have hpost := mbxPost_taken (b := b) h hn hk
    have hack := mbxAck_taken (b := b) h hn hk
    refine ⟨fun hf => ⟨?_, ?_⟩, fun hf hb => ?_, fun hf hb => ?_, fun hf hb => ?_⟩
    · exact hpost.trans (congrArg Host.Outcome.next (mbxPost_frozen hf))
    · exact hack.trans (congrArg Host.Outcome.next (mbxAck_frozen hf))
    · exact hpost.trans (congrArg Host.Outcome.next (mbxPost_fills hf hb))
    · exact hack.trans (congrArg Host.Outcome.next (mbxAck_empties hf (by rwa [Inst.mbx_not])))
    · exact hack.trans (congrArg Host.Outcome.next (mbxAck_nothing hf (by rwa [Inst.mbx_not])))
  · rw [statHold_done h hv]
    simp only [StatWin.write_eq]

end Sys2Proof.Machine
end

section
/-!
PROOFS. What keeps the memory in its canonical form: the writes, the tables, the merges, the ends of jobs, and a frame boundary.
-/

namespace Sys2Proof.Machine

/-- Whatever a computation that may fail gives satisfies `P`. -/
structure Yields {α : Type} (P : α → Prop) (r : Res α) : Prop where
  of_ok : ∀ a, r = .ok a → P a

section Yields
variable {α β : Type} {P : α → Prop} {Q : β → Prop}

theorem Yields.ok {a : α} (h : P a) : Yields P (.ok a) := ⟨fun _ e => by cases e; exact h⟩

theorem Yields.error {e : Nat} : Yields P (.error e) := ⟨fun _ h => by cases h⟩

theorem Yields.bind {x : Res β} {f : β → Res α} (hx : Yields Q x) (hf : ∀ b, Q b → Yields P (f b)) : Yields P (x >>= f) := ⟨fun a h => by
  obtain ⟨b, hb, ha⟩ := bind_eq_ok.1 h
  exact (hf b (hx.of_ok b hb)).of_ok a ha⟩

/-- A step whose value the property does not depend on. -/
theorem Yields.skip {x : Res β} {f : β → Res α} (hf : ∀ b, Yields P (f b)) : Yields P (x >>= f) :=
  Yields.bind (Q := fun _ => True) ⟨fun _ _ => trivial⟩ fun b _ => hf b

theorem Yields.foldlM {l : List β} {f : α → β → Res α} {a : α} (ha : P a) (hf : ∀ a b, P a → Yields P (f a b)) : Yields P (l.foldlM f a) := by
  induction l generalizing a with
  | nil => exact .ok ha
  | cons b l ih => exact .bind (hf a b ha) fun _ h => ih h

end Yields

@[simp] theorem State.memWf_iff {s : State} : s.memWf ↔ Memory.wf s.mem = true := Iff.rfl

/-- A state that holds the same memory. -/
theorem State.memWf.of_mem {s t : State} (h : s.memWf) (e : t.mem = s.mem) : t.memWf := by rwa [State.memWf, e]

theorem State.foldl_wf {α : Type} {f : State → α → State} (hf : ∀ s a, s.memWf → (f s a).memWf) (l : List α) {s : State} (h : s.memWf) : (l.foldl f s).memWf :=
  List.foldlRecOn l f h fun t ht a _ => hf t a ht

-- WRITES TO MEMORY

theorem State.putInst_wf {s : State} (h : s.memWf) (n a : Nat) (bs : List Byte) : (s.putInst n a bs).memWf := by
  induction bs generalizing s a with
  | nil => exact h
  | cons b bs ih =>
    rw [State.putInst]
    apply ih
    split
    · exact h
    · simpa using memSet_wf _ _ h

theorem State.writeInst_wf {s t : State} (h : s.memWf) {n a : Nat} {bs : List Byte} (hw : s.writeInst n a bs = some t) : t.memWf := by
  unfold State.writeInst at hw
  split at hw
  · cases hw
    exact State.putInst_wf h ..
  · cases hw

theorem State.writeInst_getD_wf {s : State} (h : s.memWf) (n a : Nat) (bs : List Byte) : ((s.writeInst n a bs).getD s).memWf := by
  cases hw : s.writeInst n a bs with
  | none => exact h
  | some t => exact State.writeInst_wf h hw

theorem State.poke_wf {s : State} (h : s.memWf) (n a : Nat) (bs : List Byte) : Yields State.memWf (s.poke n a bs) := by
  unfold State.poke
  split
  · next hw => exact .ok (State.writeInst_wf h hw)
  · exact .error

theorem State.zeroInst_wf {s : State} (h : s.memWf) (n a len k : Nat) : Yields State.memWf (s.zeroInst n a len k) := by
  induction k generalizing s a len with
  | zero => exact .ok h
  | succ k ih =>
    unfold State.zeroInst
    split
    · exact .ok h
    split
    · exact .error
    split
    · exact .error
    · exact ih (by simpa using memZero_wf _ _ h) ..

theorem State.zero_wf {s : State} (h : s.memWf) (n a len : Nat) : Yields State.memWf (s.zero n a len) := State.zeroInst_wf h ..

theorem State.amuWrite_wf {s : State} (h : s.memWf) (d i : Nat) (e : AmuEntry) : (s.amuWrite d i e).memWf := by
  simpa [State.amuWrite] using memWrite_wf _ _ h

theorem State.amuClearBlock_wf {s : State} (h : s.memWf) (d b : Nat) : (s.amuClearBlock d b).memWf := by
  rw [State.amuClearBlock]
  exact State.memWf.of_mem (State.foldl_wf (fun _ _ h => State.amuWrite_wf h ..) _ h) (State.modAmu_mem ..)

theorem State.loadRow_wf {s : State} (h : s.memWf) (d n i : Nat) (e : AmuEntry) : (s.loadRow d n i e).memWf := by
  unfold State.loadRow
  split
  · exact h
  · exact State.amuWrite_wf h ..

-- RESULT BUFFERS

theorem State.appendResult_wf {s : State} (h : s.memWf) (jid stage : Nat) (bs : List Byte) : Yields State.memWf (s.appendResult jid stage bs) := by
  unfold State.appendResult
  split
  · exact .ok h
  split
  · exact .error
  · exact .bind (State.poke_wf h ..) fun t ht => .ok (by simpa using ht)

theorem State.sinkPut_wf {s : State} (h : s.memWf) (m : Morsel) (bs : List Byte) : Yields State.memWf (s.sinkPut m bs) := by
  unfold State.sinkPut
  split
  · exact State.appendResult_wf h ..
  · exact .ok (by simpa using h)

theorem State.sinkFlush_wf {s : State} (h : s.memWf) (jid stage fi k : Nat) : Yields State.memWf (s.sinkFlush jid stage fi k) := by
  induction k generalizing s with
  | zero => exact .ok h
  | succ k ih =>
    unfold State.sinkFlush
    split
    · exact .ok h
    dsimp only
    split
    · exact .bind (State.appendResult_wf h ..) fun t ht => ih (by simpa using ht)
    · exact .ok h

theorem State.sinkDone_wf {s : State} (h : s.memWf) (m : Morsel) : Yields State.memWf (s.sinkDone m) := by
  unfold State.sinkDone
  split
  · exact .ok h
  split
  · exact .ok h
  · exact State.sinkFlush_wf (by simpa using h) ..

theorem State.emitColumns_wf {s : State} (h : s.memWf) (m : Morsel) (d : Nat) (hd : DescHdr) (cols : List Column) (sel : Option (List Nat))
    (old : List (Nat × Nat)) : Yields (fun p => p.1.memWf) (s.emitColumns m d hd cols sel old) := by
  unfold State.emitColumns
  dsimp only
  split
  · exact .ok h
  · exact .bind ⟨fun p hp => h.of_mem (State.takeBuffer_mem hp)⟩ fun p hp => .bind (State.poke_wf hp ..) fun t ht => .ok ht

-- HASH TABLES

theorem State.spillAppend_wf {s : State} (h : s.memWf) (jid ti n b : Nat) (rec : List Byte) : Yields State.memWf (s.spillAppend jid ti n b rec) := by
  unfold State.spillAppend
  split
  · exact .ok h
  dsimp only
  split_ifs
  · exact .error
  · exact .bind (State.poke_wf h ..) fun t ht => .bind (State.poke_wf ht ..) fun u hu => .ok (by simpa using hu)

theorem State.spillPart_wf {s : State} (h : s.memWf) (jid ti n p : Nat) : Yields State.memWf (s.spillPart jid ti n p) := by
  unfold State.spillPart
  split
  · exact .ok h
  · refine .bind (.foldlM h fun s k hs => .skip fun ch => .foldlM hs fun s v hs => .skip fun key => ?_) fun t ht =>
      .bind (State.zero_wf ht ..) fun u hu => .ok (by simpa using hu)
    split
    · exact .ok hs
    · dsimp only
      split <;> exact .skip fun rec => State.spillAppend_wf hs ..

theorem State.putSlot_wf {s : State} (h : s.memWf) (n a j v : Nat) : Yields State.memWf (s.putSlot n a j v) := State.poke_wf h ..

/-- What an insertion made stands in its canonical form. -/
def Ins.memWf : Ins → Prop
  | .done s => s.memWf
  | .full | .long => True

theorem State.putInChain_wf {s : State} (h : s.memWf) (jid ti n c b p v : Nat) : Yields Ins.memWf (s.putInChain jid ti n c b p v) := by
  unfold State.putInChain
  split
  · exact .ok h
  refine .skip fun ch => ?_
  split
  · exact .ok trivial
  split
  · exact .bind (State.putSlot_wf h ..) fun t ht => .ok ht
  split_ifs
  · exact .ok trivial
  split
  · exact .ok trivial
  · exact .bind (State.poke_wf (by simpa using h) ..) fun t ht => .bind (State.putSlot_wf ht ..) fun u hu => .ok hu

theorem State.modTable_if_wf {s : State} (h : s.memWf) (c : Bool) (jid ti : Nat) (f : Table → Table) :
    (if c then s.modTable jid ti f else s).memWf := by
  split <;> simpa using h

theorem State.insertOnce_wf {s : State} (h : s.memWf) (jid ti n c : Nat) (counts : Bool) (hash : W64) (key rec : List Byte) :
    Yields Ins.memWf (s.insertOnce jid ti n c counts hash key rec) := by
  unfold State.insertOnce
  split
  · exact .ok h
  dsimp only
  split
  · refine .bind (State.putInChain_wf h ..) fun r hr => .ok ?_
    cases r with
    | done t => exact State.modTable_if_wf hr ..
    | full | long => trivial
  split
  · exact .ok trivial
  · refine .bind (State.poke_wf (by simpa using h) ..) fun t ht => .bind (State.putInChain_wf ht ..) fun r hr => .ok ?_
    cases r with
    | done u => exact State.modTable_if_wf hr ..
    | full | long => trivial

theorem State.insert_wf {s : State} (h : s.memWf) (jid ti n c : Nat) (counts : Bool) (hash : W64) (key rec : List Byte) (k : Nat) :
    Yields State.memWf (s.insert jid ti n c counts hash key rec k) := by
  induction k generalizing s with
  | zero => exact .error
  | succ k ih =>
    unfold State.insert
    split
    · exact .ok h
    dsimp only
    split
    · exact State.spillAppend_wf h ..
    refine .bind (State.insertOnce_wf h ..) fun r hr => ?_
    split
    · exact .ok hr
    · split
      · split
        · exact .bind (State.spillPart_wf h ..) fun t ht => ih ht
        · exact .error
      · exact .error
    · split
      · exact .bind (State.spillPart_wf h ..) fun t ht => ih ht
      · exact .error

theorem State.buildRow_wf {s : State} (h : s.memWf) (jid ti n c : Nat) (counts : Bool) (keys pay : List (Column × Nat)) (i : Nat) :
    Yields State.memWf (s.buildRow jid ti n c counts keys pay i) := by
  unfold State.buildRow
  split
  · exact .ok h
  split
  · exact .ok (State.modTable_if_wf h ..)
  · dsimp only
    split <;> exact .skip fun _ => .skip fun _ => State.insert_wf h ..

theorem State.groupRow_wf {s : State} (h : s.memWf) (jid ti n : Nat) (cols : List Column) (keys : List (Column × Nat)) (aggs : List (Nat × Nat))
    (i : Nat) : Yields State.memWf (s.groupRow jid ti n cols keys aggs i) := by
  unfold State.groupRow
  split
  · exact .ok h
  dsimp only
  split_ifs
  · exact State.spillAppend_wf h ..
  refine .skip fun found => ?_
  split
  · exact .skip fun rec => State.poke_wf h ..
  · exact State.insert_wf h ..

theorem State.probeRow_wf {s : State} (h : s.memWf) (jid ti n c : Nat) (op : ProbeOp) (nullAware : Bool) (cols : List Column)
    (keys : List (Column × Nat)) (i : Nat) : Yields (fun p => p.1.memWf) (s.probeRow jid ti n c op nullAware cols keys i) := by
  unfold State.probeRow
  split
  · exact .ok h
  dsimp only
  split_ifs
  · exact .bind (State.spillAppend_wf h ..) fun t ht => .ok ht
  all_goals refine .skip fun offs => .skip fun recs => .ok (by simpa using h)

theorem State.putTableState_wf {s : State} (h : s.memWf) (n : Nat) (t : Table) (st : Nat) : (s.putTableState n t st).memWf :=
  State.writeInst_getD_wf h ..

theorem State.commitTable_wf {s : State} (h : s.memWf) (n : Nat) (dies : List Nat) (t : Table) : (s.commitTable n dies t).memWf :=
  State.putTableState_wf (State.writeInst_getD_wf (State.writeInst_getD_wf (State.foldl_wf (fun _ _ h => State.writeInst_getD_wf h ..) _ h) ..) ..) ..

-- MERGES

theorem State.writeRun_wf {s : State} (h : s.memWf) (n : Nat) (a : Area) (len : Nat) (run : List Nat) (es : List (List Byte)) :
    Yields (fun p => p.1.memWf) (s.writeRun n a len run es) := by
  induction es generalizing s run with
  | nil => exact .ok h
  | cons e es ih =>
    unfold State.writeRun
    split
    · exact .error
    · exact .bind (State.poke_wf h ..) fun t ht => ih ht ..

theorem State.ingestEntries_wf {s : State} (h : s.memWf) (m : Morsel) (p : List Byte) : Yields (fun x => x.1.memWf) (s.ingestEntries m p) :=
  ⟨fun _ hx => h.of_mem (State.ingestEntries_mem hx)⟩

theorem State.sortIngest_wf {s : State} (h : s.memWf) (m : Morsel) (p : List Byte) : Yields State.memWf (s.sortIngest m p) := by
  unfold State.sortIngest
  refine .bind (State.ingestEntries_wf h ..) fun x hx => ?_
  split
  · exact .ok hx
  split_ifs
  · exact .ok hx
  · exact .bind (State.writeRun_wf hx ..) fun y hy => .ok (by simpa using hy)

theorem State.topnIngest_wf {s : State} (h : s.memWf) (m : Morsel) (p : List Byte) : Yields State.memWf (s.topnIngest m p) := by
  unfold State.topnIngest
  refine .bind (State.ingestEntries_wf h ..) fun x hx => ?_
  split
  · exact .ok hx
  split_ifs
  · exact .ok hx
  · exact .skip fun old => .bind (State.writeRun_wf hx ..) fun y hy => .ok (by simpa using hy)

theorem State.mergeTake_wf {s : State} (h : s.memWf) (jid n : Nat) (p : List Byte) (k : Nat) :
    Yields (fun x => x.1.memWf) (s.mergeTake jid n p k) := by
  induction k generalizing s with
  | zero => exact .ok h
  | succ k ih =>
    unfold State.mergeTake
    split
    · exact .ok h
    split
    · exact .ok h
    refine .skip fun least => ?_
    split
    · exact .ok h
    dsimp only
    split
    · exact .bind (ih (by simpa using h)) fun x hx => .ok hx
    · exact .bind (State.writeRun_wf h ..) fun y hy => .bind (ih (by simpa using hy)) fun x hx => .ok hx

-- THE END OF A STAGE AND OF A JOB

theorem State.endStream_wf {s : State} (h : s.memWf) (j : Job) (i : Nat) (st : Stage) : (s.endStream j i st).memWf := by
  unfold State.endStream
  extract_lets d ctx sha s1 done
  have h1 : s1.memWf := by
    unfold s1
    cases ctx <;> simpa using h
  have hdone : done.memWf := by
    unfold done
    split
    · exact h1
    split_ifs
    · simpa using h1
    split
    · simpa using h1
    · next hw => simpa using State.writeInst_wf h1 hw
  simpa using hdone

theorem State.settleStage_wf {s : State} (h : s.memWf) (jid i : Nat) : (s.settleStage jid i).memWf := by
  have hplain : ∀ (c : Bool) (st : Stage), (if c then s.endStage jid i st else s).memWf := fun c st => by split <;> simpa using h
  unfold State.settleStage
  split
  · exact h
  split
  · exact h
  split
  · exact h
  split
  · exact h
  dsimp only
  split
  · simpa using h
  · simpa using h
  · split_ifs
    · simpa using h
    · simpa using h
    · exact h
    · simpa using h
    · exact h
  · split_ifs
    · exact State.endStream_wf h ..
    · exact h
    · simpa using h
    · exact h
  · exact hplain ..

theorem State.settle_wf {s : State} (h : s.memWf) (jid : Nat) : (s.settle jid).memWf := by
  unfold State.settle
  split
  · exact h
  split_ifs
  · simpa using h
  · dsimp only
    refine State.memWf.of_mem (State.foldl_wf (fun _ _ h => State.foldl_wf (fun _ _ h => State.settleStage_wf h ..) _ h) _
      (State.foldl_wf (fun t i ht => ?_) _ h)) (State.freeBuffers_mem ..)
    split
    · exact ht
    · split <;> simpa using ht

theorem State.startJob_wf {s : State} (h : s.memWf) (j : Job) : (s.startJob j).memWf := by
  unfold State.startJob
  extract_lets s1 s2
  have h1 : s1.memWf := by
    refine State.foldl_wf (fun t x ht => ?_) _ h
    split
    · simpa using State.putTableState_wf ht ..
    · exact ht
  have h2 : s2.memWf := by
    unfold s2
    split
    · simpa using h1
    · exact h1
  exact State.settle_wf h2 _

theorem State.endTables_wf {s : State} (h : s.memWf) (j : Job) (ok : Bool) : (s.endTables j ok).memWf := by
  refine State.foldl_wf (fun t x ht => ?_) _ h
  split
  · exact State.commitTable_wf ht ..
  · exact State.putTableState_wf ht ..

theorem State.endBuffers_wf {s : State} (h : s.memWf) (j : Job) (ok : Bool) : (s.endBuffers j ok).memWf := by
  unfold State.endBuffers
  split
  · exact h
  · exact State.memWf.of_mem (State.foldl_wf (fun t r ht => undefine_wf t _ _ _ ht) _ (State.foldl_wf (fun t r ht => undefine_wf t _ _ _ ht) _ h))
      (State.drawn_mem _)

/-- What the end of a job frees before its status record is written. -/
def State.jobFreed (s : State) (j : Job) (ok : Bool) : State := (((s.dropWork j.jid).endBuffers j ok).endTables j ok).endRegions j ok

theorem State.jobFreed_wf {s : State} (h : s.memWf) (j : Job) (ok : Bool) : (s.jobFreed j ok).memWf :=
  (State.endTables_wf (State.endBuffers_wf (h.of_mem (State.dropWork_mem ..)) ..) ..).of_mem (State.endRegions_mem ..)

theorem State.endJob_wf {s : State} (h : s.memWf) (j : Job) (status : Nat) (opens : W64) : (s.endJob j status opens).memWf := by
  unfold State.endJob
  extract_lets ok s1 rec written s2 far s3
  have h1 : s1.memWf := State.jobFreed_wf h j ok
  clear_value s1
  have h2 : s2.memWf := State.writeInst_getD_wf h1 ..
  clear_value s2
  have h3 : s3.memWf := h2.of_mem (State.modInst_mem ..)
  clear_value s3
  exact h3

theorem State.decideJobs_wf {s : State} (h : s.memWf) (opens : W64) : (s.decideJobs opens).memWf := by
  unfold State.decideJobs
  exact State.foldl_wf (fun t x ht => State.endJob_wf ht ..) _ h

theorem State.writeCpl_wf {s : State} (h : s.memWf) (opens : W64) (c : Cpl) : (s.writeCpl opens c).memWf := by
  unfold State.writeCpl
  extract_lets i s0 s1
  have h1 : s1.memWf := by
    unfold s1
    split
    · exact h
    · split
      · simpa [s0] using h
      · simpa [s0] using memWrite_wf _ _ h
  split
  · simpa using h
  · simpa using h1

theorem State.writeCompletions_wf {s : State} (h : s.memWf) (opens : W64) : (s.writeCompletions opens).memWf := by
  unfold State.writeCompletions
  extract_lets batch old s1 moved s2 s3
  have h1 : s1.memWf := State.foldl_wf (fun t c ht => State.writeCpl_wf ht ..) _ h
  have h2 : s2.memWf := by
    refine State.foldl_wf (fun t x ht => ?_) _ h1
    split
    · exact memWrite_wf _ _ ht
    · exact ht
  have h3 : s3.memWf := h2
  exact State.foldl_wf (fun t x ht => by simpa using ht) _ h3

theorem State.commitStep_wf {s : State} (h : s.memWf) (opens : W64) : (s.commitStep opens).memWf :=
  State.writeCompletions_wf ((State.decideJobs_wf h opens).of_mem (State.finishSqDeletes_mem _)) opens

-- THE MORSELS OF FORAGERS

theorem State.placeOut_wf {s : State} (h : s.memWf) (f : FId) (j : Job) (st : Stage) (m : Morsel) (last : Bool) (d : List Byte) :
    Yields State.memWf (s.placeOut f j st m last d) := by
  unfold State.placeOut
  refine .skip fun _ => ?_
  extract_lets d1 bufs s1
  have h1 : s1.memWf := h.of_mem (State.placeAll_mem ..)
  by_cases hs : st.sink = true
  · rw [if_pos hs]
    exact .skip fun bs => State.sinkPut_wf h1 ..
  · rw [if_neg hs]
    exact .ok h1

theorem State.completeMorsel_wf {s : State} (h : s.memWf) (f : FId) (g : Fgr) (m : Morsel) (flag : Bool) (d : List Byte) :
    (s.completeMorsel f g m flag d).memWf := by
  unfold State.completeMorsel
  extract_lets s1
  have h1 : s1.memWf := by simpa [s1] using h
  split
  · simpa using h1
  split
  · exact h1
  extract_lets last done
  have hdone : Yields State.memWf done := by
    refine .bind ⟨fun _ ht => h1.of_mem (State.finalAggregation_mem ht)⟩ fun t ht => .bind (State.placeOut_wf ht ..) fun u hu => ?_
    split
    · exact State.sinkDone_wf hu _
    · exact .ok hu
  clear_value done
  cases done with
  | error e => exact State.settle_wf (h1.of_mem (State.failPart_mem ..)) _
  | ok t => exact State.settle_wf ((hdone.of_ok t rfl).of_mem (State.countMorsel_mem ..)) _

theorem State.dispatch_wf {s : State} (h : s.memWf) (d : Nat) (j : Job) (st : Stage) (m : Morsel) (v : Verdict) : (s.dispatch d j st m v).memWf := by
  unfold State.dispatch
  refine State.settle_wf ?_ _
  cases v <;> simpa using h

theorem State.dispatchFirst_wf {s : State} (h : s.memWf) (d t : Nat) (k : UnitKind) (l : List (Morsel × Job × Stage)) :
    (s.dispatchFirst d t k l).memWf := by
  induction l generalizing s with
  | nil => exact h
  | cons x l ih =>
    unfold State.dispatchFirst
    split
    · exact ih h
    · exact ih (by simpa using h)
    · exact State.dispatch_wf h ..

-- A FRAME BOUNDARY

theorem State.placeCaptured_wf {s : State} (h : s.memWf) (r : Rename) (c : Captured) : (s.placeCaptured r c).memWf := by
  unfold State.placeCaptured
  refine State.foldl_wf (fun t x ht => State.foldl_wf (fun u e hu => ?_) _ (by simpa using ht)) _
    (State.foldl_wf (fun t x ht => ?_) _ (by simpa using h))
  · split
    · exact hu
    · exact State.amuWrite_wf hu ..
  · split
    · exact ht
    · simpa using ht

theorem State.doRestore_wf {s : State} (h : s.memWf) (n : Nat) : (s.doRestore n).memWf := by
  unfold State.doRestore
  extract_lets i
  split
  · exact h
  split
  · extract_lets bs gen r bad jobs mids s1 s2 slots s3 s4
    have h2 : s2.memWf := (State.placeCaptured_wf (s := s1) h r _).of_mem (State.clearImeas_mem ..)
    have h4 : s4.memWf := by simpa [s4, s3] using h2
    simpa using h4
  · simpa using h

theorem State.placeWire_wf {s t : State} (h : s.memWf) {j : Job} {i dev id : Nat} {bs : List Byte} (hw : s.placeWire j i dev id bs = some t) :
    t.memWf := by
  unfold State.placeWire at hw
  split at hw
  · cases hw
  split at hw
  · split at hw
    · cases hw
    split at hw
    · cases hw
    next p hp =>
      split at hw <;> cases hw
      · simpa using h
      · next hu => simpa using State.writeInst_wf (h.of_mem (State.takeBuffer_mem hp)) hu
  · cases hw

theorem State.placeJob_wf {s : State} (h : s.memWf) (jid : Nat) : (s.placeJob jid).memWf := by
  unfold State.placeJob
  split
  · exact h
  split
  · exact h
  split
  · exact h
  refine State.settle_wf (State.foldl_wf (fun t w ht => ?_) _ (State.foldl_wf (fun t w ht => ?_) _ h)) _
  · dsimp only
    split
    · exact ht
    · next hu => simpa using State.placeWire_wf ht hu
  · split
    · exact ht
    · next hu => simpa using State.placeWire_wf ht hu

theorem State.stepWires_wf {s : State} (h : s.memWf) : s.stepWires.memWf := by
  refine State.foldl_wf (fun t j ht => State.placeJob_wf ?_ _) _ h
  split
  · simpa using ht
  · exact ht

theorem State.applyStaged_wf {s : State} (h : s.memWf) (n : Nat) (c : InstCmd) : (s.applyStaged n c).memWf := by
  unfold State.applyStaged
  split
  · exact State.doRestore_wf h n
  · dsimp only
    split <;> simpa using h
  · simpa using h

theorem State.stepInst_wf {s : State} (h : s.memWf) (n : Nat) : (s.stepInst n).memWf := by
  unfold State.stepInst
  refine State.foldl_wf (fun t c ht => State.applyStaged_wf ht ..) _ ?_
  split <;> simpa using h

theorem State.stepInsts_wf {s : State} (h : s.memWf) : s.stepInsts.memWf := by
  unfold State.stepInsts
  refine State.foldl_wf (fun t n ht => by simpa using ht) _ ?_
  exact State.memWf.of_mem (State.foldl_wf (fun t n ht => State.stepInst_wf ht n) _ h) (State.stepFences_mem _)

theorem State.boundary_wf {s : State} (h : s.memWf) : s.boundary.memWf := by
  unfold State.boundary
  extract_lets cycles throttled s1 ran s2 s3 s4
  have h2 : s2.memWf := State.stepInsts_wf (by simpa [s1] using h)
  have h4 : s4.memWf := by
    simpa [s4] using State.stepWires_wf (s := s3.evictBeyond) (by simpa [s3] using h2)
  simpa using h4

theorem State.coldReset_wf {s : State} (h : s.memWf) : s.coldReset.memWf := hostCells_wf h

theorem State.warmReset_wf {s : State} (h : s.memWf) (cause : Nat) : (s.warmReset cause).memWf :=
  hostCells_wf (m := s.recordImeas.mem) (by simpa using h)

end Sys2Proof.Machine
end

section
/-!
PROOFS. The canonical form through the work of the fixed units.
-/

namespace Sys2Proof.Machine

-- WHAT A UNIT'S WORK YIELDS

theorem State.yieldColumns_wf {s : State} (h : s.memWf) (d : Nat) (st : Stage) (m : Morsel) (origin frag : Nat) (last : Bool) (hd : DescHdr)
    (cols : List Column) : Yields State.memWf (s.yieldColumns d st m origin frag last hd cols) := by
  unfold State.yieldColumns
  split
  · exact State.sinkPut_wf h ..
  · exact .bind (State.emitColumns_wf h ..) fun p hp => .ok (hp.of_mem (State.placeDesc_mem ..))

theorem State.yieldPassed_wf {s : State} (h : s.memWf) (d : Nat) (st : Stage) (m : Morsel) (desc : List Byte) (bufs : List (Nat × Nat)) :
    Yields State.memWf (s.yieldPassed d st m desc bufs) := by
  unfold State.yieldPassed
  split
  · exact .skip fun _ => State.sinkPut_wf h ..
  · exact .ok (h.of_mem (State.placeDesc_mem ..))

theorem State.yieldSplit_wf {s : State} (h : s.memWf) (d : Nat) (j : Job) (st : Stage) (m : Morsel) (origin frag : Nat) (ends orEmpty : Bool)
    (hd : DescHdr) (cols : List Column) : Yields (fun p => p.1.memWf) (s.yieldSplit d j st m origin frag ends orEmpty hd cols) := by
  unfold State.yieldSplit
  extract_lets n heaps lim parts
  refine .skip fun _ => ?_
  split
  · split
    · exact .ok h
    · exact .bind (State.yieldColumns_wf h ..) fun t ht => .ok ht
  · refine .bind (Q := fun p => p.1.memWf) (.foldlM h fun acc part ha => ?_) fun p hp => .ok hp
    exact .bind (State.yieldColumns_wf ha ..) fun t ht => .ok ht

theorem State.yieldReserved_wf {s : State} (h : s.memWf) (d : Nat) (st : Stage) (j : Job) (m : Morsel) (x : Streamed) (first : Nat) :
    Yields State.memWf (s.yieldReserved d st j m x first) := by
  unfold State.yieldReserved
  extract_lets hd
  split
  · exact State.sinkPut_wf (h.of_mem (State.shrinkBuffer_mem ..)) ..
  · split
    · exact .error
    · exact .bind (State.poke_wf h ..) fun t ht => .ok (by simpa using ht)

-- THE WORK OF EACH ROW

theorem streamerWork_wf {s : State} (h : s.memWf) (u : UId) (j : Job) (st : Stage) (m : Morsel) : Yields State.memWf (streamerWork u s j st m) := by
  unfold streamerWork
  split
  · refine .skip fun x => State.yieldReserved_wf ?_ ..
    split
    · exact h.of_mem (State.modJob_mem ..)
    · exact h
  · exact .ok h

theorem clearWork_wf {s : State} (h : s.memWf) (u : UId) (j : Job) (st : Stage) (m : Morsel) : Yields State.memWf (clearWork u s j st m) := by
  unfold clearWork
  split
  · split
    · exact .ok h
    · exact State.zero_wf h ..
  · exact .ok h

theorem buildWork_wf {s : State} (h : s.memWf) (u : UId) (j : Job) (st : Stage) (m : Morsel) : Yields State.memWf (buildWork u s j st m) := by
  unfold buildWork
  split
  · exact .ok h
  · exact .skip fun _ => .skip fun _ => .skip fun _ => .foldlM h fun _ _ ht => State.buildRow_wf ht ..

theorem probeWork_wf {s : State} (h : s.memWf) (op : ProbeOp) (u : UId) (j : Job) (st : Stage) (m : Morsel) :
    Yields State.memWf (probeWork op u s j st m) := by
  unfold probeWork
  extract_lets ti
  split
  · exact .ok h
  refine .skip fun cols => .skip fun _ => .skip fun keys => .bind (Q := fun p => p.1.memWf) ?_ fun p hp => .skip fun _ => .skip fun _ =>
    .bind (State.yieldSplit_wf hp ..) fun q hq => .ok hq
  exact .foldlM h fun acc i ha => .bind (State.probeRow_wf ha ..) fun x hx => .ok hx

theorem groupWork_wf {s : State} (h : s.memWf) (u : UId) (j : Job) (st : Stage) (m : Morsel) : Yields State.memWf (groupWork u s j st m) :=
  .skip fun _ => .skip fun _ => .skip fun _ => .foldlM (h.of_mem (State.modTable_mem ..)) fun _ _ ht => State.groupRow_wf ht ..

theorem drainWork_wf {s : State} (h : s.memWf) (u : UId) (j : Job) (st : Stage) (m : Morsel) : Yields State.memWf (drainWork u s j st m) := by
  unfold drainWork
  split
  · exact .skip fun _ => .skip fun _ => .bind (State.yieldSplit_wf h ..) fun q hq => .ok hq
  · exact .ok h

theorem mergeWork_wf {s : State} (h : s.memWf) (u : UId) (j : Job) (st : Stage) (m : Morsel) : Yields State.memWf (mergeWork u s j st m) :=
  .bind (State.mergeTake_wf h ..) fun _ hp => .ok (hp.of_mem (State.modArea_mem ..))

theorem finalWork_wf {s : State} (h : s.memWf) (k : Nat) (u : UId) (j : Job) (st : Stage) (m : Morsel) :
    Yields State.memWf (finalWork k u s j st m) := by
  refine .bind (State.mergeTake_wf h ..) fun p hp => ?_
  split
  · exact .ok hp
  · exact .bind (State.yieldSplit_wf hp ..) fun q hq => .ok (hq.of_mem (State.modArea_mem ..))

theorem State.appendColumn_wf {s : State} (h : s.memWf) (d : Nat) (m : Morsel) (c : Column) :
    Yields (fun p => p.1.memWf) (s.appendColumn d m c) :=
  .skip fun _ => .bind (State.emitColumns_wf h ..) fun _ hp => .ok hp

theorem State.withSelection_wf {s : State} (h : s.memWf) (d : Nat) (m : Morsel) (is : List Nat) :
    Yields (fun p => p.1.memWf) (s.withSelection d m is) := by
  unfold State.withSelection
  split
  · exact .ok h
  · exact .bind ⟨fun p hp => h.of_mem (State.takeBuffer_mem hp)⟩ fun p hp => .bind (State.poke_wf hp ..) fun t ht => .ok ht

theorem lookupWork_wf {s : State} (h : s.memWf) (u : UId) (j : Job) (st : Stage) (m : Morsel) : Yields State.memWf (lookupWork u s j st m) := by
  refine .skip fun _ => .skip fun cols => .skip fun sel => .skip fun key => ?_
  have h1 : (s.amuRepair u.die m.inst).memWf := h.of_mem (State.amuRepair_mem ..)
  refine .bind (Q := fun p => p.1.memWf) ?_ fun x hx => State.yieldPassed_wf hx ..
  split
  · exact State.appendColumn_wf h1 ..
  · exact State.appendColumn_wf h1 ..
  · exact State.withSelection_wf h1 ..
  · exact State.withSelection_wf h1 ..

theorem loadWork_wf {s : State} (h : s.memWf) (u : UId) (j : Job) (st : Stage) (m : Morsel) : Yields State.memWf (loadWork u s j st m) :=
  .skip fun _ => .skip fun _ => .skip fun _ => .skip fun _ => .skip fun _ => .skip fun _ => .skip fun _ =>
    .foldlM h fun _ _ ht => .skip fun _ => .skip fun _ => .ok (State.loadRow_wf ht ..)

theorem rowWork_wf {s : State} (h : s.memWf) (u : UId) (j : Job) (st : Stage) (m : Morsel) : Yields State.memWf (rowWork u s j st m) :=
  .skip fun _ => .skip fun _ => .bind (State.appendColumn_wf (h.of_mem (State.modDie_mem ..)) ..) fun _ hx => State.yieldPassed_wf hx ..

theorem streamWork_wf {s : State} (h : s.memWf) (u : UId) (j : Job) (st : Stage) (m : Morsel) : Yields State.memWf (streamWork u s j st m) :=
  ⟨fun _ ht => h.of_mem (streamWork_mem ht)⟩

-- OUTCOMES

/-- A command that goes on keeps the canonical form. -/
structure GoesOnWf (o : Host.Outcome State Fault Refusal) : Prop where
  of_next : ∀ t, o = .next t → t.memWf

theorem GoesOnWf.next {t : State} (h : t.memWf) : GoesOnWf (.next t) := ⟨fun _ e => by cases e; exact h⟩

/-- A command that leaves memory alone. -/
theorem GoesOnWf.of_mem {s : State} {o : Host.Outcome State Fault Refusal} (h : s.memWf) (e : ∀ t, o = .next t → t.mem = s.mem) : GoesOnWf o :=
  ⟨fun t ht => h.of_mem (e t ht)⟩

theorem completeUnit_wf {s : State} (h : s.memWf) (u : UId) (is : Stage → Morsel → Bool) {work : State → Job → Stage → Morsel → Res State}
    (hw : ∀ s j st m, s.memWf → Yields State.memWf (work s j st m)) : GoesOnWf (completeUnit u is work s) := by
  unfold completeUnit
  split
  · exact .next h
  next m _ =>
  split_ifs
  · exact .next h
  have h1 : (s.releaseUnit u m).memWf := h.of_mem (State.releaseUnit_mem ..)
  split
  · exact .next (h1.of_mem (State.staleJob_mem ..))
  split
  · exact .next h
  next j _ _ st _ =>
  split
  · exact .next h
  extract_lets s1
  have hdone : Yields State.memWf ((work s1 j st m).bind fun t => if st.sink then t.sinkDone m else .ok t) :=
    .bind (hw s1 j st m h1) fun t ht => by
      split
      · exact State.sinkDone_wf ht m
      · exact .ok ht
  split
  · next t ht => exact .next (State.settle_wf ((hdone.of_ok t ht).of_mem (State.countMorsel_mem ..)) _)
  · exact .next (State.settle_wf (h1.of_mem (State.failPart_mem ..)) _)

end Sys2Proof.Machine
end

section
/-!
PROOFS. The canonical form through the accesses of a Forager and its instructions.
-/

namespace Sys2Proof.Machine

-- ACCESSES OF A FORAGER

/-- The state after an access that is done stands in its canonical form. -/
def MRes.memWf : MRes → Prop
  | .ok _ t => t.memWf
  | .bad | .wait => True

theorem State.cachedRead_wf {s : State} (h : s.memWf) (f : FId) (g : Fgr) (n page policy : Nat) (l : Loc) (len : Nat) :
    (s.cachedRead f g n page policy l len).memWf := by
  have hfill : ∀ (t : State) (x : Nat × BitVec 512), t.memWf → (if policy = 3 then t.reach n page policy l false else
      (t.reach n page policy l false).modFgr f fun h => { h with dcache := assocSet x.1 x.2 h.dcache }).memWf := fun t x ht => by
    split <;> simpa using ht
  unfold State.cachedRead
  extract_lets k fill
  split
  · split
    · exact h.of_mem (State.drawn_mem _)
    · exact hfill s.drawn (_, _) (h.of_mem (State.drawn_mem _))
  · exact hfill s (_, _) h

theorem State.fgrRead_wf {s : State} (h : s.memWf) (f : FId) (g : Fgr) (a len : Nat) : (s.fgrRead f g a len).memWf := by
  unfold State.fgrRead
  split
  · split
    · trivial
    · split
      · trivial
      · exact h
  · split
    · trivial
    split
    · exact h
    split
    · trivial
    split
    · trivial
    split
    · trivial
    · exact State.cachedRead_wf h ..

theorem State.load_wf {s : State} (h : s.memWf) (f : FId) (g : Fgr) (ldm : Bool) (a len : Nat) : (s.load f g ldm a len).memWf := by
  unfold State.load
  split
  · split
    · exact h
    · trivial
  · exact State.fgrRead_wf h ..

theorem State.storeAt_wf {s : State} (h : s.memWf) (f : FId) (n page policy : Nat) (l : Loc) (bs : List Byte) :
    (s.storeAt f n page policy l bs).memWf := by
  have hw : State.memWf { s with mem := memWrite s.mem (l.key n) bs } := memWrite_wf _ _ h
  exact (hw.of_mem (State.reach_mem ..)).of_mem (State.modFgr_mem ..)

theorem State.fgrWrite_wf {s : State} (h : s.memWf) (f : FId) (g : Fgr) (a : Nat) (bs : List Byte) : (s.fgrWrite f g a bs).memWf := by
  unfold State.fgrWrite
  split
  · split
    · trivial
    · split
      · trivial
      · exact memWrite_wf _ _ h
  · split
    · trivial
    split
    · trivial
    split
    · trivial
    split
    · trivial
    split
    · trivial
    · exact State.storeAt_wf h ..

theorem State.store_wf {s : State} (h : s.memWf) (f : FId) (g : Fgr) (ldm : Bool) (a : Nat) (bs : List Byte) : (s.store f g ldm a bs).memWf := by
  unfold State.store
  split
  · split
    · exact h.of_mem (State.modFgr_mem ..)
    · trivial
  · exact State.fgrWrite_wf h ..

/-- An access that is done leaves a canonical memory. -/
theorem MRes.memWf.of_eq {r : MRes} {bs : List Byte} {t : State} (h : r.memWf) (e : r = .ok bs t) : t.memWf := by
  rw [e] at h
  exact h

-- VECTOR ACCESSES

theorem State.park_wf {s : State} (h : s.memWf) (f : FId) (r : FRegs) : (s.park f r).1.memWf := h.of_mem (State.park_mem ..)

theorem loadElems_wf {s : State} (h : s.memWf) (f : FId) (g : Fgr) (ldm ff : Bool) (rd : BitVec 5) (ea : Nat → W64) (first : Nat) (l : List Nat)
    (r : FRegs) : (loadElems f g ldm ff rd ea first l s r).1.memWf := by
  induction l generalizing s r with
  | nil => exact h
  | cons i is ih =>
    unfold loadElems
    extract_lets fault
    have hfault : ∀ c, (fault c).1.memWf := fun c => by
      unfold fault
      split <;> exact h
    split
    · exact hfault _
    split
    · exact hfault _
    · exact State.park_wf h ..
    · next e => exact ih ((State.load_wf h ..).of_eq e) _

theorem storeElems_wf {s : State} (h : s.memWf) (f : FId) (g : Fgr) (ldm : Bool) (rd : BitVec 5) (ea : Nat → W64) (l : List Nat) (r : FRegs) :
    (storeElems f g ldm rd ea l s r).1.memWf := by
  induction l generalizing s with
  | nil => exact h
  | cons i is ih =>
    unfold storeElems
    split
    · exact h
    split
    · exact h
    · exact State.park_wf h ..
    · next e => exact ih ((State.store_wf h ..).of_eq e)

theorem moveElems_wf {s : State} (h : s.memWf) (f : FId) (k : VKind) (rd : BitVec 5) (ea : FRegs → Nat → W64) (g : Fgr) :
    (moveElems f k rd ea s g).1.memWf := by
  unfold moveElems
  split
  · exact loadElems_wf h ..
  · exact storeElems_wf h ..

-- STRINGS

/-- What an iteration that goes on or stops leaves stands in its canonical form. -/
def StrStep.memWf : StrStep → Prop
  | .next s _ | .stop s _ => s.memWf
  | .fault .. | .wait => True

theorem strLoop_wf {body : State → StrRegs → StrStep} (hb : ∀ s x, s.memWf → (body s x).memWf) (k : Nat) {s : State} (h : s.memWf) (x : StrRegs) :
    (strLoop body k s x).1.memWf := by
  induction k generalizing s x with
  | zero => exact h
  | succ k ih =>
    have hstep := hb s x h
    unfold strLoop
    split
    · next e => rw [e] at hstep; exact hstep
    · exact h
    · exact h
    · next e => rw [e] at hstep; exact ih hstep _

theorem strByte_wf {s : State} (h : s.memWf) (f : FId) (g : Fgr) (ldm : Bool) (a : W64) {k : Byte → State → StrStep}
    (hk : ∀ b t, t.memWf → (k b t).memWf) : (strByte f g ldm a s k).memWf := by
  unfold strByte
  split
  · trivial
  · trivial
  · next e => exact hk _ _ ((State.load_wf h ..).of_eq e)

theorem strPut_wf {s : State} (h : s.memWf) (f : FId) (g : Fgr) (ldm : Bool) (a : W64) (b : Byte) {k : State → StrStep}
    (hk : ∀ t, t.memWf → (k t).memWf) : (strPut f g ldm a b s k).memWf := by
  unfold strPut
  split
  · trivial
  · trivial
  · next e => exact hk _ ((State.store_wf h ..).of_eq e)

theorem matchBytes_wf {s : State} (h : s.memWf) (f : FId) (g : Fgr) (ldm same : Bool) (a : W64) (bs : List Byte) {k : Bool → State → StrStep}
    (hk : ∀ b t, t.memWf → (k b t).memWf) : (matchBytes f g ldm same a bs s k).memWf := by
  induction bs generalizing s same a with
  | nil => exact hk _ _ h
  | cons b bs ih => exact strByte_wf h f g ldm a fun _ _ ht => ih ht ..

theorem strFinish_wf {e : State × StrRegs × StrEnd} (h : e.1.memWf) (f : FId) (put : FRegs → StrRegs → FRegs) (r : FRegs) :
    (strFinish f put r e).1.memWf := by
  unfold strFinish
  extract_lets r'
  split
  · exact h
  · exact h
  · exact h.of_mem (State.modFgr_mem ..)

theorem matchTail_wf {e : State × StrRegs × StrEnd} (h : e.1.memWf) (ctm : Bool) : (matchTail ctm e).1.memWf := by
  unfold matchTail
  split
  · split <;> exact h
  · exact h

-- INSTRUCTIONS OF A FORAGER

theorem State.finish_wf {s : State} (h : s.memWf) (f : FId) (old : FRegs) (x : FRes) : (s.finish f old x).memWf := h.of_mem (State.finish_mem ..)

theorem runFgr_wf {s : State} (h : s.memWf) (f : FId) (w : W32) (chk : FRegs → Option Nat) {body : State → Fgr → State × FRes}
    (hb : ∀ g, (body s g).1.memWf) : GoesOnWf (runFgr f w chk body s) := by
  unfold runFgr
  split
  · exact .next h
  split
  · exact .next h
  split
  · exact .next (h.of_mem (State.takeArith_mem ..))
  split
  · exact .next (h.of_mem (State.preciseTrap_mem ..))
  · exact .next (State.finish_wf (hb _) ..)

theorem runRegs_wf {s : State} (h : s.memWf) (f : FId) (w : W32) (chk : FRegs → Option Nat) (body : FRegs → FRes) :
    GoesOnWf (runRegs f w chk body s) := runFgr_wf h f w chk fun _ => h

theorem loadWith_wf {s : State} (h : s.memWf) (f : FId) (ldm : Bool) (fn3 : BitVec 3) (len : Nat) (x : ImmF) (put : FRegs → Nat → FRegs) :
    GoesOnWf (loadWith f ldm fn3 len x put s) := by
  refine runFgr_wf h _ _ _ fun g => ?_
  dsimp only
  split
  · exact h
  split
  · exact h
  · exact h
  · next e => exact (State.load_wf h ..).of_eq e

theorem storeWith_wf {s : State} (h : s.memWf) (f : FId) (ldm : Bool) (fn3 : BitVec 3) (len : Nat) (x : ImmF) (data : FRegs → Nat) :
    GoesOnWf (storeWith f ldm fn3 len x data s) := by
  refine runFgr_wf h _ _ _ fun g => ?_
  dsimp only
  split
  · exact h
  split
  · exact h
  · exact h
  · next e => exact (State.store_wf h ..).of_eq e

theorem amoWith_wf {s : State} (h : s.memWf) (f : FId) (fn : BitVec 6) (x : RegF) (upd : FRegs → W64 → Option W64) :
    GoesOnWf (amoWith f fn x upd s) := by
  refine runFgr_wf h _ _ _ fun g => ?_
  dsimp only
  split
  · exact h
  split
  · exact h
  · exact h
  next e =>
  refine State.memWf.of_mem ?_ (State.modFgr_mem ..)
  split
  · exact (State.fgrWrite_wf h ..).of_eq e
  · exact h

theorem divWith_wf {s : State} (h : s.memWf) (f : FId) (fn : BitVec 6) (ss : Bool) (x : RegF) (cyc : FRegs → Nat) (put : FRegs → FRegs) :
    GoesOnWf (divWith f fn ss x cyc put s) := runFgr_wf h _ _ _ fun _ => h.of_mem (State.modFgr_mem ..)

theorem fenceWith_wf {s : State} (h : s.memWf) (f : FId) (fn : BitVec 6) (x : RegF) (acq : Bool) : GoesOnWf (fenceWith f fn x acq s) := by
  refine runFgr_wf h _ _ _ fun g => ?_
  dsimp only
  split
  · exact h.of_mem (State.modFgr_mem ..)
  · exact h

theorem vunitWith_wf {s : State} (h : s.memWf) (f : FId) (fn3 : BitVec 3) (k : VKind) (x : ImmF) : GoesOnWf (vunitWith f fn3 k x s) :=
  runFgr_wf h _ _ _ fun _ => moveElems_wf h ..

theorem vstrideWith_wf {s : State} (h : s.memWf) (f : FId) (fn : BitVec 6) (k : VKind) (x : RegF) : GoesOnWf (vstrideWith f fn k x s) :=
  runFgr_wf h _ _ _ fun _ => moveElems_wf h ..

theorem vindexWith_wf {s : State} (h : s.memWf) (f : FId) (fn : BitVec 6) (k : VKind) (x : RegF) : GoesOnWf (vindexWith f fn k x s) :=
  runFgr_wf h _ _ _ fun _ => moveElems_wf h ..

theorem execMovs_wf {s : State} (h : s.memWf) (f : FId) (x : StrF) : GoesOnWf (execMovs f x s) :=
  runFgr_wf h _ _ _ fun _ => strFinish_wf (strLoop_wf (fun _ _ hs => strByte_wf hs _ _ _ _ fun _ _ ht => strPut_wf ht _ _ _ _ _ fun _ hu => by exact hu) _ h _) ..

theorem execFills_wf {s : State} (h : s.memWf) (f : FId) (x : StrF) : GoesOnWf (execFills f x s) :=
  runFgr_wf h _ _ _ fun _ => strFinish_wf (strLoop_wf (fun _ _ hs => strPut_wf hs _ _ _ _ _ fun _ ht => by exact ht) _ h _) ..

theorem execCmps_wf {s : State} (h : s.memWf) (f : FId) (x : StrF) : GoesOnWf (execCmps f x s) := by
  refine runFgr_wf h _ _ _ fun g => strFinish_wf (strLoop_wf (fun t y ht => ?_) _ h _) ..
  dsimp only
  split
  · exact ht
  refine strByte_wf ht _ _ _ _ fun a u hu => strByte_wf hu _ _ _ _ fun b v hv => ?_
  split
  · exact hv
  · split <;> exact hv

theorem execScans_wf {s : State} (h : s.memWf) (f : FId) (x : StrF) : GoesOnWf (execScans f x s) := by
  refine runFgr_wf h _ _ _ fun g => strFinish_wf (strLoop_wf (fun t y ht => ?_) _ h _) ..
  dsimp only
  split
  · exact ht
  refine strByte_wf ht _ _ _ _ fun b u hu => ?_
  split
  · exact hu
  · split <;> exact hu

theorem execMatchs_wf {s : State} (h : s.memWf) (f : FId) (x : StrF) : GoesOnWf (execMatchs f x s) := by
  refine runFgr_wf h _ _ _ fun g => strFinish_wf (matchTail_wf (strLoop_wf (fun t y ht => ?_) _ h _) _) ..
  dsimp only
  split
  · exact ht
  refine matchBytes_wf ht _ _ _ _ _ _ fun same u hu => ?_
  split
  · exact hu
  · split <;> exact hu

-- ITS ATTACHED UNITS

theorem execAmlk_wf {s : State} (h : s.memWf) (f : FId) (x : RegF) : GoesOnWf (execAmlk f x s) := by
  refine runFgr_wf h _ _ _ fun g => ?_
  dsimp only
  split
  · exact h.of_mem (State.countLookup_mem ..)
  split
  · exact h.of_mem (State.failPart_mem ..)
  · exact (h.of_mem (State.amuRepair_mem ..)).of_mem (State.countLookup_mem ..)

theorem execAmwr_wf {s : State} (h : s.memWf) (f : FId) (x : RegF) : GoesOnWf (execAmwr f x s) := by
  refine runFgr_wf h _ _ _ fun g => ?_
  dsimp only
  split
  · exact h
  split
  · exact h
  split
  · exact h
  split
  · exact h
  split
  · exact h
  · exact State.amuWrite_wf h ..

theorem execAmrd_wf {s : State} (h : s.memWf) (f : FId) (x : RegF) : GoesOnWf (execAmrd f x s) := by
  refine runFgr_wf h _ _ _ fun g => ?_
  dsimp only
  split_ifs
  · exact h
  · exact h
  · exact h
  · exact h.of_mem (State.modFgr_mem ..)

theorem State.badHandle_wf {s : State} (h : s.memWf) (f : FId) (g : Fgr) : (s.badHandle f g).1.memWf := h.of_mem (State.badHandle_mem ..)

theorem execDginit_wf {s : State} (h : s.memWf) (f : FId) (x : RegF) : GoesOnWf (execDginit f x s) := by
  refine runFgr_wf h _ _ _ fun g => ?_
  split
  · exact h
  split
  · exact h
  · exact h.of_mem (State.openCtx_mem ..)

theorem State.takeBytes_wf {s : State} (h : s.memWf) (f : FId) (a : W64) (k : Nat) (bs : List Byte) : (s.takeBytes f a k bs).1.memWf := by
  induction k generalizing s a bs with
  | zero => exact h
  | succ k ih =>
    unfold State.takeBytes
    split
    · exact h
    split
    · exact h
    · exact h
    · next e => exact ih ((State.fgrRead_wf h ..).of_eq e) ..

theorem execDgupd_wf {s : State} (h : s.memWf) (f : FId) (x : RegF) : GoesOnWf (execDgupd f x s) := by
  refine runFgr_wf h _ _ _ fun g => ?_
  dsimp only
  split
  · exact State.badHandle_wf h ..
  split
  · exact h
  split
  · exact h
  next e =>
  have h1 := (State.takeBytes_wf h ..).of_mem (State.chargeBlocks_mem e)
  split
  · exact h1.of_mem (State.setCtx_mem ..)
  · exact h1.of_mem (State.setCtx_mem ..)
  · exact (h1.of_mem (State.setCtx_mem ..)).of_mem (State.modFgr_mem ..)

theorem execDgfin_wf {s : State} (h : s.memWf) (f : FId) (x : RegF) : GoesOnWf (execDgfin f x s) := by
  refine runFgr_wf h _ _ _ fun g => ?_
  split
  · exact State.badHandle_wf h ..
  split
  · exact h
  · next e => exact (h.of_mem (State.chargeBlocks_mem e)).of_mem (State.releaseCtx_mem ..)

theorem execDgabt_wf {s : State} (h : s.memWf) (f : FId) (x : RegF) : GoesOnWf (execDgabt f x s) := by
  refine runFgr_wf h _ _ _ fun g => ?_
  split
  · exact State.badHandle_wf h ..
  · exact h.of_mem (State.releaseCtx_mem ..)

theorem execDgcmp_wf {s : State} (h : s.memWf) (f : FId) (x : RegF) : GoesOnWf (execDgcmp f x s) :=
  runFgr_wf h _ _ _ fun _ => h.of_mem (State.compareDigests_mem ..)

theorem execSaddleOp_wf {s : State} (h : s.memWf) (f : FId) (word : W32) : GoesOnWf (execSaddleOp f word s) := by
  unfold execSaddleOp
  split
  · exact .next h
  · exact runFgr_wf h _ _ _ fun _ => h.of_mem (State.modFgr_mem ..)

-- ITS MORSELS

theorem execMdone_wf {s : State} (h : s.memWf) (f : FId) (x : RegF) : GoesOnWf (execMdone f x s) := by
  refine runFgr_wf h _ _ _ fun g => ?_
  split
  · exact h
  split
  · exact h
  split
  · exact h.of_mem (State.modFgr_mem ..)
  · exact State.completeMorsel_wf h ..

theorem execMemit_wf {s : State} (h : s.memWf) (f : FId) (x : RegF) : GoesOnWf (execMemit f x s) := by
  refine runFgr_wf h _ _ _ fun g => ?_
  dsimp only
  split
  · exact h
  · exact h
  split
  · exact h
  split
  · exact h
  split
  · exact h.of_mem (State.failPart_mem ..)
  next hp =>
  have ht := (State.placeOut_wf h ..).of_ok _ hp
  split
  · exact ht.of_mem (State.failPart_mem ..)
  · next hb => exact (ht.of_mem (State.takeBuffer_mem hb)).of_mem (State.modFgr_mem ..)

theorem execRtp_wf {s : State} (h : s.memWf) (f : FId) (x : RegF) : GoesOnWf (execRtp f x s) := runFgr_wf h _ _ _ fun _ => h

end Sys2Proof.Machine
end

section
/-!
PROOFS. The canonical form through the commands that write memory themselves.
-/

namespace Sys2Proof.Machine

-- INSTRUCTIONS THAT TOUCH REGISTERS ONLY

section
variable {s : State} (h : s.memWf)
include h

theorem aluS2_wf (f : FId) (fn : BitVec 6) (x : RegF) (op : Int → Int → Int) : GoesOnWf (aluS2 f fn x op s) := runRegs_wf h _ _ _ _

theorem aluS1_wf (f : FId) (fn : BitVec 6) (x : RegF) (op : Int → Int) : GoesOnWf (aluS1 f fn x op s) := runRegs_wf h _ _ _ _

theorem alu2_wf (f : FId) (fn : BitVec 6) (x : RegF) (op : W64 → W64 → W64) : GoesOnWf (alu2 f fn x op s) := runRegs_wf h _ _ _ _

theorem alu1_wf (f : FId) (fn : BitVec 6) (x : RegF) (op : W64 → W64) : GoesOnWf (alu1 f fn x op s) := runRegs_wf h _ _ _ _

theorem aluCy_wf (f : FId) (fn : BitVec 6) (x : RegF) (op : Bool → Int → Int → Int) : GoesOnWf (aluCy f fn x op s) := runRegs_wf h _ _ _ _

theorem aluImm_wf (f : FId) (fn3 : BitVec 3) (x : ImmF) (op : W64 → W64 → W64) : GoesOnWf (aluImm f fn3 x op s) := runRegs_wf h _ _ _ _

theorem shiftImm_wf (f : FId) (fn3 : BitVec 3) (x : ImmF) (op : W64 → Nat → W64) : GoesOnWf (shiftImm f fn3 x op s) := runRegs_wf h _ _ _ _

theorem mulWith_wf (f : FId) (fn : BitVec 6) (x : RegF) (put : FRegs → W64 → W64 → FRegs) : GoesOnWf (mulWith f fn x put s) := runRegs_wf h _ _ _ _

theorem accWith_wf (f : FId) (fn : BitVec 6) (u : Uses) (x : RegF) (body : FRegs → FRegs) : GoesOnWf (accWith f fn u x body s) :=
  runRegs_wf h _ _ _ _

theorem branchWith_wf (f : FId) (cnd : BitVec 3) (x : BraF) (test : W64 → W64 → Bool) : GoesOnWf (branchWith f cnd x test s) := runRegs_wf h _ _ _ _

theorem crWith_wf (f : FId) (fn3 : BitVec 3) (x : ImmF) (upd : W64 → W64 → W64) : GoesOnWf (crWith f fn3 x upd s) := by
  rw [crWith]
  exact runRegs_wf h _ _ _ _

theorem vvWith_wf (f : FId) (fn : BitVec 6) (u : Uses) (x : RegF) (op : ElemOp) : GoesOnWf (vvWith f fn u x op s) := runRegs_wf h _ _ _ _

theorem vxWith_wf (f : FId) (fn : BitVec 6) (u : Uses) (x : RegF) (op : ElemOp) : GoesOnWf (vxWith f fn u x op s) := runRegs_wf h _ _ _ _

theorem vregWith_wf (f : FId) (op : BitVec 7) (fn : BitVec 6) (u : Uses) (x : RegF) (body : FRegs → FRegs) : GoesOnWf (vregWith f op fn u x body s) :=
  runRegs_wf h _ _ _ _

theorem vshfWith_wf (f : FId) (op : BitVec 7) (u : Uses) (x : ShfF) (exact : FRegs → Nat → Int) : GoesOnWf (vshfWith f op u x exact s) :=
  runRegs_wf h _ _ _ _

theorem vcmpWith_wf (f : FId) (fn : BitVec 6) (x : RegF) (op : Nat → Nat → Nat → Bool) : GoesOnWf (vcmpWith f fn x op s) := runRegs_wf h _ _ _ _

theorem vmaskWith_wf (f : FId) (fn : BitVec 6) (x : RegF) (op : Bool → Bool → Bool) : GoesOnWf (vmaskWith f fn x op s) := runRegs_wf h _ _ _ _

theorem vaccWith_wf (f : FId) (fn : BitVec 6) (u : Uses) (x : RegF) (body : FRegs → FRegs) : GoesOnWf (vaccWith f fn u x body s) :=
  runRegs_wf h _ _ _ _

theorem vbinWith_wf (f : FId) (fn : BitVec 6) (x : RegF) (value : W128 → Nat) : GoesOnWf (vbinWith f fn x value s) := runRegs_wf h _ _ _ _

theorem trapWith_wf (f : FId) (cause : Nat) (tval : FRegs → W64) : GoesOnWf (trapWith f cause tval s) := runRegs_wf h _ _ _ _

end

theorem execRdcr_wf {s : State} (h : s.memWf) (f : FId) (x : ImmF) : GoesOnWf (execRdcr f x s) := by
  rw [execRdcr]
  exact runRegs_wf h _ _ _ _

-- MEMORY THAT MOVES BY ITSELF

theorem migStep_wf {s : State} (h : s.memWf) (n kind : Nat) {run : MigRec → State → State} (hr : ∀ r, (run r s).memWf) :
    GoesOnWf (migStep n kind run s) := by
  unfold migStep
  split
  · exact .next h
  split
  · exact .next h
  split
  · exact .next ((h.of_mem (State.drawn_mem _)).of_mem (State.migFail_mem ..))
  · exact .next (hr _)

theorem execPageOut_wf {s : State} (h : s.memWf) (n : Nat) : GoesOnWf (execPageOut n s) := by
  refine migStep_wf h _ _ fun r => ?_
  split
  · exact h.of_mem (State.migFail_mem ..)
  split
  · exact h
  extract_lets bs bad
  clear_value bs
  have hw : State.memWf { s with mem := memWrite s.mem (hostKey 0 r.host) bs } := memWrite_wf _ _ h
  exact (hw.of_mem (State.modInst_mem ..)).of_mem (State.migDone_mem ..)

theorem execPageIn_wf {s : State} (h : s.memWf) (n : Nat) : GoesOnWf (execPageIn n s) := by
  refine migStep_wf h _ _ fun r => ?_
  split
  · exact h.of_mem (State.migFail_mem ..)
  next a _ =>
  split
  · exact h
  have hw : ∀ (bs : List Byte) (poison : List Nat), State.memWf { s with mem := memWrite s.mem a bs, poison := poison } := fun bs _ =>
    memWrite_wf a bs h
  dsimp only
  split
  · exact ((((hw _ _).of_mem (State.modCc_mem ..)).of_mem (State.modInst_mem ..)).of_mem (State.compareDigests_mem ..)).of_mem
      (State.modInst_mem ..) |>.of_mem (State.migDone_mem ..)
  · exact ((((hw _ _).of_mem (State.modCc_mem ..)).of_mem (State.modInst_mem ..)).of_mem (State.compareDigests_mem ..)).of_mem
      (State.migFail_mem ..)

theorem execImageOut_wf {s : State} (h : s.memWf) (n : Nat) : GoesOnWf (execImageOut n s) := by
  refine migStep_wf h _ _ fun r => ?_
  extract_lets i p
  have hp : p.1.memWf := h.of_mem (State.takeImage_mem ..)
  split
  · exact h.of_mem (State.migFail_mem ..)
  split
  · exact hp.of_mem (State.migFail_mem ..)
  · have hw : State.memWf { p.1 with mem := memWrite p.1.mem (hostKey 0 r.host) p.2 } := memWrite_wf _ _ hp
    exact hw.of_mem (State.migDone_mem ..)

theorem execImageIn_wf {s : State} (h : s.memWf) (n : Nat) : GoesOnWf (execImageIn n s) := by
  refine migStep_wf h _ _ fun r => ?_
  split
  · exact h.of_mem (State.migFail_mem ..)
  · exact (h.of_mem (State.startRestore_mem ..)).of_mem (State.migDone_mem ..)

theorem execZeroFillDone_wf {s : State} (h : s.memWf) (page : Nat) : GoesOnWf (execZeroFillDone page s) := by
  unfold execZeroFillDone
  split
  · exact .next h
  split
  · exact .next h
  · extract_lets a
    exact .next (State.memWf.of_mem (s := { s with mem := memZero s.mem a Config.pageBytes }) (memZero_wf _ _ h) (State.modInst_mem ..))

theorem execAmuBlockClear_wf {s : State} (h : s.memWf) (die block : Nat) : GoesOnWf (execAmuBlockClear die block s) := by
  unfold execAmuBlockClear
  split
  · exact .next h
  · refine .next ?_
    split
    · exact State.amuClearBlock_wf h ..
    · exact h

theorem execShadowFault_wf {s : State} (h : s.memWf) (die index : Nat) : GoesOnWf (execShadowFault die index s) := by
  unfold execShadowFault
  split
  · exact .next h
  extract_lets a at_ s1
  split
  · exact .next (State.amuWrite_wf h ..)
  have h1 : s1.memWf :=
    State.memWf.of_mem (s := { s with mem := memSet s.mem at_ (memGet s.mem at_ ||| 2) }) (memSet_wf _ _ h) (State.modAmu_mem ..)
  exact .next ((h1.of_mem (State.setAmuState_mem ..)).of_mem (State.raiseDie_mem ..))

-- JOBS AND QUEUES

theorem execMorselDispatch_wf {s : State} (h : s.memWf) (die : Nat) (kind : UnitKind) (t : Nat) : GoesOnWf (execMorselDispatch die kind t s) := by
  unfold execMorselDispatch
  split
  · exact .next h
  · exact .next (State.dispatchFirst_wf (h.of_mem (State.atCycle_mem ..)) ..)

theorem execJobAdmit_wf {s : State} (h : s.memWf) (n : Nat) : GoesOnWf (execJobAdmit n s) := by
  unfold execJobAdmit
  split
  · exact .next h
  extract_lets freed
  have hf : freed.memWf := h.of_mem (State.modSq_mem ..)
  split
  · exact .next (hf.of_mem (State.rejectJob_mem ..))
  · refine .next (State.startJob_wf ?_ _)
    exact hf

theorem execGetStatusPage_wf {s : State} (h : s.memWf) (n : Nat) : GoesOnWf (execGetStatusPage n s) := by
  unfold execGetStatusPage
  split
  · exact .next h
  extract_lets e s1 es size cap k bytes
  have h1 : s1.memWf := h.of_mem (State.takeChain_mem ..)
  split
  · exact .next (h1.of_mem (State.complete_mem ..))
  · next hw => exact .next ((State.writeInst_wf h1 hw).of_mem (State.complete_mem ..))

-- TIME AND RESETS

theorem execFrameTick_wf {s : State} (h : s.memWf) : GoesOnWf (execFrameTick s) := by
  unfold execFrameTick
  split
  · exact .next h
  extract_lets s1
  have h1 : s1.memWf := State.commitStep_wf ((h.of_mem (State.elapse_mem ..)).of_mem (State.advanceParts_mem _)) _
  split
  · exact .next (State.warmReset_wf h1 _)
  · exact .next (State.boundary_wf h1)

theorem execPerstDeassert_wf {s : State} (h : s.memWf) : GoesOnWf (execPerstDeassert s) := by
  unfold execPerstDeassert
  split
  · exact .next (State.coldReset_wf h)
  · exact .next h

theorem execIllegalInstruction_wf {s : State} (h : s.memWf) (f : FId) (word : W32) : GoesOnWf (execIllegalInstruction f word s) := by
  unfold execIllegalInstruction
  split
  · exact .next h
  · exact runRegs_wf h ..

end Sys2Proof.Machine
end

section
/-!
PROOFS. Every step keeps memory in its canonical form.
-/

namespace Sys2Proof.Machine

-- EVERY COMMAND

/-- No command takes the memory out of its canonical form. -/
theorem exec_wf {s : State} (h : s.memWf) (i : Instr) : GoesOnWf (exec i s) := by
  cases i with
  | frameTick => rw [exec_frameTick]; exact execFrameTick_wf h
  | morselSave _ => rw [exec_morselSave]; exact .of_mem h fun _ => execMorselSave_mem
  | morselResume _ => rw [exec_morselResume]; exact .of_mem h fun _ => execMorselResume_mem
  | evictedRestore _ => rw [exec_evictedRestore]; exact .of_mem h fun _ => execEvictedRestore_mem
  | overrunLimitReached _ _ _ => rw [exec_overrunLimitReached]; exact .of_mem h fun _ => execOverrunLimitReached_mem
  | framePeriod _ _ => rw [exec_framePeriod]; exact .of_mem h fun _ => execFramePeriod_mem
  | frameNumberRead _ _ => rw [exec_frameNumberRead]; exact .of_mem h fun _ => execFrameNumberRead_mem
  | syncModeSet _ => rw [exec_syncModeSet]; exact .of_mem h fun _ => execSyncModeSet_mem
  | syncModeClear _ => rw [exec_syncModeClear]; exact .of_mem h fun _ => execSyncModeClear_mem
  | t0TaiNs _ _ => rw [exec_t0TaiNs]; exact .of_mem h fun _ => execT0TaiNs_mem
  | ptpMessage _ => rw [exec_ptpMessage]; exact .of_mem h fun _ => execPtpMessage_mem
  | lockingComplete _ => rw [exec_lockingComplete]; exact .of_mem h fun _ => execLockingComplete_mem
  | enterHoldover => rw [exec_enterHoldover]; exact .of_mem h fun _ => execEnterHoldover_mem
  | relock => rw [exec_relock]; exact .of_mem h fun _ => execRelock_mem
  | calDiscipline _ _ => rw [exec_calDiscipline]; exact .of_mem h fun _ => execCalDiscipline_mem
  | morselDispatch _ _ _ => rw [exec_morselDispatch]; exact execMorselDispatch_wf h ..
  | readyLimit _ _ _ => rw [exec_readyLimit]; exact .of_mem h fun _ => execReadyLimit_mem
  | statHold _ _ => rw [exec_statHold]; exact .of_mem h fun _ => execStatHold_mem
  | statHoldExpired _ => rw [exec_statHoldExpired]; exact .of_mem h fun _ => execStatHoldExpired_mem
  | retire _ _ _ => rw [exec_retire]; exact .of_mem h fun _ => execRetire_mem
  | foragerErrThresh _ => rw [exec_foragerErrThresh]; exact .of_mem h fun _ => execForagerErrThresh_mem
  | columnStreamerMorsel _ => rw [exec_columnStreamerMorsel]; exact completeUnit_wf h _ _ fun _ _ _ _ hs => streamerWork_wf hs ..
  | clearMorsel _ => rw [exec_clearMorsel]; exact completeUnit_wf h _ _ fun _ _ _ _ hs => clearWork_wf hs ..
  | build _ => rw [exec_build]; exact completeUnit_wf h _ _ fun _ _ _ _ hs => buildWork_wf hs ..
  | probeInner _ => rw [exec_probeInner]; exact completeUnit_wf h _ _ fun _ _ _ _ hs => probeWork_wf hs ..
  | probeLeft _ => rw [exec_probeLeft]; exact completeUnit_wf h _ _ fun _ _ _ _ hs => probeWork_wf hs ..
  | probeSemi _ => rw [exec_probeSemi]; exact completeUnit_wf h _ _ fun _ _ _ _ hs => probeWork_wf hs ..
  | probeAnti _ => rw [exec_probeAnti]; exact completeUnit_wf h _ _ fun _ _ _ _ hs => probeWork_wf hs ..
  | group _ => rw [exec_group]; exact completeUnit_wf h _ _ fun _ _ _ _ hs => groupWork_wf hs ..
  | drainMorsel _ => rw [exec_drainMorsel]; exact completeUnit_wf h _ _ fun _ _ _ _ hs => drainWork_wf hs ..
  | sortIngest _ => rw [exec_sortIngest]; exact completeUnit_wf h _ _ fun _ _ _ _ hs => State.sortIngest_wf hs ..
  | sortMerge _ => rw [exec_sortMerge]; exact completeUnit_wf h _ _ fun _ _ _ _ hs => mergeWork_wf hs ..
  | sortFinal _ => rw [exec_sortFinal]; exact completeUnit_wf h _ _ fun _ _ _ _ hs => finalWork_wf hs ..
  | topnIngest _ => rw [exec_topnIngest]; exact completeUnit_wf h _ _ fun _ _ _ _ hs => State.topnIngest_wf hs ..
  | topnFinal _ => rw [exec_topnFinal]; exact completeUnit_wf h _ _ fun _ _ _ _ hs => finalWork_wf hs ..
  | lookup _ => rw [exec_lookup]; exact completeUnit_wf h _ _ fun _ _ _ _ hs => lookupWork_wf hs ..
  | load _ => rw [exec_load]; exact completeUnit_wf h _ _ fun _ _ _ _ hs => loadWork_wf hs ..
  | row _ => rw [exec_row]; exact completeUnit_wf h _ _ fun _ _ _ _ hs => rowWork_wf hs ..
  | stream _ => rw [exec_stream]; exact completeUnit_wf h _ _ fun _ _ _ _ hs => streamWork_wf hs ..
  | amuBlockClear _ _ => rw [exec_amuBlockClear]; exact execAmuBlockClear_wf h ..
  | amuSweepStep _ => rw [exec_amuSweepStep]; exact .of_mem h fun _ => execAmuSweepStep_mem
  | shadowFault _ _ => rw [exec_shadowFault]; exact execShadowFault_wf h ..
  | sqTailDoorbell _ _ _ _ => rw [exec_sqTailDoorbell]; exact .of_mem h fun _ => execSqTailDoorbell_mem
  | cqHeadDoorbell _ _ _ _ => rw [exec_cqHeadDoorbell]; exact .of_mem h fun _ => execCqHeadDoorbell_mem
  | aqCfg _ _ _ => rw [exec_aqCfg]; exact .of_mem h fun _ => execAqCfg_mem
  | adminDisableDone _ => rw [exec_adminDisableDone]; exact .of_mem h fun _ => execAdminDisableDone_mem
  | cqStall _ _ => rw [exec_cqStall]; exact .of_mem h fun _ => execCqStall_mem
  | chainFetch => rw [exec_chainFetch]; exact .of_mem h fun _ => execChainFetch_mem
  | jobAdmit _ => rw [exec_jobAdmit]; exact execJobAdmit_wf h ..
  | createSq _ => rw [exec_createSq]; exact .of_mem h fun _ => execCreateSq_mem
  | deleteSq _ => rw [exec_deleteSq]; exact .of_mem h fun _ => execDeleteSq_mem
  | sqDeleteComplete _ _ => rw [exec_sqDeleteComplete]; exact .of_mem h fun _ => execSqDeleteComplete_mem
  | createCq _ => rw [exec_createCq]; exact .of_mem h fun _ => execCreateCq_mem
  | deleteCq _ => rw [exec_deleteCq]; exact .of_mem h fun _ => execDeleteCq_mem
  | loadImage _ => rw [exec_loadImage]; exact .of_mem h fun _ => execLoadImage_mem
  | loadImageChecksDone _ => rw [exec_loadImageChecksDone]; exact .of_mem h fun _ => execLoadImageChecksDone_mem
  | unloadImage _ => rw [exec_unloadImage]; exact .of_mem h fun _ => execUnloadImage_mem
  | imageUnloadComplete _ _ => rw [exec_imageUnloadComplete]; exact .of_mem h fun _ => execImageUnloadComplete_mem
  | abortJob _ => rw [exec_abortJob]; exact .of_mem h fun _ => execAbortJob_mem
  | getStatusPage _ => rw [exec_getStatusPage]; exact execGetStatusPage_wf h ..
  | job _ => rw [exec_job]; exact .of_mem h fun _ => execJob_mem
  | controlPacketsMissing _ _ => rw [exec_controlPacketsMissing]; exact .of_mem h fun _ => execControlPacketsMissing_mem
  | flr _ _ => rw [exec_flr]; exact .of_mem h fun _ => execFlr_mem
  | d3hotToD0 _ _ => rw [exec_d3hotToD0]; exact .of_mem h fun _ => execD3hotToD0_mem
  | vfEnable _ _ _ => rw [exec_vfEnable]; exact .of_mem h fun _ => execVfEnable_mem
  | atsInvalidation _ _ _ => rw [exec_atsInvalidation]; exact .of_mem h fun _ => execAtsInvalidation_mem
  | linkDown => rw [exec_linkDown]; exact .of_mem h fun _ => execLinkDown_mem
  | linkUp _ _ _ => rw [exec_linkUp]; exact .of_mem h fun _ => execLinkUp_mem
  | registerWrite _ _ _ _ => rw [exec_registerWrite]; exact .of_mem h fun _ => execRegisterWrite_mem
  | enable _ _ _ => rw [exec_enable]; exact .of_mem h fun _ => execEnable_mem
  | disable _ _ _ => rw [exec_disable]; exact .of_mem h fun _ => execDisable_mem
  | reset _ _ _ => rw [exec_reset]; exact .of_mem h fun _ => execReset_mem
  | instResetDone _ => rw [exec_instResetDone]; exact .of_mem h fun _ => execInstResetDone_mem
  | freezeDrain _ _ _ => rw [exec_freezeDrain]; exact .of_mem h fun _ => execFreezeDrain_mem
  | freezeAbort _ _ _ => rw [exec_freezeAbort]; exact .of_mem h fun _ => execFreezeAbort_mem
  | freezeTimeout _ => rw [exec_freezeTimeout]; exact .of_mem h fun _ => execFreezeTimeout_mem
  | thaw _ _ _ => rw [exec_thaw]; exact .of_mem h fun _ => execThaw_mem
  | coreFrames _ _ _ => rw [exec_coreFrames]; exact .of_mem h fun _ => execCoreFrames_mem
  | share _ _ _ _ => rw [exec_share]; exact .of_mem h fun _ => execShare_mem
  | fabricShare _ _ _ => rw [exec_fabricShare]; exact .of_mem h fun _ => execFabricShare_mem
  | imgStore _ _ _ => rw [exec_imgStore]; exact .of_mem h fun _ => execImgStore_mem
  | sqQuota _ _ _ => rw [exec_sqQuota]; exact .of_mem h fun _ => execSqQuota_mem
  | cqQuota _ _ _ => rw [exec_cqQuota]; exact .of_mem h fun _ => execCqQuota_mem
  | pasid _ _ _ => rw [exec_pasid]; exact .of_mem h fun _ => execPasid_mem
  | ptPages _ _ _ => rw [exec_ptPages]; exact .of_mem h fun _ => execPtPages_mem
  | ptWrite _ _ _ => rw [exec_ptWrite]; exact .of_mem h fun _ => execPtWrite_mem
  | regions _ _ _ => rw [exec_regions]; exact .of_mem h fun _ => execRegions_mem
  | ccWays _ _ _ _ => rw [exec_ccWays]; exact .of_mem h fun _ => execCcWays_mem
  | wayCleanDone _ _ => rw [exec_wayCleanDone]; exact .of_mem h fun _ => execWayCleanDone_mem
  | waySweepDone _ _ => rw [exec_waySweepDone]; exact .of_mem h fun _ => execWaySweepDone_mem
  | pageReleaseCleanDone _ => rw [exec_pageReleaseCleanDone]; exact .of_mem h fun _ => execPageReleaseCleanDone_mem
  | zeroFillDone _ => rw [exec_zeroFillDone]; exact execZeroFillDone_wf h ..
  | ccLock _ _ _ _ => rw [exec_ccLock]; exact .of_mem h fun _ => execCcLock_mem
  | clean _ _ => rw [exec_clean]; exact .of_mem h fun _ => execClean_mem
  | cleanInval _ _ => rw [exec_cleanInval]; exact .of_mem h fun _ => execCleanInval_mem
  | invalDone _ => rw [exec_invalDone]; exact .of_mem h fun _ => execInvalDone_mem
  | dirtyCtl _ _ _ => rw [exec_dirtyCtl]; exact .of_mem h fun _ => execDirtyCtl_mem
  | powerDown _ _ => rw [exec_powerDown]; exact .of_mem h fun _ => execPowerDown_mem
  | powerDownDone _ _ => rw [exec_powerDownDone]; exact .of_mem h fun _ => execPowerDownDone_mem
  | powerUp _ _ => rw [exec_powerUp]; exact .of_mem h fun _ => execPowerUp_mem
  | powerUpDone _ _ => rw [exec_powerUpDone]; exact .of_mem h fun _ => execPowerUpDone_mem
  | wayEnable _ _ => rw [exec_wayEnable]; exact .of_mem h fun _ => execWayEnable_mem
  | ccWayDisable _ _ => rw [exec_ccWayDisable]; exact .of_mem h fun _ => execCcWayDisable_mem
  | ccWayDisabled _ _ => rw [exec_ccWayDisabled]; exact .of_mem h fun _ => execCcWayDisabled_mem
  | wayErrWindowEnd _ _ => rw [exec_wayErrWindowEnd]; exact .of_mem h fun _ => execWayErrWindowEnd_mem
  | ccCtl _ _ _ => rw [exec_ccCtl]; exact .of_mem h fun _ => execCcCtl_mem
  | ccDrainDone _ => rw [exec_ccDrainDone]; exact .of_mem h fun _ => execCcDrainDone_mem
  | patrolScrub _ _ => rw [exec_patrolScrub]; exact .of_mem h fun _ => execPatrolScrub_mem
  | bankSpare _ _ _ => rw [exec_bankSpare]; exact .of_mem h fun _ => execBankSpare_mem
  | bankSpareCopyDone _ _ => rw [exec_bankSpareCopyDone]; exact .of_mem h fun _ => execBankSpareCopyDone_mem
  | pageOut _ => rw [exec_pageOut]; exact execPageOut_wf h ..
  | pageIn _ => rw [exec_pageIn]; exact execPageIn_wf h ..
  | imageOut _ => rw [exec_imageOut]; exact execImageOut_wf h ..
  | imageIn _ => rw [exec_imageIn]; exact execImageIn_wf h ..
  | migCopyDone _ => rw [exec_migCopyDone]; exact .of_mem h fun _ => execMigCopyDone_mem
  | stateImage _ _ _ => rw [exec_stateImage]; exact .of_mem h fun _ => execStateImage_mem
  | restoreChecksDone _ => rw [exec_restoreChecksDone]; exact .of_mem h fun _ => execRestoreChecksDone_mem
  | mbxPost _ _ _ _ => rw [exec_mbxPost]; exact .of_mem h fun _ => execMbxPost_mem
  | mbxAck _ _ _ _ => rw [exec_mbxAck]; exact .of_mem h fun _ => execMbxAck_mem
  | saddleEnable _ => rw [exec_saddleEnable]; exact .of_mem h fun _ => execSaddleEnable_mem
  | saddleEnableDone _ => rw [exec_saddleEnableDone]; exact .of_mem h fun _ => execSaddleEnableDone_mem
  | saddleDisable _ => rw [exec_saddleDisable]; exact .of_mem h fun _ => execSaddleDisable_mem
  | saddleDisableDone => rw [exec_saddleDisableDone]; exact .of_mem h fun _ => execSaddleDisableDone_mem
  | saddlePortDown => rw [exec_saddlePortDown]; exact .of_mem h fun _ => execSaddlePortDown_mem
  | saddleTimeout => rw [exec_saddleTimeout]; exact .of_mem h fun _ => execSaddleTimeout_mem
  | saddleResponse _ _ _ _ => rw [exec_saddleResponse]; exact .of_mem h fun _ => execSaddleResponse_mem
  | ridgeCrcError _ => rw [exec_ridgeCrcError]; exact .of_mem h fun _ => execRidgeCrcError_mem
  | ridgeLaneFail _ => rw [exec_ridgeLaneFail]; exact .of_mem h fun _ => execRidgeLaneFail_mem
  | crestLinkDown _ _ => rw [exec_crestLinkDown]; exact .of_mem h fun _ => execCrestLinkDown_mem
  | ringLinkDown _ _ => rw [exec_ringLinkDown]; exact .of_mem h fun _ => execRingLinkDown_mem
  | ringRequestTimeout _ _ => rw [exec_ringRequestTimeout]; exact .of_mem h fun _ => execRingRequestTimeout_mem
  | combUe _ _ => rw [exec_combUe]; exact .of_mem h fun _ => execCombUe_mem
  | crestUe => rw [exec_crestUe]; exact .of_mem h fun _ => execCrestUe_mem
  | foragerUe _ => rw [exec_foragerUe]; exact .of_mem h fun _ => execForagerUe_mem
  | dieFence _ _ _ => rw [exec_dieFence]; exact .of_mem h fun _ => execDieFence_mem
  | dieFenceComplete _ => rw [exec_dieFenceComplete]; exact .of_mem h fun _ => execDieFenceComplete_mem
  | data _ _ => rw [exec_data]; exact .of_mem h fun _ => execData_mem
  | control _ _ _ => rw [exec_control]; exact .of_mem h fun _ => execControl_mem
  | fabricLoss _ => rw [exec_fabricLoss]; exact .of_mem h fun _ => execFabricLoss_mem
  | joinTimeout _ => rw [exec_joinTimeout]; exact .of_mem h fun _ => execJoinTimeout_mem
  | portDown _ => rw [exec_portDown]; exact .of_mem h fun _ => execPortDown_mem
  | portUp _ => rw [exec_portUp]; exact .of_mem h fun _ => execPortUp_mem
  | portDisable _ _ => rw [exec_portDisable]; exact .of_mem h fun _ => execPortDisable_mem
  | portEnable _ _ => rw [exec_portEnable]; exact .of_mem h fun _ => execPortEnable_mem
  | neighborSolicitation _ _ => rw [exec_neighborSolicitation]; exact .of_mem h fun _ => execNeighborSolicitation_mem
  | echoRequest _ _ _ => rw [exec_echoRequest]; exact .of_mem h fun _ => execEchoRequest_mem
  | deviceId _ _ => rw [exec_deviceId]; exact .of_mem h fun _ => execDeviceId_mem
  | portMode _ _ => rw [exec_portMode]; exact .of_mem h fun _ => execPortMode_mem
  | vfVectors _ _ => rw [exec_vfVectors]; exact .of_mem h fun _ => execVfVectors_mem
  | read _ _ => rw [exec_read]; exact .of_mem h fun _ => execRead_mem
  | write _ _ => rw [exec_write]; exact .of_mem h fun _ => execWrite_mem
  | segRead _ _ => rw [exec_segRead]; exact .of_mem h fun _ => execSegRead_mem
  | segWrite _ _ => rw [exec_segWrite]; exact .of_mem h fun _ => execSegWrite_mem
  | endXfer _ _ => rw [exec_endXfer]; exact .of_mem h fun _ => execEndXfer_mem
  | abort _ _ => rw [exec_abort]; exact .of_mem h fun _ => execAbort_mem
  | kdwDataWrite _ _ _ => rw [exec_kdwDataWrite]; exact .of_mem h fun _ => execKdwDataWrite_mem
  | kdwDataRead _ _ => rw [exec_kdwDataRead]; exact .of_mem h fun _ => execKdwDataRead_mem
  | kdpRead _ _ => rw [exec_kdpRead]; exact .of_mem h fun _ => execKdpRead_mem
  | kdpWrite _ _ => rw [exec_kdpWrite]; exact .of_mem h fun _ => execKdpWrite_mem
  | segReadStart _ _ => rw [exec_segReadStart]; exact .of_mem h fun _ => execSegReadStart_mem
  | segWriteStart _ _ => rw [exec_segWriteStart]; exact .of_mem h fun _ => execSegWriteStart_mem
  | segData _ _ => rw [exec_segData]; exact .of_mem h fun _ => execSegData_mem
  | segEnd _ _ => rw [exec_segEnd]; exact .of_mem h fun _ => execSegEnd_mem
  | segAbort _ _ => rw [exec_segAbort]; exact .of_mem h fun _ => execSegAbort_mem
  | segTimeout _ => rw [exec_segTimeout]; exact .of_mem h fun _ => execSegTimeout_mem
  | setEndpointId _ _ _ => rw [exec_setEndpointId]; exact .of_mem h fun _ => execSetEndpointId_mem
  | getEndpointId _ _ => rw [exec_getEndpointId]; exact .of_mem h fun _ => execGetEndpointId_mem
  | getMctpVersionSupport _ _ _ => rw [exec_getMctpVersionSupport]; exact .of_mem h fun _ => execGetMctpVersionSupport_mem
  | getMessageTypeSupport _ _ => rw [exec_getMessageTypeSupport]; exact .of_mem h fun _ => execGetMessageTypeSupport_mem
  | getVendorDefinedMessageSupport _ _ _ => rw [exec_getVendorDefinedMessageSupport]; exact .of_mem h fun _ => execGetVendorDefinedMessageSupport_mem
  | dictWrite _ _ _ _ _ => rw [exec_dictWrite]; exact .of_mem h fun _ => execDictWrite_mem
  | persistCommit _ => rw [exec_persistCommit]; exact .of_mem h fun _ => execPersistCommit_mem
  | logAck _ _ => rw [exec_logAck]; exact .of_mem h fun _ => execLogAck_mem
  | logMode _ _ => rw [exec_logMode]; exact .of_mem h fun _ => execLogMode_mem
  | logRead _ => rw [exec_logRead]; exact .of_mem h fun _ => execLogRead_mem
  | calTime _ _ => rw [exec_calTime]; exact .of_mem h fun _ => execCalTime_mem
  | calState _ _ => rw [exec_calState]; exact .of_mem h fun _ => execCalState_mem
  | quoteReq _ _ _ => rw [exec_quoteReq]; exact .of_mem h fun _ => execQuoteReq_mem
  | quoteSigned => rw [exec_quoteSigned]; exact .of_mem h fun _ => execQuoteSigned_mem
  | measExtend _ _ => rw [exec_measExtend]; exact .of_mem h fun _ => execMeasExtend_mem
  | imeasExtend _ _ _ => rw [exec_imeasExtend]; exact .of_mem h fun _ => execImeasExtend_mem
  | svnRaise _ _ => rw [exec_svnRaise]; exact .of_mem h fun _ => execSvnRaise_mem
  | fwStage _ _ => rw [exec_fwStage]; exact .of_mem h fun _ => execFwStage_mem
  | fwSwitch _ _ => rw [exec_fwSwitch]; exact .of_mem h fun _ => execFwSwitch_mem
  | fwSwitchFail => rw [exec_fwSwitchFail]; exact .of_mem h fun _ => execFwSwitchFail_mem
  | evtAck _ => rw [exec_evtAck]; exact .of_mem h fun _ => execEvtAck_mem
  | evtMask _ => rw [exec_evtMask]; exact .of_mem h fun _ => execEvtMask_mem
  | eventHoldoffEnd _ => rw [exec_eventHoldoffEnd]; exact .of_mem h fun _ => execEventHoldoffEnd_mem
  | keeperWatchdog => rw [exec_keeperWatchdog]; exact .of_mem h fun _ => execKeeperWatchdog_mem
  | keeperRestart => rw [exec_keeperRestart]; exact .of_mem h fun _ => execKeeperRestart_mem
  | warmReset _ _ => rw [exec_warmReset]; exact .of_mem h fun _ => execWarmReset_mem
  | deviceClassError => rw [exec_deviceClassError]; exact .of_mem h fun _ => execDeviceClassError_mem
  | perstAssert => rw [exec_perstAssert]; exact .of_mem h fun _ => execPerstAssert_mem
  | perstDeassert => rw [exec_perstDeassert]; exact execPerstDeassert_wf h
  | bringupTimeout => rw [exec_bringupTimeout]; exact .of_mem h fun _ => execBringupTimeout_mem
  | railFault _ => rw [exec_railFault]; exact .of_mem h fun _ => execRailFault_mem
  | thermalSample _ => rw [exec_thermalSample]; exact .of_mem h fun _ => execThermalSample_mem
  | throttleStepUp => rw [exec_throttleStepUp]; exact .of_mem h fun _ => execThrottleStepUp_mem
  | arithTrapDelivery _ => rw [exec_arithTrapDelivery]; exact .of_mem h fun _ => execArithTrapDelivery_mem
  | add _ _ | sub _ _ => simp only [exec]; exact aluS2_wf h ..
  | neg _ _ | abs _ _ => simp only [exec]; exact aluS1_wf h ..
  | and _ _ | or _ _ | xor _ _ | andn _ _ | sll _ _ | srl _ _ | sra _ _ | ror _ _ | min _ _ | max _ _ | minu _ _ | maxu _ _ | seq _ _ | slt _ _
  | sltu _ _ => simp only [exec]; exact alu2_wf h ..
  | clz _ _ | ctz _ _ | popc _ _ | bswap _ _ => simp only [exec]; exact alu1_wf h ..
  | addcy _ _ | addc _ _ | subby _ _ | subb _ _ => simp only [exec]; exact aluCy_wf h ..
  | addi _ _ | andi _ _ | ori _ _ | xori _ _ | slti _ _ => simp only [exec]; exact aluImm_wf h ..
  | slli _ _ | srli _ _ | srai _ _ => simp only [exec]; exact shiftImm_wf h ..
  | lui _ _ | auipc _ _ | srar _ _ | mul _ _ | mulq _ _ | accrd _ _ | accrdw _ _ | accrdx _ _ | bina _ _ | binb _ _ | jal _ _ | jalr _ _ | loop _ _
  | abar _ _ | brk _ _ | vsetvl _ _ | vacsum _ _ | vacrd _ _ | vsortp _ _ => simp only [exec]; exact runRegs_wf h _ _ _ _
  | mulh _ _ | mulhu _ _ | mulw _ _ | mulwu _ _ => simp only [exec]; exact mulWith_wf h ..
  | div _ _ | divu _ _ | rem _ _ | remu _ _ | divw _ _ | divwu _ _ => simp only [exec]; exact divWith_wf h ..
  | accclr _ _ | accadd _ _ | accaddw _ _ | accmac _ _ | accmsu _ _ | accwr _ _ => simp only [exec]; exact accWith_wf h ..
  | lb _ _ | lh _ _ | lw _ _ | ld _ _ | lbu _ _ | lhu _ _ | lwu _ _ | lq _ _ | lbL _ _ | lhL _ _ | lwL _ _ | ldL _ _ | lbuL _ _ | lhuL _ _
  | lwuL _ _ | lqL _ _ => simp only [exec]; exact loadWith_wf h ..
  | sb _ _ | sh _ _ | sw _ _ | sd _ _ | sq _ _ | sbL _ _ | shL _ _ | swL _ _ | sdL _ _ | sqL _ _ => simp only [exec]; exact storeWith_wf h ..
  | amoadd _ _ | amoswap _ _ | amocas _ _ => simp only [exec]; exact amoWith_wf h ..
  | fence _ _ | fenceRel _ _ | fenceAcq _ _ => simp only [exec]; exact fenceWith_wf h ..
  | beq _ _ | bne _ _ | blt _ _ | bge _ _ | bltu _ _ | bgeu _ _ => simp only [exec]; exact branchWith_wf h ..
  | mdone _ _ => rw [exec_mdone]; exact execMdone_wf h ..
  | memit _ _ => rw [exec_memit]; exact execMemit_wf h ..
  | rtp _ _ => rw [exec_rtp]; exact execRtp_wf h ..
  | rdcr _ _ => rw [exec_rdcr]; exact execRdcr_wf h ..
  | wrcr _ _ | setcr _ _ | clrcr _ _ => simp only [exec]; exact crWith_wf h ..
  | vadd _ _ | vsub _ _ | vneg _ _ | vabs _ _ | vand _ _ | vor _ _ | vxor _ _ | vandn _ _ | vsll _ _ | vsrl _ _ | vsra _ _ | vmin _ _ | vmax _ _
  | vminu _ _ | vmaxu _ _ | vmul _ _ | vmulh _ _ | vmulhu _ _ => simp only [exec]; exact vvWith_wf h ..
  | vaddVx _ _ | vsubVx _ _ | vandVx _ _ | vorVx _ _ | vxorVx _ _ | vandnVx _ _ | vsllVx _ _ | vsrlVx _ _ | vsraVx _ _ | vminVx _ _ | vmaxVx _ _
  | vminuVx _ _ | vmaxuVx _ _ | vmulVx _ _ | vmulhVx _ _ | vmulhuVx _ _ => simp only [exec]; exact vxWith_wf h ..
  | vmulq _ _ | vsrar _ _ => simp only [exec]; exact vshfWith_wf h ..
  | vcmpeq _ _ | vcmpne _ _ | vcmplt _ _ | vcmple _ _ | vcmpltu _ _ | vcmpleu _ _ => simp only [exec]; exact vcmpWith_wf h ..
  | vmand _ _ | vmor _ _ | vmxor _ _ | vmandn _ _ => simp only [exec]; exact vmaskWith_wf h ..
  | vcompress _ _ | vexpand _ _ | vmerge _ _ | vpopc _ _ | vfirst _ _ | viota _ _ | vsort _ _ | vmrglo _ _ | vmrghi _ _ | vmv _ _ | vget _ _
  | vput _ _ | vsplat _ _ => simp only [exec]; exact vregWith_wf h ..
  | vacclr _ _ | vacadd _ _ | vacaddu _ _ | vacmac _ _ | vacmsu _ _ => simp only [exec]; exact vaccWith_wf h ..
  | vbina _ _ | vbinb _ _ => simp only [exec]; exact vbinWith_wf h ..
  | vld _ _ | vldL _ _ | vldff _ _ | vst _ _ | vstL _ _ => simp only [exec]; exact vunitWith_wf h ..
  | vlds _ _ | vldsL _ _ | vsts _ _ | vstsL _ _ => simp only [exec]; exact vstrideWith_wf h ..
  | vgath _ _ | vgathL _ _ | vgathff _ _ | vscat _ _ | vscatL _ _ => simp only [exec]; exact vindexWith_wf h ..
  | movs _ _ => rw [exec_movs]; exact execMovs_wf h ..
  | fills _ _ => rw [exec_fills]; exact execFills_wf h ..
  | cmps _ _ => rw [exec_cmps]; exact execCmps_wf h ..
  | scans _ _ => rw [exec_scans]; exact execScans_wf h ..
  | matchs _ _ => rw [exec_matchs]; exact execMatchs_wf h ..
  | amlk _ _ => rw [exec_amlk]; exact execAmlk_wf h ..
  | amwr _ _ => rw [exec_amwr]; exact execAmwr_wf h ..
  | amrd _ _ => rw [exec_amrd]; exact execAmrd_wf h ..
  | dginit _ _ => rw [exec_dginit]; exact execDginit_wf h ..
  | dgupd _ _ => rw [exec_dgupd]; exact execDgupd_wf h ..
  | dgfin _ _ => rw [exec_dgfin]; exact execDgfin_wf h ..
  | dgabt _ _ => rw [exec_dgabt]; exact execDgabt_wf h ..
  | dgcmp _ _ => rw [exec_dgcmp]; exact execDgcmp_wf h ..
  | saddleOp _ _ => rw [exec_saddleOp]; exact execSaddleOp_wf h ..
  | illegalInstruction _ _ => rw [exec_illegalInstruction]; exact execIllegalInstruction_wf h ..
  | fetchFault _ => rw [exec_fetchFault]; exact trapWith_wf h ..
  | d0ToD3hot _ => rw [exec_d0ToD3hot]; exact .of_mem h fun _ => execD0ToD3hot_mem
  | pcieHotReset _ => rw [exec_pcieHotReset]; exact .of_mem h fun _ => execPcieHotReset_mem
  | hostCompletion _ _ _ _ => rw [exec_hostCompletion]; exact .of_mem h fun _ => execHostCompletion_mem
  | mainPowerOn => rw [exec_mainPowerOn]; exact .of_mem h fun _ => execMainPowerOn_mem
  | mainPowerOff _ => rw [exec_mainPowerOff]; exact .of_mem h fun _ => execMainPowerOff_mem
  | calendarStop => rw [exec_calendarStop]; exact .of_mem h fun _ => execCalendarStop_mem
  | bringupStepComplete _ => rw [exec_bringupStepComplete]; exact .of_mem h fun _ => execBringupStepComplete_mem
  | resultDigestChunk _ _ _ => rw [exec_resultDigestChunk]; exact .of_mem h fun _ => execResultDigestChunk_mem
  | kdpResponseExpiry _ _ => rw [exec_kdpResponseExpiry]; exact .of_mem h fun _ => execKdpResponseExpiry_mem

/-- Settles O59: a step runs one command, and no command takes the memory out of its canonical form. -/
theorem memoryStaysCanonical : Obligations.MemoryStaysCanonical := by
  intro s t h hstep
  rw [step] at hstep
  split at hstep
  · exact (GoesOnWf.next h).of_next t hstep
  · next c rest _ =>
    have hr : State.memWf { s with pending := rest } := h
    exact (exec_wf hr c).of_next t hstep

end Sys2Proof.Machine
end

section
/-!
PROOFS. Chains, the queue served next, and the admin commands on queues (R344 to R351).
-/

namespace Sys2Proof.Machine

-- CHAINS --------------------------------------------------------------------------------------------------------------------------------------

/-- The first element that satisfies `p`, with its index, where the elements before do not. -/
theorem find?_zipIdx_append {α : Type} {p : α → Bool} {init more : List α} {z : α} (hi : ∀ x ∈ init, p x = false) (hz : p z = true) :
    ((init ++ z :: more).zipIdx.find? fun x => p x.1) = some (z, init.length) := by
  have hnone : init.zipIdx.find? (fun x => p x.1) = none :=
    List.find?_eq_none.2 fun x hx => by simp [hi x.1 (List.fst_mem_of_mem_zipIdx hx)]
  simp [List.zipIdx_append, List.find?_append, hnone, hz]

theorem chainTake_chain {chain more : List (List Byte)} {e : List Byte} (he : chain.head? = some e) (hlen : chain.length ≤ 64)
    (hfirst : entFirst e = true) (hsame : ∀ x ∈ chain, entOpcode x = entOpcode e ∧ entCid x = entCid e)
    (hrest : ∀ x ∈ chain.drop 1, entFirst x = false) (hmid : ∀ x ∈ chain.dropLast, entLast x = false)
    (hlast : ∀ x, chain.getLast? = some x → entLast x = true) : chainTake (chain ++ more) = (chain.length, false) := by
  obtain ⟨l, rfl⟩ : ∃ l, chain = e :: l := by
    cases chain with
    | nil => cases he
    | cons a l => exact ⟨l, by simpa using he⟩
  rcases List.eq_nil_or_concat l with rfl | ⟨init, z, rfl⟩
  · have hl : entLast e = true := hlast e rfl
    simp [chainTake, hfirst, hl]
  · simp only [List.concat_eq_append, ← List.cons_append, List.dropLast_concat, List.getLast?_concat, List.length_append] at *
    have hle : entLast e = false := hmid e (by simp)
    have hz : entFirst z = false := hrest z (by simp)
    have hzl : entLast z = true := hlast z rfl
    obtain ⟨hzo, hzc⟩ := hsame z (by simp)
    have hin : ∀ x ∈ init, (entFirst x || entOpcode x != entOpcode e || entCid x != entCid e || entLast x) = false := fun x hx => by
      obtain ⟨ho, hc⟩ := hsame x (by simp [hx])
      simp [hrest x (by simp [hx]), ho, hc, hmid x (by simp [hx])]
    have htake : (init ++ z :: more).take 63 = init ++ z :: more.take (62 - init.length) := by
      simp only [List.length_cons, List.length_nil] at hlen
      rw [List.take_append, List.take_of_length_le (by omega), show 63 - init.length = (62 - init.length) + 1 by omega, List.take_succ_cons]
    have hfind := find?_zipIdx_append (more := more.take (62 - init.length)) hin (z := z) (by simp [hzl])
    simp [chainTake, hfirst, hle, htake, hfind, hz, hzo, hzc]

-- THE QUEUE SERVED NEXT -----------------------------------------------------------------------------------------------------------------------

theorem Inst.nextSq_spec {i : Inst} {q : Sq} (h : i.nextSq = some q) :
    q ∈ i.sqs ∧ i.servable q = true ∧ ((∃ x ∈ i.sqs, x.qid = 0 ∧ i.servable x = true) → q.qid = 0) := by
  unfold Inst.nextSq at h
  dsimp only at h
  split at h
  · next p hp =>
    cases h
    have hmem := List.mem_filter.1 (List.mem_of_find?_eq_some hp)
    exact ⟨hmem.1, hmem.2, fun _ => by simpa using List.find?_some hp⟩
  · next hp =>
    have hnone : ¬ ∃ x ∈ i.sqs, x.qid = 0 ∧ i.servable x = true := fun ⟨x, hx, h0, hs⟩ => by
      simpa [h0] using List.find?_eq_none.1 hp x (List.mem_filter.2 ⟨hx, hs⟩)
    obtain ⟨c, -, hc⟩ := List.exists_of_findSome?_eq_some h
    have hq : q ∈ (i.sqs.filter i.servable).filter fun q => q.cls == c && q.qid != 0 := by
      refine (sortBy_perm (fun a b => decide (a.qid ≤ b.qid)) _).mem_iff.1 ?_
      split at hc
      · next r hr =>
        cases hc
        exact List.mem_of_find?_eq_some hr
      · exact List.mem_of_mem_head? hc
    obtain ⟨hm, hs⟩ := List.mem_filter.1 (List.mem_filter.1 hq).1
    exact ⟨hm, hs, fun h => absurd h hnone⟩

theorem State.servableIn_spec {s : State} {l rest : List Nat} {n : Nat} {q : Sq} (h : s.servableIn l = some (n, q, rest)) :
    (s.instD n).admits = true ∧ (s.instD n).nextSq = some q := by
  induction l with
  | nil => cases h
  | cons m l ih =>
    unfold State.servableIn at h
    dsimp only at h
    split at h
    · next hq =>
      cases h
      split at hq
      · next ha => exact ⟨ha, hq⟩
      · cases hq
    · exact ih h

theorem State.nextServed_spec {s : State} {rest : List Nat} {n : Nat} {q : Sq} (h : s.nextServed = some (n, q, rest)) :
    (s.instD n).admits = true ∧ (s.instD n).nextSq = some q := by
  unfold State.nextServed at h
  split at h
  · next x hx =>
    cases h
    exact State.servableIn_spec hx
  · exact State.servableIn_spec h

theorem Inst.admits_iff {i : Inst} : i.admits = true ↔ i.state = .enabled ∧ i.d3hot = false := by simp [Inst.admits]

section
variable {s : State} (hm : s.power.mainPower = true) (hp : s.power.perst = false) (hr : s.power.devState = .ready)
include hm hp hr

theorem chainFetch_idle (hn : s.nextServed = none) : exec .chainFetch s = .next { s with fetchRound := [] } := by
  rw [exec_chainFetch, execChainFetch, if_neg (by simp [hm, hp, hr]), hn]

/-- The queue `q` of `n` is served: what the fetch of its chain comes to. -/
theorem chainFetch_served {n : Nat} {q : Sq} {rest : List Nat} (hn : s.nextServed = some (n, q, rest)) :
    let es := (List.range q.waiting).map fun k => memRead s.mem (hostKey n (q.base + 128 * ((q.head + k) % q.depth))) 128
    let take := if q.qid = 0 then (1, false) else chainTake es
    let c : Chain := { sqid := q.qid, sqHead := (q.head + take.1) % q.depth, cid := entCid (es.headD []), opcode := entOpcode (es.headD [])
                       entries := es.take take.1 }
    let s1 := ({ s with fetchRound := rest }.modSq n q.qid fun x => { x with head := c.sqHead }).modCq n q.cqid fun x =>
      { x with reserved := x.reserved + 1 }
    let s2 := if q.qid = 0 then s1 else s1.modInst n fun i => { i with served := i.served.set q.cls q.qid }
    (∀ st, s2.checkChain n c take.2 = some st → exec .chainFetch s = .next (s2.complete n c st 0 0 none none)) ∧
    (s2.checkChain n c take.2 = none → exec .chainFetch s = .next (
      if q.qid = 0 then s2.modInst n fun i => { i with fetched := i.fetched ++ [c] }
      else (s2.modInst n fun i => { i with fetched := i.fetched ++ [c] }).modSq n q.qid fun x => { x with held := true })) := by
  intro es take c s1 s2
  have h : exec .chainFetch s = match s2.checkChain n c take.2 with
      | some st => .next (s2.complete n c st 0 0 none none)
      | none => .next (if q.qid = 0 then s2.modInst n fun i => { i with fetched := i.fetched ++ [c] }
          else (s2.modInst n fun i => { i with fetched := i.fetched ++ [c] }).modSq n q.qid fun x => { x with held := true }) := by
    rw [exec_chainFetch, execChainFetch, if_neg (by simp [hm, hp, hr]), hn]
    rfl
  exact ⟨fun st hst => by rw [h, hst], fun hst => by rw [h, hst]⟩

end

-- COMMANDS ON QUEUES --------------------------------------------------------------------------------------------------------------------------

section
variable {s : State} {n : Nat} {c : Chain}

theorem createSq_refused (h : s.adminNext n 1 = some c) (hb : s.sqExists n (field c.entry 4 2) = true ∨ field c.entry 6 2 = 0 ∨
    ((s.instD n).cq? (field c.entry 6 2)).elim false (·.state == .active) = false) :
    exec (.createSq n) s = .next ((s.takeChain n c).complete n c Config.stInvalidQueue 0 0 none none) := by
  rw [exec_createSq, execCreateSq, h]
  exact if_pos (by simpa [or_assoc] using hb)

theorem createSq_allowed (h : s.adminNext n 1 = some c) (hb : ¬ (s.sqExists n (field c.entry 4 2) = true ∨ field c.entry 6 2 = 0 ∨
    ((s.instD n).cq? (field c.entry 6 2)).elim false (·.state == .active) = false)) :
    exec (.createSq n) s = if (s.instD n).alloc.sqQuota ≤ s.sqCount n
      then .next ((s.takeChain n c).complete n c Config.stQueueQuota 0 0 none none)
      else .next ((s.takeChain n c).complete n c Config.stSuccess 0 0
        (some { qid := field c.entry 4 2, cqid := field c.entry 6 2, depthLog2 := byteAt c.entry 8, cls := byteAt c.entry 9,
                base := field c.entry 16 8, state := .active, head := 0, tail := 0, held := false, deleters := [] }) none) := by
  rw [exec_createSq, execCreateSq, h]
  exact if_neg (by simpa [or_assoc] using hb)

theorem createCq_refused (h : s.adminNext n 3 = some c) (hb : s.cqExists n (field c.entry 4 2) = true) :
    exec (.createCq n) s = .next ((s.takeChain n c).complete n c Config.stInvalidQueue 0 0 none none) := by
  rw [exec_createCq, execCreateCq, h]
  exact if_pos hb

theorem createCq_allowed (h : s.adminNext n 3 = some c) (hb : s.cqExists n (field c.entry 4 2) = false) :
    exec (.createCq n) s = if (s.instD n).alloc.cqQuota ≤ s.cqCount n
      then .next ((s.takeChain n c).complete n c Config.stQueueQuota 0 0 none none)
      else .next ((s.takeChain n c).complete n c Config.stSuccess 0 0 none
        (some { qid := field c.entry 4 2, depthLog2 := byteAt c.entry 8, base := field c.entry 16 8, vector := field c.entry 6 2,
                intEn := bit (byteAt c.entry 9) 0, shadowEn := bit (byteAt c.entry 9) 1, shadow := field c.entry 24 8, state := .active,
                head := 0, tail := 0, reserved := 0, stall := 0, stallRaised := false, deleters := [] })) := by
  rw [exec_createCq, execCreateCq, h]
  exact if_neg (by simp [hb])

theorem deleteSq_refused (h : s.adminNext n 2 = some c) (hb : field c.entry 4 2 = 0 ∨ (s.instD n).sq? (field c.entry 4 2) = none) :
    exec (.deleteSq n) s = .next ((s.takeChain n c).complete n c Config.stInvalidQueue 0 0 none none) := by
  rw [exec_deleteSq, execDeleteSq, h]
  cases hq : (s.instD n).sq? (field c.entry 4 2) with
  | none => simp only [hq]
  | some x => simp only [hq, if_pos (hb.resolve_right (by simp [hq]))]

theorem deleteSq_done {x : Sq} (h : s.adminNext n 2 = some c) (h0 : field c.entry 4 2 ≠ 0) (hq : (s.instD n).sq? (field c.entry 4 2) = some x) :
    exec (.deleteSq n) s = .next ((s.takeChain n c).modSq n (field c.entry 4 2) fun y =>
      { y with state := .deleting, head := y.tail, deleters := y.deleters ++ [(c.cid, c.sqHead)] }) := by
  rw [exec_deleteSq, execDeleteSq, h]
  simp only [hq, if_neg h0]

theorem deleteCq_refused (h : s.adminNext n 4 = some c) (hb : field c.entry 4 2 = 0 ∨ (s.instD n).cq? (field c.entry 4 2) = none) :
    exec (.deleteCq n) s = .next ((s.takeChain n c).complete n c Config.stInvalidQueue 0 0 none none) := by
  rw [exec_deleteCq, execDeleteCq, h]
  cases hq : (s.instD n).cq? (field c.entry 4 2) with
  | none => simp only [hq]
  | some x => simp only [hq, if_pos (hb.resolve_right (by simp [hq]))]

theorem deleteCq_found {x : Cq} (h : s.adminNext n 4 = some c) (h0 : field c.entry 4 2 ≠ 0) (hq : (s.instD n).cq? (field c.entry 4 2) = some x) :
    exec (.deleteCq n) s = if ((s.instD n).sqs ++ s.newSqs n).any (·.cqid == field c.entry 4 2)
      then .next ((s.takeChain n c).complete n c Config.stQueueBusy 0 0 none none)
      else .next (((s.takeChain n c).modCq n (field c.entry 4 2) fun x => { x with state := .deleting }).complete n c Config.stSuccess 0 0 none
        none) := by
  rw [exec_deleteCq, execDeleteCq, h]
  simp only [hq, if_neg h0]

-- STATUS PAGES --------------------------------------------------------------------------------------------------------------------------------

theorem leBytes_length (k m : Nat) : (leBytes k m).length = k := by
  induction k generalizing m with
  | zero => rfl
  | succ k ih => rw [leBytes, List.length_cons, ih]

/-- The size of an entry of a status page (R351). -/
def pageEntryBytes (page : Nat) : Nat := if page = 1 ∨ page = 2 then 16 else 32

theorem State.length_slotEntry (s : State) (n k : Nat) : (s.slotEntry n k).length = 16 := by
  unfold State.slotEntry
  split
  · rfl
  · simp [leBytes_length, zeros]

theorem State.length_statusPage {s : State} {n page : Nat} : ∀ e ∈ s.statusPage n page, e.length = pageEntryBytes page := by
  unfold State.statusPage
  split
  · simp only [List.mem_append, List.mem_map]
    rintro e (⟨q, -, rfl⟩ | ⟨q, -, rfl⟩)
    · simp [Sq.pageEntry, leBytes_length, pageEntryBytes]
    · simp [Cq.pageEntry, leBytes_length, pageEntryBytes]
  · simp only [List.mem_map]
    rintro e ⟨k, -, rfl⟩
    exact State.length_slotEntry ..
  · next h1 h2 =>
    simp only [List.mem_map]
    rintro e ⟨j, -, rfl⟩
    have hp : ¬ (page = 1 ∨ page = 2) := fun h => h.elim h1 h2
    simp [Job.pageEntry, leBytes_length, zeros, pageEntryBytes, hp]

theorem length_flatten_take {es : List (List Byte)} {b : Nat} (h : ∀ e ∈ es, e.length = b) (k : Nat) :
    (es.take k).flatten.length = b * min es.length k := by
  rw [List.length_flatten, List.map_congr_left (g := fun _ => b) fun e he => h e (List.mem_of_mem_take he)]
  simp [Nat.mul_comm, Nat.min_comm]

/-- A status page of at least 16 bytes holds as many whole entries as fit. -/
theorem getStatusPage_written {u : State} {page whole : Nat} {es : List (List Byte)} (h : s.adminNext n 8 = some c)
    (hcap : 16 ≤ field c.entry 16 4) (hp : byteAt c.entry 4 = page) (he : s.statusPage n page = es)
    (hwhole : min es.length ((field c.entry 16 4 - 16) / pageEntryBytes page) = whole)
    (hw : (s.takeChain n c).writeInst n (field c.entry 8 8)
      (leBytes 1 page ++ zeros 3 ++ leBytes 4 whole ++ leBytes 8 s.frame.number.toNat ++ (es.take whole).flatten) = some u) :
    exec (.getStatusPage n) s = .next (u.complete n c Config.stSuccess (16 + pageEntryBytes page * whole)
      (16 + pageEntryBytes page * es.length) none none) := by
  have hes : ∀ e ∈ es, e.length = pageEntryBytes page := he ▸ State.length_statusPage
  have hsize : es ≠ [] → (es.headD []).length = pageEntryBytes page := fun hne => by
    obtain ⟨e, l, rfl⟩ := List.exists_cons_of_ne_nil hne
    exact hes e List.mem_cons_self
  have hk : (if (es.headD []).length = 0 then 0 else min es.length ((field c.entry 16 4 - 16) / (es.headD []).length)) = whole := by
    by_cases hne : es = []
    · simp [← hwhole, hne]
    · have hpos : pageEntryBytes page ≠ 0 := by
        unfold pageEntryBytes
        split <;> decide
      rw [hsize hne, if_neg hpos, hwhole]
  have hcount : (es.headD []).length * es.length = pageEntryBytes page * es.length := by
    by_cases hne : es = []
    · simp [hne]
    · rw [hsize hne]
  have hbytes : (leBytes 1 page ++ zeros 3 ++ leBytes 4 whole ++ leBytes 8 s.frame.number.toNat ++ (es.take whole).flatten).length =
      16 + pageEntryBytes page * whole := by
    simp only [List.length_append, leBytes_length, zeros, List.length_replicate, length_flatten_take hes,
      Nat.min_eq_right (hwhole ▸ Nat.min_le_left _ _ : whole ≤ es.length)]
  rw [exec_getStatusPage, execGetStatusPage, h]
  simp only [if_neg (Nat.not_lt.2 hcap), hp, he, hk, hcount, hw, hbytes]

end

theorem sqDeleteComplete_done {s : State} {n q : Nat} {x : Sq} (hq : (s.instD n).sq? q = some x) (h0 : q ≠ 0) (hx : x.state = .deleting)
    (hd : s.sqDrained n q = true) : exec (.sqDeleteComplete n q) s = .next (x.deleters.foldl (fun s w => s.completeAdmin n w Config.stSuccess 0)
      (s.modInst n fun i => { i with sqs := i.sqs.filter (·.qid != q) })) := by
  rw [exec_sqDeleteComplete, execSqDeleteComplete, State.finishSqDelete, hq]
  simp [h0, hx, hd]

section
variable {s : State} {n : Nat} {c : Chain}

/-- The jobs that ABORT_JOB names: by queue and CID, or by DJID under queue 0xFFFF. -/
def abortHits (e : List Byte) (sq cid djid : Nat) : Bool :=
  if field e 4 2 = 0xFFFF then djid != 0 && djid == field e 8 8 else sq == field e 4 2 && cid == field e 6 2

def abortNames (n : Nat) (e : List Byte) (j : Job) : Bool :=
  j.inst == n && j.state == .running && abortHits e j.sqid j.cid (j.dist.elim 0 (·.djid.toNat))

theorem abortJob_eq (h : s.adminNext n 7 = some c) : exec (.abortJob n) s =
    if 0 < (s.jobs.filter (abortNames n c.entry)).length then
      .next (({ s.takeChain n c with jobs := s.jobs.map fun j => if abortNames n c.entry j then { j with abort := true } else j }).complete n c
        Config.stSuccess (s.jobs.filter (abortNames n c.entry)).length 0 none none)
    else if (s.instD n).ended.any fun x => abortHits c.entry x.1 x.2.1 x.2.2 then .next ((s.takeChain n c).complete n c Config.stJobDone 0 0 none none)
    else .next ((s.takeChain n c).complete n c Config.stJobUnknown 0 0 none none) := by
  rw [exec_abortJob, execAbortJob, h]
  simp only [abortNames, abortHits, beq_iff_eq] <;> rfl

end

/-- Settles O45: the fetch by the queue it serves, the admin commands by their refusals and their effects. -/
theorem queueCommands : Obligations.QueueCommands := by
  refine ⟨fun chain more e he hlen hf hs hr hm hl => chainTake_chain he hlen hf hs hr hm hl, fun s hm hp hr => ⟨chainFetch_idle hm hp hr,
    fun n q rest hn => ?_⟩, fun s n c => ?_, fun s n q x hq h0 hx hd => sqDeleteComplete_done hq h0 hx hd⟩
  · obtain ⟨ha, hq⟩ := State.nextServed_spec hn
    obtain ⟨hst, hd3⟩ := Inst.admits_iff.1 ha
    obtain ⟨hmem, hs, hadm⟩ := Inst.nextSq_spec hq
    exact ⟨hmem, hst, hd3, hs, hadm, chainFetch_served hm hp hr hn⟩
  intro e q t done
  refine ⟨fun h => ⟨createSq_refused h, fun hb hk => ?_, fun hb hk => ?_⟩, fun h => ⟨createCq_refused h, fun hb hk => ?_, fun hb hk => ?_⟩,
    fun h => ⟨deleteSq_refused h, fun h0 x hx => deleteSq_done h h0 hx⟩,
    fun h => ⟨deleteCq_refused h, fun h0 x hx => ⟨fun hb => ?_, fun hb => ?_⟩⟩, fun h => ⟨fun hk => ?_, fun hk ha => ?_, fun hk ha => ?_⟩,
    fun h hcap u hu => getStatusPage_written h hcap rfl rfl rfl hu⟩
  · rw [createSq_allowed h hb, if_pos hk]
    rfl
  · rw [createSq_allowed h hb, if_neg (Nat.not_le.2 hk)]
    exact ⟨_, rfl, rfl, rfl, rfl, rfl, rfl, rfl, rfl, rfl⟩
  · rw [createCq_allowed h hb, if_pos hk]
    rfl
  · rw [createCq_allowed h hb, if_neg (Nat.not_le.2 hk)]
    exact ⟨_, rfl, rfl, rfl, rfl, rfl, bit_eq_testBit _ _, bit_eq_testBit _ _, rfl, rfl, rfl, rfl, rfl⟩
  · rw [deleteCq_found h h0 hx, if_pos hb]
    rfl
  · rw [deleteCq_found h h0 hx, if_neg (by simpa using hb)]
    rfl
  · exact (abortJob_eq h).trans (if_pos hk)
  · exact (abortJob_eq h).trans ((if_neg hk.not_gt).trans (if_pos ha))
  · exact (abortJob_eq h).trans ((if_neg hk.not_gt).trans (if_neg (Bool.eq_false_iff.1 ha)))

end Sys2Proof.Machine
end

section
/-!
PROOFS. INST_CMD by state, the end of a reset, and freeze timeouts (R366 to R368, R374, R376).
-/

namespace Sys2Proof.Machine

section
variable {i : Inst} {left : Nat} {c d : InstCmd}

theorem Inst.judged_of_nothing_staged (h : i.staged = []) : i.judged left = i.state := by simp [Inst.judged, h]

theorem Inst.stage_of_nothing_staged (h : i.staged = []) : i.stage left c = { i with staged := [{ left := left, cmd := c }] } := by
  simp [Inst.stage, h]

theorem Inst.stage_replaces (hm : d ≠ .remove) (hs : d ≠ .restore) (h : i.staged = [{ left := left, cmd := d }]) :
    (i.stage left c).staged = [{ left := left, cmd := c }] := by
  simp [Inst.stage, h, hm, hs]

end

section
variable {s : State} {n : Nat}

theorem instResetDone_done (hr : (s.instD n).state = .resetting) (hq : s.resetQuiet n = true) :
    exec (.instResetDone n) s = .next ((s.modInst n fun i => { i with
      state := i.resetTo
      enablePending := i.enablePending && (i.resetTo == .disabled || i.resetTo == .frozen)
      sinceReset := 0 }).raise Config.evInstResetDone) := by
  rw [exec_instResetDone, execInstResetDone, if_neg (by simp [hr, hq])]

theorem freezeTimeout_done (hs : (s.instD n).state = .freezing) (ha : (s.instD n).freezeAborts = false)
    (ht : (s.instD n).freezingNs + (s.instD n).freezeTimeout * 1000000 ≤ s.frame.startNs) (hj : ∃ j ∈ s.exchangeJobs n, j.abort = false) :
    exec (.freezeTimeout n) s = .next (((s.abortExchange n).modInst n fun i => { i with freezeAborts := true }).raise Config.evFreezeTimeout) := by
  obtain ⟨j, hj, hab⟩ := hj
  have hany : (s.exchangeJobs n).any (!·.abort) = true := List.any_eq_true.2 ⟨j, hj, by simp [hab]⟩
  rw [exec_freezeTimeout, execFreezeTimeout]
  exact if_neg (by simp [hs, ha, hany, Nat.not_lt.2 ht])

end

/-- Settles O47: one lemma for each command and for each end of a reset or freeze. -/
theorem instanceCommands : Obligations.InstanceCommands := by
  refine ⟨fun i left h => ?_, fun s n c hn => if_neg fun hc => hc.2 (hn hc.1), fun s c hc => if_pos ⟨rfl, hc⟩,
    fun i left c d hm hs h => Inst.stage_replaces hm hs h, fun s n hr hq => instResetDone_done hr hq,
    fun s n hs ha ht hj => (freezeTimeout_done hs ha ht hj).trans ?_⟩
  · intro staged unlatched
    have hu : ({ i with enablePending := false } : Inst).stage left .reset = staged .reset unlatched := Inst.stage_of_nothing_staged h
    have hst : ∀ c, i.stage left c = staged c i := fun c => Inst.stage_of_nothing_staged h
    simp only [Inst.command, Inst.judged_of_nothing_staged h, hst, Inst.unlatch, hu]
    cases hi : i.state <;> simp [unlatched, hi]
  · rfl

end Sys2Proof.Machine
end

section
/-!
PROOFS. Function-level resets, VFs, ATS, the link, and the host's answers (R328, R329, R375, R471).
-/

namespace Sys2Proof.Machine

-- FUNCTION-LEVEL RESETS -----------------------------------------------------------------------------------------------------------------------

section
variable {s : State} {fn t : Nat}

theorem flr_done (h : s.fnLive fn = true) : exec (.flr fn t) s = .next ((s.atNs t).flr fn) := by
  rw [exec_flr, execFlr, if_neg (by simp [h])]

theorem d3hotToD0_done (h : s.fnLive fn = true) (hd : (s.instD fn).d3hot = true) :
    exec (.d3hotToD0 fn t) s = .next (((s.atNs t).modInst fn fun i => { i with d3hot := false }).flr fn) := by
  rw [exec_d3hotToD0, execD3hotToD0, if_neg (by simp [h, hd])]

theorem d0ToD3hot_done (h : s.fnLive fn = true) : exec (.d0ToD3hot fn) s = .next (s.modInst fn fun i => { i with d3hot := true }) := by
  rw [exec_d0ToD3hot, execD0ToD3hot, if_neg (by simp [h])]

theorem pcieHotReset_done (h : s.fnLive 0 = true) : exec (.pcieHotReset t) s = .next ((s.atNs t).vfs.foldl
    (fun (s : State) n => if s.power.devState = .booting then s else s.flrFunction n) ((s.atNs t).flr 0)) := by
  rw [exec_pcieHotReset, execPcieHotReset, if_neg (by simp [h])]

theorem State.flr_of_booting (h : s.power.devState = .booting) :
    s.flr fn = if fn = 0 then { s with power := { s.power with vfEnable := false, numVfs := 0 } } else s := if_pos h

/-- What an FLR of a function does while the device runs: the PF also clears the mailbox counters and removes the VFs. -/
theorem State.flr_of_running (h : s.power.devState ≠ .booting) : s.flr fn = if fn = 0
    then (fun s : State => if fn = 0 then { s with power := { s.power with vfEnable := false, numVfs := 0 } } else s)
      (((s.flrFunction fn).flrInstance fn).flrMailboxes.stageRemovals s.vfs)
    else (s.flrFunction fn).flrInstance fn := if_neg h

theorem State.flrFunction_eq (hr : (s.instD fn).kdw.state ≠ .segRead) (hw : (s.instD fn).kdw.state ≠ .segWrite) :
    s.flrFunction fn = ({ s with keeper := { s.keeper with held := s.keeper.held.filter fun r => match r with
        | .window f _ _ => f != fn
        | _ => true } } : State).modInst fn fun i => { i with
      rsvdWr := 0
      dbDrop := 0
      kdw := Kdw.reset
      stat := { i.stat with hold := false, holdActive := false, holdLeft := 0 }
      msix := { masked := List.range 64, pba := [], table := [] }
      frameNow := none
      mbxVf := if fn = 0 then i.mbxVf else { i.mbxVf with drop := 0 } } := by
  rw [State.flrFunction]
  simp only [hr, hw, or_self, if_false] <;> rfl

end

-- VFS AND ATS ---------------------------------------------------------------------------------------------------------------------------------

theorem vfEnable_done {s : State} (on : Bool) (num t : Nat) (h : s.fnLive 0 = true) (hb : s.power.devState ≠ .booting) :
    let s1 := s.atNs t
    let s2 : State := { s1 with power := { s1.power with vfEnable := on, numVfs := min num (min 255 (1984 / s.power.vfVectors)) } }
    exec (.vfEnable on num t) s =
      .next ((((s2.vfs.filter (!s1.vfs.contains ·)).foldl (fun s n => s.modInst n (·.appear)) s2).stageRemovals
        (s1.vfs.filter (!s2.vfs.contains ·)))) := by
  rw [exec_vfEnable, execVfEnable, if_neg (by simp [h])]
  exact if_neg hb

theorem Inst.appear_of_absent {i : Inst} (h : i.state = .absent) : i.appear = { i with state := .disabled, d3hot := false } := by
  rw [Inst.appear, h]

theorem State.withAts_eq (s : State) (l : List (Nat × Nat)) : ({ s with ats := l } : State) = { s with ats := ({ s with ats := l } : State).ats } := rfl

theorem mem_atsInsert (l : List (Nat × Nat)) (x : Nat × Nat) : x ∈ atsInsert l x := by
  rw [atsInsert, List.drop_append]
  refine List.mem_append_right _ ?_
  have h : (l.filter (· != x) ++ [x]).length - 4096 - (l.filter (· != x)).length = 0 := by simp
  rw [h]
  exact List.mem_singleton_self x

theorem length_atsInsert (l : List (Nat × Nat)) (x : Nat × Nat) : (atsInsert l x).length ≤ 4096 := by
  rw [atsInsert, List.length_drop]
  omega

theorem atsInvalidation_done {s : State} {n : Nat} (iova len : Nat) (h : s.fnLive n = true) : exec (.atsInvalidation n iova len) s =
    .next ({ s with ats := s.ats.filter fun x => !(x.1 == n && decide (iova / 4096 ≤ x.2) && decide (x.2 * 4096 < iova + len)) }.emit
      (.atsDone n iova len)) := by
  rw [exec_atsInvalidation, execAtsInvalidation, if_neg (by simp [h])]

-- THE LINK AND THE HOST'S ANSWERS -------------------------------------------------------------------------------------------------------------

section
variable {s : State}

theorem linkDown_done (hm : s.power.mainPower = true) (hp : s.power.perst = false) (hl : s.power.linkUp = true) :
    exec .linkDown s = .next (({ s with power := { s.power with linkUp := false } } : State).raise Config.evLinkDown) := by
  rw [exec_linkDown, execLinkDown, if_neg (by simp [hm, hp, hl])]

theorem linkUp_done {width speed : Nat} (ms : Nat) (hm : s.power.mainPower = true) (hp : s.power.perst = false) (hl : s.power.linkUp = false)
    (hw : width ∈ [1, 4, 8, 16]) (h1 : 1 ≤ speed) (h6 : speed ≤ 6) :
    let s1 := s.elapse (ms * 1000000)
    exec (.linkUp width speed ms) s = .next (({ s1 with power := { s1.power with
      linkUp := true, linkWasUp := true, width := width, speed := speed } } : State).raise Config.evLinkUp) := by
  have hwb : (width == 1 || width == 4 || width == 8 || width == 16) = true := by simpa [or_assoc] using hw
  rw [exec_linkUp, execLinkUp]
  exact if_neg (by simp [hm, hp, hl, hwb]; omega)

variable {n : Nat} {gen : BitVec 16} {a : HostAccess}

theorem hostCompletion_stale (h : s.fnLive n = true) (hg : gen ≠ (s.instD n).gen) (c : HostCpl) : exec (.hostCompletion n gen a c) s =
    .next (s.countStale n fun i => { i with staleDma := min (i.staleDma + 1) 0xFFFFFFFF }) := by
  rw [exec_hostCompletion, execHostCompletion.eq_def, if_neg (by simp [h]), if_pos (by simpa using hg)]
  rfl

theorem hostCompletion_readData (h : s.fnLive n = true) (hg : gen = (s.instD n).gen) : exec (.hostCompletion n gen a .readData) s = .next s := by
  rw [exec_hostCompletion, execHostCompletion.eq_def, if_neg (by simp [h]), if_neg (by simpa using hg)]

theorem hostCompletion_translation (h : s.fnLive n = true) (hg : gen = (s.instD n).gen) (iova : Nat) :
    exec (.hostCompletion n gen a (.translation iova)) s = .next { s with ats := atsInsert s.ats (n, iova / 4096) } := by
  rw [exec_hostCompletion, execHostCompletion.eq_def, if_neg (by simp [h]), if_neg (by simpa using hg)]

theorem hostCompletion_refused (h : s.fnLive n = true) (hg : gen = (s.instD n).gen) :
    exec (.hostCompletion n gen a .refused) s = .next (s.hostRefuses n a) := by
  rw [exec_hostCompletion, execHostCompletion.eq_def, if_neg (by simp [h]), if_neg (by simpa using hg)]

theorem hostRefuses_sq {q : Nat} {x : Sq} (hx : (s.instD n).sq? q = some x) (ha : x.state = .active) :
    s.hostRefuses n (.sq q) = (s.modSq n q fun x => { x with state := .error }).raise Config.evQueueError := by
  rw [State.hostRefuses, hx]
  exact if_pos ha

theorem hostRefuses_cq {q : Nat} {x : Cq} (hx : (s.instD n).cq? q = some x) (ha : x.state = .active) :
    s.hostRefuses n (.cq q) = (s.modCq n q fun x => { x with state := .error }).raise Config.evQueueError := by
  rw [State.hostRefuses, hx]
  exact if_pos ha

end

/-- Settles O48: the resets clear the function, the other commands have one lemma each. -/
theorem functionResets : Obligations.FunctionResets := by
  refine ⟨fun s fn t h => ?_, fun s fn hr hw => State.flrFunction_eq hr hw, fun s on num t h hb => vfEnable_done on num t h hb,
    fun i h => Inst.appear_of_absent h, fun s n iova len h => ⟨_, atsInvalidation_done iova len h, rfl, fun x => ?_⟩,
    fun s hm hp => ⟨linkDown_done hm hp, fun width speed ms hl hw h1 h6 => linkUp_done ms hm hp hl hw h1 h6⟩,
    fun s n gen a h => ⟨fun hg c => hostCompletion_stale h hg c, fun hg => ⟨hostCompletion_readData h hg, fun iova =>
      ⟨_, hostCompletion_translation h hg iova, State.withAts_eq s _, ?_, ?_⟩, ?_, ?_⟩⟩⟩
  · intro s1 noVfs own flr
    have hflr : ∀ u : State, u.power.devState ≠ .booting → u.flr fn = flr u := fun u hu => State.flr_of_running hu
    refine ⟨fun hb => ?_, fun hb => ?_, fun hd hb => ?_, d0ToD3hot_done h, fun h0 hb => ?_⟩
    · exact (flr_done h).trans (congrArg _ (State.flr_of_booting hb))
    · exact (flr_done h).trans (congrArg _ (hflr _ hb))
    · exact (d3hotToD0_done h hd).trans (congrArg _ (hflr _ hb))
    · subst h0
      rw [pcieHotReset_done h, hflr (s.atNs t) hb]
      rfl
  · simp only [State.emit, List.mem_filter, Bool.not_eq_true', Bool.and_eq_false_iff, beq_eq_false_iff_ne, decide_eq_false_iff_not]
    tauto
  · dsimp only
    exact mem_atsInsert ..
  · dsimp only
    exact length_atsInsert ..
  · rintro q x rfl hx ha
    rw [hostCompletion_refused h hg]
    exact congrArg _ (hostRefuses_sq hx ha)
  · rintro q x rfl hx ha
    rw [hostCompletion_refused h hg]
    exact congrArg _ (hostRefuses_cq hx ha)

end Sys2Proof.Machine
end

section
/-!
PROOFS. The ways of the Comb cache (R312, R317 to R320).
-/

namespace Sys2Proof.Machine

-- WAYS ----------------------------------------------------------------------------------------------------------------------------------------

section
variable {s : State} {d w n : Nat}

theorem State.dieHolds_of_dieRuns (h : s.dieRuns d = true) : s.dieHolds d = true := by
  simp only [State.dieRuns, Bool.and_eq_true] at h
  exact h.2

/-- A die that holds its state stands in the list of dies. -/
theorem State.lt_of_dieHolds (h : s.dieHolds d = true) : d < s.dies.length := by
  by_contra hd
  simp [State.dieHolds, State.dieD, List.getD_eq_getElem?_getD, List.getElem?_eq_none (Nat.not_lt.1 hd), Die.reset] at h

theorem State.modDie_congr {f g : Die → Die} (h : f (s.dieD d) = g (s.dieD d)) : s.modDie d f = s.modDie d g := by
  have hl : s.dies.modify d f = s.dies.modify d g := List.ext_getElem? fun e => by
    rw [List.getElem?_modify, List.getElem?_modify]
    by_cases he : d = e
    · subst he
      cases hx : s.dies[d]? with
      | none => rfl
      | some x =>
        have hd : s.dieD d = x := by simp [State.dieD, List.getD_eq_getElem?_getD, hx]
        simp [← hd, h]
    · simp [he]
  rw [State.modDie, State.modDie, hl]

theorem State.way_modWay_same (f : Way → Way) (hd : d < s.dies.length) (h : s.way d w ≠ Way.reset) :
    (s.modWay d w f).way d w = f (s.way d w) := by
  have hw : w < (s.dieD d).cc.ways.length := by
    by_contra hw
    refine h ?_
    simp [State.way, List.getD_eq_getElem?_getD, List.getElem?_eq_none (Nat.not_lt.1 hw)]
  rw [State.way, State.modWay, State.modCc, State.dieD_modDie _ hd]
  simp [State.way, List.getD_eq_getElem?_getD, List.getElem?_modify_eq, List.getElem?_eq_getElem hw]

/-- To write what a function makes of the way that stands there is to change it by that function. -/
theorem State.modWay_const (f : Way → Way) : (s.modWay d w fun _ => f (s.way d w)) = s.modWay d w f := by
  refine State.modDie_congr ?_
  have hl : (s.dieD d).cc.ways.modify w (fun _ => f (s.way d w)) = (s.dieD d).cc.ways.modify w f := List.ext_getElem? fun k => by
    rw [List.getElem?_modify, List.getElem?_modify]
    by_cases hk : w = k
    · subst hk
      cases hx : (s.dieD d).cc.ways[w]? with
      | none => rfl
      | some x => simp [State.way, List.getD_eq_getElem?_getD, hx]
    · simp [hk]
  dsimp only
  rw [hl]

theorem wayStep_taken {st : WayState} (f : State → State) (hw : w < 16) (hd : s.dieRuns d = true) (h : (s.way d w).state = st) :
    wayStep d w st f s = f s := if_pos (by simp [hw, hd, h])

-- WHAT ENDS A CLEAN, A SWEEP, A DISABLE, A POWER CHANGE ---------------------------------------------------------------------------------------

variable (hw : w < 16) (hd : s.dieRuns d = true)
include hw hd

theorem wayCleanDone_kept (h : (s.way d w).state = .cleaning) (ha : (s.way d w).disableAfter = false) : exec (.wayCleanDone d w) s =
    .next ((s.modCc d (·.emptyWay w)).modWay d w fun y => { y with
      state := if y.nextOwner.isSome then .owned else .free, owner := y.nextOwner, nextOwner := none }) := by
  rw [exec_wayCleanDone, execWayCleanDone, wayStep_taken _ hw hd h]
  exact congrArg _ (if_neg (by simp [ha]))

theorem wayCleanDone_disabled (h : (s.way d w).state = .cleaning) (ha : (s.way d w).disableAfter = true) : exec (.wayCleanDone d w) s =
    .next (((s.modCc d (·.emptyWay w)).modWay d w fun y => { y with
      state := .disabled, owner := y.nextOwner, nextOwner := none, disableAfter := false, leave := y.nextOwner.isSome }).wayDisabled d) := by
  rw [exec_wayCleanDone, execWayCleanDone, wayStep_taken _ hw hd h]
  exact congrArg _ (if_pos ha)

theorem ccWayDisabled_done (h : (s.way d w).state = .disabling) : exec (.ccWayDisabled d w) s =
    .next (((s.modCc d (·.emptyWay w)).modWay d w fun y => { y with
      state := if y.enablePending then .free else .disabled
      cerr := if y.enablePending then 0 else y.cerr
      enablePending := false
      leave := y.owner.isSome }).wayDisabled d) := by
  rw [exec_ccWayDisabled, execCcWayDisabled, wayStep_taken _ hw hd h]

theorem powerDownDone_done (h : (s.way d w).state = .poweringDown) : exec (.powerDownDone d w) s =
    .next ((s.modCc d (·.emptyWay w)).modWay d w fun y => { y with
      state := if y.enablePending then .poweringUp else .off, enablePending := false }) := by
  rw [exec_powerDownDone, execPowerDownDone, wayStep_taken _ hw hd h]

theorem powerUpDone_done (h : (s.way d w).state = .poweringUp) :
    exec (.powerUpDone d w) s = .next (s.modWay d w fun y => { y with state := .free }) := by
  rw [exec_powerUpDone, execPowerUpDone, wayStep_taken _ hw hd h]

theorem ccWayDisable_running (h : (s.way d w).state ∈ [.owned, .sweep, .free]) : exec (.ccWayDisable d w) s =
    .next (s.modWay d w fun y => { y with cerr := max y.cerr s.keeper.rwp.wayErrThresh, state := .disabling }) := by
  rw [exec_ccWayDisable, execCcWayDisable, if_neg (by simp [hd, hw])]
  simp only [List.mem_cons, List.not_mem_nil, or_false] at h
  rcases h with h | h | h <;> rw [h]

theorem ccWayDisable_cleaning (h : (s.way d w).state = .cleaning) : exec (.ccWayDisable d w) s =
    .next (s.modWay d w fun y => { y with cerr := max y.cerr s.keeper.rwp.wayErrThresh, disableAfter := true }) := by
  rw [exec_ccWayDisable, execCcWayDisable, if_neg (by simp [hd, hw]), h]

omit hw in
theorem wayErrWindowEnd_done (h : (s.way d w).state ∈ [.owned, .sweep, .cleaning]) :
    exec (.wayErrWindowEnd d w) s = .next (s.modWay d w fun y => { y with cerr := 0 }) := by
  rw [exec_wayErrWindowEnd, execWayErrWindowEnd]
  simp only [List.mem_cons, List.not_mem_nil, or_false] at h
  rcases h with h | h | h <;> rw [h] <;> simp [hd]

end

-- THE END OF A SWEEP --------------------------------------------------------------------------------------------------------------------------

/-- Way `w` of die `d` is being swept for `n`. -/
def State.sweptFor (s : State) (d n w : Nat) : Bool := (s.way d w).state == .sweep && (s.way d w).owner == some n

def CombCache.sweepDone (c : CombCache) (n : Nat) (mine : Nat → Bool) : CombCache := { c with
  lines := c.lines.filter fun l => !(mine l.way && wayOf (c.assigned n) l.addr != some l.way)
  ways := c.ways.map fun x => if x.state = .sweep ∧ x.owner = some n then { x with state := .owned } else x
  sweeping := c.sweeping.filter (·.1 != n) }

section
variable {s : State} {d w n : Nat}

theorem waySweepDone_done (hw : w < 16) (hd : s.dieRuns d = true) (h : s.sweptFor d n w = true) :
    exec (.waySweepDone d n) s = .next (s.modCc d fun _ => (s.dieD d).cc.sweepDone n (s.sweptFor d n)) := by
  have hany : (List.range 16).any (s.sweptFor d n) = true := List.any_eq_true.2 ⟨w, List.mem_range.2 hw, h⟩
  rw [exec_waySweepDone, execWaySweepDone]
  refine (if_neg ?_).trans (congrArg Host.Outcome.next (State.modDie_congr rfl))
  rw [hd, Bool.not_true, Bool.false_or, Bool.not_eq_true', Bool.not_eq_false]
  exact hany

theorem State.way_modCc (c : CombCache) (hd : d < s.dies.length) (k : Nat) : (s.modCc d fun _ => c).way d k = c.ways.getD k Way.reset := by
  rw [State.way, State.modCc, State.dieD_modDie _ hd]

theorem State.way_sweepDone (k : Nat) : ((s.dieD d).cc.sweepDone n (s.sweptFor d n)).ways.getD k Way.reset =
    if s.sweptFor d n k then { s.way d k with state := .owned } else s.way d k := by
  have hmap := List.getD_map (l := (s.dieD d).cc.ways) (n := k) (d := Way.reset)
    (fun x : Way => if x.state = .sweep ∧ x.owner = some n then { x with state := .owned } else x)
  rw [if_neg (by simp [Way.reset])] at hmap
  rw [CombCache.sweepDone, hmap]
  simp [State.sweptFor, State.way]

end

-- THE COMMANDS OF CC_WAY AND CC_CTL -----------------------------------------------------------------------------------------------------------

section
variable {s : State} {d w : Nat}

/-- A command that the way's state rejects is counted. -/
def State.rejectWay (s : State) (d : Nat) : State := s.modCc d fun c => { c with cmdReject := min (c.cmdReject + 1) 0xFFFFFFFF }

theorem wayCommand_taken {f : State → Way → Option Way} (h : s.HostWrites 0) (hw : w < 16) (hd : s.dieHolds d = true) :
    wayCommand d w f s = (f s (s.way d w)).elim (s.rejectWay d) fun y => s.modWay d w fun _ => y := by
  rw [wayCommand, State.mmioWrite_taken h (mmioSize_zero (.inr rfl)), if_neg (by simp [hw, hd])]
  cases f s (s.way d w) <;> rfl

theorem powerUp_done (h : s.HostWrites 0) (hw : w < 16) (hd : s.dieHolds d = true) : exec (.powerUp d w) s = .next (match (s.way d w).state with
    | .off => s.modWay d w fun y => { y with state := .poweringUp }
    | .poweringDown => s.modWay d w fun y => { y with enablePending := true }
    | _ => s.rejectWay d) := by
  rw [exec_powerUp, execPowerUp, wayCommand_taken h hw hd]
  cases hx : (s.way d w).state
  case off => exact congrArg _ (State.modWay_const fun y => { y with state := .poweringUp })
  case poweringDown =>
    have hconst := State.modWay_const (s := s) (d := d) (w := w) fun y => { y with enablePending := true }
    rw [hx] at hconst
    exact congrArg _ hconst
  all_goals rfl

theorem wayEnable_done (h : s.HostWrites 0) (hw : w < 16) (hd : s.dieHolds d = true) : exec (.wayEnable d w) s = .next (match (s.way d w).state with
    | .disabled => s.modWay d w fun y => { y with state := .free, cerr := 0 }
    | .disabling => s.modWay d w fun y => { y with enablePending := true }
    | _ => s.rejectWay d) := by
  rw [exec_wayEnable, execWayEnable, wayCommand_taken h hw hd]
  cases hx : (s.way d w).state
  case disabled => exact congrArg _ (State.modWay_const fun y => { y with state := .free, cerr := 0 })
  case disabling =>
    have hconst := State.modWay_const (s := s) (d := d) (w := w) fun y => { y with enablePending := true }
    rw [hx] at hconst
    exact congrArg _ hconst
  all_goals rfl

/-- POWER_DOWN of a way that is already powering down takes back a latched power-up, and is itself rejected. -/
theorem powerDown_again (h : s.HostWrites 0) (hw : w < 16) (hd : s.dieHolds d = true) (hx : (s.way d w).state = .poweringDown) :
    exec (.powerDown d w) s = .next ((s.modWay d w fun y => { y with enablePending := false }).rejectWay d) := by
  have hlt := State.lt_of_dieHolds hd
  have hway : (s.modWay d w fun y => { y with enablePending := false }).way d w = { s.way d w with enablePending := false } :=
    State.way_modWay_same _ hlt fun hr => by simp [hr, Way.reset] at hx
  have hhold : (s.modWay d w fun y => { y with enablePending := false }).dieHolds d = true := by
    rw [State.dieHolds, State.modWay, State.modCc, State.dieD_modDie _ hlt]
    exact hd
  rw [exec_powerDown, execPowerDown, State.mmioWrite_taken h (mmioSize_zero (.inr rfl))]
  simp only [hd, hx, beq_self_eq_true, Bool.and_self, if_true]
  rw [wayCommand_taken (s := s.modWay d w fun y => { y with enablePending := false }) h hw hhold, hway]
  simp only [hx, reduceCtorEq, false_and, if_false] <;> rfl

theorem powerDown_other (h : s.HostWrites 0) (hw : w < 16) (hd : s.dieHolds d = true) (hx : (s.way d w).state ≠ .poweringDown) :
    exec (.powerDown d w) s = .next (if (s.way d w).state = .free ∧ (s.way d w).owner = none
      then s.modWay d w fun y => { y with state := .poweringDown } else s.rejectWay d) := by
  rw [exec_powerDown, execPowerDown, State.mmioWrite_taken h (mmioSize_zero (.inr rfl)), if_neg (by simp [hx]), wayCommand_taken h hw hd]
  split_ifs
  · exact congrArg _ (State.modWay_const fun y => { y with state := .poweringDown })
  · rfl

theorem ccCtl_disable (h : s.HostWrites 0) (hd : s.dieHolds d = true) : exec (.ccCtl d 8 0) s = .next (s.modCc d fun c =>
    if c.draining then { c with en := false, enablePending := false } else if c.enabled then { c with en := false, draining := true }
    else { c with en := false }) := by
  rw [exec_ccCtl, execCcCtl, State.mmioWrite_taken h (mmioSize_zero (.inr rfl)), if_neg (by simp [hd])]
  rfl

theorem ccCtl_enable (h : s.HostWrites 0) (hd : s.dieHolds d = true) : exec (.ccCtl d 8 1) s = .next (s.modCc d fun c =>
    if c.draining then { c with en := true, enablePending := true } else { c with en := true, enabled := true }) := by
  rw [exec_ccCtl, execCcCtl, State.mmioWrite_taken h (mmioSize_zero (.inr rfl)), if_neg (by simp [hd])]
  rfl

theorem ccDrainDone_done (hd : s.dieRuns d = true) (hg : (s.dieD d).cc.draining = true)
    (hq : ∀ y ∈ (s.dieD d).cc.ways, y.state ≠ .cleaning ∧ y.state ≠ .sweep) : exec (.ccDrainDone d) s =
    .next ((s.modCc d fun c => { c with lines := [], draining := false, enabled := c.enablePending, enablePending := false }).raise
      Config.evCcDrainDone) := by
  have hany : (s.dieD d).cc.ways.any (fun x => x.state == .cleaning || x.state == .sweep) = false :=
    List.any_eq_false.2 fun y hy => by simp [hq y hy]
  rw [exec_ccDrainDone, execCcDrainDone]
  exact if_neg (by simp [hd, hg, hany])

end

/-- Settles O49: one lemma for each completion, and the commands of a way by its state. -/
theorem cacheWays : Obligations.CacheWays := by
  intro s d w hw hd x empty gone mine
  have hh := State.dieHolds_of_dieRuns hd
  have hlt := State.lt_of_dieHolds hh
  refine ⟨wayCleanDone_kept hw hd, wayCleanDone_disabled hw hd, fun n hn => ⟨_, waySweepDone_done hw hd hn, ?_, fun k hk => ?_, fun l => ?_⟩,
    ccWayDisable_running hw hd, ccWayDisable_cleaning hw hd, ccWayDisabled_done hw hd, wayErrWindowEnd_done hd, powerDownDone_done hw hd,
    powerUpDone_done hw hd, fun h => ⟨?_, powerUp_done h hw hh, wayEnable_done h hw hh, ccCtl_disable h hh, ccCtl_enable h hh⟩,
    ccDrainDone_done hd⟩
  · rw [State.modCc, State.dieD_modDie _ hlt]
    rfl
  · rw [State.way_modCc _ hlt, State.way_sweepDone]
    rfl
  · rw [State.modCc, State.dieD_modDie _ hlt]
    have hmine : mine n l.way = s.sweptFor d n l.way := rfl
    rw [CombCache.sweepDone, List.mem_filter, hmine]
    cases s.sweptFor d n l.way <;> simp
  · cases hx : x.state
    case poweringDown => exact powerDown_again h hw hh hx
    case free =>
      exact (powerDown_other h hw hh (by simp [x, hx])).trans
        (congrArg _ (ite_congr (by simp [x, hx]) (fun _ => rfl) fun _ => rfl))
    all_goals
      change (s.way d w).state = _ at hx
      exact (powerDown_other h hw hh (by simp [hx])).trans (congrArg _ (if_neg fun hf => by simp [hx] at hf))

end Sys2Proof.Machine
end

section
/-!
PROOFS. Patrol scrub, bank sparing, pages that change hands, and migration copies (R299 to R306, R380 to R388).
-/

namespace Sys2Proof.Machine

-- THE PATROL SCRUB ----------------------------------------------------------------------------------------------------------------------------

theorem mem_insAsc {n x : Nat} {l : List Nat} : x ∈ insAsc n l ↔ x = n ∨ x ∈ l := by
  induction l with
  | nil => simp [insAsc]
  | cons k t ih =>
    unfold insAsc
    split
    · simp
    split
    · next h =>
      subst h
      simp
    · simp only [List.mem_cons, ih]
      tauto

/-- Which 256-byte half of its 512 bytes a stack holds, by the address bits that the interleave folds (R299). -/
def granuleHalf (k off : Nat) : Nat := if [13, 18, 23, 28, 33].foldl (fun b i => b != bit off i) (bit k 0) then 256 else 0

theorem granuleAddr_eq (k g : Nat) : granuleAddr k g = k / 2 * 68719476736 + g / 4 * 512 + granuleHalf k (g / 4 * 512) + g % 4 * 64 := rfl

theorem granuleHalf_cases (k off : Nat) : granuleHalf k off = 0 ∨ granuleHalf k off = 256 := by
  unfold granuleHalf
  split
  · exact .inr rfl
  · exact .inl rfl

theorem granuleAddr_aligned (k g : Nat) : granuleAddr k g % 64 = 0 := by
  have h := granuleHalf_cases k (g / 4 * 512)
  rw [granuleAddr_eq]
  omega

theorem granuleAddr_lt {k g : Nat} (hk : k < 16) (hg : g < 402653184) : granuleAddr k g < 0x8000000000 := by
  have h := granuleHalf_cases k (g / 4 * 512)
  rw [granuleAddr_eq]
  omega

theorem granuleAddr_lt_granuleAddr {k g h : Nat} (hgh : g < h) : granuleAddr k g < granuleAddr k h := by
  have hg := granuleHalf_cases k (g / 4 * 512)
  have hh := granuleHalf_cases k (h / 4 * 512)
  rw [granuleAddr_eq, granuleAddr_eq]
  by_cases hq : g / 4 = h / 4
  · rw [hq] at hg ⊢
    omega
  · omega

section
variable {s : State} {k a : Nat}

theorem poisonGranule_of_mem (h : a / 64 ∈ s.poison) : s.poisonGranule k a = s := if_pos (by simpa using h)

theorem mem_poisonGranule (h : a / 64 ∉ s.poison) (b : Nat) : b ∈ (s.poisonGranule k a).poison ↔ b = a / 64 ∨ b ∈ s.poison := by
  rw [State.poisonGranule, if_neg (by simpa using h), State.raiseDie_eq]
  exact mem_insAsc

/-- What the scrub of a granule counts and how it goes on. -/
def State.scrubOn (s : State) (k g : Nat) : State :=
  let t := s.modStack k fun x => { x with patrol := (g + 1) % 402653184 }
  if g + 1 = 402653184 then t.raise Config.evPatrolPass else t

theorem patrolScrub_clean (hd : s.dieRuns (k / 2) = true) : exec (.patrolScrub k .clean) s = .next (s.scrubOn k (s.stack k).patrol) := by
  rw [exec_patrolScrub, execPatrolScrub.eq_def]
  exact if_neg (by simp [hd])

theorem patrolScrub_corrected (hd : s.dieRuns (k / 2) = true) : exec (.patrolScrub k .corrected) s =
    .next ((s.modStack k fun x => { x with ceCount := min (x.ceCount + 1) 0xFFFFFFFF }).scrubOn k (s.stack k).patrol) := by
  rw [exec_patrolScrub, execPatrolScrub.eq_def]
  exact if_neg (by simp [hd])

theorem patrolScrub_uncorrectable (hd : s.dieRuns (k / 2) = true) : exec (.patrolScrub k .uncorrectable) s =
    let bad := s.poisonGranule k (granuleAddr k (s.stack k).patrol)
    .next ((if bad.bothUe (k / 2) then bad.startFence (k / 2) else bad).scrubOn k (s.stack k).patrol) := by
  rw [exec_patrolScrub, execPatrolScrub.eq_def]
  exact if_neg (by simp [hd])

-- BANK SPARING --------------------------------------------------------------------------------------------------------------------------------

variable {channel bank : Nat} (hd : s.dieRuns (k / 2) = true)
include hd

omit hd in
theorem bankSpare_named (h : ((s.stack k).remapped.contains (channel, bank) ||
    (s.stack k).sparing.any (fun y => y.channel == channel && y.bank == bank)) = true) : exec (.bankSpare k channel bank) s = .next s := by
  rw [exec_bankSpare, execBankSpare]
  refine if_pos ?_
  rw [Bool.or_assoc, h, Bool.or_true]

theorem bankSpare_new (hc : channel < 16) (hb : bank < 16) (h : ((s.stack k).remapped.contains (channel, bank) ||
    (s.stack k).sparing.any (fun y => y.channel == channel && y.bank == bank)) = false) : exec (.bankSpare k channel bank) s =
      if (s.stack k).remapped.any (·.1 == channel) || (s.stack k).sparing.any (·.channel == channel)
      then .next (s.raise Config.evRlmSpareExhausted)
      else .next (s.modStack k fun x => { x with sparing := x.sparing ++ [{ channel := channel, bank := bank, copied := false }] }) := by
  rw [exec_bankSpare, execBankSpare]
  refine if_neg ?_
  rw [Bool.or_assoc, h]
  simp [hd, hc, hb]

theorem bankSpareCopyDone_done : exec (.bankSpareCopyDone k channel) s = .next (s.modStack k fun x =>
    { x with sparing := x.sparing.map fun y => if y.channel = channel then { y with copied := true } else y }) := by
  rw [exec_bankSpareCopyDone, execBankSpareCopyDone, if_neg (by simp [hd])]

end

-- PAGES ---------------------------------------------------------------------------------------------------------------------------------------

section
variable {s : State} {page : Nat} {w : PageWait} (hd : s.dieRuns (pageDie page) = true)
include hd

theorem pageReleaseCleanDone_done (h : s.pages.find? (fun w => w.page == page && !w.fill) = some w) : exec (.pageReleaseCleanDone page) s =
    .next (({ s with pages := s.pages.erase w } : State).modCc (pageDie page) fun c =>
      { c with lines := c.lines.filter fun l => !(l.inst == w.inst && l.addr / 0x200000 == page) }) := by
  rw [exec_pageReleaseCleanDone, execPageReleaseCleanDone, h]
  exact if_neg (by simp [hd])

/-- The state in which a page has been filled with zeros. -/
def State.zeroFilled (s : State) (page : Nat) (w : PageWait) : State := { s with
  pages := s.pages.erase w
  mem := memZero s.mem (page * 0x200000) 0x200000
  poison := s.poison.filter fun g => g < page * 0x200000 / 64 || (page * 0x200000 + 0x200000) / 64 ≤ g }

theorem zeroFillDone_done (h : s.pages.find? (fun w => w.page == page && w.fill) = some w)
    (ha : ∀ x ∈ s.pages, x.page = page → x.fill = true) : exec (.zeroFillDone page) s =
      .next ((s.zeroFilled page w).modInst w.inst fun i => { i with
        pt := i.pt.map fun (e : Nat × W64) => if pteValid e.2 && ptePage e.2 == page then (e.1, e.2 &&& ~~~(0x2000000000000000#64)) else e }) := by
  have hany : s.pages.any (fun x => x.page == page && !x.fill) = false := List.any_eq_false.2 fun x hx => by
    by_cases hp : x.page = page
    · simp [hp, ha x hx hp]
    · simp [hp]
  rw [exec_zeroFillDone, execZeroFillDone, h]
  exact if_neg (by simp [hd, hany])

end

theorem memGet_zeroFilled {s : State} (h : s.memWf) (page : Nat) (w : PageWait) (a : Nat) : memGet (s.zeroFilled page w).mem a =
    if a < 0x200000 * page ∨ 0x200000 * (page + 1) ≤ a then memGet s.mem a else 0 := by
  have hiff : (a < page * 0x200000 ∨ page * 0x200000 + 0x200000 ≤ a) ↔ (a < 0x200000 * page ∨ 0x200000 * (page + 1) ≤ a) := by omega
  rw [State.zeroFilled, memGet_memZero _ _ _ h]
  simp only [hiff]

theorem mem_poison_zeroFilled (s : State) (page : Nat) (w : PageWait) (a : Nat) : a / 64 ∈ (s.zeroFilled page w).poison ↔
    a / 64 ∈ s.poison ∧ (a < 0x200000 * page ∨ 0x200000 * (page + 1) ≤ a) := by
  have hiff : (a / 64 < page * 0x200000 / 64 ∨ (page * 0x200000 + 0x200000) / 64 ≤ a / 64) ↔
      (a < 0x200000 * page ∨ 0x200000 * (page + 1) ≤ a) := by omega
  simp only [State.zeroFilled, List.mem_filter, Bool.or_eq_true, decide_eq_true_eq, hiff]

theorem invalDone_done {s : State} {n : Nat} {inv : Bool} {base pages : Nat} (h : (s.instD n).inval = some (inv, base, pages)) :
    let hit := fun (l : Line) => l.inst == n && ((s.instD n).rangePages base pages).contains (l.addr / 0x200000)
    exec (.invalDone n) s = .next (({ s with dies := s.dies.map fun d => { d with cc := { d.cc with
      lines := if inv = true then d.cc.lines.filter (!hit ·) else d.cc.lines.map fun l => if hit l then { l with dirty := false } else l } } } : State).modInst n
        fun i => { i with inval := none }) := by
  rw [exec_invalDone, execInvalDone, h]
  cases inv <;> rfl

-- MIGRATION -----------------------------------------------------------------------------------------------------------------------------------

theorem Propolis.withCmpFlip_self {p : Propolis} (h : p.cmpFlip = 0) : { p with cmpFlip := 0 } = p := by
  cases p
  cases h
  rfl

/-- A comparator without a fault changes nothing, and gives EQ or EQ_N (R458). -/
theorem State.compareDigests_sound {s : State} (h : s.propolis.cmpFlip = 0) (a b : List Byte) :
    s.compareDigests a b = (s, if a = b then 1#2 else 2#2) := by
  have hs : ({ s with propolis := { s.propolis with cmpFlip := 0 } } : State) = s := by rw [Propolis.withCmpFlip_self h]
  have hp : (if a = b then 1#2 else 2#2) ^^^ s.propolis.cmpFlip = if a = b then 1#2 else 2#2 := by
    rw [h]
    exact BitVec.xor_zero
  rw [State.compareDigests]
  simp only [hp, hs]
  refine if_neg ?_
  split_ifs <;> decide

section
variable {s : State} {n kind : Nat} {r : MigRec}

theorem migStep_taken (run : MigRec → State → State) (hp : s.powered = true) (hn : (s.instD n).migNext kind = some r)
    (ha : s.migAdmits n kind = true) : migStep n kind run s = .next (run r s) := by
  rw [migStep, hn]
  simp [hp, ha]

theorem migStep_none (run : MigRec → State → State) (hn : (s.instD n).migNext kind = none) : migStep n kind run s = .next s := by
  rw [migStep, hn]

/-- The next record is of one kind. -/
theorem Inst.migNext_other {i : Inst} {k : Nat} (h : i.migNext kind = some r) (hk : k ≠ kind) : i.migNext k = none := by
  unfold Inst.migNext at h ⊢
  split at h
  · next hb =>
    rw [if_pos hb]
    obtain ⟨hr, hrk⟩ := Option.filter_eq_some_iff.1 h
    rw [hr, Option.filter_some, if_neg (by simpa [(beq_iff_eq.1 hrk)] using Ne.symm hk)]
  · cases h

/-- The poisoned granules of a page, by the page's number in the image. -/
def State.badGranules (s : State) (page a : Nat) : List (Nat × Nat) :=
  (s.poison.filter fun g => decide (a / 64 ≤ g) && decide (g < (a + 0x200000) / 64)).map fun g => (page, g - a / 64)

theorem State.mem_badGranules (page a : Nat) (x : Nat × Nat) : x ∈ s.badGranules page a ↔ x.1 = page ∧ x.2 < 32768 ∧ a / 64 + x.2 ∈ s.poison := by
  simp only [State.badGranules, List.mem_map, List.mem_filter, Bool.and_eq_true, decide_eq_true_eq]
  constructor
  · rintro ⟨g, ⟨hg, hlo, hhi⟩, rfl⟩
    refine ⟨rfl, by dsimp only; omega, ?_⟩
    rwa [Nat.add_sub_cancel' hlo]
  · rintro ⟨rfl, hlt, hm⟩
    exact ⟨a / 64 + x.2, ⟨hm, by omega, by omega⟩, by simp⟩

variable (hp : s.powered = true)
include hp

theorem pageOut_done {a : Nat} (hn : (s.instD n).migNext 1 = some r) (ha : s.migAdmits n 1 = true) (hpage : (s.instD n).rlmPage r.page = some a)
    (hs : dieByte (s.instD 0).alloc.shareDg (devDie a) ≠ 0) : exec (.pageOut n) s =
      .next ((({ s with mem := memWrite s.mem (hostKey 0 r.host) (s.pageOutBytes a) } : State).modInst n fun i => { i with
        copied := assocSet r.page (sha256 (s.pageOutBytes a)) i.copied
        poisoned := (i.poisoned.filter fun (x : Nat × Nat) => x.1 != r.page) ++ s.badGranules r.page a }).migDone n) := by
  rw [exec_pageOut, execPageOut, migStep_taken _ hp hn ha, hpage]
  exact congrArg _ (if_neg hs)

/-- The state in which the bytes of a page stand in memory and in no cache. -/
def State.pagedIn (s : State) (n page a : Nat) (bs : List Byte) : State :=
  (({ s with
      mem := memWrite s.mem a bs
      poison := s.poison.filter fun g => decide (g < a / 64) || decide ((a + 0x200000) / 64 ≤ g) } : State).modCc (devDie a) fun c => { c with
        lines := c.lines.filter fun l => !(l.inst == n && l.addr / 0x200000 == a / 0x200000) }).modInst n fun i => { i with
          dirtyLive := insAsc page i.dirtyLive
          copied := i.copied.filter (·.1 != page)
          verified := i.verified.filter (·.1 != page) }

theorem pageIn_done {a : Nat} (hn : (s.instD n).migNext 2 = some r) (ha : s.migAdmits n 2 = true) (hpage : (s.instD n).rlmPage r.page = some a)
    (hs : dieByte (s.instD 0).alloc.shareDg (devDie a) ≠ 0) (hf : s.propolis.cmpFlip = 0) {bs : List Byte}
    (hbs : memRead s.mem (hostKey 0 r.host) 0x200000 = bs) : exec (.pageIn n) s = .next (
      if sha256 bs = r.digest then ((s.pagedIn n r.page a bs).modInst n fun i => { i with verified := assocSet r.page r.digest i.verified }).migDone n
      else (s.pagedIn n r.page a bs).migFail n 3) := by
  have hc : (s.pagedIn n r.page a bs).compareDigests (sha256 bs) r.digest = (s.pagedIn n r.page a bs, if sha256 bs = r.digest then 1#2 else 2#2) :=
    State.compareDigests_sound (s := s.pagedIn n r.page a bs) hf _ _
  rw [exec_pageIn, execPageIn, migStep_taken _ hp hn ha, hpage]
  refine congrArg Host.Outcome.next ((if_neg hs).trans ?_)
  rw [show Config.pageBytes = 0x200000 from rfl, hbs]
  change (let p := (s.pagedIn n r.page a bs).compareDigests (sha256 bs) r.digest
    if digestsEqual p.2 then (p.1.modInst n fun i => { i with verified := assocSet r.page r.digest i.verified }).migDone n
    else p.1.migFail n 3) = _
  rw [hc]
  by_cases hd : sha256 bs = r.digest
  · simp [hd, digestsEqual]
  · simp [hd, digestsEqual]

theorem imageOut_taken (hn : (s.instD n).migNext 3 = some r) (ha : s.migAdmits n 3 = true) : exec (.imageOut n) s = .next (
    if (s.instD n).validPt.any fun e => pteRlm e.2 && !(s.instD n).copied.any (·.1 == e.1) then s.migFail n 4
    else if r.bytes < (s.takeImage n).2.length then (s.takeImage n).1.migFail n 5
    else ({ (s.takeImage n).1 with mem := memWrite (s.takeImage n).1.mem (hostKey 0 r.host) (s.takeImage n).2 } : State).migDone n) := by
  rw [exec_imageOut, execImageOut, migStep_taken _ hp hn ha]

theorem imageIn_taken (hn : (s.instD n).migNext 4 = some r) (ha : s.migAdmits n 4 = true) : exec (.imageIn n) s = .next (
    if 0x80000000 < r.bytes then s.migFail n 5
    else (s.modInst n fun i => { i with
      restoreStatus := 1, restore := some { image := memRead s.mem (hostKey 0 r.host) r.bytes, accepted := false } }).migDone n) := by
  rw [exec_imageIn, execImageIn, migStep_taken _ hp hn ha]
  rfl

theorem pageOut_unmapped (hn : (s.instD n).migNext 1 = some r) (ha : s.migAdmits n 1 = true) (hpage : (s.instD n).rlmPage r.page = none) :
    exec (.pageOut n) s = .next (s.migFail n 1) ∧ exec (.pageIn n) s = .next s := by
  refine ⟨?_, ?_⟩
  · rw [exec_pageOut, execPageOut, migStep_taken _ hp hn ha, hpage]
  · rw [exec_pageIn, execPageIn, migStep_none _ (Inst.migNext_other hn (by decide))]

theorem pageIn_unmapped (hn : (s.instD n).migNext 2 = some r) (ha : s.migAdmits n 2 = true) (hpage : (s.instD n).rlmPage r.page = none) :
    exec (.pageOut n) s = .next s ∧ exec (.pageIn n) s = .next (s.migFail n 1) := by
  refine ⟨?_, ?_⟩
  · rw [exec_pageOut, execPageOut, migStep_none _ (Inst.migNext_other hn (by decide))]
  · rw [exec_pageIn, execPageIn, migStep_taken _ hp hn ha, hpage]

end

theorem migCopyDone_done {s : State} {n : Nat} (hb : (s.instD n).mig.busy = true)
    (h : (s.instD n).mig.error ≠ 0 ∨ (s.instD n).mig.recs.length ≤ (s.instD n).mig.next) : exec (.migCopyDone n) s =
      .next ((s.modInst n fun i => { i with mig := { i.mig with busy := false } }).raise Config.evMigCopyDone) := by
  rw [exec_migCopyDone, execMigCopyDone]
  refine if_neg ?_
  rcases h with h | h
  · simp [hb, h]
  · simp [hb, Nat.not_lt.2 h]

theorem restoreChecksDone_done {s : State} {n : Nat} {r : Restore} (h : (s.instD n).restore = some r) (ha : r.accepted = false)
    (hp : s.powered = true) (hf : s.propolis.cmpFlip = 0) {code : Nat} (hcode : (if r.image.drop (r.image.length - 32) =
      sha256 (r.image.take (r.image.length - 32)) then s.restoreCode n r.image else 2) = code) : exec (.restoreChecksDone n) s =
        .next (s.modInst n fun i => if code = 0 then { i with
          restoreStatus := 0
          restore := some { r with accepted := true }
          staged := i.staged ++ [{ left := s.stagingLeft, cmd := .restore }] }
        else { i with restoreStatus := code, restore := none }) := by
  have hc : (if digestsEqual (if r.image.drop (r.image.length - 32) = sha256 (r.image.take (r.image.length - 32)) then 1#2 else 2#2)
      then s.restoreCode n r.image else 2) = code := by
    rw [← hcode]
    by_cases he : r.image.drop (r.image.length - 32) = sha256 (r.image.take (r.image.length - 32))
    · rw [if_pos he, if_pos he]
      rfl
    · rw [if_neg he, if_neg he]
      rfl
  rw [exec_restoreChecksDone, execRestoreChecksDone, h]
  simp only [State.compareDigests_sound hf, hc]
  exact if_neg (by simp [ha, hp])

/-- Settles O50: one lemma for each command, and what memory holds after it byte by byte. -/
theorem memoryUpkeep : Obligations.MemoryUpkeep := by
  refine ⟨fun s k hd => ?_, fun k g h hk hg hh => ⟨granuleAddr_aligned k g, granuleAddr_lt hk hg, granuleAddr_lt_granuleAddr⟩,
    fun s k channel bank hd hc hb => ⟨bankSpare_named, fun hn hu => ?_, fun hn hu => ?_, bankSpareCopyDone_done hd⟩, fun s page w hd =>
    ⟨pageReleaseCleanDone_done hd, fun h ha hw => ⟨_, zeroFillDone_done hd h ha, fun a hlo hhi => ?_, fun a ha => ?_, rfl, rfl⟩⟩,
    fun s n inv base pages h => invalDone_done h, fun s n r hp => ⟨fun a hn ha hpage hs => ⟨_, pageOut_done hp hn ha hpage hs, s.mem_badGranules _ _⟩,
      fun a hn ha hpage hs hf => ⟨fun hdg => ?_, fun hdg => ?_⟩, fun hn ha => ?_, fun hn ha => ?_, fun kind hn hk ha hpage => ?_⟩,
    fun s n hb h => migCopyDone_done hb h, fun s n r h ha hp hf => ⟨fun hc => ?_, fun hc => ?_⟩⟩
  · intro g next last a bad
    exact ⟨patrolScrub_clean hd, patrolScrub_corrected hd, patrolScrub_uncorrectable hd, poisonGranule_of_mem, mem_poisonGranule,
      State.poisonGranule_mem ..⟩
  · exact (bankSpare_new hd hc hb hn).trans (if_pos hu)
  · exact (bankSpare_new hd hc hb hn).trans (if_neg (Bool.eq_false_iff.1 hu))
  · have hin : ¬ (a < 0x200000 * page ∨ 0x200000 * (page + 1) ≤ a) := by omega
    exact ⟨(memGet_zeroFilled hw page w a).trans (if_neg hin), fun h => hin ((mem_poison_zeroFilled s page w a).1 h).2⟩
  · exact ⟨(memGet_zeroFilled hw page w a).trans (if_pos ha), (mem_poison_zeroFilled s page w a).trans (and_iff_left ha)⟩
  · exact (pageIn_done hp hn ha hpage hs hf rfl).trans (congrArg _ (if_pos hdg))
  · exact (pageIn_done hp hn ha hpage hs hf rfl).trans (congrArg _ (if_neg hdg))
  · intro left p
    have h := imageOut_taken hp hn ha
    exact ⟨fun hl => h.trans (congrArg _ (if_pos hl)),
      fun hl hb => h.trans (congrArg _ ((if_neg (Bool.eq_false_iff.1 hl)).trans (if_pos hb))),
      fun hl hb => h.trans (congrArg _ ((if_neg (Bool.eq_false_iff.1 hl)).trans (if_neg (Nat.not_lt.2 hb))))⟩
  · have h := imageIn_taken hp hn ha
    exact ⟨fun hb => h.trans (congrArg _ (if_pos hb)), fun hb => h.trans (congrArg _ (if_neg (Nat.not_lt.2 hb)))⟩
  · simp only [List.mem_cons, List.not_mem_nil, or_false] at hk
    rcases hk with rfl | rfl
    · exact pageOut_unmapped hp hn ha hpage
    · exact pageIn_unmapped hp hn ha hpage
  · rw [restoreChecksDone_done h ha hp hf rfl]
    exact congrArg _ (State.modInst_congr (if_pos hc))
  · rw [restoreChecksDone_done h ha hp hf rfl]
    exact congrArg _ (State.modInst_congr (if_neg hc))

end Sys2Proof.Machine
end

section
/-!
PROOFS. Error classes, die fences, Forager retirement, Ridge lanes and the Saddle site (R35, R36, R476 to R479).
-/

namespace Sys2Proof.Machine

-- THE REACTIONS OF THE DEVICE AND OF A DIE ----------------------------------------------------------------------------------------------------

section
variable {s : State}

theorem crestUe_done (h : s.powered = true) : exec .crestUe s = .next s.deviceError := by rw [exec_crestUe, execCrestUe, if_pos h]

theorem deviceClassError_done (h : s.powered = true) : exec .deviceClassError s = .next s.deviceError := by
  rw [exec_deviceClassError, execDeviceClassError, if_pos h]

theorem combUe_done {d : Nat} (t : Nat) (h : s.powered = true) (hd : s.dieHolds d = true) :
    exec (.combUe d t) s = .next (((s.atNs t).raiseDie d dcCombUe).startFence d) := by
  rw [exec_combUe, execCombUe, if_neg (by simp [h, hd])]

theorem crestLinkDown_done (d t : Nat) (h : s.powered = true) : exec (.crestLinkDown d t) s = .next ((s.atNs t).crestGoesDown d) := by
  rw [exec_crestLinkDown, execCrestLinkDown, if_neg (by simp [h])]

theorem ringLinkDown_done (i t : Nat) (h : s.powered = true) : exec (.ringLinkDown i t) s = .next ((s.atNs t).ringGoesDown i) := by
  rw [exec_ringLinkDown, execRingLinkDown, if_neg (by simp [h])]

/-- The errors of the last hour (R479). -/
def State.recentErrors (s : State) : List Nat := s.power.devErrors.filter fun t => decide (s.power.uptimeNs < t + 3600000000000)

theorem deviceError_of_failed (h : s.power.devState = .failed) :
    s.deviceError = { s with power := { s.power with devErrors := s.recentErrors ++ [s.power.uptimeNs] } } := if_pos h

theorem deviceError_resets (h : s.power.devState ≠ .failed) (hn : s.recentErrors.length < 2) : s.deviceError = { s with power := { s.power with
    devErrors := s.recentErrors ++ [s.power.uptimeNs], warmPending := some 3 } } :=
  (if_neg h).trans (if_neg (Nat.not_le.2 hn))

theorem deviceError_fails (h : s.power.devState ≠ .failed) (hn : 2 ≤ s.recentErrors.length) : s.deviceError = { s with power := { s.power with
    devErrors := s.recentErrors ++ [s.power.uptimeNs], devState := .failed, failCause := 6, warmPending := none } } :=
  (if_neg h).trans (if_pos hn)

theorem deviceError_power (s : State) : s.deviceError = { s with power := s.deviceError.power } ∧
    s.deviceError.power.devErrors = s.recentErrors ++ [s.power.uptimeNs] := by
  by_cases h : s.power.devState = .failed
  · rw [deviceError_of_failed h]
    exact ⟨rfl, rfl⟩
  · rcases Nat.lt_or_ge s.recentErrors.length 2 with hn | hn
    · rw [deviceError_resets h hn]
      exact ⟨rfl, rfl⟩
    · rw [deviceError_fails h hn]
      exact ⟨rfl, rfl⟩

variable {d : Nat}

theorem startFence_of_unsound (h : d ∉ s.soundDies) : s.startFence d = s := if_pos (by simpa using h)

theorem startFence_last (h : s.soundDies = [d]) : s.startFence d = s.deviceError := by
  rw [State.startFence, if_neg (by simp [h]), if_pos h]

theorem startFence_staged (h : d ∈ s.soundDies) (hl : s.soundDies ≠ [d]) :
    s.startFence d = s.modDie d fun x => { x with fence := .staged s.stagingLeft } := by
  rw [State.startFence, if_neg (by simp [h]), if_neg hl]

theorem dieFenceComplete_done {rs : List Nat} (h : (s.dieD d).fence = .running rs) :
    exec (.dieFenceComplete d) s = .next (s.modDie d fun x => { x with fence := .complete rs }) := by
  rw [exec_dieFenceComplete, execDieFenceComplete, h]

end

-- FORAGERS ------------------------------------------------------------------------------------------------------------------------------------

/-- What a change of a die leaves alone. -/
theorem State.dieD_modDie_congr {β : Type} (p : Die → β) {k : Die → Die} (hk : ∀ x, p (k x) = p x) (s : State) (d e : Nat) :
    p ((s.modDie d k).dieD e) = p (s.dieD e) := by
  by_cases he : e = d
  · subst he
    by_cases hl : e < s.dies.length
    · rw [State.dieD_modDie _ hl, hk]
    · simp [State.dieD, State.modDie, hl]
  · rw [State.dieD_modDie_ne _ he]

theorem State.dieD_raiseDie_congr {β : Type} (p : Die → β) (hp : ∀ (x : Die) (c : W64), p { x with cause := c } = p x) (s : State) (d b e : Nat) :
    p ((s.raiseDie d b).dieD e) = p (s.dieD e) := by
  unfold State.raiseDie
  dsimp only
  generalize (if b < 8 then Config.evDieError d else Config.evDieRepair d) = ev
  split
  · rfl
  · have hdie : ∀ t : State, (t.raise ev).dieD e = t.dieD e := fun t => by
      rw [State.dieD, State.raise_dies, State.raise_part, State.dieD]
    rw [hdie]
    exact State.dieD_modDie_congr p (fun x => hp x _) s d e

section
variable {s : State} {f : FId}

theorem nameRetire_eq {d p : Nat} (hp : p < 68) (status : Option Nat) : s.nameRetire d p status =
    if (s.dieD d).failed.contains p || (s.dieD d).retiring.any (·.1 == p) then s
    else s.modDie d fun x => { x with retiring := x.retiring ++ [(p, status)] } := by
  rw [State.nameRetire, decide_eq_false (Nat.not_le.2 hp), Bool.false_or]

theorem foragerErrThresh_done (hd : s.dieRuns f.die = true) (hf : f.fgr < 68) : exec (.foragerErrThresh f) s =
    .next ((s.modFgr f fun g => { g with cerr := max g.cerr s.keeper.rwp.fgrErrThresh }).nameRetire f.die f.fgr none) := by
  rw [exec_foragerErrThresh, execForagerErrThresh, if_neg (by simp [hd, hf])]

theorem foragerUe_done {g : Fgr} (hd : s.dieRuns f.die = true) (hg : s.fgr? f = some g) : exec (.foragerUe f) s =
    let s1 := ((s.raiseDie f.die dcForagerUe).nameRetire f.die f.fgr (some Config.stMemFault)).modFgr f fun h => { h with run := .stopped }
    .next (match g.morsel with
      | none => s1
      | some m => s1.failPart m.jid f.die m.stage Config.stMemFault []) := by
  rw [exec_foragerUe, execForagerUe, if_neg (by simp [hd]), hg]
  dsimp only
  cases g.morsel <;> rfl

-- LINKS AND THE SADDLE ------------------------------------------------------------------------------------------------------------------------

theorem ridgeLaneFail_crest {i : Nat} (h : s.powered = true) (hp : (s.dieD i).present = true) (hd : (s.dieD i).crestDown = false) :
    exec (.ridgeLaneFail (.crest i)) s = .next (if (s.dieD i).crestSpares ≤ (s.dieD i).crestFailing then s.crestGoesDown i
      else s.modDie i fun y => { y with crestFailing := y.crestFailing + 1 }) := by
  rw [exec_ridgeLaneFail, execRidgeLaneFail.eq_def, if_neg (by simp [h])]
  refine (if_neg (by simp [hp, hd])).trans ?_
  split_ifs <;> rfl

theorem ridgeLaneFail_ring {i : Nat} (h : s.powered = true) (hp : (s.dieD i).present = true) (hd : (s.dieD i).ringDown = false) :
    exec (.ridgeLaneFail (.ring i)) s = .next (if (s.dieD i).ringSpares ≤ (s.dieD i).ringFailing then s.ringGoesDown i
      else s.modDie i fun y => { y with ringFailing := y.ringFailing + 1 }) := by
  rw [exec_ridgeLaneFail, execRidgeLaneFail.eq_def, if_neg (by simp [h])]
  refine (if_neg (by simp [hp, hd])).trans ?_
  split_ifs <;> rfl

theorem ridgeLaneFail_saddle (h : s.powered = true) (hs : s.saddle.state = 2) : exec (.ridgeLaneFail .saddle) s =
    .next (if s.saddle.spares ≤ s.saddle.failing then s.saddleFails
      else { s with saddle := { s.saddle with failing := s.saddle.failing + 1 } }) := by
  rw [exec_ridgeLaneFail, execRidgeLaneFail.eq_def, if_neg (by simp [h])]
  refine (if_neg (by simp [hs])).trans ?_
  rw [if_pos hs]
  split_ifs <;> rfl

theorem saddleEnableDone_trained (h : s.powered = true) (ht : s.saddle.training = true) (r : List Byte) : exec (.saddleEnableDone (some r)) s =
    .next { s.extendMeas 3 (sha256 r) with saddle := { s.saddle with training := false, enableNext := true } } := by
  rw [exec_saddleEnableDone, execSaddleEnableDone.eq_def, if_neg (by simp [h, ht])]

theorem saddleEnableDone_failed (h : s.powered = true) (ht : s.saddle.training = true) :
    exec (.saddleEnableDone none) s = .next s.saddleFails := by
  rw [exec_saddleEnableDone, execSaddleEnableDone.eq_def, if_neg (by simp [h, ht])]

theorem Saddle.down_of_settled {x : Saddle} (h : x.disableNext = false) :
    x.down = { x with state := 1, disabling := false, training := x.enablePending, enablePending := false } := by
  cases x
  cases h
  rfl

theorem saddleDisableDone_done (hd : s.saddle.disabling = true) (hn : s.saddle.disableNext = false) (hf : s.saddle.inflight = []) :
    exec .saddleDisableDone s = .next { s with saddle := { s.saddle with
      state := 1, disabling := false, training := s.saddle.enablePending, enablePending := false } } := by
  rw [exec_saddleDisableDone, execSaddleDisableDone, if_neg (by simp [hd, hn, hf]), Saddle.down_of_settled hn]

theorem saddlePortDown_done (h : s.powered = true) (hs : s.saddle.state = 2 ∨ s.saddle.training = true) :
    exec .saddlePortDown s = .next s.saddleFails := by
  rw [exec_saddlePortDown, execSaddlePortDown]
  exact if_neg (by rcases hs with hs | hs <;> simp [h, hs])

theorem failSaddleOps_saddle (s : State) : s.failSaddleOps.saddle = { s.saddle with inflight := [] } := by
  refine List.foldlRecOn (motive := fun t : State => t.saddle = { s.saddle with inflight := [] }) _ _ rfl fun t ht r _ => ?_
  dsimp only
  split
  · exact ht
  · split
    · rw [State.failPart]
      exact ht
    · exact ht

end

-- RING REQUESTS -------------------------------------------------------------------------------------------------------------------------------

theorem foldl_min_le (l : List Nat) (b : Nat) : l.foldl min b ≤ b ∧ ∀ x ∈ l, l.foldl min b ≤ x := by
  induction l generalizing b with
  | nil => simp
  | cons a l ih =>
    obtain ⟨hb, hl⟩ := ih (min b a)
    rw [List.foldl_cons]
    refine ⟨hb.trans (Nat.min_le_left ..), fun x hx => ?_⟩
    rcases List.mem_cons.1 hx with rfl | hx
    · exact hb.trans (Nat.min_le_right ..)
    · exact hl x hx

theorem foldl_min_mem (l : List Nat) (b : Nat) : l.foldl min b = b ∨ l.foldl min b ∈ l := by
  induction l generalizing b with
  | nil => exact .inl rfl
  | cons a l ih =>
    rw [List.foldl_cons, List.mem_cons]
    rcases ih (min b a) with h | h
    · rw [h]
      omega
    · exact .inr (.inr h)

theorem ringRequestTimeout_done {s : State} {jid die : Nat} {j : Job} (hj : s.job? jid = some j) (hr : ∃ d ∈ s.dies, d.ringDown = true)
    (hs : j.state = .running) (hd : die ∈ j.dieSet) : exec (.ringRequestTimeout jid die) s = .next (s.failPart jid die
      ((((s.dieD die).morsels.filter (·.jid == jid)).map (·.stage)).foldl min 0xFFFF) Config.stMemFault []) := by
  obtain ⟨x, hx, hxd⟩ := hr
  have hany : s.dies.any (·.ringDown) = true := List.any_eq_true.2 ⟨x, hx, hxd⟩
  rw [exec_ringRequestTimeout, execRingRequestTimeout, hj]
  exact if_neg (by simp [hany, hs, hd])

/-- Settles O51: the errors by the dies still sound, the lanes by the spares, the site by its state. -/
theorem errorsAndFences : Obligations.ErrorsAndFences := by
  refine ⟨fun s t h => ?_, fun s => ?_, fun s d => ⟨startFence_of_unsound, startFence_last, startFence_staged⟩,
    fun s d rs h => dieFenceComplete_done h, fun s f g hd hg hf => ⟨?_, ?_⟩, fun s i h => ⟨ridgeLaneFail_crest h, ridgeLaneFail_ring h,
      ridgeLaneFail_saddle h, fun ht => ⟨saddleEnableDone_trained h ht, saddleEnableDone_failed h ht⟩, saddleDisableDone_done,
      fun hs => ⟨_, saddlePortDown_done h hs, rfl, ?_, rfl, rfl⟩⟩, fun s jid die j hj hr hs hd => ⟨_, ringRequestTimeout_done hj hr hs hd, ?_, ?_⟩⟩
  · exact ⟨crestUe_done h, deviceClassError_done h, fun _ => rfl, fun d hd => combUe_done t h hd, fun d => crestLinkDown_done d t h,
      fun i => ringLinkDown_done i t h⟩
  · refine ⟨(deviceError_power s).1, (deviceError_power s).2, fun hf hn => ?_, fun hf hn => ?_⟩
    · rw [deviceError_resets hf hn]
      exact ⟨rfl, rfl⟩
    · rw [deviceError_fails hf hn]
      exact ⟨rfl, rfl⟩
  · rw [foragerErrThresh_done hd hf, nameRetire_eq hf, State.dieD_modFgr]
  · intro stopped
    have hfail := State.dieD_raiseDie_congr (·.failed) (fun _ _ => rfl) s f.die dcForagerUe f.die
    have hret := State.dieD_raiseDie_congr (·.retiring) (fun _ _ => rfl) s f.die dcForagerUe f.die
    rw [foragerUe_done hd hg, nameRetire_eq hf, hfail, hret] <;> rfl
  · rw [State.saddleFails, failSaddleOps_saddle]
  · rintro ⟨m, hm, hj, hlt⟩
    have hmem : m.stage ∈ ((s.dieD die).morsels.filter (·.jid == jid)).map (·.stage) :=
      List.mem_map.2 ⟨m, List.mem_filter.2 ⟨hm, by simp [hj]⟩, rfl⟩
    rcases foldl_min_mem (((s.dieD die).morsels.filter (·.jid == jid)).map (·.stage)) 0xFFFF with h | h
    · have := (foldl_min_le _ 0xFFFF).2 _ hmem
      omega
    · obtain ⟨x, hx, he⟩ := List.mem_map.1 h
      obtain ⟨hx, hxj⟩ := List.mem_filter.1 hx
      exact ⟨x, hx, by simpa using hxj, he⟩
  · intro m hm hj
    exact (foldl_min_le _ 0xFFFF).2 _ (List.mem_map.2 ⟨m, List.mem_filter.2 ⟨hm, by simp [hj]⟩, rfl⟩)

end Sys2Proof.Machine
end

section
/-!
PROOFS. Packets of the Range fabric, losses, joins, ports and ICMPv6 (R401 to R415).
-/

namespace Sys2Proof.Machine

-- THE CHECKS OF A PACKET ----------------------------------------------------------------------------------------------------------------------

section
variable {s : State} {port : Nat} {p : RtPkt} {control : Bool}

/-- The fixed fields of a packet are as listed (check 2 of R402). -/
def FixedOk (p : RtPkt) (control : Bool) : Prop :=
  p.version = 1 ∧ p.flags &&& (if control then 0xFD else 0xFE) = 0 ∧ p.srcDev.toNat < 2048 ∧ p.dstDev.toNat < 2048 ∧
    (control = true → ∀ b ∈ slice p.payload 7 9, b = 0)

theorem fixedOk_iff : (!RtPkt.formed p control || (control && !allZero (slice p.payload 7 9))) = false ↔ FixedOk p control := by
  cases control <;> simp [RtPkt.formed, FixedOk, allZero, and_assoc]

theorem rtDropped_mac (hm : p.macOk = false) : s.rtDropped port control p = some (s.countDrop port 0) := by
  rw [State.rtDropped, hm]
  rfl

theorem rtDropped_format (hm : p.macOk = true) (hf : ¬ FixedOk p control) : s.rtDropped port control p = some (s.countDrop port 1) := by
  rw [State.rtDropped, if_neg (by simp [hm]), if_pos (Bool.eq_true_of_not_eq_false (fixedOk_iff.not.2 hf))]
  rfl

/-- The checks that follow those of the fixed fields. -/
theorem rtDropped_formed (hm : p.macOk = true) (hf : FixedOk p control) : s.rtDropped port control p =
    if control && RtPkt.periodUs p != s.frame.periodActive then some ((s.countDrop port rdFormat).configClash p.srcDev.toNat 0)
    else if control && RtPkt.mode p != s.fabric.portModeActive then some ((s.countDrop port rdFormat).configClash p.srcDev.toNat 1)
    else if rtCrc p control != p.crc then some (s.countDrop port rdCrc)
    else if some p.dstDev.toNat != s.fabric.deviceIdActive then some (s.countDrop port rdFormat)
    else if p.srcDev == p.dstDev then some ((s.countDrop port rdFormat).configClash p.srcDev.toNat 2)
    else if !s.fabric.exchange then some (s.countDrop port rdOut)
    else none := by
  rw [State.rtDropped, if_neg (by simp [hm]), if_neg (by rw [fixedOk_iff.2 hf]; exact Bool.false_ne_true)]

theorem rtDropped_period (hm : p.macOk = true) (hf : FixedOk p control) (hc : control = true)
    (hp : byteAt p.payload 0 ≠ s.frame.periodActive) :
    s.rtDropped port control p = some ((s.countDrop port 1).configClash p.srcDev.toNat 0) := by
  rw [rtDropped_formed hm hf, if_pos (by simpa [hc, RtPkt.periodUs] using hp)]
  rfl

theorem rtDropped_mode (hm : p.macOk = true) (hf : FixedOk p control) (hc : control = true) (hp : byteAt p.payload 0 = s.frame.periodActive)
    (hmode : byteAt p.payload 1 ≠ s.fabric.portModeActive) :
    s.rtDropped port control p = some ((s.countDrop port 1).configClash p.srcDev.toNat 1) := by
  rw [rtDropped_formed hm hf, if_neg (by simp [RtPkt.periodUs, hp]), if_pos (by simpa [hc, RtPkt.mode] using hmode)]
  rfl

/-- The checks that follow those of a control packet's header. -/
theorem rtDropped_agreeing (hm : p.macOk = true) (hf : FixedOk p control)
    (ha : control = true → byteAt p.payload 0 = s.frame.periodActive ∧ byteAt p.payload 1 = s.fabric.portModeActive) :
    s.rtDropped port control p =
      if rtCrc p control != p.crc then some (s.countDrop port 2)
      else if some p.dstDev.toNat != s.fabric.deviceIdActive then some (s.countDrop port 1)
      else if p.srcDev == p.dstDev then some ((s.countDrop port 1).configClash p.srcDev.toNat 2)
      else if !s.fabric.exchange then some (s.countDrop port 6)
      else none := by
  rw [rtDropped_formed hm hf, if_neg, if_neg]
  · rfl
  · cases control with
    | false => exact Bool.false_ne_true
    | true => simp [RtPkt.mode, (ha rfl).2]
  · cases control with
    | false => exact Bool.false_ne_true
    | true => simp [RtPkt.periodUs, (ha rfl).1]

theorem rtDropped_crc (hm : p.macOk = true) (hf : FixedOk p control)
    (ha : control = true → byteAt p.payload 0 = s.frame.periodActive ∧ byteAt p.payload 1 = s.fabric.portModeActive)
    (hc : rtCrc p control ≠ p.crc) : s.rtDropped port control p = some (s.countDrop port 2) := by
  rw [rtDropped_agreeing hm hf ha, if_pos (by simpa using hc)]

/-- The checks of a packet whose CRC is right. -/
theorem rtDropped_addressed (hm : p.macOk = true) (hf : FixedOk p control)
    (ha : control = true → byteAt p.payload 0 = s.frame.periodActive ∧ byteAt p.payload 1 = s.fabric.portModeActive)
    (hc : rtCrc p control = p.crc) : s.rtDropped port control p =
      if s.fabric.deviceIdActive ≠ some p.dstDev.toNat then some (s.countDrop port 1)
      else if p.srcDev = p.dstDev then some ((s.countDrop port 1).configClash p.srcDev.toNat 2)
      else if s.fabric.exchange = false then some (s.countDrop port 6)
      else none := by
  rw [rtDropped_agreeing hm hf ha, if_neg (by simp [hc])]
  simp only [bne_iff_ne, ne_comm (a := some p.dstDev.toNat), beq_iff_eq, Bool.not_eq_true']

end

-- DATA AND CONTROL PACKETS --------------------------------------------------------------------------------------------------------------------

section
variable {s : State} {port : Nat} {p : RtPkt} (hr : s.receives port = true)
include hr

theorem data_dropped {t : State} (h : s.rtDropped port false p = some t) : exec (.data port p) s = .next t := by
  rw [exec_data, execData, if_neg (by simp [hr]), h]

/-- A DATA packet that passes the checks. -/
theorem data_passed (h : s.rtDropped port false p = none) : exec (.data port p) s =
    let here := fun (x : RxFrame) => x.dev == p.srcDev.toNat && x.frame == p.frame.toNat
    if (s.instD p.dstInst.toNat).gen ≠ p.dstGen
    then .next (s.countStale p.dstInst.toNat fun i => { i with staleFabric := min (i.staleFabric + 1) 0xFFFFFFFF })
    else match s.fabric.rx.find? here with
      | none => .next (s.countDrop port 3)
      | some x =>
        if x.granted ≤ p.seq.toNat then .next (s.countDrop port 3)
        else if x.seqs.contains p.seq.toNat then .next (s.countDrop port 4)
        else
          let t := (({ s with fabric := { s.fabric with
            rx := s.fabric.rx.map fun y => if here y then { y with seqs := p.seq.toNat :: y.seqs } else y } } : State).countRx port).land p
          .next (if p.frame.toNat < s.frame.number.toNat then t.countDrop port 5 else t) := by
  rw [exec_data, execData, if_neg (by simp [hr]), h]
  simp only [bne_iff_ne] <;> rfl

theorem control_dropped {t : Nat} {u : State} (h : (s.atNs t).rtDropped port true p = some u) : exec (.control port p t) s = .next u := by
  rw [exec_control, execControl, if_neg (by simp [hr])]
  simp only [h]

theorem control_passed {t : Nat} (h : (s.atNs t).rtDropped port true p = none) : exec (.control port p t) s =
    let s0 := s.atNs t
    let es := ctlEntries p.payload (field p.payload 4 2) 16
    let inTime := p.frame == s0.frame.number && decide (s0.power.uptimeNs + 1000 < s0.frameEndNs)
    let s1 := s0.countRx port
    let s2 : State := { s1 with fabric := { s1.fabric with peerPlanes := assocSet p.srcDev.toNat (field p.payload 2 2) s1.fabric.peerPlanes } }
    .next (((es.foldl (fun s e => s.takeEntry p.srcDev.toNat p.frame.toNat inTime e) s2).takeEcho p.srcDev.toNat p.frame.toNat p.seq.toNat
      (max 1 (byteAt p.payload 6)) es).resendDue) := by
  rw [exec_control, execControl, if_neg (by simp [hr])]
  simp only [h] <;> rfl

end

-- LOSSES, JOINS, PORTS ------------------------------------------------------------------------------------------------------------------------

section
variable {s : State} {j : Job} {D : Dist}

theorem fabricLoss_done {g : Grant} (h : s.distJobs.find? (fun x => x.1.jid == j.jid) = some (j, D)) (ha : j.alive = true)
    (hr : j.state = .running) (he : s.fabric.exchange = true) (hg : s.lostGrant D = some g) : exec (.fabricLoss j.jid) s =
      .next (({ (s.modJob j.jid fun j => j.failFar s.frame.number.toNat g.stage Config.stFabricLoss s.selfDev) with
        fabric := { s.fabric with lossTotal := satAdd 64 s.fabric.lossTotal 1 } } : State).raise Config.evFabricLoss) := by
  have hc : (!s.fabric.exchange || !j.alive || j.state != .running) = false := by simp [he, ha, hr]
  rw [exec_fabricLoss, execFabricLoss, h]
  simp only [hc, hg, Bool.false_eq_true, if_false] <;> rfl

theorem joinTimeout_done (h : s.distJobs.find? (fun x => x.1.jid == j.jid) = some (j, D)) (ha : j.alive = true) (hr : j.state = .running)
    (hD : D.state = .joining) (ht : D.admittedNs + s.fabric.joinTimeout * 1000000 ≤ s.power.uptimeNs) : exec (.joinTimeout j.jid) s =
      .next (s.modJob j.jid fun j => j.failFar s.frame.number.toNat 0xFFFF
        (if s.fabric.exchange then Config.stFabricLoss else Config.stSyncLost) s.selfDev) := by
  rw [exec_joinTimeout, execJoinTimeout, h]
  exact if_neg (by simp [ha, hr, hD, Nat.not_lt.2 ht])

theorem controlPacketsMissing_done {dev : Nat} (h : s.distJobs.find? (fun x => x.2.djid == D.djid) = some (j, D)) (hr : j.state = .running)
    (hD : D.state ≠ .joining) (hp : ∃ p ∈ D.peers, p.dev = dev ∧ p.state ≠ .failed ∧ 8 ≤ p.missing) :
    exec (.controlPacketsMissing D.djid dev) s = .next (s.modDist j.jid fun D => { D with peers := D.peers.map fun p =>
      if p.dev = dev then { p with state := .failed, status := Config.stFabricLoss, failFrame := s.frame.number.toNat - 1 } else p }) := by
  obtain ⟨p, hp, hdev, hst, hm⟩ := hp
  have hany : D.peers.any (fun p => p.dev == dev && p.state != .failed && decide (8 ≤ p.missing)) = true :=
    List.any_eq_true.2 ⟨p, hp, by simp [hdev, hst, hm]⟩
  rw [exec_controlPacketsMissing, execControlPacketsMissing, h]
  exact if_neg (by simp [hr, hD, hany])

variable {k : Nat} (hp : s.powered = true) (hk : k < s.fabric.portCount)
include hp hk

theorem portUp_done (h : (s.fabric.port k).state = .down ∨ (s.fabric.port k).state = .training) :
    exec (.portUp k) s = .next ((s.modPort k fun y => { y with state := .up }).raise Config.evPortUp) := by
  rw [exec_portUp, execPortUp]
  exact if_neg (by rcases h with h | h <;> simp [hp, hk, h])

theorem portDown_done (h : (s.fabric.port k).linked = true) : exec (.portDown k) s = .next ((s.modPort k fun y => { y with
    state := if (s.fabric.port k).state = .up then .down else if (s.fabric.port k).enablePending then .training else .disabled
    enablePending := false }).raise Config.evPortDown) := by
  rw [exec_portDown, execPortDown]
  exact if_neg (by simp [State.receives, hp, hk, h])

end

/-- Settles O52: the checks of a packet one after the other, then one lemma for each command. -/
theorem fabricPackets : Obligations.FabricPackets := by
  refine ⟨fun s port p control => ?_, fun s port p hr => ?_, fun s j D h ha hr => ⟨fun g he hg => fabricLoss_done h ha hr he hg,
    fun hD ht => joinTimeout_done h ha hr hD ht⟩, fun s j D dev h hr hD hp => controlPacketsMissing_done h hr hD hp,
    fun s k hp hk => ⟨portUp_done hp hk, portDown_done hp hk⟩, fun s port target body => ⟨fun h => ⟨?_, ?_⟩, fun h => ⟨?_, ?_⟩⟩⟩
  · intro drop fixed agrees crc mine
    refine ⟨rtDropped_mac, rtDropped_format, rtDropped_crc, rtDropped_period, rtDropped_mode, fun hm hf ha hc hn => ?_,
      fun hm hf ha hc hn he => ?_, fun hm hf ha hc hn he hx => ?_, fun hm hf ha hc hn he hx => ?_⟩
    · exact (rtDropped_addressed hm hf ha hc).trans (if_pos hn)
    · exact (rtDropped_addressed hm hf ha hc).trans ((if_neg (not_not.2 hn)).trans (if_pos he))
    · exact (rtDropped_addressed hm hf ha hc).trans ((if_neg (not_not.2 hn)).trans ((if_neg he).trans (if_pos hx)))
    · exact (rtDropped_addressed hm hf ha hc).trans ((if_neg (not_not.2 hn)).trans ((if_neg he).trans (if_neg (by simp [hx]))))
  · refine ⟨fun t ht => data_dropped hr ht, fun h => ⟨fun hg => ?_, fun hg hn => ?_, fun x hg hx => ⟨fun hs => ?_, fun hs hd => ?_, fun hs hd => ?_⟩⟩,
      fun at_ => ⟨fun t ht => control_dropped hr ht, fun h => control_passed hr h⟩⟩
    · exact (data_passed hr h).trans (if_pos hg)
    all_goals refine (data_passed hr h).trans ((if_neg (not_not.2 hg)).trans ?_)
    · rw [hn]
      rfl
    · rw [hx]
      exact if_pos hs
    · rw [hx]
      exact (if_neg (Nat.not_le.2 hs)).trans (if_pos (by simpa using hd))
    · rw [hx]
      exact (if_neg (Nat.not_le.2 hs)).trans (if_neg (by simpa using hd))
  · rw [exec_neighborSolicitation, execNeighborSolicitation, if_pos h]
  · rw [exec_echoRequest, execEchoRequest, if_pos h]
  · rw [exec_neighborSolicitation, execNeighborSolicitation, if_neg (by simp [h])]
  · rw [exec_echoRequest, execEchoRequest, if_neg (by simp [h])]

end Sys2Proof.Machine
end

section
/-!
PROOFS. Commits, restarts and sessions of Keeper, firmware switches and quotes (R437, R448, R469, R481, R483).
-/

namespace Sys2Proof.Machine

section
variable {α β : Type} {f : State → α → State} {g : State → β}

/-- What each step of a fold keeps, the fold keeps. -/
theorem State.foldl_keeps (h : ∀ s a, g (f s a) = g s) (l : List α) (s : State) : g (l.foldl f s) = g s := by
  induction l generalizing s with
  | nil => rfl
  | cons a l ih => exact (ih (f s a)).trans (h s a)

end

@[simp] theorem State.raise_keeper (s : State) (e : Nat) : (s.raise e).keeper = s.keeper := by rw [State.raise_eq]
@[simp] theorem State.raise_propolis (s : State) (e : Nat) : (s.raise e).propolis = s.propolis := by rw [State.raise_eq]

-- COMMITS -------------------------------------------------------------------------------------------------------------------------------------

section
variable {s : State}

section
variable {α : Type} {g : Keeper → α} (hg : ∀ k r, g { k with rwp := r } = g k)
include hg

theorem putRwp_keeps (i sub : Nat) (data : List Byte) : g (s.putRwp i sub data).keeper = g s.keeper := by
  rw [State.putRwp, State.setSyncMode]
  split
  · split <;> exact hg _ _
  · exact hg _ _

/-- A revert changes the values in force alone of the keeper. -/
theorem revert_keeps : g s.revert.keeper = g s.keeper :=
  (State.foldl_keeps (g := fun s : State => g s.keeper) (fun _ _ => putRwp_keeps hg _ _ _) _ _).trans
    ((hg _ _).trans (State.foldl_keeps (g := fun s : State => g s.keeper) (fun _ _ => putRwp_keeps hg _ _ _) _ _))

end

variable (hu : s.keeperUp = true) (hn : s.keeper.restarting = false) (hr : s.keeper.waiting.filter (·.running) ≠ [])
include hu hn hr

theorem persistCommit_verified : exec (.persistCommit true) s =
    .next (s.keeper.running.foldl (fun (s : State) w => s.answer w.who 0)
      { s with keeper := (s.keeper.commit (applyWaiters s.keeper.copyA.content s.keeper.running)).nextBatch }) := by
  rw [exec_persistCommit, execPersistCommit]
  exact if_neg (by simpa [hu, hn, Keeper.running] using hr)

theorem persistCommit_failed : exec (.persistCommit false) s =
    .next ((s.keeper.running.foldl (fun (s : State) w => s.answer w.who Config.abPersist)
      { s.revert with keeper := s.revert.keeper.nextBatch }).raise Config.evPersistFault) := by
  rw [exec_persistCommit, execPersistCommit]
  exact if_neg (by simpa [hu, hn, Keeper.running] using hr)

end

-- RESTARTS AND SESSIONS -----------------------------------------------------------------------------------------------------------------------

section
variable {s : State}

theorem keeperWatchdog_done (hu : s.keeperUp = true) (hr : s.power.recovery = false) (hn : s.keeper.restarting = false) :
    exec .keeperWatchdog s = .next { s.abortSessions with keeper := { s.abortSessions.keeper with restarting := true } } := by
  rw [exec_keeperWatchdog, execKeeperWatchdog]
  exact if_neg (by simp [hu, hr, hn])

/-- No segmented transfer is under way in the window of function n. -/
def State.NoTransfer (s : State) (n : Nat) : Prop := (s.instD n).kdw.state ≠ .segRead ∧ (s.instD n).kdw.state ≠ .segWrite

theorem kdwAbort_noTransfer {n fn : Nat} : (s.kdwAbort fn Config.abAborted).NoTransfer n ↔ n = fn ∨ s.NoTransfer n := by
  by_cases hn : n = fn
  · subst hn
    refine iff_of_true ?_ (.inl rfl)
    by_cases hl : n < s.insts.length
    · have : (s.kdwAbort n Config.abAborted).instD n = { s.instD n with kdw := { (s.instD n).kdw with
          state := .aborted, abort := Config.abAborted } } := State.instD_modInst _ hl
      rw [State.NoTransfer, this]
      exact ⟨nofun, nofun⟩
    · have : (s.kdwAbort n Config.abAborted).instD n = Inst.reset s.part n := by
        refine List.getD_eq_default _ _ ?_
        exact (List.length_modify _ _ _).trans_le (Nat.not_lt.1 hl)
      rw [State.NoTransfer, this]
      exact ⟨nofun, nofun⟩
  · have : (s.kdwAbort fn Config.abAborted).instD n = s.instD n := State.instD_modInst_ne _ hn
    rw [State.NoTransfer, this, State.NoTransfer]
    simp [hn]

theorem foldl_kdwAbort_noTransfer {n : Nat} (l : List Nat) (s : State) :
    (l.foldl (fun s fn => s.kdwAbort fn Config.abAborted) s).NoTransfer n ↔ n ∈ l ∨ s.NoTransfer n := by
  induction l generalizing s with
  | nil => simp
  | cons fn l ih => rw [List.foldl_cons, ih, kdwAbort_noTransfer, List.mem_cons, or_left_comm, or_assoc]

theorem abortSessions_noTransfer {n : Nat} (hn : n < 256) : s.abortSessions.NoTransfer n := by
  refine (foldl_kdwAbort_noTransfer _ s).2 ?_
  by_cases h : s.NoTransfer n
  · exact .inr h
  · refine .inl (List.mem_filter.2 ⟨List.mem_range.2 hn, ?_⟩)
    by_contra hc
    exact h (by simpa [State.NoTransfer] using hc)

theorem deviceError_keeper (s : State) : s.deviceError.keeper = s.keeper := by rw [(deviceError_power s).1]
theorem deviceError_propolis (s : State) : s.deviceError.propolis = s.propolis := by rw [(deviceError_power s).1]

theorem keeperHolds_iff : s.keeperHolds = true ↔ s.keeper.restarting = true ∨ s.propolis.switch = .newKeeper := by
  rw [State.keeperHolds, Bool.or_eq_true, beq_iff_eq]

end

/-- Settles O54: one lemma for each command, and what a revert and an abort of sessions keep. -/
theorem keeperService : Obligations.KeeperService := by
  refine ⟨fun s hu hn hr => ⟨persistCommit_verified hu hn hr, ?_, ?_, ?_⟩, fun s hu hr hn => keeperWatchdog_done hu hr hn,
    fun s => ⟨rfl, fun n hn => abortSessions_noTransfer hn⟩, fun s hr hp => ?_, fun s hs hp => ?_, fun s n body h => ?_⟩
  · rw [persistCommit_failed hu hn hr, Keeper.nextBatch, Keeper.queued, revert_keeps (g := Keeper.waiting) fun _ _ => rfl]
    rfl
  · exact revert_keeps (g := Keeper.copyA) fun _ _ => rfl
  · exact revert_keeps (g := Keeper.copyB) fun _ _ => rfl
  · intro recent t u
    have hu : u.keeper.restarting = false ∧ u.propolis.switch = s.propolis.switch := by
      unfold u
      split <;> simp [t, deviceError_keeper, deviceError_propolis]
    rw [exec_keeperRestart, execKeeperRestart, if_neg (by simp [hr, hp])]
    refine congrArg _ (if_congr (keeperHolds_iff.trans ?_) rfl rfl)
    change u.keeper.restarting = true ∨ u.propolis.switch = _ ↔ _
    simp [hu.1, hu.2]
  · intro t
    rw [exec_fwSwitchFail, execFwSwitchFail, if_neg (by simp [hs, hp])]
    refine congrArg _ (if_congr (keeperHolds_iff.trans ?_) rfl rfl)
    change t.keeper.restarting = true ∨ t.propolis.switch = _ ↔ _
    simp [t]
  · refine ⟨_, fit 17088 (Config.slhSign body), by rw [exec_quoteSigned, execQuoteSigned, h], ?_, rfl⟩
    simp [fit, zeros]
    omega

end Sys2Proof.Machine
end

section
/-!
PROOFS. Power, the cold and the warm reset, bring-up, rails, temperatures and the clock (R437, R486 to R500).
-/

namespace Sys2Proof.Machine

-- RESETS --------------------------------------------------------------------------------------------------------------------------------------

/-- Dropping the cells below 2^48 leaves what the others hold, whatever form the memory has. -/
theorem memGet_hostCells_all (m : List Host.Cell) (x : Nat) : memGet (hostCells m) x = if 2 ^ 48 ≤ x then memGet m x else 0 := by
  induction m with
  | nil => simp [hostCells, memGet]
  | cons c m ih =>
    obtain ⟨k, v⟩ := c
    rw [hostCells] at ih ⊢
    by_cases hk : 2 ^ 48 ≤ k
    · rw [List.filter_cons_of_pos (by simpa using hk), memGet, ih, memGet]
      by_cases hx : 2 ^ 48 ≤ x
      · simp only [if_pos hx]
      · rw [if_neg hx, if_pos (by omega), if_neg hx]
    · rw [List.filter_cons_of_neg (by simpa using hk), ih, memGet]
      by_cases hx : 2 ^ 48 ≤ x
      · rw [if_pos hx, if_pos hx, if_neg (by omega), if_neg (by omega)]
      · simp only [if_neg hx]

section
variable {s : State}

theorem coldReset_way {d w : Nat} {x : Die} {y : Way} (hx : s.dies[d]? = some x) (hy : x.cc.ways[w]? = some y) (hs : y.state = .disabled) :
    s.coldReset.way d w = { Way.reset with state := .disabled, cerr := y.cerr } := by
  have hd : s.coldReset.dieD d = x.coldKept s.part d := by
    simp [State.dieD, State.coldReset, List.getD_eq_getElem?_getD, hx]
  have hw : (x.coldKept s.part d).cc.ways[w]? = some y.kept := by simp [Die.coldKept, hy]
  rw [State.way, hd, List.getD_eq_getElem?_getD, hw, Way.kept, if_pos hs]
  rfl

theorem recordImeas_keeps {α : Type} {g : State → α} (hm : ∀ s k v, g (s.extendMeas k v) = g s)
    (hi : ∀ (s : State) (n : Nat), g (s.modInst n fun i => { i with imeas := List.replicate 8 (zeros 32) }) = g s) : g s.recordImeas = g s :=
  State.foldl_keeps (fun s n => (hi (s.extendMeas 24 (sha256 ((s.instD n).clearRecord n))) n).trans (hm s 24 _)) _ s

/-- What a warm reset keeps of instances. -/
def Inst.warmKept (i : Inst) : Msix × Bool := (i.msix, i.d3hot)

theorem recordImeas_insts : s.recordImeas.insts.map Inst.warmKept = s.insts.map Inst.warmKept := by
  refine recordImeas_keeps (g := fun s => s.insts.map Inst.warmKept) (fun _ _ _ => rfl) fun s n => List.ext_getElem? fun k => ?_
  simp only [State.modInst, List.getElem?_map, List.getElem?_modify]
  cases s.insts[k]? with
  | none => rfl
  | some i => by_cases h : n = k <;> simp [h, Inst.warmKept]

theorem recordImeas_meas {k : Nat} (hk : k ≠ 24) : s.recordImeas.propolis.meas[k]? = s.propolis.meas[k]? :=
  State.foldl_keeps (g := fun s : State => s.propolis.meas[k]?) (fun _ _ => List.getElem?_modify_ne _ _ (Ne.symm hk)) _ s

theorem warmReset_inst {cause n : Nat} {i : Inst} (h : s.insts[n]? = some i) :
    (s.warmReset cause).insts[n]? = some { Inst.reset s.part n with msix := i.msix, d3hot := i.d3hot } := by
  have := congrArg (·[n]?) (recordImeas_insts (s := s))
  simp only [List.getElem?_map, h, Option.map_some, Option.map_eq_some_iff] at this
  obtain ⟨j, hj, e⟩ := this
  obtain ⟨hm, hd⟩ : j.msix = i.msix ∧ j.d3hot = i.d3hot := Prod.mk.inj e
  simp [State.warmReset, hj, hm, hd]

end

-- POWER ---------------------------------------------------------------------------------------------------------------------------------------

section
variable {s : State}

theorem mainPowerOff_done (cut : CommitCut) (h : s.power.mainPower = true) : exec (.mainPowerOff cut) s = .next { s.drawn with
    keeper := { s.keeper.cut cut (Config.cutInCopyB s.draw) with waiting := [] }
    power := { s.power with
      mainPower := false, perst := true, devState := .booting, step := 0, recovery := false, linkUp := false, warmPending := none
      thermTrip := false } } := by
  rw [exec_mainPowerOff, execMainPowerOff, if_neg (by simp [h])]
  rfl

theorem Keeper.cut_untouched (k : Keeper) (cut : CommitCut) (begun : Bool) (h : k.running = [] ∨ cut = .untouched) : k.cut cut begun = k := by
  by_cases hr : k.running = []
  · exact if_pos hr
  · obtain rfl := h.resolve_left hr
    exact if_neg hr

theorem Keeper.cut_inA {k : Keeper} (hr : k.running ≠ []) (begun : Bool) :
    k.cut .inA begun = { k with copyA := { k.copyA with valid := false } } := if_neg hr

theorem Keeper.cut_inB {k : Keeper} (hr : k.running ≠ []) (begun : Bool) : k.cut .inB begun = { k with
    copyA := { valid := true, seq := k.copyA.seq + 1, content := applyWaiters k.copyA.content k.running }
    copyB := if begun then { k.copyB with valid := false } else k.copyB } := if_neg hr

-- BRING-UP ------------------------------------------------------------------------------------------------------------------------------------

theorem bringupStepComplete_done {e : BringupEnv} (hp : s.powered = true) (hb : s.power.devState = .booting) (hk : 1 ≤ s.power.step)
    (hl : s.power.step = 1 → s.power.linkUp = true) {t : State} (ht : (s.elapse (e.ms * 1000000)).bringupStep s.power.step e = t) :
    exec (.bringupStepComplete e) s = .next (if t.power.devState = .failed then t else
      { t with power := { t.power with step := if s.power.step = 9 then 0 else s.power.step + 1 } }) := by
  rw [exec_bringupStepComplete, execBringupStepComplete, ← ht]
  exact if_neg (by simpa [hp, hb, Nat.one_le_iff_ne_zero.1 hk] using hl)

/-- The device says that it is ready. -/
def State.saidReady (s : State) : State := { s with power := { s.power with devState := .ready, bootTime := s.keeper.calTime } }

/-- The virtual functions ns appear. -/
def State.appearing (ns : List Nat) (s : State) : State := ns.foldl (fun s n => s.modInst n (·.appear)) s

section
variable {α : Type} {g : State → α} (hg : ∀ (s : State) d f, g (s.modDie d f) = g s)
include hg

/-- What no change of a die touches, giving the instances their blocks of the die keeps. -/
theorem setBlocks_keeps (s : State) (d : Nat) : g (s.setBlocks d) = g s := by
  rw [State.setBlocks]
  split
  · rfl
  · exact (State.foldl_keeps (fun _ _ => hg _ _ _) _ _).trans (State.foldl_keeps (fun _ _ => hg _ _ _) _ _)

variable (hd : ∀ (s : State) ds, g { s with dies := ds } = g s)
include hd

/-- What no change of a die touches, a device that becomes ready keeps but for its state and its instances. -/
theorem becomeReady_enabled : g s.becomeReady =
    g ((s.saidReady.modInst 0 fun i => { i with state := .enabled }).appearing s.saidReady.vfs) :=
  (hd _ _).trans (State.foldl_keeps (setBlocks_keeps hg) _ _)

/-- What neither the dies nor the instances touch is that of a device that says it is ready. -/
theorem becomeReady_keeps (hi : ∀ (s : State) n f, g (s.modInst n f) = g s) : g s.becomeReady = g s.saidReady :=
  (becomeReady_enabled hg hd).trans ((State.foldl_keeps (f := fun s n => s.modInst n (·.appear)) (fun _ _ => hi _ _ _) _ _).trans (hi _ _ _))

end

theorem zero_not_mem_vfs : 0 ∉ s.vfs := by
  rw [State.vfs]
  split <;> simp

theorem appearing_instD {ns : List Nat} {n : Nat} (h : n ∉ ns) (s : State) : (s.appearing ns).instD n = s.instD n := by
  induction ns generalizing s with
  | nil => rfl
  | cons m ns ih =>
    obtain ⟨hm, hn⟩ := List.ne_and_not_mem_of_not_mem_cons h
    exact (ih hn _).trans (State.instD_modInst_ne _ hm)

theorem becomeReady_instZero (h : 0 < s.insts.length) : (s.becomeReady.instD 0).state = .enabled := by
  rw [becomeReady_enabled (g := fun s => (s.instD 0).state) (fun _ _ _ => rfl) fun _ _ => rfl, appearing_instD zero_not_mem_vfs]
  exact congrArg Inst.state (State.instD_modInst (s := s.saidReady) _ h)

/-- Bring-up ends as failed, and in recovery when rec says so. -/
def State.bringupFails (s : State) (cause : Nat) (rec_ : Bool) : State :=
  { s with power := { s.power with devState := .failed, failCause := cause, step := 0, recovery := s.power.recovery || rec_ } }

section
variable (hp : s.powered = true) (hb : s.power.devState = .booting)
include hp hb

theorem bringupTimeout_keeper (h : s.power.step = 2) : exec .bringupTimeout s = .next (s.bringupFails 1 true) := by
  rw [exec_bringupTimeout, execBringupTimeout, if_neg (by simp [hp, hb]), h, State.bringupFails, Bool.or_true]
  rfl

theorem bringupTimeout_device (h : s.power.step ∈ [3, 8, 9]) : exec .bringupTimeout s = .next (s.bringupFails 4 false) := by
  rw [exec_bringupTimeout, execBringupTimeout, if_neg (by simp [hp, hb]), State.bringupFails, Bool.or_false]
  simp only [List.mem_cons, List.not_mem_nil, or_false] at h
  rcases h with h | h | h <;> rw [h] <;> rfl

theorem bringupTimeout_runtime (h : s.power.step = 7) : exec .bringupTimeout s = .next (s.bringupFails 2 false) := by
  rw [exec_bringupTimeout, execBringupTimeout, if_neg (by simp [hp, hb]), h, State.bringupFails, Bool.or_false]
  rfl

theorem bringupTimeout_none (h : s.power.step ∈ [1, 4, 5, 6]) : exec .bringupTimeout s = .next s := by
  rw [exec_bringupTimeout, execBringupTimeout, if_neg (by simp [hp, hb])]
  simp only [List.mem_cons, List.not_mem_nil, or_false] at h
  rcases h with h | h | h | h <;> rw [h] <;> rfl

end

theorem railFault_done {rail : Nat} (hp : s.powered = true) (hr : rail < 6) {t : State}
    (ht : ({ s with power := { s.power with railStatus := s.power.railStatus ||| (1#16 <<< rail) } } : State).raise Config.evRailFault = t) :
    (s.power.devState = .booting → exec (.railFault rail) s = .next (t.failBringup 5)) ∧
    (s.power.devState ≠ .booting → exec (.railFault rail) s = .next t.deviceError) := by
  rw [exec_railFault, execRailFault, if_neg (by simp [hp, hr]), ← ht]
  cases s.power.devState with
  | booting => exact ⟨fun _ => rfl, fun h => absurd rfl h⟩
  | ready | failed => exact ⟨nofun, fun _ => rfl⟩

-- TEMPERATURES AND THE CLOCK ------------------------------------------------------------------------------------------------------------------

theorem sampled_length (temps : List Int) : (s.sampled temps).length = 9 := by simp [State.sampled]

theorem sampled_present {temps : List Int} {k : Nat} (hk : k < 9) (h : k = 8 ∨ (s.dieD k).present = true) :
    (s.sampled temps)[k]? = some (temps.getD k (-32768)) := by
  rw [State.sampled, List.getElem?_map, List.getElem?_range hk, Option.map_some, if_pos h]

/-- A sample with the junctions at ts, the hottest at top. -/
def Power.sampled (p : Power) (ts : List Int) (top limit : Int) : Power := { p with
  temps := ts
  frameMax := max p.frameMax top
  crit := decide (limit ≤ top) || (p.crit && !decide (top < limit - 5))
  critDrop := p.critDrop || (decide (limit ≤ top) && !p.crit)
  thermTrip := p.thermTrip || decide (125 ≤ top)
  combClocks := p.combClocks && !decide (125 ≤ top)
  nextCause := if 125 ≤ top then 4 else p.nextCause }

theorem thermalSample_done (temps : List Int) (hp : s.powered = true) : exec (.thermalSample temps) s =
    .next { s with power := s.power.sampled (s.sampled temps) ((s.sampled temps).foldl max (-32768)) s.keeper.rwp.critC } := by
  rw [exec_thermalSample, execThermalSample, if_neg (by simp [hp])]
  simp only [decide_eq_true_eq] <;> rfl

variable {p : Power} {ts : List Int} {top limit : Int}

theorem Power.sampled_hot (h : limit ≤ top) : (p.sampled ts top limit).crit = true := by simp [Power.sampled, h]

theorem Power.sampled_cooled (h : top < limit - 5) : (p.sampled ts top limit).crit = false := by
  have : top < limit := by omega
  simp [Power.sampled, h, this]

theorem Power.sampled_between (h : ¬ limit ≤ top) (hc : ¬ top < limit - 5) : (p.sampled ts top limit).crit = p.crit := by
  have hc : limit - 5 ≤ top := Int.not_lt.1 hc
  simp [Power.sampled, h, hc]

theorem Power.sampled_critDrop : (p.sampled ts top limit).critDrop = true ↔ p.critDrop = true ∨ (limit ≤ top ∧ p.crit = false) := by
  simp [Power.sampled]

theorem Power.sampled_tripped (h : 125 ≤ top) : (p.sampled ts top limit).thermTrip = true ∧ (p.sampled ts top limit).combClocks = false ∧
    (p.sampled ts top limit).nextCause = 4 := by
  simp [Power.sampled, h]

theorem Power.sampled_cool (h : top < 125) : (p.sampled ts top limit).thermTrip = p.thermTrip ∧
    (p.sampled ts top limit).combClocks = p.combClocks ∧ (p.sampled ts top limit).nextCause = p.nextCause := by
  simp [Power.sampled, Int.not_le.2 h]

theorem throttleStepUp_done (hp : s.powered = true) (ht : s.power.uptimeNs = s.frame.startNs) (hc : 1024 ≤ s.power.coolFrames)
    (hf : s.power.fclkNow < s.part.fclkMHz) : exec .throttleStepUp s = .next { s with power := { s.power with
      fclkNow := min s.part.fclkMHz (s.power.fclkNow + 200), coolFrames := 0 } } := by
  rw [exec_throttleStepUp, execThrottleStepUp]
  exact if_neg (by simp [hp, ht, Nat.not_lt.2 hc, Nat.not_le.2 hf])

end

section
variable {k : Keeper}

theorem Keeper.validate_both (ha : k.copyA.valid = true) (hb : k.copyB.valid = true) : k.validate =
    if k.copyA.seq = k.copyB.seq then (if k.copyA.content = k.copyB.content then 0 else 4, k.copyA)
    else (3, if k.copyB.seq.toNat < k.copyA.seq.toNat then k.copyA else k.copyB) := by
  rw [Keeper.validate, ha, hb]

end

/-- Settles O53: the resets field by field, the steps of bring-up and the samples by one lemma each. -/
theorem powerAndBringup : Obligations.PowerAndBringup := by
  refine ⟨fun s h => ?_, fun s hm hp => ?_, fun s => ?_, fun s cause => ?_, fun s h => ⟨?_, ?_⟩, fun s cut h =>
    ⟨_, mainPowerOff_done cut h, rfl, rfl, rfl, fun hc => ?_, fun hr hc => ?_, fun hr hc => ?_⟩, fun s e hp hb hk hl => ?_, fun s h => ?_, fun k => ?_,
    fun s hp hb => ?_, fun s rail hp hr => ?_, fun s temps hp => ?_, fun s hp ht hc hf => throttleStepUp_done hp ht hc hf⟩
  · rw [exec_perstAssert, execPerstAssert, if_neg (by simp [h])]
  · rw [exec_perstDeassert, execPerstDeassert, if_pos (by simp [hm, hp])]
  · refine ⟨rfl, rfl, rfl, rfl, rfl, rfl, rfl, rfl, rfl, rfl, rfl, rfl, rfl, rfl, rfl, rfl, rfl, rfl, rfl, rfl, memGet_hostCells_all s.mem,
      fun d w x y hx hy hs => ?_⟩
    rw [coldReset_way hx hy hs]
    exact ⟨rfl, rfl⟩
  · refine ⟨rfl, rfl, rfl, rfl, rfl, rfl, rfl, rfl, rfl, rfl, rfl, rfl, rfl, rfl, ?_, rfl, fun k hk => recordImeas_meas hk,
      fun n i hi => warmReset_inst hi, fun a => ?_⟩
    · exact recordImeas_keeps (g := fun s : State => s.keeper.copyA) (fun _ _ _ => rfl) fun _ _ => rfl
    · exact (memGet_hostCells_all _ a).trans (by rw [State.recordImeas_mem])
  · rw [exec_mainPowerOn, execMainPowerOn, if_neg (by simp [h])]
  · rw [exec_calendarStop, execCalendarStop, if_neg (by simp [h])]
  · rw [Keeper.cut_untouched _ _ _ hc]
  · subst hc
    rw [Keeper.cut_inA hr]
    exact ⟨rfl, rfl⟩
  · subst hc
    rw [Keeper.cut_inB hr]
    refine ⟨rfl, rfl, ?_⟩
    dsimp only
    split
    · exact .inr rfl
    · exact .inl rfl
  · intro k u t
    have ht : u.bringupStep k e = t := rfl
    rw [bringupStepComplete_done hp hb hk hl ht]
    exact ⟨fun h => congrArg _ (if_pos h), fun h => congrArg _ (if_neg h)⟩
  · have hpow : s.becomeReady.power = s.saidReady.power := becomeReady_keeps (fun _ _ _ => rfl) (fun _ _ => rfl) fun _ _ _ => rfl
    exact ⟨congrArg Power.devState hpow, congrArg Power.bootTime hpow, becomeReady_instZero h,
      becomeReady_keeps (fun _ _ _ => rfl) (fun _ _ => rfl) fun _ _ _ => rfl,
      becomeReady_keeps (fun _ _ _ => rfl) (fun _ _ => rfl) fun _ _ _ => rfl⟩
  · refine ⟨fun ha hb he => ?_, fun ha hb hl => ?_, fun ha hb hl => ?_, fun ha hb => ?_, fun ha hb => ?_, fun ha hb => ?_⟩
    · rw [Keeper.validate_both ha hb, if_pos he]
    · rw [Keeper.validate_both ha hb, if_neg fun he => hl.ne (by rw [he]), if_pos hl]
    · rw [Keeper.validate_both ha hb, if_neg fun he => hl.ne (by rw [he]), if_neg hl.asymm]
    all_goals rw [Keeper.validate, ha, hb]
  · exact ⟨bringupTimeout_keeper hp hb, bringupTimeout_device hp hb, bringupTimeout_runtime hp hb, bringupTimeout_none hp hb⟩
  · exact railFault_done hp hr rfl
  · refine ⟨_, thermalSample_done temps hp, rfl, sampled_length _, fun k hk h => sampled_present hk h, Power.sampled_hot, Power.sampled_cooled,
      Power.sampled_between, Power.sampled_critDrop, Power.sampled_tripped, Power.sampled_cool⟩

end Sys2Proof.Machine
end

section
/-!
PROOFS. Access to an object, the checks of a dictionary write, the log and staged firmware (R425 to R428, R443, R448).
-/

namespace Sys2Proof.Machine

-- ACCESS --------------------------------------------------------------------------------------------------------------------------------------

section
variable {s : State} {o : Origin} {wr : Bool} {i sub : Nat} {x : OIx} {m : ObjMeta}

theorem access_noObject (h : objIndex i = none) (hr : s.power.devState = .ready) : s.access o wr i sub = .error Config.abNoObject := by
  rw [State.access.eq_def, h]
  exact congrArg _ (if_pos hr)

section
variable (hx : objIndex i = some x)
include hx

theorem access_notReady (hr : s.objReady x sub = false) : s.access o wr i sub = .error Config.abNotReady := by
  rw [State.access.eq_def, hx]
  exact if_pos (by simp [hr])

theorem access_noEntry (hr : s.objReady x sub = true) (hm : x.obj sub = none) : s.access o wr i sub = .error Config.abNoObject := by
  rw [State.access.eq_def, hx]
  dsimp only
  rw [if_neg (by simp [hr]), hm]

/-- The checks of an object that is there. -/
theorem access_existing (hr : s.objReady x sub = true) (hm : x.obj sub = some m) (he : s.objExists x sub = true) : s.access o wr i sub =
    if s.hasRight o wr x sub = false then .error (match o with
      | .hostVf _ => Config.abNoObject
      | _ => Config.abAccess)
    else if wr = true ∧ (m.acc = .const ∨ m.acc = .ro) then .error Config.abReadOnly
    else if wr = false ∧ m.acc = .wo then .error Config.abWriteOnly
    else .ok (x, m) := by
  rw [State.access.eq_def, hx]
  dsimp only
  rw [if_neg (by simp [hr]), hm]
  dsimp only
  rw [if_neg (by simp [he])]
  simp only [Bool.not_eq_true', Bool.and_eq_true, Bool.or_eq_true, beq_iff_eq] <;> rfl

end

theorem access_ok (h : s.access o wr i sub = .ok (x, m)) : objIndex i = some x ∧ x.obj sub = some m := by
  rw [State.access.eq_def] at h
  split at h
  · cases h
  · split at h
    · cases h
    · split at h
      · cases h
      · split_ifs at h
        cases h
        exact ⟨‹_›, ‹_›⟩

/-- No access is refused with the code of success. -/
theorem access_error {c : Nat} (h : s.access o wr i sub = .error c) : c ≠ 0 := by
  rw [State.access.eq_def] at h
  split at h
  · cases h
    rw [State.noObject]
    split <;> decide
  · split at h
    · cases h
      decide
    · split at h
      · cases h
        decide
      · split_ifs at h <;> cases h
        · decide
        · cases o <;> exact Nat.succ_ne_zero _
        · decide
        · decide

theorem valueCheck_code {data : List Byte} {c : Nat} (h : s.valueCheck x sub data = some c) : c ≠ 0 := by
  rw [State.valueCheck.eq_def] at h
  extract_lets ok at h
  split at h
  · cases h
    decide
  · split at h
    · cases h
      decide
    · split at h
      · split at h <;> cases h
        decide
      · cases h

end

-- WRITES --------------------------------------------------------------------------------------------------------------------------------------

section
variable {s : State} {o : Origin} {i sub : Nat} {data : List Byte} {x : OIx} {m : ObjMeta}

theorem submit_held {r : Req} (hu : s.keeperUp = true) (hh : s.keeperHolds = true) :
    s.submit r = { s with keeper := { s.keeper with held := s.keeper.held ++ [r] } } := by
  rw [State.submit, if_neg (by simp [hu]), if_pos hh]

theorem submit_served {r : Req} (hu : s.keeperUp = true) (hh : s.keeperHolds = false) : s.submit r = s.serve r := by
  rw [State.submit, if_neg (by simp [hu]), if_neg (by simp [hh])]

/-- An abort that is counted and answered. -/
def State.refused (s : State) (o : Origin) (c : Nat) : State :=
  ({ s with keeper := { s.keeper with abortTotal := satAdd 64 s.keeper.abortTotal 1 } } : State).emit (.answer o c)

theorem answer_refused {c : Nat} (h : c ≠ 0) : s.answer (.plain o) c = s.refused o c := by
  rw [State.answer, State.countAbort, if_neg h]
  rfl

theorem writeObject_inaccessible {who : Asker} {c : Nat} (h : s.access o true i sub = .error c) :
    s.writeObject who o i sub data = s.answer who c := by
  rw [State.writeObject, h]

theorem writeObject_accessible {who : Asker} (h : s.access o true i sub = .ok (x, m)) : s.writeObject who o i sub data =
    if m.sizeOk data.length = false then s.answer who Config.abTypeLength else s.finishWrite who o x m i sub data := by
  rw [State.writeObject, h]
  simp only [Bool.not_eq_true']

theorem finishWrite_wrong {who : Asker} {c : Nat} (h : s.valueCheck x sub data = some c) :
    s.finishWrite who o x m i sub data = s.answer who c := by
  rw [State.finishWrite, h]

/-- A write of a value that passes, but for a firmware image, which is staged first. -/
theorem finishWrite_right {who : Asker} (h : s.valueCheck x sub data = none) (hf : ¬ (x = .fw ∧ sub = 1)) :
    s.finishWrite who o x m i sub data =
      if s.logRoom x sub = false then s.answer who Config.abLogFull else s.acceptWrite who o x m i sub data := by
  rw [State.finishWrite, h]
  simp only [if_neg hf, Bool.not_true, Bool.false_eq_true, if_false, Bool.not_eq_true']

theorem finishWrite_staged {who : Asker} (h : s.valueCheck .fw 1 data = none) (hl : s.logRoom .fw 1 = true) :
    s.finishWrite who o .fw m i 1 data = if (s.fwStage data).2 = true then (s.fwStage data).1.acceptWrite who o .fw m i 1 data
      else (s.fwStage data).1.answer who Config.abValueRange := by
  rw [State.finishWrite, h]
  cases hs : (s.fwStage data).2 <;> simp [hl, hs]

theorem acceptWrite_answered {f : State → State} (ha : m.acc ≠ .rwp) (hf : ∀ t : State, t.objApply x m i sub data = f t) :
    s.acceptWrite (.plain o) o x m i sub data = s.answered o i sub x m data f := by
  rw [State.acceptWrite, State.answered]
  dsimp only
  rw [if_neg ha, hf]
  rfl

/-- A write that Accepts admits is served and passes every check. -/
theorem Accepts.submit (h : s.Accepts o i sub data x m) (hf : ¬ (x = .fw ∧ sub = 1)) :
    s.submit (.write o i sub data) = s.acceptWrite (.plain o) o x m i sub data := by
  obtain ⟨hu, hh, ha, hz, hv, hl⟩ := h
  rw [submit_served hu hh, State.serve, writeObject_accessible ha, if_neg (by simp [hz]), finishWrite_right hv hf, if_neg (by simp [hl])]

/-- What an accepted write of an object that is not persistent does. -/
theorem Accepts.dictCmd {f : State → State} (h : s.Accepts o i sub data x m) (hf : ¬ (x = .fw ∧ sub = 1)) (ha : m.acc ≠ .rwp)
    (he : ∀ t : State, t.objApply x m i sub data = f t) : dictCmd o i sub data s = .next (s.answered o i sub x m data f) :=
  congrArg _ ((Accepts.submit h hf).trans (acceptWrite_answered ha he))

end

-- THE LOG AND STAGED FIRMWARE -----------------------------------------------------------------------------------------------------------------

section
variable {s : State} {o : Origin} {m : ObjMeta}

theorem logRead_done (hu : s.keeperUp = true) (hh : s.keeperHolds = false) (ha : s.access o false 0xA000 5 = .ok (.log, m)) :
    exec (.logRead o) s = .next ((s.modLog fun l => { l with cursor := s.keeper.log.read.2 }).emit
      (.value o (s.keeper.log.read.1.flatMap (·.bytes)))) := by
  rw [exec_logRead, execLogRead, submit_served hu hh, State.serve, State.readObject, ha]
  rfl

theorem fwStage_done {data : List Byte} (h : s.Accepts o 0x8010 1 data .fw m) : exec (.fwStage o data) s = .next (
    if (s.fwStage data).2 = true then (s.fwStage data).1.answered o 0x8010 1 .fw m data id
    else ((s.fwStage data).1.countAbort Config.abValueRange).emit (.answer o Config.abValueRange)) := by
  obtain ⟨hu, hh, ha, hz, hv, hl⟩ := h
  have hm : m.acc ≠ .rwp := by
    obtain ⟨-, hm⟩ := access_ok ha
    cases hm
    decide
  rw [exec_fwStage, execFwStage, dictCmd, submit_served hu hh, State.serve, writeObject_accessible ha, if_neg (by simp [hz]),
    finishWrite_staged hv hl, acceptWrite_answered (f := id) hm fun t => by rw [State.objApply, if_neg hm]; rfl]
  rfl

end

/-- Settles O55: an access by its checks, a write by the first check that refuses it. -/
theorem dictionaryChecks : Obligations.DictionaryChecks := by
  refine ⟨fun s o i sub data t hi hs => ?_, fun s o i sub wr => ⟨fun h hr => access_noObject h hr, fun x hx => ⟨fun hr => access_notReady hx hr,
    fun hr hm => access_noEntry hx hr hm, fun m hr hm he => ?_⟩⟩, fun s o m hu hh ha => logRead_done hu hh ha, fun s o data m h => fwStage_done h⟩
  · intro u run abort hu
    have hrun : run = dictCmd o i sub data u := by
      unfold run
      rw [exec_dictWrite, execDictWrite, if_pos ⟨hi, hs⟩]
      rfl
    rw [hrun, dictCmd]
    refine ⟨fun hh => congrArg _ (submit_held hu hh), fun hh => ?_⟩
    rw [submit_served hu hh, State.serve]
    refine ⟨fun c hc => ?_, fun x m ha => ?_⟩
    · exact congrArg _ ((writeObject_inaccessible hc).trans (answer_refused (access_error hc)))
    rw [writeObject_accessible ha]
    refine ⟨fun hz => congrArg _ ((if_pos hz).trans (answer_refused (by decide))), fun hz => ?_⟩
    rw [if_neg (by simp [hz])]
    refine ⟨fun c hc => congrArg _ ((finishWrite_wrong hc).trans (answer_refused (valueCheck_code hc))), fun hv hf hl => congrArg _
      ((finishWrite_right hv hf).trans ((if_pos hl).trans (answer_refused (by decide)))), fun hacc hf hm => congrArg _ ?_⟩
    obtain ⟨-, -, -, -, hv, hl⟩ := hacc
    exact (finishWrite_right hv hf).trans ((if_neg (by simp [hl])).trans (acceptWrite_answered hm fun _ => rfl))
  · rw [access_existing hx hr hm he]
    refine ⟨fun h hv => (if_pos h).trans ?_, fun n h hv => (if_pos h).trans (by rw [hv]), fun h hw ha => ?_, fun h hw ha => ?_, fun h hw hr => ?_⟩
    · cases o with
      | hostVf n => exact absurd rfl (hv n)
      | _ => rfl
    all_goals rw [if_neg (by simp [h])]
    · exact if_pos ⟨hw, ha⟩
    · exact (if_neg (by simp [hw])).trans (if_pos ⟨hw, ha⟩)
    · exact (if_neg (by rintro ⟨h, h1 | h1⟩ <;> simp_all)).trans (if_neg fun h => hr h.1 h.2)

end Sys2Proof.Machine
end

section
/-!
PROOFS. The commands that write one object of the dictionary each (R58, R367, R437, R478).
-/

namespace Sys2Proof.Machine

-- ROWS OF OBJECTS -----------------------------------------------------------------------------------------------------------------------------

section
variable {n : Nat}

/-- The indices of the objects of instances. -/
theorem objIndex_ofInst (h : n < 256) : objIndex (0x3000 + n) = some (.inst n) ∧ objIndex (0x1100 + n) = some (.hostqInst n) ∧
    objIndex (0x5100 + n) = some (.instSched n) ∧ objIndex (0x4100 + n) = some (.instMem n) ∧ objIndex (0x7100 + n) = some (.instProp n) := by
  simp (disch := omega) only [objIndex, if_neg, if_pos, Nat.add_sub_cancel_left, and_self]

theorem objIndex_fgr (h : n < 8) : objIndex (0x5010 + n) = some (.fgr n) := by
  simp (disch := omega) only [objIndex, if_neg, if_pos, Nat.add_sub_cancel_left]

theorem objIndex_port (h : n < 16) : objIndex (0x6010 + n) = some (.port n) := by
  simp (disch := omega) only [objIndex, if_neg, if_pos, Nat.add_sub_cancel_left]

end

section
variable {s : State} {o : Origin} {i sub : Nat} {data : List Byte} {x x' : OIx} {m m' : ObjMeta}

/-- A command that writes the object x' with the effect f, when the write is accepted. -/
theorem dictCmd_acts (hx : objIndex i = some x') (hm : x'.obj sub = some m') (ha : m'.acc ≠ .rwp) (hf : x' ≠ .fw ∨ sub ≠ 1) {f : State → State}
    (he : ∀ t : State, t.objApply x' m' i sub data = f t) (h : s.Accepts o i sub data x m) :
    dictCmd o i sub data s = .next (s.answered o i sub x m data f) := by
  obtain ⟨-, -, hacc, -⟩ := id h
  obtain ⟨hi, ho⟩ := access_ok hacc
  obtain rfl : x' = x := Option.some.inj (hx.symm.trans hi)
  obtain rfl : m' = m := Option.some.inj (hm.symm.trans ho)
  exact Accepts.dictCmd h (fun hc => hf.elim (· hc.1) (· hc.2)) ha he

/-- The command of a row, accepted, has the effect of the row. -/
def DictRow.Acts (row : DictRow) : Prop := ∀ (s : State) (o : Origin) (data : List Byte) (x : OIx) (m : ObjMeta),
  s.Accepts o row.index row.sub data x m →
  exec (row.instr o data) s = .next (s.answered o row.index row.sub x m data fun t => row.effect t data)

theorem DictRow.Acts.of {row : DictRow} (hx : objIndex row.index = some x') (hm : x'.obj row.sub = some m') (ha : m'.acc ≠ .rwp)
    (hf : x' ≠ .fw ∨ row.sub ≠ 1) (hi : ∀ o data s, exec (row.instr o data) s = dictCmd o row.index row.sub data s)
    (he : ∀ data (t : State), t.objApply x' m' row.index row.sub data = row.effect t data) : row.Acts :=
  fun s o data _ _ h => (hi o data s).trans (dictCmd_acts hx hm ha hf (he data) h)

end

theorem resourceRows_act {n k : Nat} (hn : n < 256) (hk : k < 5) (hi : Bool) : ∀ row ∈ resourceRows n k hi, row.Acts := by
  obtain ⟨hinst, hhostq, hsched, hmem, -⟩ := objIndex_ofInst hn
  simp only [resourceRows, List.forall_mem_cons, List.not_mem_nil, false_imp_iff, implies_true, and_true]
  refine ⟨.of hinst rfl nofun (.inl nofun) (fun o d s => (exec_coreFrames n o d s).trans (if_pos hn)) fun _ _ => rfl, ?_,
    .of hinst rfl nofun (.inl nofun) (fun o d s => (exec_fabricShare n o d s).trans (if_pos hn)) fun _ _ => rfl,
    .of hinst rfl nofun (.inl nofun) (fun o d s => (exec_imgStore n o d s).trans (if_pos hn)) fun _ _ => rfl,
    .of hhostq rfl nofun (.inl nofun) (fun o d s => (exec_sqQuota n o d s).trans (if_pos hn)) fun _ _ => rfl,
    .of hhostq rfl nofun (.inl nofun) (fun o d s => (exec_cqQuota n o d s).trans (if_pos hn)) fun _ _ => rfl,
    .of hhostq rfl nofun (.inl nofun) (fun o d s => (exec_pasid n o d s).trans (if_pos hn)) fun _ _ => rfl,
    .of hsched rfl nofun (.inl nofun) (fun o d s => (exec_readyLimit n o d s).trans (if_pos hn)) fun _ _ => rfl,
    .of hmem rfl nofun (.inl nofun) (fun o d s => (exec_ptPages n o d s).trans (if_pos hn)) fun _ _ => rfl,
    .of hmem rfl nofun (.inl nofun) (fun o d s => (exec_ptWrite n o d s).trans (if_pos hn)) fun _ _ => rfl,
    .of hmem rfl nofun (.inl nofun) (fun o d s => (exec_regions n o d s).trans (if_pos hn)) fun _ _ => rfl, ?_⟩
  · have hrun : ∀ o d s, exec (.share n k o d) s = dictCmd o (0x3000 + n) (5 + k) d s := fun o d s =>
      (exec_share n k o d s).trans ((if_pos hk).trans (if_pos hn))
    interval_cases k <;> exact .of hinst rfl nofun (.inl nofun) hrun fun _ _ => rfl
  · have hrun : ∀ o d s, exec (.ccWays n hi o d) s = dictCmd o (0x4100 + n) (if hi then 6 else 5) d s := fun o d s =>
      (exec_ccWays n hi o d s).trans (if_pos hn)
    cases hi <;> exact .of hmem rfl nofun (.inl nofun) hrun fun _ _ => rfl

theorem objectRows_act {n d : Nat} (hn : n < 256) (hd : d < 8) (hi : Bool) : ∀ row ∈ objectRows n d hi, row.Acts := by
  obtain ⟨hinst, -, -, hmem, hprop⟩ := objIndex_ofInst hn
  simp only [objectRows, List.forall_mem_cons, List.not_mem_nil, false_imp_iff, implies_true, and_true]
  refine ⟨?_, .of hmem rfl nofun (.inl nofun) (fun o d s => (exec_dirtyCtl n o d s).trans (if_pos hn)) fun _ _ => rfl,
    .of hinst rfl nofun (.inl nofun) (fun o d s => (exec_stateImage n o d s).trans (if_pos hn)) fun _ _ => rfl,
    .of (objIndex_fgr hd) rfl nofun (.inl nofun) (fun o v s => (exec_retire d o v s).trans (if_pos hd)) fun _ _ => rfl,
    .of (x' := .log) rfl rfl nofun (.inl nofun) (fun o d s => exec_logAck o d s) fun _ _ => rfl,
    .of (x' := .cal) rfl rfl nofun (.inl nofun) (fun o d s => exec_calTime o d s) fun _ _ => rfl,
    .of (x' := .cal) rfl rfl nofun (.inl nofun) (fun o d s => exec_calState o d s) fun _ _ => rfl,
    .of hprop rfl nofun (.inl nofun) (fun o d s => (exec_quoteReq n o d s).trans (if_pos hn)) fun _ _ => rfl,
    .of (x' := .prop) rfl rfl nofun (.inl nofun) (fun o d s => exec_measExtend o d s) fun _ _ => rfl,
    .of hprop rfl nofun (.inl nofun) (fun o d s => (exec_imeasExtend n o d s).trans (if_pos hn)) fun _ _ => rfl,
    .of (x' := .prop) rfl rfl nofun (.inl nofun) (fun o d s => exec_svnRaise o d s) fun _ _ => rfl,
    .of (x' := .fw) rfl rfl nofun (.inr (by decide)) (fun o d s => exec_fwSwitch o d s) fun _ _ => rfl,
    .of (x' := .pwr) rfl rfl nofun (.inl nofun) (fun o d s => exec_warmReset o d s) fun _ _ => rfl,
    .of (x' := .rel) rfl rfl nofun (.inl nofun) (fun o d s => exec_evtAck (.dict o d) s) fun _ _ => rfl,
    .of (x' := .rel) rfl rfl nofun (.inl nofun) (fun o d s => exec_evtMask (.dict o d) s) fun _ _ => rfl⟩
  have hrun : ∀ o v s, exec (.ccLock n hi o v) s = dictCmd o (0x4100 + n) (if hi then 8 else 7) v s := fun o v s =>
    (exec_ccLock n hi o v s).trans (if_pos hn)
  cases hi with
  | false =>
    change DictRow.Acts ⟨.ccLock n false, 0x4100 + n, 7, _⟩
    exact .of hmem rfl nofun (.inl nofun) hrun fun v t => by simp [State.objApply, oU, changeOf, State.objAct]
  | true =>
    change DictRow.Acts ⟨.ccLock n true, 0x4100 + n, 8, _⟩
    exact .of hmem rfl nofun (.inl nofun) hrun fun v t => by simp [State.objApply, oU, changeOf, State.objAct]

-- ROWS OF FIXED VALUES ------------------------------------------------------------------------------------------------------------------------

/-- A command that writes one value v of an object, accepted, has the effect f. -/
def FixedActs (row : (Origin → Instr) × Nat × Nat × List Byte × (State → State)) : Prop := ∀ (s : State) (o : Origin) (x : OIx) (m : ObjMeta),
  s.Accepts o row.2.1 row.2.2.1 row.2.2.2.1 x m →
  exec (row.1 o) s = .next (s.answered o row.2.1 row.2.2.1 x m row.2.2.2.1 row.2.2.2.2)

theorem FixedActs.of {row : (Origin → Instr) × Nat × Nat × List Byte × (State → State)} {x' : OIx} {m' : ObjMeta}
    (hx : objIndex row.2.1 = some x') (hm : x'.obj row.2.2.1 = some m') (ha : m'.acc ≠ .rwp) (hf : x' ≠ .fw)
    (hi : ∀ o s, exec (row.1 o) s = dictCmd o row.2.1 row.2.2.1 row.2.2.2.1 s)
    (he : ∀ t : State, t.objApply x' m' row.2.1 row.2.2.1 row.2.2.2.1 = row.2.2.2.2 t) : FixedActs row :=
  fun s o _ _ h => (hi o s).trans (dictCmd_acts hx hm ha (.inl hf) he h)

theorem fixedRows_act {n p : Nat} (hn : n < 256) (hp : p < 16) : ∀ row ∈ fixedRows n p, FixedActs row := by
  obtain ⟨-, -, -, hmem, -⟩ := objIndex_ofInst hn
  have hport := objIndex_port hp
  simp only [fixedRows, List.forall_mem_cons, List.not_mem_nil, false_imp_iff, implies_true, and_true]
  exact ⟨.of hmem rfl nofun nofun (fun o s => (exec_clean n o s).trans (if_pos hn)) fun _ => rfl,
    .of hmem rfl nofun nofun (fun o s => (exec_cleanInval n o s).trans (if_pos hn)) fun _ => rfl,
    .of (x' := .saddle) rfl rfl nofun nofun (fun o s => exec_saddleEnable o s) fun _ => rfl,
    .of (x' := .saddle) rfl rfl nofun nofun (fun o s => exec_saddleDisable o s) fun _ => rfl,
    .of hport rfl nofun nofun (fun o s => (exec_portDisable p o s).trans (if_pos hp)) fun t => congrArg (t.modPort p) (funext fun x => by
      cases hs : x.state <;> simp [Port.command, leNat, hs]),
    .of hport rfl nofun nofun (fun o s => (exec_portEnable p o s).trans (if_pos hp)) fun t => congrArg (t.modPort p) (funext fun x => by
      cases hs : x.state <;> simp [Port.command, leNat, hs])⟩

/-- A command by the code of INST_CMD, accepted, is carried out. -/
def InstActs (n : Nat) (row : (Nat → Origin → Nat → Instr) × Byte × InstCmd) : Prop := ∀ (s : State) (o : Origin) (t : Nat) (x : OIx) (m : ObjMeta),
  (s.atNs t).Accepts o (0x3000 + n) 2 [row.2.1] x m →
  exec (row.1 n o t) s = .next ((s.atNs t).answered o (0x3000 + n) 2 x m [row.2.1] fun v => (v.instCommand n row.2.2).getD v)

theorem instRows_act {n : Nat} (hn : n < 256) : ∀ row ∈ instRows, InstActs n row := by
  obtain ⟨hinst, -⟩ := objIndex_ofInst hn
  have acts : ∀ (instr : Nat → Origin → Nat → Instr) (code : Byte) (c : InstCmd), instCmdOf (leNat [code]) = some c →
      (∀ o t s, exec (instr n o t) s = instCmd 0x3000 n 2 o [code] (s.atNs t)) → InstActs n (instr, code, c) := by
    intro instr code c hc hrun s o t x m h
    refine (hrun o t s).trans ((if_pos hn).trans (dictCmd_acts (m' := oU 1 .wo) hinst rfl nofun (.inl nofun) (fun v => ?_) h))
    simp [State.objApply, oU, changeOf, State.objAct, hc]
  simp only [instRows, List.forall_mem_cons, List.not_mem_nil, false_imp_iff, implies_true, and_true]
  exact ⟨acts _ _ _ rfl fun o t s => exec_enable n o t s, acts _ _ _ rfl fun o t s => exec_disable n o t s,
    acts _ _ _ rfl fun o t s => exec_reset n o t s, acts _ _ _ rfl fun o t s => exec_freezeDrain n o t s,
    acts _ _ _ rfl fun o t s => exec_freezeAbort n o t s, acts _ _ _ rfl fun o t s => exec_thaw n o t s⟩

-- PERSISTENT OBJECTS --------------------------------------------------------------------------------------------------------------------------

section
variable {s : State}

/-- A record of the log changes nothing else of the keeper. -/
theorem appendRec_keeps {α : Type} {g : Keeper → α} (hg : ∀ k l, g { k with log := l } = g k) (r : AuditRec) :
    g (s.appendRec r).keeper = g s.keeper := by
  rw [State.appendRec]
  extract_lets r1 kept l1 full s1
  split
  · exact hg _ _
  · split
    · rw [State.raise_keeper]
      exact hg _ _
    · exact hg _ _

theorem putRwp_rwp (i sub : Nat) (data : List Byte) : (s.putRwp i sub data).keeper.rwp = s.keeper.rwp.put i sub data := by
  rw [State.putRwp, State.setSyncMode]
  split
  · split <;> rfl
  · rfl

theorem putRwp_out (i sub : Nat) (data : List Byte) : (s.putRwp i sub data).out = s.out := by
  rw [State.putRwp, State.setSyncMode]
  split
  · split <;> rfl
  · rfl

variable {o : Origin} {i sub : Nat} {data : List Byte} {x x' : OIx} {m m' : ObjMeta}

/-- What the write of a persistent object makes of the state, when it is accepted. -/
def State.Persisted (s : State) (o : Origin) (i sub : Nat) (x : OIx) (m : ObjMeta) (data : List Byte) (t : State) : Prop :=
  t.keeper.copyA = s.keeper.copyA ∧ t.out = (s.auditWrite o i sub (s.writeValue x m sub data)).out ∧
    ∃ w : Waiter, t.keeper.waiting = s.keeper.waiting ++ [w] ∧ w.who = .plain o ∧ w.index = i ∧ w.sub = sub ∧ w.data = data ∧
      w.running = !(s.keeper.waiting.any (·.running))

theorem dictCmd_persists (hx : objIndex i = some x') (hm : x'.obj sub = some m') (ha : m'.acc = .rwp) (hf : x' ≠ .fw)
    (hl : x'.unlogged sub = false) (h : s.Accepts o i sub data x m) : m = m' ∧
    ∃ t, dictCmd o i sub data s = .next t ∧ t.keeper.rwp = s.keeper.rwp.put i sub data ∧ s.Persisted o i sub x m data t := by
  obtain ⟨-, -, hacc, -⟩ := id h
  obtain ⟨hi, ho⟩ := access_ok hacc
  obtain rfl : x' = x := Option.some.inj (hx.symm.trans hi)
  obtain rfl : m' = m := Option.some.inj (hm.symm.trans ho)
  have hw : ((s.auditWrite o i sub (s.writeValue x' m' sub data)).putRwp i sub data).keeper.waiting = s.keeper.waiting :=
    (putRwp_keeps (g := Keeper.waiting) (fun _ _ => rfl) _ _ _).trans (appendRec_keeps (fun _ _ => rfl) _)
  have hc : ((s.auditWrite o i sub (s.writeValue x' m' sub data)).putRwp i sub data).keeper.copyA = s.keeper.copyA :=
    (putRwp_keeps (g := Keeper.copyA) (fun _ _ => rfl) _ _ _).trans (appendRec_keeps (fun _ _ => rfl) _)
  have hr : ((s.auditWrite o i sub (s.writeValue x' m' sub data)).putRwp i sub data).keeper.rwp = s.keeper.rwp.put i sub data :=
    (putRwp_rwp _ _ _).trans (congrArg (fun r : Rwp => r.put i sub data) (appendRec_keeps (g := Keeper.rwp) (fun _ _ => rfl) _))
  refine ⟨rfl, _, by rw [dictCmd, Accepts.submit h fun hc => hf hc.1], ?_⟩
  rw [State.acceptWrite]
  simp only [if_pos ha, hl, Bool.false_eq_true, if_false, State.objApply]
  refine ⟨hr, hc, putRwp_out _ _ _, _, congrArg (· ++ _) hw, rfl, rfl, rfl, rfl, ?_⟩
  exact congrArg (fun l : List Waiter => !(l.any (·.running))) hw

/-- The command of a persistent row, accepted. -/
def RwpRow.Acts (row : RwpRow) : Prop := ∀ (s : State) (o : Origin) (given : List Byte) (x : OIx) (m : ObjMeta),
  s.Accepts o row.index row.sub (row.fixed.getD given) x m →
  ∃ t, exec (row.instr o given) s = .next t ∧ row.value t.keeper.rwp = leNat (row.fixed.getD given) % 2 ^ 64 ∧
    s.Persisted o row.index row.sub x m (row.fixed.getD given) t

/-- A number of at most 8 bytes is below 2^64. -/
theorem leNat_mod_of_sizeOk {k : Nat} {acc : OAcc} (hk : k ≤ 8) (h : (oU k acc).sizeOk data.length = true) : leNat data % 2 ^ 64 = leNat data := by
  have hd : data.length ≤ 8 := (beq_iff_eq.1 h).trans_le hk
  exact Nat.mod_eq_of_lt (leNat_lt_of_length hd)

theorem RwpRow.Acts.of {row : RwpRow} {k : Nat} (hk : k ≤ 8) (hx : objIndex row.index = some x') (hm : x'.obj row.sub = some (oU k .rwp)) (hf : x' ≠ .fw)
    (hl : x'.unlogged row.sub = false) (hi : ∀ o given s, exec (row.instr o given) s = dictCmd o row.index row.sub (row.fixed.getD given) s)
    (hv : ∀ (r : Rwp) data, leNat data % 2 ^ 64 = leNat data → row.value (r.put row.index row.sub data) = leNat data % 2 ^ 64) : row.Acts := by
  intro s o given x m h
  obtain ⟨hm, t, hrun, hrwp, hp⟩ := dictCmd_persists hx hm rfl hf hl h
  obtain ⟨-, -, -, hz, -⟩ := h
  subst hm
  exact ⟨t, (hi o given s).trans hrun, hrwp ▸ hv _ _ (leNat_mod_of_sizeOk hk hz), hp⟩

theorem rwpRows_act : ∀ row ∈ rwpRows, row.Acts := by
  simp only [rwpRows, List.forall_mem_cons, List.not_mem_nil, false_imp_iff, implies_true, and_true]
  exact ⟨.of (x' := .frame) (k := 1) (by decide) rfl rfl nofun rfl (fun o d s => exec_framePeriod o d s) fun _ _ h => h.symm,
    .of (x' := .frame) (k := 8) (by decide) rfl rfl nofun rfl (fun o d s => exec_t0TaiNs o d s) fun _ _ _ => rfl,
    .of (x' := .fabric) (k := 2) (by decide) rfl rfl nofun rfl (fun o d s => exec_deviceId o d s) fun _ _ h => h.symm,
    .of (x' := .fabric) (k := 1) (by decide) rfl rfl nofun rfl (fun o d s => exec_portMode o d s) fun _ _ h => h.symm,
    .of (x' := .hostq) (k := 1) (by decide) rfl rfl nofun rfl (fun o d s => exec_vfVectors o d s) fun _ _ h => h.symm,
    .of (x' := .log) (k := 1) (by decide) rfl rfl nofun rfl (fun o d s => exec_logMode o d s) fun _ _ h => h.symm,
    .of (x' := .frame) (k := 1) (by decide) rfl rfl nofun rfl (fun o _ s => exec_syncModeSet o s) fun _ _ h => h.symm,
    .of (x' := .frame) (k := 1) (by decide) rfl rfl nofun rfl (fun o _ s => exec_syncModeClear o s) fun _ _ h => h.symm⟩

end

theorem dieFence_done {s : State} {o : Origin} {data : List Byte} {t : Nat} {x : OIx} {m : ObjMeta} (h : (s.atNs t).Accepts o 0x8000 6 data x m) :
    exec (.dieFence o data t) s = .next ((s.atNs t).answered o 0x8000 6 x m data fun v => v.startFence (leNat data)) :=
  (exec_dieFence o data t s).trans (dictCmd_acts (x' := .rel) (m' := oU 1 .wo) rfl rfl nofun (.inl nofun) (fun _ => by
    simp [State.objApply, oU, changeOf, State.objAct]) h)

/-- Settles O56: every row writes the object of its index, with the effect of the row. -/
theorem dictionaryWrites : Obligations.DictionaryWrites := by
  refine ⟨fun row hr s o given x m h => rwpRows_act row hr s o given x m h, fun n k d p hi hn hk hd hp => ⟨fun row hr s o data x m h => ?_,
    fun row hr s o x m h => fixedRows_act hn hp row hr s o x m h, fun row hr s o t x m h => instRows_act hn row hr s o t x m h⟩,
    fun s o data t x m h => dieFence_done h⟩
  rcases List.mem_append.1 hr with hr | hr
  · exact resourceRows_act hn hk hi row hr s o data x m h
  · exact objectRows_act hn hd hi row hr s o data x m h

end Sys2Proof.Machine
end

section
/-!
PROOFS. The dictionary windows (R429 to R431, R448).
-/

namespace Sys2Proof.Machine

section
variable {s : State} {fn : Nat} {arg : W32}

-- COMMANDS OF A WINDOW ------------------------------------------------------------------------------------------------------------------------

/-- A window serves a write of a size that it lists whether or not the device boots. -/
theorem mmioWrite_window {off size : Nat} {k : State → State} (hl : s.fnLive fn = true) (hr : (s.instD fn).state ≠ .resetting)
    (hm : mmioSize off size = true) : s.mmioWrite fn off size true k = k s := by
  rw [State.mmioWrite, if_neg (by simp [hl]), if_neg (by simpa using hr), if_neg (by simp [hm])]

theorem windowRow_done (hl : s.fnLive fn = true) (hr : (s.instD fn).state ≠ .resetting) :
    ∀ row ∈ windowRows, exec (row.1 fn arg) s = .next (s.kdwCommand fn row.2 arg) ∧ row.2 ≤ 6 := by
  have hop : ∀ op, kdwOp fn op arg s = .next (s.kdwCommand fn op arg) := fun op => congrArg _ (mmioWrite_window hl hr rfl)
  simp only [windowRows, List.forall_mem_cons, List.not_mem_nil, false_imp_iff, implies_true, and_true]
  exact ⟨⟨hop 1, by decide⟩, ⟨hop 2, by decide⟩, ⟨hop 3, by decide⟩, ⟨hop 4, by decide⟩, ⟨hop 5, by decide⟩, ⟨hop 6, by decide⟩⟩

/-- The window takes an operation with its argument. -/
def State.kdwStarted (s : State) (fn op : Nat) (arg : W32) : State :=
  ((s.modKdw fn fun k => { k with arg := arg }).modKdw fn fun k => { k with state := .busy, abort := 0 }).submit (.window fn op arg)

theorem kdwCommand_idle {op : Nat} (h : (s.instD fn).kdw.state ∈ [KdwState.idle, .done, .aborted]) : s.kdwCommand fn op arg =
    if op = 5 ∨ op = 6 then s.modKdw fn fun k => { k with arg := arg } else s.kdwStarted fn op arg := by
  rw [State.kdwCommand.eq_def]
  dsimp only
  simp only [List.mem_cons, List.not_mem_nil, or_false] at h
  rcases h with h | h | h <;> rw [h] <;> rfl

theorem kdwCommand_busy {op : Nat} (h : (s.instD fn).kdw.state = .busy)
    (ho : op = 6 → ∀ r ∈ s.keeper.held, ∀ q a, r = .window fn q a → q < 3) :
    s.kdwCommand fn op arg = s.modKdw fn fun k => { k with overrun := true } := by
  rw [State.kdwCommand.eq_def]
  dsimp only
  rw [h]
  refine if_neg fun ⟨h6, hany⟩ => ?_
  obtain ⟨r, hr, hw⟩ := List.any_eq_true.1 hany
  cases r with
  | window f q a =>
    obtain ⟨rfl, hq⟩ : f = fn ∧ 3 ≤ q := by simpa using hw
    exact absurd (ho h6 _ hr q a rfl) (Nat.not_lt.2 hq)
  | _ => exact absurd hw Bool.false_ne_true

theorem kdwCommand_segRead {op : Nat} (h : (s.instD fn).kdw.state = .segRead) : s.kdwCommand fn op arg =
    if op = 5 then s.modKdw fn fun k => { k with state := .done }
    else if op = 6 then s.kdwAbort fn Config.abAborted
    else s.modKdw fn fun k => { k with overrun := true } := by
  rw [State.kdwCommand.eq_def]
  dsimp only
  rw [h]

theorem kdwCommand_segWrite {op : Nat} (h : (s.instD fn).kdw.state = .segWrite) : s.kdwCommand fn op arg =
    if op = 5 then s.kdwStarted fn op arg
    else if op = 6 then (s.modKdw fn fun k => { k with arg := arg }).kdwAbort fn Config.abAborted
    else s.modKdw fn fun k => { k with overrun := true } := by
  rw [State.kdwCommand.eq_def]
  dsimp only
  rw [h] <;> rfl

-- WHAT A WINDOW ANSWERS -----------------------------------------------------------------------------------------------------------------------

section
variable {i sub : Nat} (hi : (s.instD fn).kdw.index.toNat = i) (hs : (s.instD fn).kdw.sub.toNat = sub)
include hi hs

theorem serveWindow_read {t : State} {bytes : Nat} {sg : Bool} {acc : OAcc} {bs : List Byte}
    (h : s.readObject (fnOrigin fn) i sub = .ok (t, ⟨.num bytes sg, acc⟩, bs)) :
    s.serveWindow fn 1 arg = (s.modKdw fn fun k => { k with data := extend64 sg bs }).answer (.window fn) 0 := by
  rw [State.serveWindow.eq_def]
  dsimp only
  rw [hi, hs, h]
  rfl

theorem serveWindow_segRead {t : State} {m : ObjMeta} {bs : List Byte} (h : s.readObject (fnOrigin fn) i sub = .ok (t, m, bs)) :
    s.serveWindow fn 3 arg = t.modKdw fn (·.openRead bs) := by
  rw [State.serveWindow.eq_def]
  dsimp only
  rw [hi, hs, h]
  rfl

theorem serveWindow_segWrite {x : OIx} {m : ObjMeta} (h : s.access (fnOrigin fn) true i sub = .ok (x, m)) :
    s.serveWindow fn 4 arg = s.modKdw fn (·.openWrite arg.toNat) := by
  rw [State.serveWindow.eq_def]
  dsimp only
  rw [hi, hs, h]
  rfl

theorem serveWindow_end {x : OIx} {m : ObjMeta} (h : s.access (fnOrigin fn) true i sub = .ok (x, m))
    (hz : m.sizeOk (s.instD fn).kdw.len = true) (hw : (s.instD fn).kdw.words = wordsOf (s.instD fn).kdw.len)
    (hc : crc32c ((s.instD fn).kdw.bytes.take (s.instD fn).kdw.len) = arg) : s.serveWindow fn 5 arg =
      s.finishWrite (.window fn) (fnOrigin fn) x m i sub ((s.instD fn).kdw.bytes.take (s.instD fn).kdw.len) := by
  have hseg : segCheck (s.instD fn).kdw.words (s.instD fn).kdw.len (s.instD fn).kdw.bytes arg = none := by
    rw [segCheck, if_neg (by simp [hw]), if_neg (by simp [hc])]
  rw [State.serveWindow.eq_def]
  dsimp only
  rw [hi, hs, h]
  dsimp only
  rw [if_neg (by simp [hz]), hseg]
  rfl

end

theorem Kdw.openRead_eq {k : Kdw} {bs : List Byte} (h : bs ≠ []) : k.openRead bs = { k with
    state := .segRead, bytes := bs, len := bs.length, arg := BitVec.ofNat 32 bs.length, data := 0, words := 0, crc := 0, abort := 0 } := by
  rw [Kdw.openRead, if_neg h]

-- THE DATA REGISTER ---------------------------------------------------------------------------------------------------------------------------

theorem wordsOf_eq (n : Nat) : wordsOf n = (n + 3) / 4 := by
  rw [wordsOf, ceilDiv, Nat.add_sub_assoc (by decide)]

/-- A register access of the window's data is of one word or of two. -/
theorem lowPart_eq {size : Nat} (hs : size = 4 ∨ size = 8) (v : W64) : lowPart size v = v.toNat % 2 ^ (8 * size) := by
  rcases hs with rfl | rfl
  · rfl
  · exact (Nat.mod_eq_of_lt v.isLt).symm

theorem Kdw.writeWords_eq {k : Kdw} {size : Nat} (hs : size = 4 ∨ size = 8) (h : k.words + size / 4 ≤ (k.len + 3) / 4) (v : W64) :
    k.writeWords (size / 4) (lowPart size v) = { k with
      bytes := k.bytes ++ leBytes size (v.toNat % 2 ^ (8 * size))
      words := k.words + size / 4
      crc := crc32c ((k.bytes ++ leBytes size (v.toNat % 2 ^ (8 * size))).take (min (4 * (k.words + size / 4)) k.len)) } := by
  have hm : min (size / 4) (wordsOf k.len - k.words) = size / 4 := by
    rw [wordsOf_eq]
    omega
  have h4 : 4 * (size / 4) = size := by rcases hs with rfl | rfl <;> rfl
  rw [Kdw.writeWords, hm, h4, lowPart_eq hs]
  rfl

theorem Kdw.readWords_eq {k : Kdw} {size : Nat} (hs : size = 4 ∨ size = 8) (h : k.words + size / 4 ≤ (k.len + 3) / 4) :
    k.readWords (size / 4) = ({ k with
      words := k.words + size / 4
      crc := crc32c (k.bytes.take (min (4 * (k.words + size / 4)) k.len))
      state := if (k.len + 3) / 4 ≤ k.words + size / 4 then .done else .segRead }, field k.bytes (4 * k.words) size) := by
  have h4 : 4 * (size / 4) = size := by rcases hs with rfl | rfl <;> rfl
  rw [Kdw.readWords, wordsOf_eq, Nat.min_eq_left h, h4]
  rfl

end

/-- Settles O57: the commands by the state of the window, the answers by the operation. -/
theorem dictionaryWindows : Obligations.DictionaryWindows := by
  refine ⟨fun row hrow s fn arg hl hr => ?_, fun s r hu => ⟨submit_held hu, submit_served hu⟩, fun s fn arg => ⟨fun bytes sg acc t bs h => ?_,
    fun t m bs h hb => ?_, fun x m h => ?_, fun x m h hz hw hc => ?_⟩, fun s fn size v hl hr hs => ?_, fun s fn h => ?_, fun s i hi => ?_⟩
  · obtain ⟨hrun, h6⟩ := windowRow_done (arg := arg) hl hr row hrow
    rw [hrun]
    refine ⟨fun h ho => congrArg _ ((kdwCommand_idle h).trans (if_neg (by omega))), fun h ho => congrArg _ ((kdwCommand_idle h).trans (if_pos (by omega))),
      fun h ho => congrArg _ (kdwCommand_busy h fun h6 => absurd h6 ho), fun h _ hheld => congrArg _ (kdwCommand_busy h fun _ => hheld),
      fun h ho => congrArg _ ((kdwCommand_segRead h).trans ((if_neg (by omega)).trans (if_neg (by omega)))),
      fun h ho => congrArg _ ((kdwCommand_segRead h).trans (if_pos ho)),
      fun h ho => congrArg _ ((kdwCommand_segRead h).trans ((if_neg (by omega)).trans (if_pos ho))),
      fun h ho => congrArg _ ((kdwCommand_segWrite h).trans ((if_neg (by omega)).trans (if_neg (by omega)))),
      fun h ho => congrArg _ ((kdwCommand_segWrite h).trans (if_pos ho)),
      fun h ho => congrArg _ ((kdwCommand_segWrite h).trans ((if_neg (by omega)).trans (if_pos ho)))⟩
  · exact serveWindow_read (arg := arg) rfl rfl h
  · refine (serveWindow_segRead (arg := arg) rfl rfl h).trans (State.modInst_congr ?_)
    exact congrArg (fun k => { t.instD fn with kdw := k }) (Kdw.openRead_eq hb)
  · exact serveWindow_segWrite rfl rfl h
  · exact serveWindow_end rfl rfl h hz (hw.trans (wordsOf_eq _).symm) hc
  · have hwrite := exec_kdwDataWrite fn size v s
    have hread := exec_kdwDataRead fn size s
    rw [execKdwDataWrite, mmioWrite_window hl hr (mmioSize_zero hs)] at hwrite
    rw [execKdwDataRead, if_neg (by simp [hl]), if_neg (by rcases hs with rfl | rfl <;> simp [hr])] at hread
    refine ⟨fun h => ?_, fun h hw => ?_, fun h h8 => ?_, fun h hw => ?_, fun h h8 => ?_⟩
    · rw [hwrite, h]
      rfl
    · rw [hwrite, h]
      exact congrArg _ (State.modInst_congr (congrArg (fun k => { s.instD fn with kdw := k }) (Kdw.writeWords_eq hs hw v)))
    · subst h8
      rw [hwrite]
      simp only [List.mem_cons, List.not_mem_nil, or_false] at h
      rcases h with h | h | h | h <;> rw [h] <;> rfl
    · rw [hread]
      refine (if_pos h).trans ?_
      rw [Kdw.readWords_eq hs hw]
      exact congrArg (fun t : State => Host.Outcome.next (t.emit _)) (State.modInst_congr rfl)
    · subst h8
      rw [hread]
      exact (if_neg h).trans (by rw [lowPart_eight])
  · rw [exec_segTimeout, execSegTimeout]
    exact if_pos h
  · rw [exec_segTimeout, execSegTimeout, List.getElem?_eq_getElem hi]
    rfl

end Sys2Proof.Machine
end

section
/-!
PROOFS. The Keeper Dictionary Protocol and the control messages of MCTP (R432 to R436).
-/

namespace Sys2Proof.Machine

-- REQUESTS ------------------------------------------------------------------------------------------------------------------------------------

section
variable {s : State} {o : Origin} {op : Nat} {m : KdpMsg}

/-- A request from outside the host, to a Keeper that is up. -/
theorem kdpOp_outside (ho : (∃ e b, o = .oobMctp e b) ∨ ∃ p, o = .oobEth p) (hu : s.keeperUp = true) (hr : s.power.recovery = false) :
    kdpOp o op m s =
      if s.isPeer o = false then .next { s with keeper := { s.keeper with oobDrop := satAdd 32 s.keeper.oobDrop 1 } }
      else (s.keeper.kept.find? fun x => x.who == o && x.op == op && x.msg == m).elim
        (.next (if s.underWay o op m then s else s.submit (.kdp o op m))) fun x => .next (s.emit (.kdp o x.resp)) := by
  have hup : (!s.keeperUp || (s.power.recovery && true)) = false ∧ (!s.keeperUp || (s.power.recovery && false)) = false := by simp [hu, hr]
  rcases ho with ⟨e, b, rfl⟩ | ⟨p, rfl⟩
  all_goals
    rw [kdpOp.eq_def]
    simp only [hup, Bool.false_eq_true, if_false, Bool.not_eq_true']
    congr 1
    cases s.keeper.kept.find? _ <;> rfl

theorem kdpRow_done : ∀ row ∈ kdpRows, exec (row.1 o m) s = kdpOp o row.2 m s := by
  simp only [kdpRows, List.forall_mem_cons, List.not_mem_nil, false_imp_iff, implies_true, and_true]
  exact ⟨rfl, rfl, rfl, rfl, rfl, rfl, rfl⟩

theorem serveKdp_malformed (h : kdpMsgOk op m = false) : s.serveKdp o op m = s.kdpReply o op m Config.abBadRequest 0 [] := by
  rw [State.serveKdp.eq_def]
  exact if_pos (by simp [h])

end

-- WHAT A REQUEST DOES -------------------------------------------------------------------------------------------------------------------------

section
variable {s : State} {o : Origin} {m : KdpMsg}

theorem serveKdp_read {t : State} {bytes : Nat} {sg : Bool} {acc : OAcc} {bs : List Byte} (h : kdpMsgOk 1 m = true)
    (hr : s.readObject o m.index.toNat m.sub.toNat = .ok (t, ⟨.num bytes sg, acc⟩, bs)) : s.serveKdp o 1 m = s.kdpReply o 1 m 0 0 bs := by
  rw [State.serveKdp.eq_def]
  dsimp only
  rw [if_neg (by simp [h]), hr]
  rfl

theorem serveKdp_write {x : OIx} {mt : ObjMeta} {k : Nat} {sg : Bool} (h : kdpMsgOk 2 m = true)
    (ha : s.access o true m.index.toNat m.sub.toNat = .ok (x, mt)) (ht : mt.ty = .num k sg) (hl : m.body.length = k) :
    s.serveKdp o 2 m = s.finishWrite (.kdp o 2 m) o x mt m.index.toNat m.sub.toNat m.body := by
  rw [State.serveKdp.eq_def]
  dsimp only
  rw [if_neg (by simp [h]), ha]
  dsimp only
  rw [ht]
  exact if_pos hl

/-- A session may begin: one of the same object is open, or fewer than 8 are. -/
theorem sessionsFull_eq_false (h : (s.session o m).isSome = true ∨ s.keeper.sessions.length < 8) : s.sessionsFull o m = false := by
  rw [State.sessionsFull]
  rcases h with h | h
  · simp [Option.isNone_eq_false_iff.2 h]
  · simp [h]

theorem serveKdp_openRead {t : State} {mt : ObjMeta} {bs : List Byte} (h : kdpMsgOk 3 m = true)
    (hr : s.readObject o m.index.toNat m.sub.toNat = .ok (t, mt, bs)) (hf : s.sessionsFull o m = false) : s.serveKdp o 3 m =
      (t.putSession o m { who := o, index := m.index, sub := m.sub, isWrite := false, len := bs.length, bytes := bs, lastOff := 0 }).kdpReply
        o 3 m 0 bs.length [] := by
  rw [State.serveKdp.eq_def]
  dsimp only
  rw [if_neg (by simp [h]), hr]
  dsimp only
  rw [if_neg (by simp [hf])]
  rfl

theorem serveKdp_openWrite {x : OIx} {mt : ObjMeta} (h : kdpMsgOk 4 m = true) (ha : s.access o true m.index.toNat m.sub.toNat = .ok (x, mt))
    (hf : s.sessionsFull o m = false) : s.serveKdp o 4 m =
      (s.putSession o m { who := o, index := m.index, sub := m.sub, isWrite := true, len := m.arg.toNat, bytes := [], lastOff := 0 }).kdpReply
        o 4 m 0 0 [] := by
  rw [State.serveKdp.eq_def]
  dsimp only
  rw [if_neg (by simp [h]), ha]
  dsimp only
  rw [if_neg (by simp [hf])]
  rfl

theorem serveKdp_unopened (h : kdpMsgOk 5 m = true) (hn : s.session o m = none) :
    s.serveKdp o 5 m = s.kdpReply o 5 m Config.abSequence 0 [] := by
  rw [State.serveKdp.eq_def]
  dsimp only
  rw [if_neg (by simp [h]), hn]
  rfl

theorem serveKdp_data {x : Session} (h : kdpMsgOk 5 m = true) (hx : s.session o m = some x) :
    s.serveKdp o 5 m = if x.isWrite then s.segWrite o m x else s.segRead o m x := by
  rw [State.serveKdp.eq_def]
  dsimp only
  rw [if_neg (by simp [h]), hx]
  rfl

theorem segRead_eq {x : Session} (hb : m.body = []) : s.segRead o m x =
    if m.arg.toNat % 4 = 0 ∧ m.arg.toNat < x.len then s.kdpReply o 5 m 0 0 ((x.bytes.drop m.arg.toNat).take 1024)
    else (s.dropSession o m).kdpReply o 5 m Config.abSequence 0 [] := by
  rw [State.segRead, if_neg (by simp [hb])]
  rfl

theorem segWrite_eq {x : Session} (hb : m.body ≠ []) (hl : m.body.length ≤ 1024)
    (ha : m.body.length % 4 = 0 ∨ x.len ≤ m.arg.toNat + m.body.length) : s.segWrite o m x =
      if m.arg.toNat = x.bytes.length then
        (s.putSession o m { x with bytes := x.bytes ++ m.body, lastOff := m.arg.toNat }).kdpReply o 5 m 0 (x.bytes.length + m.body.length) []
      else if m.arg.toNat = x.lastOff then s.kdpReply o 5 m 0 x.bytes.length []
      else (s.dropSession o m).kdpReply o 5 m Config.abSequence 0 [] := by
  have h0 : m.body.length ≠ 0 := by simpa using hb
  rw [State.segWrite]
  exact if_neg (by simp only [bne_iff_ne]; omega)

theorem serveKdp_endRead {x : Session} (h : kdpMsgOk 6 m = true) (hx : s.session o m = some x) (hw : x.isWrite = false) (ha : m.arg = 0) :
    s.serveKdp o 6 m = (s.dropSession o m).kdpReply o 6 m 0 (crc32c x.bytes).toNat [] := by
  rw [State.serveKdp.eq_def]
  dsimp only
  rw [if_neg (by simp [h]), hx]
  exact (if_pos (by simp [hw])).trans (if_neg (by simp [ha]))

theorem serveKdp_endWrite {x : Session} {ix : OIx} {mt : ObjMeta} (h : kdpMsgOk 6 m = true) (hx : s.session o m = some x) (hw : x.isWrite = true)
    (ha : s.access o true m.index.toNat m.sub.toNat = .ok (ix, mt)) (hz : mt.sizeOk x.len = true) (hl : x.bytes.length = x.len)
    (hc : crc32c x.bytes = m.arg) :
    s.serveKdp o 6 m = (s.dropSession o m).finishWrite (.kdp o 6 m) o ix mt m.index.toNat m.sub.toNat x.bytes := by
  rw [State.serveKdp.eq_def]
  dsimp only
  rw [if_neg (by simp [h]), hx]
  refine (if_neg (by simp [hw])).trans ?_
  rw [ha]
  exact (if_neg (by simp [hz])).trans ((if_neg (by simp [hl])).trans (if_neg (by simp [hc])))

theorem serveKdp_abort (h : kdpMsgOk 7 m = true) : s.serveKdp o 7 m = (s.dropSession o m).kdpReply o 7 m Config.abAborted 0 [] := by
  rw [State.serveKdp.eq_def]
  dsimp only
  rw [if_neg (by simp [h])]
  rfl

end

-- CONTROL MESSAGES ----------------------------------------------------------------------------------------------------------------------------

section
variable {s : State} {eid binding : Nat} (hu : s.keeperUp = true)
include hu

theorem mctpAnswer_up (cmd : Nat) (data : List Byte) : mctpAnswer eid binding cmd data s = .next (s.emit (.mctp eid binding cmd data)) :=
  congrArg _ (if_pos hu)

theorem setEndpointId_done {new : Nat} (h1 : 1 ≤ new) (h2 : new < 255) : exec (.setEndpointId eid binding new) s =
    .next (({ s with keeper := { s.keeper with mctpEid := new } } : State).emit (.mctp eid binding 1 [0x00, 0x00, BitVec.ofNat 8 new, 0x00])) := by
  rw [exec_setEndpointId, execSetEndpointId, if_neg (by simp [hu]), if_neg (by omega)]
  exact mctpAnswer_up (s := { s with keeper := { s.keeper with mctpEid := new } }) hu _ _

theorem getMctpVersionSupport_known {ty : Nat} (h : ty ∈ [0xFF, 0x00, 0x7E]) :
    exec (.getMctpVersionSupport eid binding ty) s = .next (s.emit (.mctp eid binding 4 (0x00 :: Config.mctpVersions ty))) := by
  rw [exec_getMctpVersionSupport, execGetMctpVersionSupport, if_pos (by simpa using h)]
  exact mctpAnswer_up hu _ _

theorem getMctpVersionSupport_unknown {ty : Nat} (h : ty ∉ [0xFF, 0x00, 0x7E]) :
    exec (.getMctpVersionSupport eid binding ty) s = .next (s.emit (.mctp eid binding 4 [0x80])) := by
  rw [exec_getMctpVersionSupport, execGetMctpVersionSupport, if_neg (by simpa using h)]
  exact mctpAnswer_up hu _ _

end

/-- Settles O58: requests by `kdpOp_outside`, what each does by its operation. -/
theorem keeperProtocol : Obligations.KeeperProtocol := by
  refine ⟨fun row hrow s o m ho hu hr => ?_, fun s o m => ⟨fun h t bytes sg acc bs hread => serveKdp_read h hread,
    fun h x mt k sg ha ht hl => serveKdp_write h ha ht hl, fun h t mt bs hread hf => serveKdp_openRead h hread (sessionsFull_eq_false hf),
    fun h x mt ha hf => serveKdp_openWrite h ha (sessionsFull_eq_false hf), serveKdp_unopened, fun h x hx hw hb => ?_,
    fun h x hx hw hb hl ha => ?_, fun h x hx hw ha => serveKdp_endRead h hx hw ha,
    fun h x ix mt hx hw ha hz hl hc => serveKdp_endWrite h hx hw ha hz hl hc, serveKdp_abort⟩, fun s o tag => rfl,
    fun s eid binding hu => ⟨fun new h1 h2 => setEndpointId_done hu h1 h2, mctpAnswer_up hu _ _,
      fun ty h => ⟨_, getMctpVersionSupport_known hu h⟩, fun ty h => getMctpVersionSupport_unknown hu h, mctpAnswer_up hu _ _,
      _, mctpAnswer_up hu _ _⟩⟩
  · rw [kdpRow_done row hrow, kdpOp_outside ho hu hr]
    refine ⟨fun hp => if_pos hp, fun hp x hx => ?_, fun hp hn hw => ?_, fun hp hn hw => ?_⟩
    all_goals rw [if_neg (by simp [hp])]
    · rw [hx]
      rfl
    · rw [hn]
      exact congrArg _ (if_pos hw)
    · rw [hn]
      have hsub := (if_neg (by simp [hw]) : (if s.underWay o row.2 m then s else s.submit (.kdp o row.2 m)) = _)
      refine ⟨fun hh => congrArg _ (hsub.trans (submit_held hu hh)), fun hh hok => ?_, fun hh hok => ?_⟩
      · exact congrArg _ (hsub.trans ((submit_served hu hh).trans (serveKdp_malformed hok)))
      · exact congrArg _ (hsub.trans (submit_served hu hh))
  · rw [serveKdp_data h hx, if_neg (by simp [hw]), segRead_eq hb]
    exact ⟨fun h4 hl => if_pos ⟨h4, hl⟩, fun hn => if_neg hn⟩
  · rw [serveKdp_data h hx, if_pos hw, segWrite_eq hb hl ha]
    exact ⟨fun he => if_pos he, fun hne hlast => (if_neg hne).trans (if_pos hlast), fun hne hlast => (if_neg hne).trans (if_neg hlast)⟩

end Sys2Proof.Machine
end

section
/-!
PROOFS. Loading and unloading images, checked and admitted jobs, and result digests (R77 to R80, R347, R348, R461).
-/

namespace Sys2Proof.Machine

-- IMAGES --------------------------------------------------------------------------------------------------------------------------------------

section
variable {s : State} {n : Nat} {c : Chain}

/-- Of fewer than 64 images none has the slot that the next one takes, one of 64. -/
theorem anySlot_free (h : (s.instD n).images.length < 64) : s.anySlot n < 64 ∧ ∀ y ∈ (s.instD n).images, y.slot ≠ s.anySlot n := by
  have hex : ∃ k ∈ List.range 64, k ∉ (s.instD n).images.map (·.slot) := by
    by_contra hall
    push Not at hall
    have hle := (List.nodup_range.subperm hall).length_le
    rw [List.length_range, List.length_map] at hle
    omega
  rw [State.anySlot]
  generalize hopen : (List.range 64).filter (fun k => !(s.instD n).images.any (·.slot == k)) = l
  have hmem : ∀ k ∈ l, k < 64 ∧ ∀ y ∈ (s.instD n).images, y.slot ≠ k := fun k hk => by
    simpa [← hopen] using hk
  have hpos : 0 < l.length := by
    obtain ⟨k, hk, hn⟩ := hex
    refine List.length_pos_of_mem (a := k) ?_
    rw [← hopen]
    simpa using ⟨List.mem_range.1 hk, by simpa using hn⟩
  have hlt := Nat.mod_lt (Config.imageSlot s.draw) hpos
  rw [List.getD_eq_getElem _ _ hlt]
  exact hmem _ (List.getElem_mem hlt)

section
variable (hc : s.adminNext n 5 = some c) (hl : s.loading < 4)
include hc hl

theorem loadImage_badLength (h : field c.entry 16 8 < 256 ∨ 0x1000000 < field c.entry 16 8) :
    exec (.loadImage n) s = .next ((s.takeChain n c).failLoad n c Config.stImgFormat 0) := by
  rw [exec_loadImage, execLoadImage, hc]
  exact (if_neg (Nat.not_le.2 hl)).trans (if_pos h)

variable (h1 : 256 ≤ field c.entry 16 8) (h2 : field c.entry 16 8 ≤ 0x1000000)
include h1 h2

theorem loadImage_noSpace (h : s.storeRoom n (field c.entry 16 8) = false) :
    exec (.loadImage n) s = .next ((s.takeChain n c).failLoad n c Config.stImgNoSpace 0) := by
  rw [exec_loadImage, execLoadImage, hc]
  exact (if_neg (Nat.not_le.2 hl)).trans ((if_neg (by omega)).trans (if_pos (by simp [h])))

variable (hr : s.storeRoom n (field c.entry 16 8) = true)
include hr

theorem loadImage_unreadable {k : Nat} (h : s.firstUnreadable n (field c.entry 8 8) (field c.entry 16 8) = some k) :
    exec (.loadImage n) s = .next ((s.takeChain n c).failLoad n c Config.stMemFault k) := by
  rw [exec_loadImage, execLoadImage, hc]
  refine (if_neg (Nat.not_le.2 hl)).trans ((if_neg (by omega)).trans ((if_neg (by simp [hr])).trans ?_))
  rw [h]

variable (hf : s.propolis.cmpFlip = 0) (hu : s.firstUnreadable n (field c.entry 8 8) (field c.entry 16 8) = none)
include hf hu

theorem loadImage_checked {bs : List Byte} (hbs : (s.readInst n (field c.entry 8 8) (field c.entry 16 8)).getD [] = bs) :
    (∀ status detail, (s.takeChain n c).checkImage bs (slice c.entry 32 32) = .error (status, detail) →
      exec (.loadImage n) s = .next ((s.takeChain n c).failLoad n c status detail)) ∧
    ∀ im, (s.takeChain n c).checkImage bs (slice c.entry 32 32) = .ok im → exec (.loadImage n) s =
      .next ((s.takeChain n c).drawn.modInst n fun i => { i with images := i.images ++
        [{ slot := s.anySlot n, handle := 0, image := im, req := c.entry, loading := true, unloading := false, waiters := [(c.cid, c.sqHead)] }] }) := by
  have hcmp := State.compareDigests_sound (s := s.takeChain n c) hf (slice c.entry 32 32) (sha256 (bs.take (field c.entry 16 8 - 32)))
  rw [exec_loadImage, execLoadImage, hc]
  dsimp only
  rw [if_neg (Nat.not_le.2 hl), if_neg (by omega), if_neg (by simp [hr]), hu]
  dsimp only
  rw [hbs, hcmp, if_neg]
  · exact ⟨fun status detail h => by rw [h], fun im h => by rw [h]⟩
  · by_cases he : slice c.entry 32 32 = sha256 (bs.take (field c.entry 16 8 - 32)) <;> simp [he, digestsEqual]

end

theorem loadImageChecksDone_done {x : Slot} {tag : Nat} {h : W32} (hx : (s.instD n).images.find? (·.req != []) = some x)
    (ht : (s.instD n).loadCtr = tag) (hh : BitVec.ofNat 32 (64 * tag + x.slot) = h) : exec (.loadImageChecksDone n) s =
    .next (x.waiters.foldl (fun s w => s.completeAdmin n w Config.stSuccess h.toNat)
      (((s.modInst n fun i => { i with
        loadCtr := if tag = 0x3FFFFFF then 1 else tag + 1
        images := i.images.map fun y => if y.slot = x.slot then { y with req := [], handle := h, waiters := [] } else y }).extendImeas n 0
          x.image.digest).auditCommand n 5 Config.stSuccess (slice x.req 32 32))) := by
  subst ht hh
  rw [exec_loadImageChecksDone, execLoadImageChecksDone, hx]
  exact congrArg (fun t : State => Host.Outcome.next (x.waiters.foldl _ ((t.extendImeas n 0 x.image.digest).auditCommand n 5 Config.stSuccess
    (slice x.req 32 32)))) (State.modInst_congr rfl)

theorem unloadImage_unknown (hc : s.adminNext n 6 = some c)
    (hx : (s.instD n).images.find? (fun x => x.handle == BitVec.ofNat 32 (field c.entry 4 4) && !x.loading) = none) :
    exec (.unloadImage n) s = .next (((s.takeChain n c).complete n c Config.stImgHandle 0 0 none none).auditCommand n 6 Config.stImgHandle
      (oldNew 0 ((BitVec.ofNat 32 (field c.entry 4 4)).setWidth 64))) := by
  rw [exec_unloadImage, execUnloadImage, hc]
  dsimp only
  rw [hx]

theorem unloadImage_named {x : Slot} (hc : s.adminNext n 6 = some c)
    (hx : (s.instD n).images.find? (fun x => x.handle == BitVec.ofNat 32 (field c.entry 4 4) && !x.loading) = some x) :
    exec (.unloadImage n) s = .next (((s.takeChain n c).modInst n fun i => { i with images := i.images.map fun y =>
      if y.slot = x.slot then { y with unloading := true, waiters := y.waiters ++ [(c.cid, c.sqHead)] } else y }).auditCommand n 6
        Config.stSuccess (oldNew 0 ((BitVec.ofNat 32 (field c.entry 4 4)).setWidth 64))) := by
  rw [exec_unloadImage, execUnloadImage, hc]
  dsimp only
  rw [hx]

theorem imageUnloadComplete_named {slot : Nat} {x : Slot} (h : (s.instD n).images.find? (fun x => x.slot == slot && x.unloading) = some x) :
    exec (.imageUnloadComplete n slot) s = if ∃ j ∈ s.jobs, j.inst = n ∧ j.handle = x.handle then .next s else
      .next (x.waiters.foldl (fun s w => s.completeAdmin n w Config.stSuccess 0)
        (s.modInst n fun i => { i with images := i.images.filter (·.slot != slot) })) := by
  rw [exec_imageUnloadComplete, execImageUnloadComplete, h]
  exact if_congr (by simp [State.imageBusy]) rfl rfl

-- JOBS ----------------------------------------------------------------------------------------------------------------------------------------

section
variable (hs : (s.instD n).state = .enabled) (hd : (s.instD n).d3hot = false) (hr : s.power.devState = .ready)
  (hc : (s.instD n).fetched.find? (fun c => c.sqid != 0) = some c)
include hs hd hr hc

theorem job_passed {j : Job} (h : (s.takeChain n c).checkJob n c = .ok j) :
    exec (.job n) s = .next { s.takeChain n c with jobs := s.jobs ++ [j], nextJid := s.nextJid + 1 } := by
  rw [exec_job, execJob, hc]
  dsimp only
  rw [if_neg (by simp [Inst.admits, hs, hd, hr]), h]
  rfl

theorem job_failed {st : Nat} (h : (s.takeChain n c).checkJob n c = .error st) : exec (.job n) s =
    .next (((s.takeChain n c).modSq n c.sqid fun x => { x with held := false }).complete n c st 0 0 none none) := by
  rw [exec_job, execJob, hc]
  dsimp only
  rw [if_neg (by simp [Inst.admits, hs, hd, hr]), h]

end

section
variable {w : Job} (hw : s.admissible n = some w)
include hw

theorem admissible_spec : w ∈ s.jobs ∧ w.inst = n ∧ w.admitted = false ∧ s.resourcesFree w = true := by
  rw [State.admissible] at hw
  split at hw
  · have hp := List.find?_some hw
    obtain ⟨⟨hi, ha⟩, hf⟩ : (w.inst = n ∧ w.admitted = false) ∧ s.resourcesFree w = true := by simpa using hp
    exact ⟨List.mem_of_find?_eq_some hw, hi, ha, hf⟩
  · cases hw

theorem jobAdmit_admitted (h : s.recheckImage w.image = none) : exec (.jobAdmit n) s =
    .next ({ s.modSq n w.sqid fun x => { x with held := false } with
      jobs := s.jobs.map (fun (x : Job) => if x.jid = w.jid then s.admittedJob w else x), nextMid := s.nextMid + 1 }.startJob (s.admittedJob w)) := by
  rw [exec_jobAdmit, execJobAdmit, hw]
  dsimp only
  rw [h]
  rfl

theorem jobAdmit_rejected {st : Nat} (h : s.recheckImage w.image = some st) : exec (.jobAdmit n) s =
    .next ((s.modSq n w.sqid fun x => { x with held := false }).rejectJob w st) := by
  rw [exec_jobAdmit, execJobAdmit, hw]
  dsimp only
  rw [h]

end

theorem mem_admittedJob_dieSet {w : Job} {d : Nat} (h : d ∈ (s.admittedJob w).dieSet) : d ∈ w.dieSet ∧ d ∈ s.activeDies := by
  obtain ⟨hd, ha⟩ := List.mem_filter.1 h
  exact ⟨hd, by simpa using ha⟩

end

-- RESULT DIGESTS ------------------------------------------------------------------------------------------------------------------------------

section
variable {s : State} {u : UId} {jid buffer : Nat} {j : Job} {r : ResultBuf} {bs : List Byte} {c : Nat} {x : UnitSt}

/-- A whole leaf of a result buffer that an idle digest engine, within the share, hashes in an open context. -/
theorem resultDigestChunk_leaf (hx : (s.dieD u.die).units.getD u.unit UnitSt.reset = x) (hj : s.job? jid = some j)
    (hr : j.results[buffer]? = some r) (hd : j.resultDigest = true) (ha : j.alive = true) (hroot : r.root = none) (h14 : 14 ≤ u.unit)
    (h30 : u.unit < 30) (hdie : u.die ∈ j.dieSet) (hl : s.unitsLive u.die = true) (hm : x.morsel = none)
    (hshare : x.chargedTo j.inst < s.shareCycles j.inst .digest u.die) (hc : (s.dieD u.die).ctxOf (.result jid) = some c)
    (hoff : 65536 * (r.hashed + 1) ≤ r.off) (hread : s.readInst j.inst (r.addr + 65536 * r.hashed) 65536 = some bs) :
    exec (.resultDigestChunk u jid buffer) s = .next ((((s.modDie u.die fun d => { d with units := d.units.modify u.unit fun x =>
      { (x.charge j.inst u.used) with busy := x.busy + u.used } }).modInstStat u.die j.inst fun b =>
        { b with unitCycles := b.unitCycles.modify 6 (satAdd 32 · u.used) }).modJob jid fun j => { j with
          results := j.results.modify buffer fun r => { r with nodes := r.nodes ++ [sha256 (0 :: bs)], hashed := r.hashed + 1 } }).closeRoot jid buffer) := by
  have hkind : unitKind u.unit = .digest := by
    simp (disch := omega) only [unitKind, if_neg]
  have hmin : min leafBytes (r.off - leafBytes * r.hashed) = 65536 := by
    rw [leafBytes]
    omega
  have hleaf : r.leafReady (j.stageD r.stage).done = true := by
    rw [ResultBuf.leafReady, leafBytes, decide_eq_true hoff, Bool.true_or]
  rw [exec_resultDigestChunk, execResultDigestChunk, hj]
  dsimp only
  rw [hr]
  dsimp only
  rw [hx, if_neg (by simp [hd, ha, hroot, hkind, hdie, hl, hm, Nat.not_le.2 h30, Nat.not_le.2 hshare]), hc]
  dsimp only
  rw [if_pos hleaf, hmin, leafBytes, hread]

end

/-- Settles O46: the checks of each command in order, and a free slot since fewer than 64 are taken. -/
theorem imagesAndJobs : Obligations.ImagesAndJobs := by
  refine ⟨fun s n c hc hl => ⟨loadImage_badLength hc hl, fun h1 h2 => ⟨loadImage_noSpace hc hl h1 h2,
    fun hr k hk => loadImage_unreadable hc hl h1 h2 hr hk, fun hr hu hf => ?_⟩⟩, fun s n x h => loadImageChecksDone_done h rfl rfl,
    fun s n c hc => ⟨unloadImage_unknown hc, fun x hx => unloadImage_named hc hx⟩, fun s n slot x h => ?_,
    fun s n c hs hd hr hc => ⟨fun j hj => job_passed hs hd hr hc hj, fun st h => job_failed hs hd hr hc h⟩, fun s n w hw => ?_,
    fun s u jid buffer j r bs c => resultDigestChunk_leaf rfl⟩
  · obtain ⟨herror, hok⟩ := loadImage_checked hc hl h1 h2 hr hf hu rfl
    have hroom : (s.instD n).images.length < 64 := by
      simp only [State.storeRoom, Bool.and_eq_true, decide_eq_true_eq] at hr
      obtain ⟨⟨⟨h, -⟩, -⟩, -⟩ := hr
      exact h
    obtain ⟨hlt, hfree⟩ := anySlot_free hroom
    exact ⟨herror, fun im him => ⟨_, hok im him, rfl, rfl, rfl, rfl, hlt, hfree⟩⟩
  · rw [imageUnloadComplete_named h]
    exact ⟨fun hj => if_pos hj, fun hj => if_neg fun ⟨j, hm, hi, hh⟩ => hj j hm hi hh⟩
  · obtain ⟨hmem, hi, ha, hf⟩ := admissible_spec hw
    exact ⟨hmem, hi, ha, hf, rfl, rfl, rfl, fun d hd => mem_admittedJob_dieSet hd, jobAdmit_admitted hw, fun st h => jobAdmit_rejected hw h⟩

end Sys2Proof.Machine
end
